-- ==== Sys2Proof/Word.lean ====
section
/-! DEFINITION. The word types of the DM-7480 (R3, R4): bytes and 32-bit register words. -/

namespace Sys2Proof

/-- One byte of a memory, an image or a message. -/
abbrev Byte := BitVec 8

/-- One 32-bit register or core word (R6). -/
abbrev Word := BitVec 32

end Sys2Proof
end

