-- ==== Sys2Proof/Forms.lean ====
section
/-! DEFINITION. The operand forms of commands that are not plain numbers. -/

namespace Sys2Proof

/-- A turn-level detector that no access of the model sees for itself (R485): endpoint SECDED, the action or descriptor
word of a bay at an image offset, the residue check of an engine working for a bay. -/
inductive Detector where
  | endpoint
  | store (bay : Fin 8) (ofs : Nat)
  | residue (engine : Fin 4) (bay : Fin 8)
deriving DecidableEq, Repr

/-- What the always-on bank senses on VDDIO_AON (R543). -/
inductive Sensed where
  | v18 | v33 | outside
deriving DecidableEq, Repr

/-! ### Steward core instructions (R189, R190) -/

/-- Register-register operations. -/
inductive Alu where
  | add | sub | and | or | xor | sll | srl | sra | slt | sltu | mul | mulh | mulhu | div | divu | rem | remu
deriving DecidableEq, Repr

/-- Register-immediate operations with a 16-bit immediate. -/
inductive AluI where
  | addi | andi | ori | xori | slti | sltiu
deriving DecidableEq, Repr

/-- Shifts by an immediate. -/
inductive Shift where
  | slli | srli | srai
deriving DecidableEq, Repr

/-- Loads. -/
inductive Load where
  | lb | lbu | lh | lhu | lw | ll
deriving DecidableEq, Repr

/-- Stores. -/
inductive Store where
  | sb | sh | sw
deriving DecidableEq, Repr

/-- Branch conditions. -/
inductive Cond where
  | beq | bne | blt | bge | bltu | bgeu
deriving DecidableEq, Repr

/-- One steward core instruction with its fields. -/
inductive CoreOp where
  | alu (f : Alu) (rd ra rb : BitVec 5)
  | imm (f : AluI) (rd ra : BitVec 5) (i : BitVec 16)
  | shift (f : Shift) (rd ra sh : BitVec 5)
  | lui (rd : BitVec 5) (i : BitVec 16)
  | load (f : Load) (rd ra : BitVec 5) (i : BitVec 16)
  | store (f : Store) (rs ra : BitVec 5) (i : BitVec 16)
  | sc (rd ra rb : BitVec 5)
  | branch (f : Cond) (ra rb : BitVec 5) (off : BitVec 16)
  | j (off : BitVec 26)
  | jal (off : BitVec 26)
  | jalr (rd ra : BitVec 5) (i : BitVec 16)
  | ctlr (rd : BitVec 5) (num : BitVec 12)
  | ctlw (num : BitVec 12) (ra : BitVec 5)
  | ecall
  | eret
  | fence
  | ifence
  | dinv (ra : BitVec 5)
  | rest
  | brk
deriving DecidableEq, Repr

/-- Who accesses a register (R9, R197, R502): platform firmware or the monitor at level F, a bay's code on a core, the TAP, the host
through a PCIe function (8 is the PF; BAR0 for reads, BAR2 offsets for writes). -/
inductive Path where
  | fw
  | bay (b : Fin 8) (core : Fin 6)
  | tap
  | host (fn : Fin 9)
deriving DecidableEq, Repr, Inhabited

/-- A Configuration Request (R213 to R215, R218, R221): identity and class words, the command register, MSI-X Message Control, the PF's VF
Enable and SR-IOV words (VF counts, or First VF Offset with VF Stride), the words of the BARs, Max Payload Size (code), D0 or D3hot,
ASPM L1, the link's speed and width, and the AER status with its clearing write. -/
inductive ConfigReq where
  | readId
  | readClass
  | readCommand
  | writeCommand (w : BitVec 16)
  | msixControl (enable mask : Bool)
  | vfEnable (on : Bool)
  | readSriov (offsets : Bool)
  | readBar (i : Fin 6)
  | writeBar (i : Fin 6) (w : BitVec 32)
  | maxPayload (code : BitVec 3)
  | power (d3 : Bool)
  | aspm (l1 : Bool)
  | readControl
  | readLink
  | readAer
  | clearAer (w : BitVec 32)
deriving DecidableEq, Repr

/-- A mailbox command as its producer writes it (R251): the ring set it is sent on (8: the PF's), the header fields, and the payload,
whose length is LEN. -/
structure Mail where
  ring : Fin 9
  flags : BitVec 8
  seq : BitVec 32
  tag : BitVec 32
  bay : BitVec 8
  pay : List (BitVec 8)
deriving DecidableEq, Repr

end Sys2Proof
end

