-- ==== Sys2Proof/Syntax.lean ====
section
/-! DEFINITION. The commands: one constructor per row of the opcode table, with the row's operands. -/

namespace Sys2Proof

/-- A command of the block. Each constructor is one row of the table; its docstring names the row and the rule that governs it. -/
inductive Instr where
  /-- POWER_ON_RESET (R465). Operands: the sampled straps OSC_SEL, BOOT_SEL, SNP_SYNC and what VDDIO_AON is sensed to be. -/
  | powerOnReset (osc : BitVec 2) (boot : BitVec 2) (snp : Bool) (vio : Sensed)
  /-- SUPPLY_MONITOR_TRIP (R542). Operands: whether a debug rail tripped; the straps sampled when POR_N rises again. -/
  | supplyMonitorTrip (debugRail : Bool) (osc : BitVec 2) (boot : BitVec 2) (snp : Bool) (vio : Sensed)
  /-- SYSTEM_RESET (R465). -/
  | systemReset
  /-- DEBUG_RESET (R465). -/
  | debugReset
  /-- MDLL_LOCK (R21). Operand: the phase errors of the OSC_IN cycles just past, newest first, in 1/1,024 of a root period; none
  where it is left out. -/
  | mdllLock (errs : List Int := [])
  /-- DIVIDER_CHAIN_START (R22). -/
  | dividerChainStart
  /-- MDLL_LOSS_OF_LOCK (R23). Operands: the phase error of the OSC_IN cycle just past in 1/1,024 of a root period, ns since the last edge;
  0 where they are left out. -/
  | mdllLossOfLock (err : Int := 0) (late : Nat := 0)
  /-- READINESS_TIMER (R472). -/
  | readinessTimer
  /-- BOOT_ROM_START (R455). Operands: whether the PUF reconstructs; where power fails on a first start (0 nowhere, 1 DRK, 2 helper data, 3 PROVISIONED). -/
  | bootRomStart (pufOk : Bool) (cut : Fin 4)
  /-- HOST_BOOT_CHUNK (R457). -/
  | hostBootChunk
  /-- BOARD_RECORD_APPLY (R476). -/
  | boardRecordApply
  /-- KEY_STORE_RESTORE (R449). -/
  | keyStoreRestore
  /-- DDR_TRAINING (R145). Operands: the capacity fitted and the rates that the parts reach, as DDR_CFG codes them; every
  rate where it is left out. -/
  | ddrTraining (fitted : Fin 4) (rates : BitVec 4 := 15)
  /-- STATIC_RESET_RECOVERY (R563). -/
  | staticResetRecovery
  /-- PWR_RESET_SYSTEM (R471). -/
  | pwrResetSystem
  /-- PWR_RESET_STATIC (R468). -/
  | pwrResetStatic
  /-- POWER_DOWN_REQUEST (R478). -/
  | powerDownRequest (d : Fin 14)
  /-- POWER_UP_REQUEST (R478). -/
  | powerUpRequest (d : Fin 14)
  /-- DOMAIN_DRAIN_END (R479). -/
  | domainDrainEnd (d : Fin 14)
  /-- DOMAIN_POWER_OFF (R478). -/
  | domainPowerOff (d : Fin 14)
  /-- DOMAIN_WAKE_DONE (R478). -/
  | domainWakeDone (d : Fin 14)
  /-- MEASURE_BOUNDARY (R42). -/
  | measureBoundary
  /-- MEASURE_SLIP_EARLY (R47). -/
  | measureSlipEarly
  /-- FIGURE_MERGE (R107). -/
  | figureMerge
  /-- MOVE (R92). Operands: bay, resource, and the step of the turn at which the action stands. -/
  | move (bay : Fin 8) (res : Fin 512) (step : Nat)
  /-- SE_START (R124). -/
  | seStart (bay : Fin 8) (engine : Fin 4) (step : Nat)
  /-- DDR_XFER (R93). -/
  | ddrXfer (bay : Fin 8) (ch : Fin 2) (step : Nat)
  /-- GATE (R423). -/
  | gate (bay : Fin 8) (port : Fin 4) (step : Nat)
  /-- TRDP_TX (R427). -/
  | trdpTx (bay : Fin 8) (port : Fin 4) (step : Nat)
  /-- NOTIFY (R95). -/
  | notify (bay : Fin 8) (step : Nat)
  /-- TURN_END (R63). -/
  | turnEnd
  /-- OUTPUT_RELEASE (R488). -/
  | outputRelease
  /-- TURN_FAULT (R485). Operand: the detector that reports. -/
  | turnFault (d : Detector)
  /-- TURN_REPLAY (R64). -/
  | turnReplay
  /-- FORCED_CARRY_SWAP (R492). -/
  | forcedCarrySwap
  /-- STORE_WORD_REWRITE (R485). Operands: bay and image offset of the word. -/
  | storeWordRewrite (bay : Fin 8) (ofs : Nat)
  /-- PATROL_SCRUB (R139). -/
  | patrolScrub (bank : Fin 256)
  /-- ECC_WRITE_BACK (R140). -/
  | eccWriteBack (bank : Fin 256)
  /-- BANK_PORT_ACCESS (R141). -/
  | bankPortAccess
  /-- DDR_PORT_ACCESS (R155). -/
  | ddrPortAccess
  /-- BUS_MATRIX_GRANT (R157). Operand: the target. -/
  | busMatrixGrant (target : Fin 8)
  /-- LPDDR5X_REFRESH (R152). -/
  | lpddr5xRefresh (ch : Fin 2)
  /-- ZQ_CALIBRATION (R153). -/
  | zqCalibration
  /-- PHY_RECALIBRATION (R68). Operands: the unit and the steps that it needs. -/
  | phyRecalibration (unit : Nat) (steps : Nat)
  /-- ADD (R190). -/
  | add (c : Fin 6) (rd : BitVec 5) (ra : BitVec 5) (rb : BitVec 5)
  /-- SUB (R190). -/
  | sub (c : Fin 6) (rd : BitVec 5) (ra : BitVec 5) (rb : BitVec 5)
  /-- AND (R190). -/
  | and (c : Fin 6) (rd : BitVec 5) (ra : BitVec 5) (rb : BitVec 5)
  /-- OR (R190). -/
  | or (c : Fin 6) (rd : BitVec 5) (ra : BitVec 5) (rb : BitVec 5)
  /-- XOR (R190). -/
  | xor (c : Fin 6) (rd : BitVec 5) (ra : BitVec 5) (rb : BitVec 5)
  /-- SLL (R190). -/
  | sll (c : Fin 6) (rd : BitVec 5) (ra : BitVec 5) (rb : BitVec 5)
  /-- SRL (R190). -/
  | srl (c : Fin 6) (rd : BitVec 5) (ra : BitVec 5) (rb : BitVec 5)
  /-- SRA (R190). -/
  | sra (c : Fin 6) (rd : BitVec 5) (ra : BitVec 5) (rb : BitVec 5)
  /-- SLT (R190). -/
  | slt (c : Fin 6) (rd : BitVec 5) (ra : BitVec 5) (rb : BitVec 5)
  /-- SLTU (R190). -/
  | sltu (c : Fin 6) (rd : BitVec 5) (ra : BitVec 5) (rb : BitVec 5)
  /-- MUL (R190). -/
  | mul (c : Fin 6) (rd : BitVec 5) (ra : BitVec 5) (rb : BitVec 5)
  /-- MULH (R190). -/
  | mulh (c : Fin 6) (rd : BitVec 5) (ra : BitVec 5) (rb : BitVec 5)
  /-- MULHU (R190). -/
  | mulhu (c : Fin 6) (rd : BitVec 5) (ra : BitVec 5) (rb : BitVec 5)
  /-- DIV (R190). -/
  | div (c : Fin 6) (rd : BitVec 5) (ra : BitVec 5) (rb : BitVec 5)
  /-- DIVU (R190). -/
  | divu (c : Fin 6) (rd : BitVec 5) (ra : BitVec 5) (rb : BitVec 5)
  /-- REM (R190). -/
  | rem (c : Fin 6) (rd : BitVec 5) (ra : BitVec 5) (rb : BitVec 5)
  /-- REMU (R190). -/
  | remu (c : Fin 6) (rd : BitVec 5) (ra : BitVec 5) (rb : BitVec 5)
  /-- ADDI (R190). -/
  | addi (c : Fin 6) (rd : BitVec 5) (ra : BitVec 5) (i : BitVec 16)
  /-- ANDI (R190). -/
  | andi (c : Fin 6) (rd : BitVec 5) (ra : BitVec 5) (i : BitVec 16)
  /-- ORI (R190). -/
  | ori (c : Fin 6) (rd : BitVec 5) (ra : BitVec 5) (i : BitVec 16)
  /-- XORI (R190). -/
  | xori (c : Fin 6) (rd : BitVec 5) (ra : BitVec 5) (i : BitVec 16)
  /-- SLLI (R190). -/
  | slli (c : Fin 6) (rd : BitVec 5) (ra : BitVec 5) (sh : BitVec 5)
  /-- SRLI (R190). -/
  | srli (c : Fin 6) (rd : BitVec 5) (ra : BitVec 5) (sh : BitVec 5)
  /-- SRAI (R190). -/
  | srai (c : Fin 6) (rd : BitVec 5) (ra : BitVec 5) (sh : BitVec 5)
  /-- SLTI (R190). -/
  | slti (c : Fin 6) (rd : BitVec 5) (ra : BitVec 5) (i : BitVec 16)
  /-- SLTIU (R190). -/
  | sltiu (c : Fin 6) (rd : BitVec 5) (ra : BitVec 5) (i : BitVec 16)
  /-- LUI (R190). -/
  | lui (c : Fin 6) (rd : BitVec 5) (i : BitVec 16)
  /-- LB (R190). -/
  | lb (c : Fin 6) (rd : BitVec 5) (ra : BitVec 5) (i : BitVec 16)
  /-- LBU (R190). -/
  | lbu (c : Fin 6) (rd : BitVec 5) (ra : BitVec 5) (i : BitVec 16)
  /-- LH (R190). -/
  | lh (c : Fin 6) (rd : BitVec 5) (ra : BitVec 5) (i : BitVec 16)
  /-- LHU (R190). -/
  | lhu (c : Fin 6) (rd : BitVec 5) (ra : BitVec 5) (i : BitVec 16)
  /-- LW (R190). -/
  | lw (c : Fin 6) (rd : BitVec 5) (ra : BitVec 5) (i : BitVec 16)
  /-- LL (R173). -/
  | ll (c : Fin 6) (rd : BitVec 5) (ra : BitVec 5) (i : BitVec 16)
  /-- SB (R190). -/
  | sb (c : Fin 6) (rs : BitVec 5) (ra : BitVec 5) (i : BitVec 16)
  /-- SH (R190). -/
  | sh (c : Fin 6) (rs : BitVec 5) (ra : BitVec 5) (i : BitVec 16)
  /-- SW (R190). -/
  | sw (c : Fin 6) (rs : BitVec 5) (ra : BitVec 5) (i : BitVec 16)
  /-- SC (R173). -/
  | sc (c : Fin 6) (rd : BitVec 5) (ra : BitVec 5) (rb : BitVec 5)
  /-- BEQ (R190). -/
  | beq (c : Fin 6) (ra : BitVec 5) (rb : BitVec 5) (off : BitVec 16)
  /-- BNE (R190). -/
  | bne (c : Fin 6) (ra : BitVec 5) (rb : BitVec 5) (off : BitVec 16)
  /-- BLT (R190). -/
  | blt (c : Fin 6) (ra : BitVec 5) (rb : BitVec 5) (off : BitVec 16)
  /-- BGE (R190). -/
  | bge (c : Fin 6) (ra : BitVec 5) (rb : BitVec 5) (off : BitVec 16)
  /-- BLTU (R190). -/
  | bltu (c : Fin 6) (ra : BitVec 5) (rb : BitVec 5) (off : BitVec 16)
  /-- BGEU (R190). -/
  | bgeu (c : Fin 6) (ra : BitVec 5) (rb : BitVec 5) (off : BitVec 16)
  /-- J (R190). -/
  | j (c : Fin 6) (off : BitVec 26)
  /-- JAL (R190). -/
  | jal (c : Fin 6) (off : BitVec 26)
  /-- JALR (R190). -/
  | jalr (c : Fin 6) (rd : BitVec 5) (ra : BitVec 5) (i : BitVec 16)
  /-- CTLR (R190). -/
  | ctlr (c : Fin 6) (rd : BitVec 5) (num : BitVec 12)
  /-- CTLW (R181). -/
  | ctlw (c : Fin 6) (num : BitVec 12) (ra : BitVec 5)
  /-- ECALL (R175). -/
  | ecall (c : Fin 6)
  /-- ERET (R177). -/
  | eret (c : Fin 6)
  /-- FENCE (R171). -/
  | fence (c : Fin 6)
  /-- IFENCE (R170). -/
  | ifence (c : Fin 6)
  /-- DINV (R170). -/
  | dinv (c : Fin 6) (ra : BitVec 5)
  /-- REST (R186). -/
  | rest (c : Fin 6)
  /-- BRK (R507). -/
  | brk (c : Fin 6)
  /-- ILLEGAL_INSTRUCTION (R189). Operands: core and the undefined word. -/
  | illegalInstruction (c : Fin 6) (w : BitVec 32)
  /-- STORE_ASYNC (R176). -/
  | storeAsync (c : Fin 6)
  /-- INTERRUPT_TAKE (R179). Operands: core, and whether PLATFORM or EXTERNAL is meant. -/
  | interruptTake (c : Fin 6) (platform : Bool)
  /-- TIMER_INTERRUPT (R175). -/
  | timerInterrupt (c : Fin 6)
  /-- CORE_WAKE (R187). -/
  | coreWake (c : Fin 6)
  /-- LOCKSTEP_MISMATCH (R165). Operand: 0 SC0/SC1, 1 SC2/SC3, 2 SC4/SC5. -/
  | lockstepMismatch (pair : Fin 3)
  /-- PLATFORM_PAIR_RESET (R495). -/
  | platformPairReset
  /-- MAILBOX_REPLAY (R261). -/
  | mailboxReplay
  /-- CORE_RUN_CONTROL (R161). -/
  | coreRunControl (c : Fin 6) (on : Bool)
  /-- SLICE_SWITCH (R200). -/
  | sliceSwitch (c : Fin 6)
  /-- SYS_REMAP_SWAP (R160). -/
  | sysRemapSwap
  /-- WATCHDOG_KICK (R494). -/
  | watchdogKick (v : BitVec 32)
  /-- WATCHDOG_EXPIRY (R494). -/
  | watchdogExpiry
  /-- REGISTER_WRITE (R8). Operands: path, platform address (BAR2 offset for the host), value. -/
  | registerWrite (path : Path) (addr : BitVec 32) (v : BitVec 32)
  /-- FGE_MEASURE_LO_READ (R41). -/
  | fgeMeasureLoRead (path : Path)
  /-- TME_SEC_LO_READ (R407). -/
  | tmeSecLoRead (path : Path)
  /-- ODO_LO_READ (R365). Operands: path; 0 unit position, 1 offset, 2 to 5 axles 0 to 3. -/
  | odoLoRead (path : Path) (n : Fin 6)
  /-- SCC_CYCLE_LO_READ (R186). -/
  | sccCycleLoRead (c : Fin 6)
  /-- SE_LUTSWAP_WRITE (R116). Operands: path, engine, bits written to 1. -/
  | seLutswapWrite (path : Path) (engine : Fin 4) (bays : BitVec 8)
  /-- PCIE_CONFIG_REQUEST (R214). Operands: function (8 is the PF) and request. -/
  | pcieConfigRequest (fn : Fin 9) (q : ConfigReq)
  /-- BAR0_WRITE (R216). Operands: function (8 is the PF) and offset. -/
  | bar0Write (fn : Fin 9) (ofs : BitVec 23)
  /-- BAR2_BAD_ACCESS (R217). -/
  | bar2BadAccess (read : Bool)
  /-- WINDOW_READ (R223). Operands: VF, window offset, length. -/
  | windowRead (n : Fin 8) (ofs : BitVec 28) (len : Fin 4097)
  /-- WINDOW_WRITE (R224). Operands: VF, window offset, bytes. -/
  | windowWrite (n : Fin 8) (ofs : BitVec 28) (l : List (BitVec 8))
  /-- WINDOW_READ_TIMEOUT (R225). -/
  | windowReadTimeout (n : Fin 8)
  /-- HOST_PEG_REQUEST (R226). -/
  | hostPegRequest (n : Fin 8) (w : BitVec 32)
  /-- DEVICE_PEG_REQUEST (R226). -/
  | devicePegRequest (n : Fin 8) (w : BitVec 32)
  /-- PEG_HQ_READ (R230). -/
  | pegHqRead (n : Fin 8)
  /-- PEG_DQ_READ (R230). -/
  | pegDqRead (n : Fin 8)
  /-- PCI_RAISE (R219). -/
  | pciRaise (n : Fin 8) (w : BitVec 32)
  /-- VF_FUNCTION_LEVEL_RESET (R220). -/
  | vfFunctionLevelReset (n : Fin 8)
  /-- PF_FUNCTION_LEVEL_RESET (R221). -/
  | pfFunctionLevelReset
  /-- PCIE_HOT_RESET (R221). -/
  | pcieHotReset
  /-- SNAP_TIME_LATCH (R237). -/
  | snapTimeLatch
  /-- SNAP_POSITION_LATCH (R238). -/
  | snapPositionLatch
  /-- SNAP_DOORBELL (R239). -/
  | snapDoorbell (b : Fin 8)
  /-- SNAP_WRITE_IGNORED (R234). -/
  | snapWriteIgnored (w : BitVec 16)
  /-- DOORBELL_RING (R248). Operands: ring set (8 is the PF), and whether the host rings it or a core of the bay. -/
  | doorbellRing (ring : Fin 9) (byHost : Bool)
  /-- COMMAND_TAKE (R249). -/
  | commandTake
  /-- COMMAND_DONE (R250). -/
  | commandDone
  /-- PLB_HIST_SERVICE (R404). -/
  | plbHistService
  /-- PWM_TRIP_REPORT (R392). -/
  | pwmTripReport
  /-- FAULT_SUMMARY_REPORT (R498). -/
  | faultSummaryReport
  /-- SYS_INFO (R273). -/
  | sysInfo (m : Mail)
  /-- SYS_NOP (R273). -/
  | sysNop (m : Mail)
  /-- SYS_FW_STAGE (R273). -/
  | sysFwStage (m : Mail)
  /-- SYS_FW_SELECT (R273). -/
  | sysFwSelect (m : Mail)
  /-- BAY_CREATE (R276). -/
  | bayCreate (m : Mail)
  /-- BAY_GRANT_PHASE (R276). -/
  | bayGrantPhase (m : Mail)
  /-- BAY_GRANT_PORTS (R276). -/
  | bayGrantPorts (m : Mail)
  /-- BAY_GRANT_NET (R276). -/
  | bayGrantNet (m : Mail)
  /-- BAY_GRANT_KEYS (R276). -/
  | bayGrantKeys (m : Mail)
  /-- BAY_PRODUCER (R276). -/
  | bayProducer (m : Mail)
  /-- BAY_START (R207). -/
  | bayStart (m : Mail)
  /-- BAY_SLEEP (R209). -/
  | baySleep (m : Mail)
  /-- BAY_WAKE (R210). -/
  | bayWake (m : Mail)
  /-- BAY_RESUME (R207). -/
  | bayResume (m : Mail)
  /-- BAY_DELETE (R208). -/
  | bayDelete (m : Mail)
  /-- BAY_ZEROING_DONE (R208). -/
  | bayZeroingDone (b : Fin 8)
  /-- BAY_STATUS (R276). -/
  | bayStatus (m : Mail)
  /-- SHARE_GRANT (R202). -/
  | shareGrant (m : Mail)
  /-- SHARE_REVOKE (R204). -/
  | shareRevoke (m : Mail)
  /-- PEG_CLEAR (R227). -/
  | pegClear (m : Mail)
  /-- PEG_WINDOW (R222). -/
  | pegWindow (m : Mail)
  /-- FIG_STAGE (R69). -/
  | figStage (m : Mail)
  /-- FIG_COMMIT (R70). -/
  | figCommit (m : Mail)
  /-- FIG_WITHDRAW (R76). -/
  | figWithdraw (m : Mail)
  /-- FIG_STATUS (R277). -/
  | figStatus (m : Mail)
  /-- FIG_LUT (R116). -/
  | figLut (m : Mail)
  /-- ROUTE_SET (R272). -/
  | routeSet (m : Mail)
  /-- ROUTE_CANCEL (R278). -/
  | routeCancel (m : Mail)
  /-- ROUTE_STATUS (R278). -/
  | routeStatus (m : Mail)
  /-- ROUTE_PROFILE (R306). -/
  | routeProfile (m : Mail)
  /-- VIN_CFG (R300). -/
  | vinCfg (m : Mail)
  /-- VOUT_CFG (R327). -/
  | voutCfg (m : Mail)
  /-- LAYER_SET (R335). -/
  | layerSet (m : Mail)
  /-- LAYER_COMMIT (R337). -/
  | layerCommit (m : Mail)
  /-- AUD_TDM_CFG (R347). -/
  | audTdmCfg (m : Mail)
  /-- AUD_ROUTE (R343). -/
  | audRoute (m : Mail)
  /-- AUD_DELAY (R357). -/
  | audDelay (m : Mail)
  /-- ODO_AXLE_CFG (R362). -/
  | odoAxleCfg (m : Mail)
  /-- ODO_EVENT_ARM (R378). -/
  | odoEventArm (m : Mail)
  /-- ODO_EVENT_DISARM (R378). -/
  | odoEventDisarm (m : Mail)
  /-- ODO_SET_POS (R366). -/
  | odoSetPos (m : Mail)
  /-- ODO_STATUS (R279). -/
  | odoStatus (m : Mail)
  /-- PWM_CFG (R383). -/
  | pwmCfg (m : Mail)
  /-- PWM_LIMIT (R390). -/
  | pwmLimit (m : Mail)
  /-- PWM_FAULT_CLEAR (R391). -/
  | pwmFaultClear (m : Mail)
  /-- PLB_REF_CFG (R395). -/
  | plbRefCfg (m : Mail)
  /-- PLB_SELECT (R399). -/
  | plbSelect (m : Mail)
  /-- PLB_SLOPE (R405). -/
  | plbSlope (m : Mail)
  /-- PLB_SET_TIME (R408). -/
  | plbSetTime (m : Mail)
  /-- PLB_STATUS (R280). -/
  | plbStatus (m : Mail)
  /-- NET_PORT_CFG (R415). -/
  | netPortCfg (m : Mail)
  /-- NET_QUEUE_CFG (R416). -/
  | netQueueCfg (m : Mail)
  /-- NET_TRDP_TX (R427). -/
  | netTrdpTx (m : Mail)
  /-- NET_TRDP_FILTER (R428). -/
  | netTrdpFilter (m : Mail)
  /-- NET_MACSEC_SA (R431). -/
  | netMacsecSa (m : Mail)
  /-- JNC_CFG (R280). -/
  | jncCfg (m : Mail)
  /-- JNC_DISCOVER (R437). -/
  | jncDiscover (m : Mail)
  /-- JNC_STATUS (R441). -/
  | jncStatus (m : Mail)
  /-- KEY_GENERATE (R281). -/
  | keyGenerate (m : Mail)
  /-- KEY_IMPORT (R453). -/
  | keyImport (m : Mail)
  /-- KEY_EXPORT (R453). -/
  | keyExport (m : Mail)
  /-- KEY_DERIVE (R452). -/
  | keyDerive (m : Mail)
  /-- KEY_PUBLIC (R281). -/
  | keyPublic (m : Mail)
  /-- KEY_ZEROISE (R447). -/
  | keyZeroise (m : Mail)
  /-- KEY_RANDOM (R454). -/
  | keyRandom (m : Mail)
  /-- SEAL_START (R460). -/
  | sealStart (m : Mail)
  /-- SEAL_STOP (R461). -/
  | sealStop (m : Mail)
  /-- SEAL_STATUS (R281). -/
  | sealStatus (m : Mail)
  /-- TLM_READ (R281). -/
  | tlmRead (m : Mail)
  /-- TLM_READ_CLEAR (R499). -/
  | tlmReadClear (m : Mail)
  /-- DBG_CHALLENGE (R504). -/
  | dbgChallenge (m : Mail)
  /-- DBG_AUTHORISE (R505). -/
  | dbgAuthorise (m : Mail)
  /-- DBG_TRACE_CFG (R516). -/
  | dbgTraceCfg (m : Mail)
  /-- DBG_REVOKE (R506). -/
  | dbgRevoke (m : Mail)
  /-- CSI_PACKET (R283). Operands: receiver; header good, corrected or uncorrectable, or no packet: ULPS on every lane; virtual channel extension, virtual channel, data type; payload CRC failed; samples. -/
  | csiPacket (rx : Fin 12) (hdr : Fin 4) (vcx : BitVec 2) (vc : BitVec 2) (dt : BitVec 6) (crc : Bool) (samples : List Nat)
  /-- CSI_FRAME_START (R289). -/
  | csiFrameStart (rx : Fin 12) (vc : BitVec 2)
  /-- CONFORMER_FRAME_START (R287). -/
  | conformerFrameStart (i : Fin 24)
  /-- CONFORMER_LINE (R292). Operands: conformer; destinations whose pipe meets an uncorrectable fault at its next line, and those whose second
  conversion fails too. -/
  | conformerLine (i : Fin 24) (fault : BitVec 48) (again : BitVec 48)
  /-- CAM_TRIGGER (R299). -/
  | camTrigger (rx : Fin 12)
  /-- SCARF_SWITCH (R312). -/
  | scarfSwitch (d : Fin 48)
  /-- DECODER_FRAME_START (R321). -/
  | decoderFrameStart (i : Fin 8)
  /-- DP_FRAME_START (R326). -/
  | dpFrameStart (c : Fin 4)
  /-- DP_HPD_HIGH (R327). Operands: output and the rates at which the sink trains. -/
  | dpHpdHigh (c : Fin 4) (sink : BitVec 4)
  /-- DP_HPD_LOW (R327). -/
  | dpHpdLow (c : Fin 4)
  /-- DP_IRQ_HPD (R327). Operands: output, whether the sink reports the link lost, the rates at which it trains. -/
  | dpIrqHpd (c : Fin 4) (lost : Bool) (sink : BitVec 4)
  /-- DP_TRAIN_RETRY (R327). Operands: output and the rates at which the sink trains. -/
  | dpTrainRetry (c : Fin 4) (sink : BitVec 4)
  /-- LAYER_COMMIT_APPLY (R336). -/
  | layerCommitApply (c : Fin 4)
  /-- CACHE_REBUILD_END (R340). -/
  | cacheRebuildEnd (c : Fin 4)
  /-- CACHE_ERROR (R341). -/
  | cacheError (c : Fin 4) (tile : Nat)
  /-- TDM_RX_FRAME (R348). Operands: port, bit clocks in the frame, steps since its start, slots. -/
  | tdmRxFrame (p : Fin 4) (clocks : Nat) (ago : Nat) (slots : List (BitVec 32))
  /-- TDM_TX_FRAME (R347). -/
  | tdmTxFrame (p : Fin 4)
  /-- TDM_CLOCK_LOST (R348). -/
  | tdmClockLost (p : Fin 4) (rx : Bool)
  /-- TDM_RATE_CHECK (R348). Operands: port, direction, measured frame rate in mHz. -/
  | tdmRateCheck (p : Fin 4) (rx : Bool) (mhz : Nat)
  /-- AUDIO_OUTPUT_FRAME (R346). -/
  | audioOutputFrame (x : Fin 24)
  /-- NCO_LOOP_UPDATE (R352). -/
  | ncoLoopUpdate (d : Fin 12)
  /-- AUDIO_CAPTURE_EMIT (R356). -/
  | audioCaptureEmit (x : Fin 24)
  /-- AUDIO_RECORD_IN (R356). -/
  | audioRecordIn
  /-- ST2110_30_PACKET_IN (R354). -/
  | st211030PacketIn
  /-- TOOTH_MARK (R362). Operands: axle and the filtered levels of its balls. -/
  | toothMark (a : Fin 4) (pa : Bool) (pb : Bool)
  /-- AXLE_MISS (R363). -/
  | axleMiss (a : Fin 4)
  /-- STALL (R370). -/
  | stall
  /-- POSITION_CROSSING (R372). -/
  | positionCrossing (slot : Fin 64)
  /-- EVENT_QUEUED_PULSE (R374). -/
  | eventQueuedPulse (slot : Fin 64)
  /-- EVENT_TIME_EXPIRY (R376). -/
  | eventTimeExpiry (slot : Fin 64)
  /-- PWM_PERIOD_START (R385). -/
  | pwmPeriodStart (c : Fin 12)
  /-- PWM_STROBE (R386). -/
  | pwmStrobe (c : Fin 12)
  /-- PWM_BOOTSTRAP_REFRESH (R387). -/
  | pwmBootstrapRefresh (c : Fin 12)
  /-- PWM_FAULT_INPUT (R389). -/
  | pwmFaultInput (k : Fin 2) (low : Bool)
  /-- PWM_LIMITER_TRIP (R390). -/
  | pwmLimiterTrip (c : Fin 12) (high : Bool)
  /-- REFERENCE_SAMPLE (R405). Operands: reference, reference cycles since its last sample, device-time units into the step, the master's time. -/
  | referenceSample (r : Fin 7) (cycles : Nat) (sub : Nat) (master : Nat)
  /-- REFERENCE_LOS (R397). -/
  | referenceLos (r : Fin 7)
  /-- REVERTIVE_SWITCH (R398). -/
  | revertiveSwitch
  /-- MOVE_END (R405). -/
  | moveEnd
  /-- HOLDOVER_LIMIT_EXPIRY (R406). -/
  | holdoverLimitExpiry
  /-- FI_HISTORY_RECORD (R406). -/
  | fiHistoryRecord
  /-- MAC_FRAME_RECEIVE (R417). -/
  | macFrameReceive (p : Fin 4) (l : List (BitVec 8))
  /-- TX_RECORD (R419). -/
  | txRecord (p : Fin 4)
  /-- MAC_TRANSMIT_SELECT (R424). -/
  | macTransmitSelect (p : Fin 4)
  /-- NET_LINK_CHANGE (R415). -/
  | netLinkChange (p : Fin 4) (up : Bool)
  /-- JNC_FRAME_RECEIVE (R434). -/
  | jncFrameReceive (p : Fin 2) (l : List (BitVec 8))
  /-- JNC_RESEND_TIMEOUT (R434). -/
  | jncResendTimeout (p : Fin 2)
  /-- JNC_ACK_TIMER (R434). -/
  | jncAckTimer (p : Fin 2)
  /-- JNC_TIME_SEND (R440). -/
  | jncTimeSend
  /-- JNC_DISCOVER_TIMEOUT (R437). Operands: members counted on the arms of JNC0 and JNC1. -/
  | jncDiscoverTimeout (arm0 : BitVec 6) (arm1 : BitVec 6)
  /-- JNC_RX_FRAME_START (R438). -/
  | jncRxFrameStart (i : Fin 8)
  /-- CRY_GO (R454). -/
  | cryGo (b : Fin 8)
  /-- CRY_JOB_DONE (R454). -/
  | cryJobDone
  /-- ENTROPY_HEALTH_FAIL (R454). -/
  | entropyHealthFail
  /-- SEAL_FRAME_END (R461). -/
  | sealFrameEnd (i : Fin 4)
  /-- SEAL_SIGN (R464). -/
  | sealSign (i : Fin 4)
  /-- SEAL_ABORT (R464). -/
  | sealAbort (i : Fin 4)
  /-- DEBUG_EXPIRY_CHECK (R506). -/
  | debugExpiryCheck
  /-- TEMP_SENSOR_READ (R557). Operand: the hottest reading as SYS_TEMP codes it. -/
  | tempSensorRead (t : BitVec 16)
  /-- TAP_EXTEST (R537). Operands: ball levels captured, data shifted in. -/
  | tapExtest (levels : BitVec 164) (data : BitVec 492)
  /-- TAP_SAMPLE_PRELOAD (R500). Operands: ball levels captured, data shifted in. -/
  | tapSamplePreload (levels : BitVec 164) (data : BitVec 492)
  /-- TAP_IDCODE (R500). -/
  | tapIdcode
  /-- TAP_CLAMP (R537). -/
  | tapClamp
  /-- TAP_HIGHZ (R537). -/
  | tapHighz
  /-- TAP_BYPASS (R500). -/
  | tapBypass
  /-- TAP_DBGACC (R501). Operands: WRITE, WORD and DATA. -/
  | tapDbgacc (write : Bool) (word : BitVec 18) (data : BitVec 32)
  /-- DBG_HALT_REQUEST (R507). -/
  | dbgHaltRequest (n : Fin 6) (on : Bool)
  /-- CORE_HALT (R508). -/
  | coreHalt (c : Fin 6)
  /-- DBG_FEED (R509). -/
  | dbgFeed (n : Fin 6) (w : BitVec 32)
  /-- DBG_RESUME (R510). -/
  | dbgResume (n : Fin 6)
  /-- XTR_FIRE (R513). -/
  | xtrFire (groups : BitVec 8)
  /-- XTR_RESUME (R514). -/
  | xtrResume (groups : BitVec 8)
  /-- XTR_GROUP_SOURCE (R514). Operands: XTR_IN0 or XTR_IN1, and its new level. -/
  | xtrGroupSource (pin : Fin 2) (high : Bool)
  /-- VT_CORE_WRITE (R515). -/
  | vtCoreWrite (c : Fin 6) (b : BitVec 8)
  /-- VT_CORE_READ (R515). -/
  | vtCoreRead (c : Fin 6)
  /-- DBG_VTOUT_READ (R515). -/
  | dbgVtoutRead (n : Fin 6)
  /-- DBG_VTIN_WRITE (R515). -/
  | dbgVtinWrite (n : Fin 6) (b : BitVec 8)
  /-- TRC_RDATA_READ (R522). -/
  | trcRdataRead
  /-- PCIE_LINK_UP (R457). Operands: speed (2.5, 5.0, 8.0, 16.0 GT/s) and width (×1, ×2, ×4) of the link; 16.0 GT/s and ×4 where
  they are left out. -/
  | pcieLinkUp (gen : Fin 4 := 3) (width : Fin 3 := 2)
  /-- JNC_LINK_CHANGE (R434). -/
  | jncLinkChange (p : Fin 2) (up : Bool)
  /-- CLOCK_OUTPUT_EDGE (R411). Operand: 0 CLKOUT0, 1 CLKOUT1, 2 PPS_OUT. -/
  | clockOutputEdge (n : Fin 3)
  /-- MEMORY_READER_FRAME_START (R311). -/
  | memoryReaderFrameStart (d : Fin 48)
deriving DecidableEq, Repr, Inhabited

end Sys2Proof
end

