-- ==== Sys2Proof/Decode.lean ====
section
/-! DEFINITION. Commands by table words: the opcode table gives no row any bits, so no word spells a command. -/

namespace Sys2Proof

/-- The command that `nbits` bits of `w` spell by the table: none, since every row's field list is empty. -/
def decodeTableWord (_nbits _w : Nat) : Option Instr := none

end Sys2Proof
end

