-- ==== Sys2Proof/Config.lean ====
section
/-! DEFINITION. What the spec leaves open: free values (opaque constants with no body, log entry 5), unstated roundings
(log entry 6) and the functions named by standards or fixed by the implementation but not laid out by the spec (log entry 7).
Nothing here has a value that a proof could use. -/

namespace Sys2Proof.Config

/-- The source of free values: the model applies it to a counter of State that each use advances (log entry 5). -/
opaque freeValue : Nat → Nat

/-- Whether an unstated rounding of n / d, when it is not whole, goes up (log entry 6). -/
opaque roundsUp : Int → Nat → Bool

/-- A sample of the polyphase scaler under SCALE_SET 0 or 1, whose coefficients the spec does not give: set, phase and the
eight taps (R308, log entry 7). -/
opaque scaleTaps : Nat → Nat → List Nat → Nat

/-- The input line period of a frame of one line, by input frame: the spec gives no line to take it from (R290, log entry 52). -/
opaque lonePeriod : Nat → Nat

/-- The RTP payloads (after the 12-byte header) of a group of lines: kind (1 ST 2110-20, 2 ST 2110-22), whether RGB, bits per
pixel × 16, number of the first line, lines of components (R319, R320, log entry 7). -/
opaque videoPayloads : Nat → Bool → Nat → Nat → List (List Nat) → List (List Byte)

/-- Line `n` of a frame as the payloads of its packets give it: kind, format, width, height, line, payloads. 0: not received,
1: its slice is incomplete or does not decode, else its components (R319, R321, log entry 7). -/
opaque videoLine : Nat → Nat → Nat → Nat → Nat → List (List Byte) → Nat × List Nat

/-- A field of the eight words of an RTP flow entry, whose layout the spec does not give: 0 port, 1 bay, 2 IPv4 address, 3 UDP
port, 4 FORM, 5 INDEX, 6 LIMIT, 7 landing base, 8 landing length (R421, log entry 24). -/
opaque flowField : List Nat → Nat → Nat

/-! The cryptographic functions that the spec names by their standards (R431, R443 to R463, log entry 7), and what is burned or
grown into one device. -/

/-- SHA-256 and SHA-384. -/
opaque sha256 : List Byte → List Byte
opaque sha384 : List Byte → List Byte

/-- AES-CMAC: key, message. -/
opaque aesCmac : List Byte → List Byte → List Byte

/-- AES-256-GCM: key, nonce, additional data, plaintext; the ciphertext with its 16-byte tag. -/
opaque gcmSeal : List Byte → List Byte → List Byte → List Byte → List Byte

/-- AES-256-GCM: key, nonce, additional data, ciphertext with tag; the plaintext if the tag holds. -/
opaque gcmOpen : List Byte → List Byte → List Byte → List Byte → Option (List Byte)

/-- Public key of a scalar, X then Y; P-384 or P-256. -/
opaque ecPublic : Bool → Nat → List Byte

/-- ECDSA: P-384 or P-256, scalar, digest, random number; r then s. -/
opaque ecSign : Bool → Nat → List Byte → Nat → List Byte

/-- ECDSA: P-384 or P-256, public key, digest, signature. -/
opaque ecVerify : Bool → List Byte → List Byte → List Byte → Bool

/-- The point X then Y lies on P-384. -/
opaque ecOnCurve : List Byte → Bool

/-- The point of P-384 with this X and this parity of Y. -/
opaque ecPoint : List Byte → Bool → List Byte

/-- The PUF response after correction, and the OTP digest of the firmware signer (R445, R456). -/
opaque puf : List Byte
opaque fwRoot : List Byte

/-- Board PHY latency of a port, received (false) or sent (true), in 78.125 ps: a board setting that no register holds (R415, R429,
log entry 45). -/
opaque phyLatency : Nat → Bool → Nat

/-- Which of SCLK's two cycles of a 2 ns step a write, or an engine's event, falls in: a step has two and the rows and the engines
are placed by steps, so it is open (R560, log entry 49). -/
opaque sclkHalf : Nat → Nat

/-- Where the keep-alive oscillator lies within 20 MHz ±10 % (R24, R560). -/
opaque keepAlive : Nat

/-- PCIe Vendor ID, which the spec does not give (log entry 12). -/
opaque vendorId : Nat

/-- A flash is fitted to the xSPI of a board that boots from the host (R472). -/
opaque flashFitted : Bool

end Sys2Proof.Config
end

