-- ==== Sys2Proof/Machine/Store.lean ====
section
/-! DEFINITION. Sparse stores: lists of (address, value) in one canonical form (addresses strictly rising, no entry equal
to what an unlisted address reads as), and the byte-order helpers of R4. Registers and memories are such stores. -/

namespace Sys2Proof.Machine

/-- What the store reads at `k`: the first listed value, else the default `d k`. -/
def sget {β : Type} (d : Nat → β) : List (Nat × β) → Nat → β
  | [], k => d k
  | (a, v) :: t, k => if k = a then v else sget d t k

/-- Put a value that is not the default at `k`, before the first address that is not below `k`. -/
def sput {β : Type} (k : Nat) (v : β) : List (Nat × β) → List (Nat × β)
  | [] => [(k, v)]
  | (a, w) :: t => if a < k then (a, w) :: sput k v t else if a = k then (k, v) :: t else (k, v) :: (a, w) :: t

/-- Remove what is listed at `k`. -/
def sdel {β : Type} (k : Nat) (l : List (Nat × β)) : List (Nat × β) := l.filter fun p => p.1 ≠ k

/-- Write `v` at `k`, keeping the canonical form: a value equal to the default removes the entry. -/
def sset {β : Type} [DecidableEq β] (d : Nat → β) (k : Nat) (v : β) (l : List (Nat × β)) : List (Nat × β) :=
  if v = d k then sdel k l else sput k v l

/-- The canonical form: addresses strictly rising and every listed value different from the default. -/
abbrev SWf {β : Type} (d : Nat → β) (l : List (Nat × β)) : Prop :=
  List.Pairwise (fun p q => p.1 < q.1) l ∧ ∀ p ∈ l, p.2 ≠ d p.1

/-- Bring a list into canonical form, applying `f` to each (address, value) on the way. -/
def snorm {β : Type} [DecidableEq β] (d : Nat → β) (f : Nat → β → β) (l : List (Nat × β)) : List (Nat × β) :=
  l.foldr (fun p acc => sset d p.1 (f p.1 p.2) acc) []

/-- The unlisted byte of a memory: 0 (DESIGN CHOICE, log entry 4). -/
def zeroByte (_ : Nat) : Byte := 0

/-- The unlisted byte of a flash: erased, 0xFF (DESIGN CHOICE, log entry 4). -/
def erasedByte (_ : Nat) : Byte := 0xFF

/-- `n` bytes of a store from address `a` on, first byte at the lowest address. -/
def readBytes (d : Nat → Byte) (m : List (Nat × Byte)) (a n : Nat) : List Byte :=
  (List.range n).map (fun i => sget d m (a + i))

/-- Write consecutive bytes from address `a` on. -/
def writeBytes (d : Nat → Byte) : List Byte → Nat → List (Nat × Byte) → List (Nat × Byte)
  | [], _, m => m
  | b :: t, a, m => writeBytes d t (a + 1) (sset d a b m)

/-- The number that little-endian bytes spell (R4). -/
def leNat : List Byte → Nat
  | [] => 0
  | b :: t => b.toNat + 256 * leNat t

/-- `n` as `k` little-endian bytes (R4); bits above are dropped. -/
def natLe : Nat → Nat → List Byte
  | 0, _ => []
  | k + 1, n => BitVec.ofNat 8 n :: natLe k (n / 256)

/-- `n` as `k` big-endian bytes (network order). -/
def natBe (k n : Nat) : List Byte := (natLe k n).reverse

/-- The number that big-endian bytes spell. -/
def beNat (l : List Byte) : Nat := leNat l.reverse

/-- Exactly `n` elements: cut, or padded with `z`. -/
def fixLen {α : Type} (z : α) (n : Nat) (l : List α) : List α :=
  l.take n ++ List.replicate (n - l.length) z

/-- `k` bytes of `l` from offset `o`, as a little-endian number; missing bytes read 0. -/
def fieldAt (l : List Byte) (o k : Nat) : Nat := leNat (fixLen 0 k (l.drop o))

/-- Two's complement: the signed value of the low `w` bits of `n`. -/
def signed (w n : Nat) : Int :=
  let m := n % 2 ^ w
  if m < 2 ^ (w - 1) then (m : Int) else (m : Int) - 2 ^ w

/-- Two's complement: the low `w` bits of `z`. -/
def unsigned (w : Nat) (z : Int) : Nat := (z % 2 ^ w).toNat

/-- Bits `hi:lo` of `n`. -/
def bitsOf (n hi lo : Nat) : Nat := n / 2 ^ lo % 2 ^ (hi + 1 - lo)

/-- Bit `i` of `n`. -/
def bitAt (n i : Nat) : Bool := n / 2 ^ i % 2 = 1

/-- Ceiling division. -/
def cdiv (a b : Nat) : Nat := (a + b - 1) / b

/-- Replace element `i` of a list (out of range: unchanged). -/
def setAt {α : Type} : List α → Nat → α → List α
  | [], _, _ => []
  | _ :: t, 0, x => x :: t
  | h :: t, i + 1, x => h :: setAt t i x

/-- Element `i` of a vector (the type's default element beyond its end). -/
def vget {α : Type} {n : Nat} [Inhabited α] (v : Vector α n) (i : Nat) : α := v.toList.getD i default

/-- Change element `i` of a vector by `f` (out of range: unchanged). -/
def vmod {α : Type} {n : Nat} (v : Vector α n) (i : Nat) (f : α → α) : Vector α n :=
  if h : i < n then v.set i (f v[i]) else v

end Sys2Proof.Machine
end

