-- ==== Sys2Proof/Machine/RegMap.lean ====
section
/-! DEFINITION. The register map: every register family of the spec's register tables (each family's rule stands in
its docstring), with its address, its fields, their access codes (R8), reset values (R12), reserved encodings (R11) and
access paths (R9, R197), and the names by which the model reads and writes registers and fields. -/

namespace Sys2Proof.Machine

/-- The access codes of R8; `w1a` is a W1C field that a 1 in its lowest bit clears whole (R142, R155). -/
inductive Acc where
  | rw | ro | wo | w1c | w1s | w1a
deriving DecidableEq, Repr

/-- Which bay reaches a register on path B (R9, R197): none, every bay, the bay named by the first or second index, the
bay served by the core named by the index, the owner of the source or destination named by the index, the owner of
the unit (KEY slot, seal input, DisplayPort port and the like), or the bay whose ring area it is. -/
inductive BayPath where
  | none | all | own | own2 | core | source | dest | unit | ring
deriving DecidableEq, Repr

/-- One field of a register table: bits `hi:lo`, its access code, its reset value, whether the table restricts
writing to firmware or marks it a board setting, and the encodings that are not reserved (empty: all). -/
structure FieldSpec where
  hi : Nat
  lo : Nat
  acc : Acc
  reset : Nat
  fOnly : Bool := false
  board : Bool := false
  valid : List (Nat × Nat) := []
deriving DecidableEq, Repr

/-- One register table: the first register's address, the strides and counts of its indices, its paths, its fields. -/
structure Family where
  base : Nat
  dims : List (Nat × Nat)
  path : BayPath
  host : Bool
  fields : List FieldSpec
deriving DecidableEq, Repr

/-- A field of one register: its register's address and its bits. -/
structure Fld where
  addr : Nat
  hi : Nat
  lo : Nat
deriving DecidableEq, Repr

/-- Register tables of block 0x4000: SYS_CHIP_ID (R1), SYS_CLKSTAT (R23), SYS_REMAP (R160), SYS_PAIR (R163), SYS_CORECTL (R161), SYS_BAYSTATE (R206), SYS_FWVER (R273), SYS_FLTSUM (R498), SYS_WDOG (R494), SYS_WDOGCFG (R494), SYS_BAYPOL (R496), SYS_STRAP (R536). -/
def sysFamilies0 : List Family :=
  [⟨0x40000000, [], .all, true,
    [⟨31, 16, .ro, 0x7480, false, false, []⟩,
     ⟨7, 0, .ro, 0xB0, false, false, []⟩]⟩,
   ⟨0x40000004, [], .all, true,
    [⟨15, 8, .ro, 0, false, false, []⟩,
     ⟨7, 7, .w1c, 0, false, false, []⟩,
     ⟨3, 3, .ro, 0, false, false, []⟩,
     ⟨2, 2, .ro, 0, false, false, []⟩,
     ⟨1, 0, .ro, 0, false, false, []⟩]⟩,
   ⟨0x40000008, [], .none, true,
    [⟨0, 0, .w1s, 0, false, false, []⟩]⟩,
   ⟨0x40000010, [], .none, true,
    [⟨31, 24, .ro, 0, false, false, []⟩,
     ⟨18, 18, .w1c, 0, false, false, []⟩,
     ⟨17, 17, .w1c, 0, false, false, []⟩,
     ⟨16, 16, .w1c, 0, false, false, []⟩,
     ⟨1, 1, .rw, 0, false, false, []⟩,
     ⟨0, 0, .rw, 0, false, false, []⟩]⟩,
   ⟨0x40000020, [(4, 6)], .none, true,
    [⟨15, 8, .ro, 0, false, false, []⟩,
     ⟨3, 2, .ro, 0, false, false, []⟩,
     ⟨0, 0, .rw, 0, false, false, []⟩]⟩,
   ⟨0x40000040, [], .all, true,
    [⟨3, 0, .ro, 0, false, false, []⟩,
     ⟨7, 4, .ro, 0, false, false, []⟩,
     ⟨11, 8, .ro, 0, false, false, []⟩,
     ⟨15, 12, .ro, 0, false, false, []⟩,
     ⟨19, 16, .ro, 0, false, false, []⟩,
     ⟨23, 20, .ro, 0, false, false, []⟩,
     ⟨27, 24, .ro, 0, false, false, []⟩,
     ⟨31, 28, .ro, 0, false, false, []⟩]⟩,
   ⟨0x40000048, [], .all, true,
    [⟨31, 31, .rw, 0, true, false, []⟩,
     ⟨30, 30, .rw, 0, true, false, []⟩,
     ⟨23, 16, .rw, 0, true, false, []⟩,
     ⟨15, 8, .rw, 0, true, false, []⟩,
     ⟨7, 0, .rw, 0, true, false, []⟩]⟩,
   ⟨0x40000060, [], .all, true,
    [⟨11, 11, .w1c, 0, true, false, []⟩,
     ⟨10, 10, .w1c, 0, true, false, []⟩,
     ⟨9, 9, .ro, 0, false, false, []⟩,
     ⟨8, 8, .w1c, 0, true, false, []⟩,
     ⟨7, 7, .w1c, 0, true, false, []⟩,
     ⟨6, 6, .w1c, 0, true, false, []⟩,
     ⟨5, 5, .w1c, 0, true, false, []⟩,
     ⟨4, 4, .w1c, 0, true, false, []⟩,
     ⟨3, 3, .w1c, 0, true, false, []⟩,
     ⟨2, 2, .w1c, 0, true, false, []⟩,
     ⟨1, 1, .w1c, 0, true, false, []⟩,
     ⟨0, 0, .w1c, 0, true, false, []⟩]⟩,
   ⟨0x40000064, [], .none, true,
    [⟨31, 0, .wo, 0, false, false, []⟩]⟩,
   ⟨0x40000068, [], .none, true,
    [⟨9, 0, .rw, 0x64, false, true, [(10, 1000)]⟩]⟩,
   ⟨0x4000006C, [], .all, true,
    [⟨7, 1, .rw, 0, false, true, []⟩]⟩,
   ⟨0x40000070, [], .all, true,
    [⟨15, 8, .ro, 0x12, false, false, []⟩,
     ⟨4, 4, .ro, 0, false, false, []⟩,
     ⟨3, 2, .ro, 0, false, false, []⟩,
     ⟨1, 0, .ro, 0, false, false, []⟩]⟩]

/-- Register tables of block 0x4000: SYS_TEMP (R557), SYS_TEMPALM (R557), SYS_TEMPMAX (R557), SYS_DDRWIN (R35). -/
def sysFamilies1 : List Family :=
  [⟨0x40000074, [], .all, true,
    [⟨31, 31, .w1c, 0, true, false, []⟩,
     ⟨15, 0, .ro, 0, false, false, []⟩]⟩,
   ⟨0x40000078, [], .none, true,
    [⟨15, 0, .rw, 0x1D4, false, true, []⟩]⟩,
   ⟨0x4000007C, [], .all, true,
    [⟨15, 0, .ro, 0x8000, false, false, []⟩]⟩,
   ⟨0x40000100, [(4, 6)], .core, true,
    [⟨6, 0, .rw, 0, false, false, []⟩]⟩]

/-- Register tables of block 0x4000. -/
def sysFamilies : List Family := sysFamilies0 ++ sysFamilies1

/-- Register tables of block 0x4001: PWR_STATE (R478), PWR_REQ (R478), PWR_POLICY (R477), PWR_DOWNCNT (R482), PWR_RESET (R465), PWR_RSTCAUSE (R466). -/
def pwrFamilies : List Family :=
  [⟨0x40010000, [(4, 14)], .none, true,
    [⟨31, 16, .ro, 0, false, false, []⟩,
     ⟨2, 0, .ro, 0, false, false, []⟩]⟩,
   ⟨0x40010040, [], .none, false,
    [⟨8, 8, .wo, 0, false, false, []⟩,
     ⟨3, 0, .wo, 0, false, false, []⟩]⟩,
   ⟨0x40010044, [], .none, true,
    [⟨13, 4, .rw, 0, false, true, []⟩]⟩,
   ⟨0x40010048, [], .none, true,
    [⟨31, 0, .ro, 0, false, false, []⟩]⟩,
   ⟨0x4001004C, [], .none, false,
    [⟨1, 1, .w1s, 0, false, false, []⟩,
     ⟨0, 0, .w1s, 0, false, false, []⟩]⟩,
   ⟨0x40010050, [], .all, true,
    [⟨3, 0, .ro, 0, false, false, []⟩]⟩]

/-- Register tables of block 0x4002: RDY_BOARD_LO (R472), RDY_BOARD_HI (R472), RDY_SETTIME (R472). -/
def rdyFamilies : List Family :=
  [⟨0x40020000, [], .all, true,
    [⟨31, 0, .ro, 0, false, false, []⟩]⟩,
   ⟨0x40020004, [], .all, true,
    [⟨31, 0, .ro, 0, false, false, []⟩]⟩,
   ⟨0x40020100, [(4, 64)], .none, true,
    [⟨31, 0, .ro, 0, false, false, []⟩]⟩]

/-- Register tables of block 0x4003: PLB_CTL (R398), PLB_STATE (R402), PLB_HIST (R404), PLB_IEN (R404), PLB_ALMEN (R403), PLB_LOCK (R402), PLB_LOOP (R405), PLB_SLOPE (R405), PLB_PHASE (R394), PLB_GAP (R410), PLB_REFCFG (R395), PLB_REFFREQ (R395). -/
def plbFamilies0 : List Family :=
  [⟨0x40030000, [], .all, true,
    [⟨31, 16, .rw, 0, true, false, []⟩,
     ⟨9, 9, .rw, 1, true, false, []⟩,
     ⟨8, 8, .rw, 0, true, false, []⟩,
     ⟨7, 7, .rw, 1, true, false, []⟩,
     ⟨2, 0, .rw, 0, true, false, [(0, 6)]⟩]⟩,
   ⟨0x40030004, [], .all, true,
    [⟨15, 9, .ro, 0, false, false, []⟩,
     ⟨8, 8, .ro, 1, false, false, []⟩,
     ⟨7, 7, .ro, 0, false, false, []⟩,
     ⟨6, 4, .ro, 7, false, false, []⟩,
     ⟨2, 2, .ro, 0, false, false, []⟩,
     ⟨1, 0, .ro, 0, false, false, []⟩]⟩,
   ⟨0x40030008, [], .all, true,
    [⟨9, 0, .w1c, 0, true, false, []⟩]⟩,
   ⟨0x4003000C, [], .all, true,
    [⟨9, 0, .rw, 0, true, false, []⟩]⟩,
   ⟨0x40030010, [], .all, true,
    [⟨4, 0, .rw, 3, true, false, []⟩]⟩,
   ⟨0x40030014, [], .all, true,
    [⟨31, 16, .rw, 0x64, true, false, [(1, 65535)]⟩,
     ⟨15, 0, .rw, 8, true, false, [(1, 65535)]⟩]⟩,
   ⟨0x40030018, [], .all, true,
    [⟨1, 0, .rw, 1, true, false, [(0, 2)]⟩]⟩,
   ⟨0x4003001C, [], .all, true,
    [⟨26, 0, .rw, 0xF4240, true, false, [(100, 100000000)]⟩]⟩,
   ⟨0x40030020, [], .all, true,
    [⟨31, 0, .ro, 0, false, false, []⟩]⟩,
   ⟨0x40030024, [], .all, true,
    [⟨31, 0, .ro, 0, false, false, []⟩]⟩,
   ⟨0x40030100, [(0x20, 7)], .all, true,
    [⟨3, 0, .rw, 0, true, false, []⟩]⟩,
   ⟨0x40030104, [(0x20, 7)], .all, true,
    [⟨27, 0, .rw, 0, true, false, []⟩]⟩]

/-- Register tables of block 0x4003: PLB_REFTOL (R395), PLB_REFQUAL (R395), PLB_REFSTAT (R397), PLB_REFOFS (R396), PLB_OUT0 (R411), PLB_OUT1 (R411), PLB_PPSOUT (R411). -/
def plbFamilies1 : List Family :=
  [⟨0x40030108, [(0x20, 7)], .all, true,
    [⟨19, 0, .rw, 0, true, false, []⟩]⟩,
   ⟨0x4003010C, [(0x20, 7)], .all, true,
    [⟨15, 0, .rw, 0, true, false, []⟩]⟩,
   ⟨0x40030110, [(0x20, 7)], .all, true,
    [⟨15, 8, .ro, 0, false, false, []⟩,
     ⟨2, 2, .ro, 0, false, false, []⟩,
     ⟨1, 1, .ro, 0, false, false, []⟩,
     ⟨0, 0, .ro, 0, false, false, []⟩]⟩,
   ⟨0x40030114, [(0x20, 7)], .all, true,
    [⟨31, 0, .ro, 0, false, false, []⟩]⟩,
   ⟨0x40030200, [], .all, true,
    [⟨31, 31, .rw, 1, true, false, []⟩,
     ⟨30, 30, .rw, 0, true, false, []⟩,
     ⟨26, 0, .rw, 0x989680, true, false, [(1, 125000000)]⟩]⟩,
   ⟨0x40030208, [], .all, true,
    [⟨31, 31, .rw, 0, true, false, []⟩,
     ⟨30, 30, .rw, 0, true, false, []⟩,
     ⟨26, 0, .rw, 0, true, false, [(1, 125000000)]⟩]⟩,
   ⟨0x40030210, [], .all, true,
    [⟨31, 31, .rw, 1, true, false, []⟩,
     ⟨30, 30, .rw, 0, true, false, []⟩,
     ⟨18, 0, .rw, 0x186A0, true, false, [(1, 500000)]⟩]⟩]

/-- Register tables of block 0x4003. -/
def plbFamilies : List Family := plbFamilies0 ++ plbFamilies1

/-- Register tables of block 0x4004: TME_SEC_LO (R407), TME_SEC_HI (R407), TME_NS (R407), TME_FRAC (R407), TME_FREQ (R407), TME_STEPS (R408). -/
def tmeFamilies : List Family :=
  [⟨0x40040000, [], .all, true,
    [⟨31, 0, .ro, 0, false, false, []⟩]⟩,
   ⟨0x40040004, [], .all, true,
    [⟨15, 0, .ro, 0, false, false, []⟩]⟩,
   ⟨0x40040008, [], .all, true,
    [⟨29, 0, .ro, 0, false, false, []⟩]⟩,
   ⟨0x4004000C, [], .all, true,
    [⟨15, 0, .ro, 0, false, false, []⟩]⟩,
   ⟨0x40040010, [], .all, true,
    [⟨31, 0, .ro, 0, false, false, []⟩]⟩,
   ⟨0x40040014, [], .all, true,
    [⟨15, 0, .ro, 0, false, false, []⟩]⟩]

/-- Register tables of block 0x4005: ODO_STALL_T (R370), ODO_SEL (R365), ODO_POS_LO (R365), ODO_POS_HI (R365), ODO_OFFSET_LO (R365), ODO_OFFSET_HI (R365), ODO_AXCFG0 (R367), ODO_AXCFG1 (R367), ODO_AXCFG2 (R367), ODO_AXCFG3 (R367), ODO_AXFAC (R362), ODO_AXSTAT (R367). -/
def odoFamilies0 : List Family :=
  [⟨0x40050000, [], .all, true,
    [⟨15, 0, .rw, 0x5DC, true, false, [(100, 60000)]⟩]⟩,
   ⟨0x40050004, [], .all, true,
    [⟨31, 16, .ro, 0, false, false, []⟩,
     ⟨6, 6, .ro, 0, false, false, []⟩,
     ⟨5, 5, .ro, 0, false, false, []⟩,
     ⟨4, 4, .ro, 0, false, false, []⟩,
     ⟨3, 3, .ro, 0, false, false, []⟩,
     ⟨2, 2, .ro, 0, false, false, []⟩,
     ⟨1, 0, .ro, 0, false, false, []⟩]⟩,
   ⟨0x40050008, [], .all, true,
    [⟨31, 0, .ro, 0, false, false, []⟩]⟩,
   ⟨0x4005000C, [], .all, true,
    [⟨31, 0, .ro, 0, false, false, []⟩]⟩,
   ⟨0x40050010, [], .all, true,
    [⟨31, 0, .ro, 0, false, false, []⟩]⟩,
   ⟨0x40050014, [], .all, true,
    [⟨31, 0, .ro, 0, false, false, []⟩]⟩,
   ⟨0x40050100, [], .all, true,
    [⟨4, 4, .rw, 0, true, false, []⟩,
     ⟨3, 0, .rw, 1, true, false, []⟩]⟩,
   ⟨0x40050120, [], .all, true,
    [⟨4, 4, .rw, 0, true, false, []⟩,
     ⟨3, 0, .rw, 2, true, false, []⟩]⟩,
   ⟨0x40050140, [], .all, true,
    [⟨4, 4, .rw, 0, true, false, []⟩,
     ⟨3, 0, .rw, 3, true, false, []⟩]⟩,
   ⟨0x40050160, [], .all, true,
    [⟨4, 4, .rw, 0, true, false, []⟩,
     ⟨3, 0, .rw, 4, true, false, []⟩]⟩,
   ⟨0x40050104, [(0x20, 4)], .all, true,
    [⟨31, 16, .rw, 0x19A, true, false, []⟩,
     ⟨15, 0, .rw, 0x8D, true, false, []⟩]⟩,
   ⟨0x40050108, [(0x20, 4)], .all, true,
    [⟨15, 8, .ro, 0, false, false, []⟩,
     ⟨2, 0, .ro, 1, false, false, []⟩]⟩]

/-- Register tables of block 0x4005: ODO_AXPOS_LO (R364), ODO_AXPOS_HI (R364), ODO_AXPER (R361), ODO_AXCNT (R362), ODO_EVARM (R371), ODO_EVSTAT (R373), ODO_EVERR (R375). -/
def odoFamilies1 : List Family :=
  [⟨0x4005010C, [(0x20, 4)], .all, true,
    [⟨31, 0, .ro, 0, false, false, []⟩]⟩,
   ⟨0x40050110, [(0x20, 4)], .all, true,
    [⟨31, 0, .ro, 0, false, false, []⟩]⟩,
   ⟨0x40050114, [(0x20, 4)], .all, true,
    [⟨31, 0, .ro, 0, false, false, []⟩]⟩,
   ⟨0x40050118, [(0x20, 4)], .all, true,
    [⟨31, 24, .ro, 0, false, false, []⟩,
     ⟨23, 16, .ro, 0, false, false, []⟩,
     ⟨15, 8, .ro, 0, false, false, []⟩]⟩,
   ⟨0x40050400, [(0x20, 64), (4, 8)], .all, true,
    [⟨31, 0, .ro, 0, false, false, []⟩]⟩,
   ⟨0x40050C00, [(8, 64)], .all, true,
    [⟨31, 16, .ro, 0, false, false, []⟩,
     ⟨15, 8, .ro, 0, false, false, []⟩,
     ⟨6, 6, .w1c, 0, true, false, []⟩,
     ⟨5, 5, .w1c, 0, true, false, []⟩,
     ⟨4, 4, .w1c, 0, true, false, []⟩,
     ⟨2, 0, .ro, 0, false, false, []⟩]⟩,
   ⟨0x40050C04, [(8, 64)], .all, true,
    [⟨31, 0, .ro, 0, false, false, []⟩]⟩]

/-- Register tables of block 0x4005. -/
def odoFamilies : List Family := odoFamilies0 ++ odoFamilies1

/-- Register tables of block 0x4006: PWM_CTL (R385), PWM_PER (R381), PWM_DUTY (R381), PWM_DEAD (R381), PWM_BOOT (R387), PWM_LIM (R390), PWM_STAT (R386), PWM_FLTSTAT (R389). -/
def pwmFamilies : List Family :=
  [⟨0x40060000, [(0x20, 12)], .all, true,
    [⟨15, 8, .rw, 0, true, false, []⟩,
     ⟨5, 4, .rw, 0, true, false, [(0, 2)]⟩,
     ⟨1, 1, .rw, 0, true, false, []⟩,
     ⟨0, 0, .rw, 0, true, false, []⟩]⟩,
   ⟨0x40060004, [(0x20, 12)], .all, true,
    [⟨28, 0, .rw, 0x100, true, false, []⟩]⟩,
   ⟨0x40060008, [(0x20, 12)], .all, true,
    [⟨28, 0, .rw, 0, true, false, []⟩]⟩,
   ⟨0x4006000C, [(0x20, 12)], .all, true,
    [⟨15, 0, .rw, 0, true, false, []⟩]⟩,
   ⟨0x40060010, [(0x20, 12)], .all, true,
    [⟨31, 16, .rw, 0, true, false, []⟩,
     ⟨15, 0, .rw, 0, true, false, []⟩]⟩,
   ⟨0x40060014, [(0x20, 12)], .all, true,
    [⟨31, 31, .rw, 0, true, false, []⟩,
     ⟨23, 0, .rw, 0, true, false, []⟩]⟩,
   ⟨0x40060018, [(0x20, 12)], .all, true,
    [⟨31, 24, .ro, 0, false, false, []⟩,
     ⟨23, 16, .ro, 0, false, false, []⟩,
     ⟨5, 5, .ro, 0, false, false, []⟩,
     ⟨4, 4, .ro, 0, false, false, []⟩,
     ⟨3, 3, .ro, 0, false, false, []⟩,
     ⟨2, 2, .ro, 0, false, false, []⟩,
     ⟨1, 1, .ro, 0, false, false, []⟩,
     ⟨0, 0, .ro, 0, false, false, []⟩]⟩,
   ⟨0x40060200, [], .all, true,
    [⟨31, 16, .ro, 0, false, false, []⟩,
     ⟨3, 3, .w1c, 0, true, false, []⟩,
     ⟨2, 2, .w1c, 0, true, false, []⟩,
     ⟨1, 1, .ro, 0, false, false, []⟩,
     ⟨0, 0, .ro, 0, false, false, []⟩]⟩]

/-- Register tables of block 0x4010: FGE_STATUS (R47), FGE_GEOM (R40), FGE_TURNS (R40), FGE_PAD (R40), FGE_PERIOD (R40), FGE_MEASURE_LO (R41), FGE_MEASURE_HI (R41), FGE_TAIL (R46), FGE_SLIP (R47), FGE_LOAD (R78), FGE_LOAD_OFS (R561), FGE_LOAD_LOC (R561). -/
def fgeFamilies0 : List Family :=
  [⟨0x40100000, [], .all, true,
    [⟨31, 24, .ro, 0, false, false, []⟩,
     ⟨23, 16, .ro, 0, false, false, []⟩,
     ⟨3, 3, .w1c, 0, false, false, []⟩,
     ⟨2, 2, .w1c, 0, false, false, []⟩,
     ⟨1, 1, .ro, 0, false, false, []⟩,
     ⟨0, 0, .ro, 0, false, false, []⟩]⟩,
   ⟨0x40100004, [], .all, true,
    [⟨27, 16, .ro, 0, false, false, []⟩,
     ⟨12, 0, .ro, 0, false, false, []⟩]⟩,
   ⟨0x40100008, [], .all, true,
    [⟨18, 0, .ro, 0, false, false, []⟩]⟩,
   ⟨0x4010000C, [], .all, true,
    [⟨28, 0, .ro, 0, false, false, []⟩]⟩,
   ⟨0x40100010, [], .all, true,
    [⟨19, 0, .ro, 0, false, false, []⟩]⟩,
   ⟨0x40100014, [], .all, true,
    [⟨31, 0, .ro, 0, false, false, []⟩]⟩,
   ⟨0x40100018, [], .all, true,
    [⟨31, 0, .ro, 0, false, false, []⟩]⟩,
   ⟨0x4010001C, [], .all, true,
    [⟨11, 0, .ro, 0, false, false, []⟩]⟩,
   ⟨0x40100020, [], .all, true,
    [⟨31, 16, .ro, 0, false, false, []⟩,
     ⟨15, 0, .ro, 0, false, false, []⟩]⟩,
   ⟨0x40100030, [(4, 8)], .own, true,
    [⟨15, 0, .ro, 0, false, false, []⟩]⟩,
   ⟨0x40100050, [(4, 8)], .own, true,
    [⟨31, 0, .ro, 0, false, false, []⟩]⟩,
   ⟨0x40100070, [(4, 8)], .own, true,
    [⟨28, 20, .ro, 0, false, false, []⟩,
     ⟨17, 0, .ro, 0, false, false, []⟩]⟩]

/-- Register tables of block 0x4010: FGE_FMT (R83), FGE_ACT (R108), FGE_DESC (R108), FGE_FAULT (R485), FGE_REPLAY (R487). -/
def fgeFamilies1 : List Family :=
  [⟨0x40100090, [], .all, true,
    [⟨15, 0, .ro, 0x100, false, false, []⟩]⟩,
   ⟨0x401000A0, [(4, 8)], .own, true,
    [⟨28, 16, .rw, 0, true, false, []⟩,
     ⟨12, 0, .ro, 0, false, false, []⟩]⟩,
   ⟨0x401000C0, [(4, 8)], .own, true,
    [⟨31, 16, .rw, 0, true, false, [(0, 4096)]⟩,
     ⟨15, 0, .ro, 0, false, false, []⟩]⟩,
   ⟨0x401000E0, [], .all, true,
    [⟨31, 16, .ro, 0, false, false, []⟩,
     ⟨15, 8, .ro, 0, false, false, []⟩,
     ⟨7, 0, .ro, 0, false, false, []⟩]⟩,
   ⟨0x401000E4, [], .all, true,
    [⟨31, 16, .ro, 0, false, false, []⟩,
     ⟨15, 8, .ro, 0, false, false, []⟩,
     ⟨7, 0, .ro, 0, false, false, []⟩]⟩]

/-- Register tables of block 0x4010. -/
def fgeFamilies : List Family := fgeFamilies0 ++ fgeFamilies1

/-- Register tables of block 0x4011: SE_STATUS (R129), SE_FLAGS (R121), SE_DONE (R121), SE_LUTSWAP (R116), SE_LUT (R116). -/
def seFamilies : List Family :=
  [⟨0x40110000, [(0x10000, 4)], .all, true,
    [⟨10, 8, .ro, 0, false, false, []⟩,
     ⟨1, 1, .ro, 0, false, false, []⟩,
     ⟨0, 0, .ro, 0, false, false, []⟩]⟩,
   ⟨0x40110010, [(0x10000, 4), (4, 8)], .own2, true,
    [⟨4, 4, .w1c, 0, false, false, []⟩,
     ⟨3, 3, .w1c, 0, false, false, []⟩,
     ⟨2, 2, .w1c, 0, false, false, []⟩,
     ⟨1, 1, .w1c, 0, false, false, []⟩,
     ⟨0, 0, .w1c, 0, false, false, []⟩]⟩,
   ⟨0x40110030, [(0x10000, 4), (4, 8)], .own2, true,
    [⟨31, 0, .ro, 0, false, false, []⟩]⟩,
   ⟨0x40110050, [(0x10000, 4)], .none, true,
    [⟨7, 0, .w1s, 0, false, false, []⟩]⟩,
   ⟨0x40111000, [(0x10000, 4), (0x400, 8), (4, 256)], .own2, true,
    [⟨31, 0, .rw, 0, true, false, []⟩]⟩]

/-- Register tables of block 0x4018: BKF_SCRUB (R139), BKF_ECC (R137), BKF_ERR_ADDR (R137), BKF_DYN_WAIT (R142), BKF_RMW (R143). -/
def bkfFamilies : List Family :=
  [⟨0x40180000, [], .none, true,
    [⟨31, 16, .ro, 0, false, false, []⟩,
     ⟨15, 3, .ro, 0, false, false, []⟩,
     ⟨1, 0, .rw, 0, false, false, [(0, 2)]⟩]⟩,
   ⟨0x40180004, [], .none, true,
    [⟨31, 16, .ro, 0, false, false, []⟩,
     ⟨15, 8, .ro, 0, false, false, []⟩,
     ⟨7, 0, .ro, 0, false, false, []⟩]⟩,
   ⟨0x40180008, [], .none, true,
    [⟨31, 31, .w1c, 0, false, false, []⟩,
     ⟨30, 30, .ro, 0, false, false, []⟩,
     ⟨24, 0, .ro, 0, false, false, []⟩]⟩,
   ⟨0x4018000C, [], .none, true,
    [⟨15, 0, .w1a, 0, false, false, []⟩]⟩,
   ⟨0x40180010, [], .none, true,
    [⟨15, 0, .ro, 0, false, false, []⟩]⟩]

/-- Register tables of block 0x4019: DDR_CFG (R145), DDR_STAT (R155), DDR_ECC (R154). -/
def ddrFamilies : List Family :=
  [⟨0x40190000, [], .none, true,
    [⟨7, 6, .rw, 0, false, false, []⟩,
     ⟨1, 0, .rw, 0, false, false, []⟩]⟩,
   ⟨0x40190004, [], .none, true,
    [⟨31, 16, .w1a, 0, false, false, []⟩,
     ⟨15, 8, .ro, 0, false, false, []⟩,
     ⟨0, 0, .ro, 0, false, false, []⟩]⟩,
   ⟨0x40190008, [], .none, true,
    [⟨31, 16, .ro, 0, false, false, []⟩,
     ⟨15, 0, .ro, 0, false, false, []⟩]⟩]

/-- Register tables of block 0x401A: BXM_PRI (R157), BXM_AGE (R157), BXM_SRAM (R191), BXM_BKF (R191), BXM_DDR (R191), BXM_VIOL (R198), BXM_VADDR (R198). -/
def bxmFamilies : List Family :=
  [⟨0x401A0000, [(4, 8)], .none, true,
    [⟨3, 0, .rw, 8, false, false, []⟩,
     ⟨7, 4, .rw, 8, false, false, []⟩,
     ⟨11, 8, .rw, 8, false, false, []⟩,
     ⟨15, 12, .rw, 8, false, false, []⟩,
     ⟨19, 16, .rw, 8, false, false, []⟩,
     ⟨23, 20, .rw, 8, false, false, []⟩,
     ⟨27, 24, .rw, 8, false, false, []⟩,
     ⟨31, 28, .rw, 8, false, false, []⟩]⟩,
   ⟨0x401A0020, [], .none, true,
    [⟨11, 0, .rw, 0x100, false, false, []⟩]⟩,
   ⟨0x401A0100, [(4, 8)], .own, true,
    [⟨22, 16, .rw, 0, true, false, []⟩,
     ⟨5, 0, .rw, 0, true, false, []⟩]⟩,
   ⟨0x401A0120, [(4, 8)], .own, true,
    [⟨25, 16, .rw, 0, true, false, []⟩,
     ⟨8, 0, .rw, 0, true, false, []⟩]⟩,
   ⟨0x401A0140, [(4, 8)], .own, true,
    [⟨27, 16, .rw, 0, true, false, []⟩,
     ⟨10, 0, .rw, 0, true, false, []⟩]⟩,
   ⟨0x401A0160, [(4, 8)], .own, true,
    [⟨31, 31, .w1c, 0, true, false, []⟩,
     ⟨16, 16, .ro, 0, false, false, []⟩,
     ⟨15, 0, .ro, 0, false, false, []⟩]⟩,
   ⟨0x401A0180, [(4, 8)], .own, true,
    [⟨31, 0, .ro, 0, false, false, []⟩]⟩]

/-- Register tables of block 0x4020: MBX_DBLATCH (R248), MBX_CFG (R242), MBX_CMD_PI (R240), MBX_CMD_CI (R240), MBX_RSP_PI (R240), MBX_RSP_CI (R240), MBX_EVT_PI (R240), MBX_EVT_CI (R240), MBX_DOORBELL (R240), MBX_RSTAT (R240), MBX_EXPSEQ (R240), MBX_IRQ (R240). -/
def mbxFamilies : List Family :=
  [⟨0x40200000, [], .none, true,
    [⟨8, 8, .w1c, 0, true, false, []⟩,
     ⟨7, 0, .w1c, 0, true, false, []⟩]⟩,
   ⟨0x40200010, [(4, 8)], .own, true,
    [⟨0, 0, .rw, 0, true, false, []⟩]⟩,
   ⟨0x40203800, [(0x2000, 7)], .ring, true,
    [⟨15, 0, .rw, 0, false, false, []⟩]⟩,
   ⟨0x40203804, [(0x2000, 7)], .ring, true,
    [⟨15, 0, .ro, 0, false, false, []⟩]⟩,
   ⟨0x40203808, [(0x2000, 7)], .ring, true,
    [⟨15, 0, .ro, 0, false, false, []⟩]⟩,
   ⟨0x4020380C, [(0x2000, 7)], .ring, true,
    [⟨15, 0, .rw, 0, false, false, []⟩]⟩,
   ⟨0x40203810, [(0x2000, 7)], .ring, true,
    [⟨15, 0, .ro, 0, false, false, []⟩]⟩,
   ⟨0x40203814, [(0x2000, 7)], .ring, true,
    [⟨15, 0, .rw, 0, false, false, []⟩]⟩,
   ⟨0x40203818, [(0x2000, 7)], .ring, true,
    [⟨31, 0, .wo, 0, false, false, []⟩]⟩,
   ⟨0x4020381C, [(0x2000, 7)], .ring, true,
    [⟨31, 16, .ro, 0, false, false, []⟩,
     ⟨15, 8, .ro, 0, false, false, []⟩,
     ⟨2, 2, .ro, 0, false, false, []⟩,
     ⟨1, 1, .w1c, 0, false, false, []⟩,
     ⟨0, 0, .ro, 0, false, false, []⟩]⟩,
   ⟨0x40203820, [(0x2000, 7)], .ring, true,
    [⟨31, 0, .ro, 0, false, false, []⟩]⟩,
   ⟨0x40203824, [(0x2000, 7)], .ring, false,
    [⟨10, 10, .ro, 0, false, false, []⟩,
     ⟨9, 9, .ro, 0, false, false, []⟩,
     ⟨8, 8, .ro, 0, false, false, []⟩,
     ⟨2, 2, .rw, 0, false, false, []⟩,
     ⟨1, 1, .rw, 0, false, false, []⟩,
     ⟨0, 0, .rw, 0, false, false, []⟩]⟩]

/-- Register tables of block 0x4021: PEG_WIN (R222), PEG_REQ (R226), PEG_DQ (R230), PEG_DSTAT (R220), PEG_FSTAT (R227), PEG_STATE (R226). -/
def pegFamilies : List Family :=
  [⟨0x40210000, [(4, 8)], .own, true,
    [⟨31, 31, .rw, 0, true, false, []⟩,
     ⟨18, 0, .rw, 0, true, false, []⟩]⟩,
   ⟨0x40210040, [(4, 8)], .own, false,
    [⟨17, 16, .wo, 0, false, false, []⟩,
     ⟨11, 0, .wo, 0, false, false, []⟩]⟩,
   ⟨0x40210080, [(4, 8)], .own, false,
    [⟨31, 31, .ro, 0, false, false, []⟩,
     ⟨30, 30, .ro, 0, false, false, []⟩,
     ⟨11, 0, .ro, 0, false, false, []⟩]⟩,
   ⟨0x402100C0, [(4, 8)], .own, true,
    [⟨1, 1, .w1c, 0, false, false, []⟩,
     ⟨0, 0, .ro, 0, false, false, []⟩]⟩,
   ⟨0x40210100, [(4, 8)], .own, true,
    [⟨31, 24, .ro, 0, false, false, []⟩,
     ⟨23, 16, .ro, 0, false, false, []⟩,
     ⟨15, 14, .ro, 0, false, false, []⟩,
     ⟨11, 0, .ro, 0, false, false, []⟩]⟩,
   ⟨0x40211000, [(0x400, 8), (4, 256)], .own, true,
    [⟨31, 0, .ro, 0, false, false, []⟩]⟩]

/-- Register tables of block 0x4022: SNP_STAT (R234). -/
def snpFamilies : List Family :=
  [⟨0x40220000, [], .none, true,
    [⟨31, 16, .ro, 0, false, false, []⟩,
     ⟨0, 0, .ro, 0, false, false, []⟩]⟩]

/-- Register tables of block 0x4023: PCI_ERR (R216), PCI_CTO (R225), PCI_RAISE (R219). -/
def pciFamilies : List Family :=
  [⟨0x40230000, [], .none, true,
    [⟨31, 24, .ro, 0, false, false, []⟩,
     ⟨23, 16, .ro, 0, false, false, []⟩,
     ⟨15, 8, .ro, 0, false, false, []⟩,
     ⟨7, 0, .ro, 0, false, false, []⟩]⟩,
   ⟨0x40230004, [], .none, true,
    [⟨13, 0, .rw, 0x3E8, false, false, [(10, 10000)]⟩]⟩,
   ⟨0x40230100, [(4, 8)], .own, false,
    [⟨31, 0, .w1s, 0, false, false, []⟩]⟩]

/-- Register tables of block 0x4030: CSI_STAT (R283), CSI_DISC (R283). -/
def csiFamilies : List Family :=
  [⟨0x40300000, [(4, 12)], .none, true,
    [⟨31, 24, .ro, 0, false, false, []⟩,
     ⟨23, 16, .ro, 0, false, false, []⟩,
     ⟨15, 8, .ro, 0, false, false, []⟩,
     ⟨2, 2, .ro, 0, false, false, []⟩,
     ⟨1, 0, .ro, 0, false, false, []⟩]⟩,
   ⟨0x40300040, [(4, 12)], .none, true,
    [⟨31, 16, .ro, 0, false, false, []⟩,
     ⟨15, 0, .ro, 0, false, false, []⟩]⟩]

/-- Register tables of block 0x4031: CNF_STAT (R292), CNF_FRAME (R295), CNF_CNT (R289). -/
def cnfFamilies : List Family :=
  [⟨0x40310000, [(0x20, 24)], .source, true,
    [⟨31, 24, .ro, 0, false, false, []⟩,
     ⟨8, 8, .w1c, 0, false, false, []⟩,
     ⟨7, 7, .w1c, 0, false, false, []⟩,
     ⟨6, 6, .w1c, 0, false, false, []⟩,
     ⟨5, 5, .w1c, 0, false, false, []⟩,
     ⟨4, 4, .w1c, 0, false, false, []⟩,
     ⟨3, 3, .w1c, 0, false, false, []⟩,
     ⟨2, 2, .w1c, 0, false, false, []⟩,
     ⟨1, 1, .ro, 0, false, false, []⟩,
     ⟨0, 0, .ro, 0, false, false, []⟩]⟩,
   ⟨0x40310004, [(0x20, 24)], .source, true,
    [⟨31, 0, .ro, 0, false, false, []⟩]⟩,
   ⟨0x40310008, [(0x20, 24)], .source, true,
    [⟨31, 16, .ro, 0, false, false, []⟩,
     ⟨15, 8, .ro, 0, false, false, []⟩,
     ⟨7, 0, .ro, 0, false, false, []⟩]⟩]

/-- Register tables of block 0x4032: VXM_DOWN (R191), VXM_SOWN (R191), VXM_DSTAT (R304), VXM_DFLAG (R303). -/
def vxmFamilies : List Family :=
  [⟨0x40320F00, [(4, 6)], .all, true,
    [⟨3, 0, .rw, 0xF, true, false, [(0, 7), (15, 15)]⟩,
     ⟨7, 4, .rw, 0xF, true, false, [(0, 7), (15, 15)]⟩,
     ⟨11, 8, .rw, 0xF, true, false, [(0, 7), (15, 15)]⟩,
     ⟨15, 12, .rw, 0xF, true, false, [(0, 7), (15, 15)]⟩,
     ⟨19, 16, .rw, 0xF, true, false, [(0, 7), (15, 15)]⟩,
     ⟨23, 20, .rw, 0xF, true, false, [(0, 7), (15, 15)]⟩,
     ⟨27, 24, .rw, 0xF, true, false, [(0, 7), (15, 15)]⟩,
     ⟨31, 28, .rw, 0xF, true, false, [(0, 7), (15, 15)]⟩]⟩,
   ⟨0x40320F20, [(4, 6)], .all, true,
    [⟨3, 0, .rw, 0xF, true, false, [(0, 7), (15, 15)]⟩,
     ⟨7, 4, .rw, 0xF, true, false, [(0, 7), (15, 15)]⟩,
     ⟨11, 8, .rw, 0xF, true, false, [(0, 7), (15, 15)]⟩,
     ⟨15, 12, .rw, 0xF, true, false, [(0, 7), (15, 15)]⟩,
     ⟨19, 16, .rw, 0xF, true, false, [(0, 7), (15, 15)]⟩,
     ⟨23, 20, .rw, 0xF, true, false, [(0, 7), (15, 15)]⟩,
     ⟨27, 24, .rw, 0xF, true, false, [(0, 7), (15, 15)]⟩,
     ⟨31, 28, .rw, 0xF, true, false, [(0, 7), (15, 15)]⟩]⟩,
   ⟨0x40320000, [(4, 48)], .dest, true,
    [⟨31, 31, .ro, 0, false, false, []⟩,
     ⟨30, 30, .ro, 0, false, false, []⟩,
     ⟨29, 29, .ro, 0, false, false, []⟩,
     ⟨28, 28, .ro, 0, false, false, []⟩,
     ⟨21, 16, .ro, 0, false, false, []⟩,
     ⟨15, 8, .ro, 0xFF, false, false, []⟩]⟩,
   ⟨0x40320100, [(4, 48)], .dest, true,
    [⟨4, 4, .w1c, 0, false, false, []⟩,
     ⟨3, 3, .w1c, 0, false, false, []⟩,
     ⟨2, 2, .w1c, 0, false, false, []⟩,
     ⟨1, 1, .w1c, 0, false, false, []⟩,
     ⟨0, 0, .w1c, 0, false, false, []⟩]⟩]

/-- Register tables of block 0x4033: XSC_DEC (R321). -/
def xscFamilies : List Family :=
  [⟨0x40330000, [(4, 8)], .unit, true,
    [⟨31, 16, .ro, 0, false, false, []⟩,
     ⟨15, 8, .ro, 0, false, false, []⟩,
     ⟨7, 0, .ro, 0, false, false, []⟩]⟩]

/-- Register tables of block 0x4034: DPO_STAT (R326), DPO_FRAME (R326). -/
def dpoFamilies : List Family :=
  [⟨0x40340000, [(0x40, 4)], .unit, true,
    [⟨31, 24, .ro, 0, false, false, []⟩,
     ⟨23, 16, .ro, 0, false, false, []⟩,
     ⟨7, 6, .ro, 0, false, false, []⟩,
     ⟨5, 3, .ro, 0, false, false, []⟩,
     ⟨2, 2, .ro, 0, false, false, []⟩,
     ⟨1, 1, .ro, 0, false, false, []⟩,
     ⟨0, 0, .ro, 0, false, false, []⟩]⟩,
   ⟨0x40340004, [(0x40, 4)], .unit, true,
    [⟨31, 0, .ro, 0, false, false, []⟩]⟩]

/-- Register tables of block 0x4035: CMP_STAT (R340), CMP_ZORDER (R329), CMP_STATIC (R338), CMP_LFLAG (R331), CMP_FRAME (R336). -/
def cmpFamilies : List Family :=
  [⟨0x40350000, [(0x100, 4)], .unit, true,
    [⟨31, 24, .ro, 0, false, false, []⟩,
     ⟨15, 6, .ro, 0, false, false, []⟩,
     ⟨5, 5, .ro, 0, false, false, []⟩,
     ⟨4, 4, .ro, 0, false, false, []⟩,
     ⟨3, 3, .ro, 0, false, false, []⟩,
     ⟨2, 2, .ro, 0, false, false, []⟩,
     ⟨1, 1, .ro, 0, false, false, []⟩,
     ⟨0, 0, .ro, 0, false, false, []⟩]⟩,
   ⟨0x40350004, [(0x100, 4)], .unit, true,
    [⟨31, 0, .ro, 0, false, false, []⟩]⟩,
   ⟨0x40350008, [(0x100, 4)], .unit, true,
    [⟨15, 8, .ro, 0, false, false, []⟩,
     ⟨7, 0, .ro, 0, false, false, []⟩]⟩,
   ⟨0x4035000C, [(0x100, 4)], .unit, true,
    [⟨8, 8, .w1c, 0, false, false, []⟩,
     ⟨7, 0, .w1c, 0, false, false, []⟩]⟩,
   ⟨0x40350010, [(0x100, 4)], .unit, true,
    [⟨31, 0, .ro, 0, false, false, []⟩]⟩]

/-- Register tables of block 0x4038: AUD_LOOP (R352), AUD_STAT (R357), AUD_NCO (R350), AUD_NSTAT (R352), AUD_OCNT (R346). -/
def audFamilies : List Family :=
  [⟨0x40380000, [], .none, true,
    [⟨25, 16, .rw, 0xC8, false, false, [(1, 1000)]⟩,
     ⟨1, 0, .rw, 1, false, false, [(0, 2)]⟩]⟩,
   ⟨0x40380004, [], .none, true,
    [⟨31, 20, .ro, 0, false, false, []⟩,
     ⟨19, 0, .ro, 0, false, false, []⟩]⟩,
   ⟨0x40380010, [(8, 12)], .none, true,
    [⟨31, 0, .ro, 0, false, false, []⟩]⟩,
   ⟨0x40380014, [(8, 12)], .none, true,
    [⟨31, 16, .ro, 0, false, false, []⟩,
     ⟨1, 1, .ro, 0, false, false, []⟩,
     ⟨0, 0, .ro, 0, false, false, []⟩]⟩,
   ⟨0x40380100, [(4, 24)], .none, true,
    [⟨31, 16, .ro, 0, false, false, []⟩,
     ⟨15, 8, .ro, 0, false, false, []⟩,
     ⟨7, 0, .ro, 0, false, false, []⟩]⟩]

/-- Register tables of block 0x4039: TDM_STAT (R348). -/
def tdmFamilies : List Family :=
  [⟨0x40390000, [(4, 4)], .none, true,
    [⟨31, 24, .ro, 0, false, false, []⟩,
     ⟨7, 7, .ro, 0, false, false, []⟩,
     ⟨6, 6, .ro, 0, false, false, []⟩,
     ⟨5, 5, .ro, 0, false, false, []⟩,
     ⟨4, 4, .ro, 0, false, false, []⟩,
     ⟨3, 3, .ro, 0, false, false, []⟩,
     ⟨2, 2, .ro, 0, false, false, []⟩,
     ⟨1, 1, .ro, 0, false, false, []⟩,
     ⟨0, 0, .ro, 0, false, false, []⟩]⟩]

/-- Register tables of block 0x4040: MAC_STAT (R415), MAC_IP (R415), MAC_VLAN (R427), MAC_TXERR (R419), MAC_RXDROP (R417). -/
def macFamilies : List Family :=
  [⟨0x40400000, [(0x100, 4)], .all, true,
    [⟨6, 4, .ro, 0, false, false, []⟩,
     ⟨1, 1, .ro, 0, false, false, []⟩,
     ⟨0, 0, .ro, 0, false, false, []⟩]⟩,
   ⟨0x40400004, [(0x100, 4)], .all, true,
    [⟨31, 0, .rw, 0, false, true, []⟩]⟩,
   ⟨0x40400008, [(0x100, 4)], .all, true,
    [⟨31, 31, .rw, 0, false, true, []⟩,
     ⟨11, 0, .rw, 0, false, true, []⟩]⟩,
   ⟨0x40400010, [(0x100, 4)], .all, true,
    [⟨31, 16, .ro, 0, false, false, []⟩,
     ⟨15, 8, .ro, 0, false, false, []⟩,
     ⟨7, 0, .ro, 0, false, false, []⟩]⟩,
   ⟨0x40400014, [(0x100, 4)], .all, true,
    [⟨31, 16, .ro, 0, false, false, []⟩,
     ⟨15, 8, .ro, 0, false, false, []⟩,
     ⟨7, 0, .ro, 0, false, false, []⟩]⟩]

/-- Register tables of block 0x4041: TSN_GATE (R423), TSN_DROP (R416), TSN_TRDP (R427), TSN_TOPO (R427), TSN_FLOW (R421). -/
def tsnFamilies : List Family :=
  [⟨0x40410000, [(0x100, 4)], .all, true,
    [⟨7, 0, .ro, 0xFF, false, false, []⟩]⟩,
   ⟨0x40410004, [(0x100, 4)], .all, true,
    [⟨31, 16, .ro, 0, false, false, []⟩,
     ⟨15, 8, .ro, 0, false, false, []⟩,
     ⟨7, 0, .ro, 0, false, false, []⟩]⟩,
   ⟨0x40410008, [(0x100, 4)], .all, true,
    [⟨31, 16, .ro, 0, false, false, []⟩,
     ⟨15, 8, .ro, 0, false, false, []⟩,
     ⟨7, 0, .ro, 0, false, false, []⟩]⟩,
   ⟨0x40410400, [(4, 2)], .all, true,
    [⟨31, 0, .rw, 0, true, false, []⟩]⟩,
   ⟨0x40410800, [(0x20, 16), (4, 8)], .all, true,
    [⟨31, 0, .rw, 0, false, true, []⟩]⟩]

/-- Register tables of block 0x4042: MSC_STAT (R431). -/
def mscFamilies : List Family :=
  [⟨0x40420000, [(0x100, 4)], .all, true,
    [⟨31, 24, .ro, 0, false, false, []⟩,
     ⟨23, 16, .ro, 0, false, false, []⟩,
     ⟨15, 8, .ro, 0, false, false, []⟩,
     ⟨7, 0, .ro, 0, false, false, []⟩]⟩]

/-- Register tables of block 0x4043: JNC_NODE (R437), JNC_STAT (R434), JNC_RING (R437), JNC_POS (R437), JNC_TXMAP (R438), JNC_RXMAP (R438), JNC_RXDLY (R438), JNC_UDPMAC (R439). -/
def jncFamilies : List Family :=
  [⟨0x40430000, [], .all, true,
    [⟨25, 24, .rw, 0, true, false, []⟩,
     ⟨19, 0, .rw, 0, true, false, []⟩]⟩,
   ⟨0x40430010, [(4, 2)], .all, true,
    [⟨31, 8, .ro, 0, false, false, []⟩,
     ⟨1, 1, .ro, 0, false, false, []⟩,
     ⟨0, 0, .ro, 0, false, false, []⟩]⟩,
   ⟨0x40430020, [], .all, true,
    [⟨31, 12, .ro, 0, false, false, []⟩,
     ⟨9, 9, .ro, 0, false, false, []⟩,
     ⟨8, 8, .ro, 0, false, false, []⟩,
     ⟨7, 0, .ro, 0, false, false, []⟩]⟩,
   ⟨0x40430024, [], .all, true,
    [⟨27, 20, .ro, 0, false, false, []⟩,
     ⟨19, 0, .ro, 0, false, false, []⟩]⟩,
   ⟨0x40430100, [(4, 8)], .all, true,
    [⟨31, 31, .rw, 0, false, true, []⟩,
     ⟨19, 0, .rw, 0, false, true, []⟩]⟩,
   ⟨0x40430120, [(4, 8)], .all, true,
    [⟨22, 20, .rw, 0, false, true, []⟩,
     ⟨19, 0, .rw, 0, false, true, []⟩]⟩,
   ⟨0x40430140, [(4, 8)], .all, true,
    [⟨23, 0, .rw, 0, false, true, []⟩]⟩,
   ⟨0x40430160, [], .all, true,
    [⟨1, 0, .rw, 0, false, true, []⟩]⟩]

/-- Register tables of block 0x4050: KEY_STAT (R447), KEY_SLOT (R446). -/
def keyFamilies : List Family :=
  [⟨0x40500000, [], .none, true,
    [⟨31, 24, .ro, 0, false, false, []⟩,
     ⟨4, 4, .ro, 0, false, false, []⟩,
     ⟨3, 3, .ro, 0, false, false, []⟩,
     ⟨2, 2, .ro, 0, false, false, []⟩,
     ⟨1, 1, .ro, 0, false, false, []⟩,
     ⟨0, 0, .ro, 0, false, false, []⟩]⟩,
   ⟨0x40500100, [(4, 64)], .unit, true,
    [⟨31, 16, .ro, 0, false, false, []⟩,
     ⟨11, 8, .ro, 0, false, false, []⟩,
     ⟨4, 4, .ro, 0, false, false, []⟩,
     ⟨3, 0, .ro, 0xF, false, false, []⟩]⟩]

/-- Register tables of block 0x4051: CRY_JOB (R454), CRY_STATUS (R454), CRY_GO (R454). -/
def cryFamilies : List Family :=
  [⟨0x40510000, [(0x100, 8), (4, 7)], .own, true,
    [⟨31, 0, .rw, 0, false, false, []⟩]⟩,
   ⟨0x4051001C, [(0x100, 8)], .own, true,
    [⟨31, 0, .ro, 0, false, false, []⟩]⟩,
   ⟨0x40510020, [(0x100, 8)], .own, true,
    [⟨0, 0, .w1s, 0, false, false, []⟩]⟩]

/-- Register tables of block 0x4052: SEAL_STAT (R464), SEAL_SEQ (R464), SEAL_RING (R464). -/
def sealFamilies : List Family :=
  [⟨0x40520000, [(0x10, 4)], .unit, true,
    [⟨31, 16, .ro, 0, false, false, []⟩,
     ⟨13, 8, .ro, 0, false, false, []⟩,
     ⟨1, 1, .ro, 0, false, false, []⟩,
     ⟨0, 0, .ro, 0, false, false, []⟩]⟩,
   ⟨0x40520004, [(0x10, 4)], .unit, true,
    [⟨31, 0, .ro, 0, false, false, []⟩]⟩,
   ⟨0x40521000, [(0x2000, 4), (0x80, 64), (4, 32)], .unit, true,
    [⟨31, 0, .ro, 0, false, false, []⟩]⟩]

/-- Register tables of block 0x4060: DBG_CTL (R507), DBG_STAT (R508), DBG_PC (R508), DBG_FEED (R509), DBG_DATA (R509), DBG_EN (R503), DBG_TEN (R516), DBG_SINK (R522), DBG_FILT (R519), DBG_VTOUT (R515), DBG_VTIN (R515). -/
def dbgFamilies : List Family :=
  [⟨0x40600000, [(0x40, 6)], .none, true,
    [⟨5, 5, .rw, 0, false, false, []⟩,
     ⟨4, 4, .rw, 0, false, false, []⟩,
     ⟨3, 3, .rw, 0, false, false, []⟩,
     ⟨2, 2, .rw, 0, false, false, []⟩,
     ⟨1, 1, .w1s, 0, false, false, []⟩,
     ⟨0, 0, .rw, 0, false, false, []⟩]⟩,
   ⟨0x40600004, [(0x40, 6)], .none, true,
    [⟨31, 24, .ro, 0, false, false, []⟩,
     ⟨23, 16, .ro, 0, false, false, []⟩,
     ⟨13, 8, .ro, 0, false, false, []⟩,
     ⟨7, 7, .ro, 0, false, false, []⟩,
     ⟨6, 6, .ro, 0, false, false, []⟩,
     ⟨5, 4, .ro, 0, false, false, []⟩,
     ⟨3, 1, .ro, 0, false, false, []⟩,
     ⟨0, 0, .ro, 0, false, false, []⟩]⟩,
   ⟨0x40600008, [(0x40, 6)], .none, true,
    [⟨31, 2, .rw, 0, false, false, []⟩]⟩,
   ⟨0x4060000C, [(0x40, 6)], .none, true,
    [⟨31, 0, .wo, 0, false, false, []⟩]⟩,
   ⟨0x40600010, [(0x40, 6)], .none, true,
    [⟨31, 0, .rw, 0, false, false, []⟩]⟩,
   ⟨0x40600014, [(0x40, 6)], .none, true,
    [⟨16, 16, .rw, 0, true, false, []⟩,
     ⟨15, 8, .rw, 0, true, false, []⟩,
     ⟨7, 0, .rw, 0, true, false, []⟩]⟩,
   ⟨0x40600018, [(0x40, 6)], .none, true,
    [⟨16, 16, .rw, 0, true, false, []⟩,
     ⟨15, 8, .rw, 0, true, false, []⟩,
     ⟨7, 0, .rw, 0, true, false, []⟩]⟩,
   ⟨0x4060001C, [(0x40, 6)], .none, true,
    [⟨1, 0, .rw, 0, true, false, []⟩]⟩,
   ⟨0x40600020, [(0x40, 6)], .none, true,
    [⟨7, 0, .rw, 0, true, false, []⟩]⟩,
   ⟨0x40600024, [(0x40, 6)], .none, true,
    [⟨8, 8, .ro, 0, false, false, []⟩,
     ⟨7, 0, .ro, 0, false, false, []⟩]⟩,
   ⟨0x40600028, [(0x40, 6)], .none, true,
    [⟨8, 8, .ro, 0, false, false, []⟩,
     ⟨7, 0, .wo, 0, false, false, []⟩]⟩]

/-- Register tables of block 0x4061: TRC_CTL (R522), TRC_STAT (R522), TRC_WP (R522), TRC_RADDR (R522), TRC_RDATA (R522). -/
def trcFamilies : List Family :=
  [⟨0x40610000, [], .none, true,
    [⟨2, 2, .rw, 0, false, false, []⟩,
     ⟨1, 1, .rw, 0, false, false, []⟩,
     ⟨0, 0, .rw, 0, false, false, []⟩]⟩,
   ⟨0x40610004, [], .none, true,
    [⟨31, 16, .ro, 0, false, false, []⟩,
     ⟨1, 1, .ro, 0, false, false, []⟩,
     ⟨0, 0, .ro, 0, false, false, []⟩]⟩,
   ⟨0x40610008, [], .none, true,
    [⟨13, 0, .ro, 0, false, false, []⟩]⟩,
   ⟨0x4061000C, [], .none, true,
    [⟨15, 0, .rw, 0, false, false, []⟩]⟩,
   ⟨0x40610010, [], .none, true,
    [⟨31, 0, .ro, 0, false, false, []⟩]⟩]

/-- Register tables of block 0x4062: XTR_GRP (R513), XTR_FIRE (R513), XTR_RESUME (R514), XTR_STAT (R514). -/
def xtrFamilies : List Family :=
  [⟨0x40620000, [(4, 8)], .none, true,
    [⟨21, 16, .rw, 0, false, false, []⟩,
     ⟨13, 8, .rw, 0, false, false, []⟩,
     ⟨5, 0, .rw, 0, false, false, []⟩]⟩,
   ⟨0x40620200, [], .none, true,
    [⟨7, 0, .w1s, 0, false, false, []⟩]⟩,
   ⟨0x40620204, [], .none, true,
    [⟨7, 0, .w1s, 0, false, false, []⟩]⟩,
   ⟨0x40620208, [], .none, true,
    [⟨7, 0, .w1c, 0, false, false, []⟩]⟩]

/-- The register tables of the 64 KiB block with number `b` (address divided by 65,536; R39); none for an unlisted block. -/
def blockFamilies (b : Nat) : List Family :=
  match b with
  | 0x4000 => sysFamilies
  | 0x4001 => pwrFamilies
  | 0x4002 => rdyFamilies
  | 0x4003 => plbFamilies
  | 0x4004 => tmeFamilies
  | 0x4005 => odoFamilies
  | 0x4006 => pwmFamilies
  | 0x4010 => fgeFamilies
  | 0x4011 => seFamilies
  | 0x4012 => seFamilies
  | 0x4013 => seFamilies
  | 0x4014 => seFamilies
  | 0x4018 => bkfFamilies
  | 0x4019 => ddrFamilies
  | 0x401A => bxmFamilies
  | 0x4020 => mbxFamilies
  | 0x4021 => pegFamilies
  | 0x4022 => snpFamilies
  | 0x4023 => pciFamilies
  | 0x4030 => csiFamilies
  | 0x4031 => cnfFamilies
  | 0x4032 => vxmFamilies
  | 0x4033 => xscFamilies
  | 0x4034 => dpoFamilies
  | 0x4035 => cmpFamilies
  | 0x4038 => audFamilies
  | 0x4039 => tdmFamilies
  | 0x4040 => macFamilies
  | 0x4041 => tsnFamilies
  | 0x4042 => mscFamilies
  | 0x4043 => jncFamilies
  | 0x4050 => keyFamilies
  | 0x4051 => cryFamilies
  | 0x4052 => sealFamilies
  | 0x4060 => dbgFamilies
  | 0x4061 => trcFamilies
  | 0x4062 => xtrFamilies
  | _ => []

/-- The block numbers of the block table of R39. -/
def listedBlocks : List Nat :=
  [0x4000, 0x4001, 0x4002, 0x4003, 0x4004, 0x4005, 0x4006, 0x4010, 0x4011, 0x4012, 0x4013, 0x4014, 0x4018, 0x4019, 0x401A, 0x4020, 0x4021, 0x4022, 0x4023, 0x4030, 0x4031, 0x4032, 0x4033, 0x4034, 0x4035, 0x4038, 0x4039, 0x4040, 0x4041, 0x4042, 0x4043, 0x4050, 0x4051, 0x4052, 0x4060, 0x4061, 0x4062]

namespace Reg

/-- Address of SYS_CHIP_ID (R1). -/
abbrev SYS_CHIP_ID : Nat := 0x40000000
/-- Address of SYS_CLKSTAT (R23). -/
abbrev SYS_CLKSTAT : Nat := 0x40000004
/-- Address of SYS_REMAP (R160). -/
abbrev SYS_REMAP : Nat := 0x40000008
/-- Address of SYS_PAIR (R163). -/
abbrev SYS_PAIR : Nat := 0x40000010
/-- Address of SYS_CORECTL (R161). -/
abbrev SYS_CORECTL (n : Nat) : Nat := 0x40000020 + 4 * n
/-- Address of SYS_BAYSTATE (R206). -/
abbrev SYS_BAYSTATE : Nat := 0x40000040
/-- Address of SYS_FWVER (R273). -/
abbrev SYS_FWVER : Nat := 0x40000048
/-- Address of SYS_FLTSUM (R498). -/
abbrev SYS_FLTSUM : Nat := 0x40000060
/-- Address of SYS_WDOG (R494). -/
abbrev SYS_WDOG : Nat := 0x40000064
/-- Address of SYS_WDOGCFG (R494). -/
abbrev SYS_WDOGCFG : Nat := 0x40000068
/-- Address of SYS_BAYPOL (R496). -/
abbrev SYS_BAYPOL : Nat := 0x4000006C
/-- Address of SYS_STRAP (R536). -/
abbrev SYS_STRAP : Nat := 0x40000070
/-- Address of SYS_TEMP (R557). -/
abbrev SYS_TEMP : Nat := 0x40000074
/-- Address of SYS_TEMPALM (R557). -/
abbrev SYS_TEMPALM : Nat := 0x40000078
/-- Address of SYS_TEMPMAX (R557). -/
abbrev SYS_TEMPMAX : Nat := 0x4000007C
/-- Address of SYS_DDRWIN (R35). -/
abbrev SYS_DDRWIN (n : Nat) : Nat := 0x40000100 + 4 * n
/-- Address of PWR_STATE (R478). -/
abbrev PWR_STATE (n : Nat) : Nat := 0x40010000 + 4 * n
/-- Address of PWR_REQ (R478). -/
abbrev PWR_REQ : Nat := 0x40010040
/-- Address of PWR_POLICY (R477). -/
abbrev PWR_POLICY : Nat := 0x40010044
/-- Address of PWR_DOWNCNT (R482). -/
abbrev PWR_DOWNCNT : Nat := 0x40010048
/-- Address of PWR_RESET (R465). -/
abbrev PWR_RESET : Nat := 0x4001004C
/-- Address of PWR_RSTCAUSE (R466). -/
abbrev PWR_RSTCAUSE : Nat := 0x40010050
/-- Address of RDY_BOARD_LO (R472). -/
abbrev RDY_BOARD_LO : Nat := 0x40020000
/-- Address of RDY_BOARD_HI (R472). -/
abbrev RDY_BOARD_HI : Nat := 0x40020004
/-- Address of RDY_SETTIME (R472). -/
abbrev RDY_SETTIME (n : Nat) : Nat := 0x40020100 + 4 * n
/-- Address of PLB_CTL (R398). -/
abbrev PLB_CTL : Nat := 0x40030000
/-- Address of PLB_STATE (R402). -/
abbrev PLB_STATE : Nat := 0x40030004
/-- Address of PLB_HIST (R404). -/
abbrev PLB_HIST : Nat := 0x40030008
/-- Address of PLB_IEN (R404). -/
abbrev PLB_IEN : Nat := 0x4003000C
/-- Address of PLB_ALMEN (R403). -/
abbrev PLB_ALMEN : Nat := 0x40030010
/-- Address of PLB_LOCK (R402). -/
abbrev PLB_LOCK : Nat := 0x40030014
/-- Address of PLB_LOOP (R405). -/
abbrev PLB_LOOP : Nat := 0x40030018
/-- Address of PLB_SLOPE (R405). -/
abbrev PLB_SLOPE : Nat := 0x4003001C
/-- Address of PLB_PHASE (R394). -/
abbrev PLB_PHASE : Nat := 0x40030020
/-- Address of PLB_GAP (R410). -/
abbrev PLB_GAP : Nat := 0x40030024
/-- Address of PLB_REFCFG (R395). -/
abbrev PLB_REFCFG (n : Nat) : Nat := 0x40030100 + 0x20 * n
/-- Address of PLB_REFFREQ (R395). -/
abbrev PLB_REFFREQ (n : Nat) : Nat := 0x40030104 + 0x20 * n
/-- Address of PLB_REFTOL (R395). -/
abbrev PLB_REFTOL (n : Nat) : Nat := 0x40030108 + 0x20 * n
/-- Address of PLB_REFQUAL (R395). -/
abbrev PLB_REFQUAL (n : Nat) : Nat := 0x4003010C + 0x20 * n
/-- Address of PLB_REFSTAT (R397). -/
abbrev PLB_REFSTAT (n : Nat) : Nat := 0x40030110 + 0x20 * n
/-- Address of PLB_REFOFS (R396). -/
abbrev PLB_REFOFS (n : Nat) : Nat := 0x40030114 + 0x20 * n
/-- Address of PLB_OUT0 (R411). -/
abbrev PLB_OUT0 : Nat := 0x40030200
/-- Address of PLB_OUT1 (R411). -/
abbrev PLB_OUT1 : Nat := 0x40030208
/-- Address of PLB_PPSOUT (R411). -/
abbrev PLB_PPSOUT : Nat := 0x40030210
/-- Address of TME_SEC_LO (R407). -/
abbrev TME_SEC_LO : Nat := 0x40040000
/-- Address of TME_SEC_HI (R407). -/
abbrev TME_SEC_HI : Nat := 0x40040004
/-- Address of TME_NS (R407). -/
abbrev TME_NS : Nat := 0x40040008
/-- Address of TME_FRAC (R407). -/
abbrev TME_FRAC : Nat := 0x4004000C
/-- Address of TME_FREQ (R407). -/
abbrev TME_FREQ : Nat := 0x40040010
/-- Address of TME_STEPS (R408). -/
abbrev TME_STEPS : Nat := 0x40040014
/-- Address of ODO_STALL_T (R370). -/
abbrev ODO_STALL_T : Nat := 0x40050000
/-- Address of ODO_SEL (R365). -/
abbrev ODO_SEL : Nat := 0x40050004
/-- Address of ODO_POS_LO (R365). -/
abbrev ODO_POS_LO : Nat := 0x40050008
/-- Address of ODO_POS_HI (R365). -/
abbrev ODO_POS_HI : Nat := 0x4005000C
/-- Address of ODO_OFFSET_LO (R365). -/
abbrev ODO_OFFSET_LO : Nat := 0x40050010
/-- Address of ODO_OFFSET_HI (R365). -/
abbrev ODO_OFFSET_HI : Nat := 0x40050014
/-- Address of ODO_AXCFG (R367). -/
abbrev ODO_AXCFG (n : Nat) : Nat := 0x40050100 + 0x20 * n
/-- Address of ODO_AXFAC (R362). -/
abbrev ODO_AXFAC (n : Nat) : Nat := 0x40050104 + 0x20 * n
/-- Address of ODO_AXSTAT (R367). -/
abbrev ODO_AXSTAT (n : Nat) : Nat := 0x40050108 + 0x20 * n
/-- Address of ODO_AXPOS_LO (R364). -/
abbrev ODO_AXPOS_LO (n : Nat) : Nat := 0x4005010C + 0x20 * n
/-- Address of ODO_AXPOS_HI (R364). -/
abbrev ODO_AXPOS_HI (n : Nat) : Nat := 0x40050110 + 0x20 * n
/-- Address of ODO_AXPER (R361). -/
abbrev ODO_AXPER (n : Nat) : Nat := 0x40050114 + 0x20 * n
/-- Address of ODO_AXCNT (R362). -/
abbrev ODO_AXCNT (n : Nat) : Nat := 0x40050118 + 0x20 * n
/-- Address of ODO_EVARM (R371). -/
abbrev ODO_EVARM (k : Nat) (n : Nat) : Nat := 0x40050400 + 0x20 * k + 4 * n
/-- Address of ODO_EVSTAT (R373). -/
abbrev ODO_EVSTAT (n : Nat) : Nat := 0x40050C00 + 8 * n
/-- Address of ODO_EVERR (R375). -/
abbrev ODO_EVERR (n : Nat) : Nat := 0x40050C04 + 8 * n
/-- Address of PWM_CTL (R385). -/
abbrev PWM_CTL (n : Nat) : Nat := 0x40060000 + 0x20 * n
/-- Address of PWM_PER (R381). -/
abbrev PWM_PER (n : Nat) : Nat := 0x40060004 + 0x20 * n
/-- Address of PWM_DUTY (R381). -/
abbrev PWM_DUTY (n : Nat) : Nat := 0x40060008 + 0x20 * n
/-- Address of PWM_DEAD (R381). -/
abbrev PWM_DEAD (n : Nat) : Nat := 0x4006000C + 0x20 * n
/-- Address of PWM_BOOT (R387). -/
abbrev PWM_BOOT (n : Nat) : Nat := 0x40060010 + 0x20 * n
/-- Address of PWM_LIM (R390). -/
abbrev PWM_LIM (n : Nat) : Nat := 0x40060014 + 0x20 * n
/-- Address of PWM_STAT (R386). -/
abbrev PWM_STAT (n : Nat) : Nat := 0x40060018 + 0x20 * n
/-- Address of PWM_FLTSTAT (R389). -/
abbrev PWM_FLTSTAT : Nat := 0x40060200
/-- Address of FGE_STATUS (R47). -/
abbrev FGE_STATUS : Nat := 0x40100000
/-- Address of FGE_GEOM (R40). -/
abbrev FGE_GEOM : Nat := 0x40100004
/-- Address of FGE_TURNS (R40). -/
abbrev FGE_TURNS : Nat := 0x40100008
/-- Address of FGE_PAD (R40). -/
abbrev FGE_PAD : Nat := 0x4010000C
/-- Address of FGE_PERIOD (R40). -/
abbrev FGE_PERIOD : Nat := 0x40100010
/-- Address of FGE_MEASURE_LO (R41). -/
abbrev FGE_MEASURE_LO : Nat := 0x40100014
/-- Address of FGE_MEASURE_HI (R41). -/
abbrev FGE_MEASURE_HI : Nat := 0x40100018
/-- Address of FGE_TAIL (R46). -/
abbrev FGE_TAIL : Nat := 0x4010001C
/-- Address of FGE_SLIP (R47). -/
abbrev FGE_SLIP : Nat := 0x40100020
/-- Address of FGE_LOAD (R78). -/
abbrev FGE_LOAD (n : Nat) : Nat := 0x40100030 + 4 * n
/-- Address of FGE_LOAD_OFS (R561). -/
abbrev FGE_LOAD_OFS (n : Nat) : Nat := 0x40100050 + 4 * n
/-- Address of FGE_LOAD_LOC (R561). -/
abbrev FGE_LOAD_LOC (n : Nat) : Nat := 0x40100070 + 4 * n
/-- Address of FGE_FMT (R83). -/
abbrev FGE_FMT : Nat := 0x40100090
/-- Address of FGE_ACT (R108). -/
abbrev FGE_ACT (n : Nat) : Nat := 0x401000A0 + 4 * n
/-- Address of FGE_DESC (R108). -/
abbrev FGE_DESC (n : Nat) : Nat := 0x401000C0 + 4 * n
/-- Address of FGE_FAULT (R485). -/
abbrev FGE_FAULT : Nat := 0x401000E0
/-- Address of FGE_REPLAY (R487). -/
abbrev FGE_REPLAY : Nat := 0x401000E4
/-- Address of SE_STATUS (R129). -/
abbrev SE_STATUS (n : Nat) : Nat := 0x40110000 + 0x10000 * n
/-- Address of SE_FLAGS (R121). -/
abbrev SE_FLAGS (k : Nat) (n : Nat) : Nat := 0x40110010 + 0x10000 * k + 4 * n
/-- Address of SE_DONE (R121). -/
abbrev SE_DONE (k : Nat) (n : Nat) : Nat := 0x40110030 + 0x10000 * k + 4 * n
/-- Address of SE_LUTSWAP (R116). -/
abbrev SE_LUTSWAP (n : Nat) : Nat := 0x40110050 + 0x10000 * n
/-- Address of SE_LUT (R116). -/
abbrev SE_LUT (k : Nat) (n : Nat) (i : Nat) : Nat := 0x40111000 + 0x10000 * k + 0x400 * n + 4 * i
/-- Address of BKF_SCRUB (R139). -/
abbrev BKF_SCRUB : Nat := 0x40180000
/-- Address of BKF_ECC (R137). -/
abbrev BKF_ECC : Nat := 0x40180004
/-- Address of BKF_ERR_ADDR (R137). -/
abbrev BKF_ERR_ADDR : Nat := 0x40180008
/-- Address of BKF_DYN_WAIT (R142). -/
abbrev BKF_DYN_WAIT : Nat := 0x4018000C
/-- Address of BKF_RMW (R143). -/
abbrev BKF_RMW : Nat := 0x40180010
/-- Address of DDR_CFG (R145). -/
abbrev DDR_CFG : Nat := 0x40190000
/-- Address of DDR_STAT (R155). -/
abbrev DDR_STAT : Nat := 0x40190004
/-- Address of DDR_ECC (R154). -/
abbrev DDR_ECC : Nat := 0x40190008
/-- Address of BXM_PRI (R157). -/
abbrev BXM_PRI (n : Nat) : Nat := 0x401A0000 + 4 * n
/-- Address of BXM_AGE (R157). -/
abbrev BXM_AGE : Nat := 0x401A0020
/-- Address of BXM_SRAM (R191). -/
abbrev BXM_SRAM (n : Nat) : Nat := 0x401A0100 + 4 * n
/-- Address of BXM_BKF (R191). -/
abbrev BXM_BKF (n : Nat) : Nat := 0x401A0120 + 4 * n
/-- Address of BXM_DDR (R191). -/
abbrev BXM_DDR (n : Nat) : Nat := 0x401A0140 + 4 * n
/-- Address of BXM_VIOL (R198). -/
abbrev BXM_VIOL (n : Nat) : Nat := 0x401A0160 + 4 * n
/-- Address of BXM_VADDR (R198). -/
abbrev BXM_VADDR (n : Nat) : Nat := 0x401A0180 + 4 * n
/-- Address of VXM_DOWN (R191). -/
abbrev VXM_DOWN (n : Nat) : Nat := 0x40320F00 + 4 * n
/-- Address of VXM_SOWN (R191). -/
abbrev VXM_SOWN (n : Nat) : Nat := 0x40320F20 + 4 * n
/-- Address of MBX_DBLATCH (R248). -/
abbrev MBX_DBLATCH : Nat := 0x40200000
/-- Address of MBX_CFG (R242). -/
abbrev MBX_CFG (n : Nat) : Nat := 0x40200010 + 4 * n
/-- Address of PCI_ERR (R216). -/
abbrev PCI_ERR : Nat := 0x40230000
/-- Address of PCI_CTO (R225). -/
abbrev PCI_CTO : Nat := 0x40230004
/-- Address of PCI_RAISE (R219). -/
abbrev PCI_RAISE (n : Nat) : Nat := 0x40230100 + 4 * n
/-- Address of PEG_WIN (R222). -/
abbrev PEG_WIN (n : Nat) : Nat := 0x40210000 + 4 * n
/-- Address of PEG_REQ (R226). -/
abbrev PEG_REQ (n : Nat) : Nat := 0x40210040 + 4 * n
/-- Address of PEG_DQ (R230). -/
abbrev PEG_DQ (n : Nat) : Nat := 0x40210080 + 4 * n
/-- Address of PEG_DSTAT (R220). -/
abbrev PEG_DSTAT (n : Nat) : Nat := 0x402100C0 + 4 * n
/-- Address of PEG_FSTAT (R227). -/
abbrev PEG_FSTAT (n : Nat) : Nat := 0x40210100 + 4 * n
/-- Address of PEG_STATE (R226). -/
abbrev PEG_STATE (k : Nat) (n : Nat) : Nat := 0x40211000 + 0x400 * k + 4 * n
/-- Address of SNP_STAT (R234). -/
abbrev SNP_STAT : Nat := 0x40220000
/-- Address of CSI_STAT (R283). -/
abbrev CSI_STAT (n : Nat) : Nat := 0x40300000 + 4 * n
/-- Address of CSI_DISC (R283). -/
abbrev CSI_DISC (n : Nat) : Nat := 0x40300040 + 4 * n
/-- Address of CNF_STAT (R292). -/
abbrev CNF_STAT (n : Nat) : Nat := 0x40310000 + 0x20 * n
/-- Address of CNF_FRAME (R295). -/
abbrev CNF_FRAME (n : Nat) : Nat := 0x40310004 + 0x20 * n
/-- Address of CNF_CNT (R289). -/
abbrev CNF_CNT (n : Nat) : Nat := 0x40310008 + 0x20 * n
/-- Address of VXM_DSTAT (R304). -/
abbrev VXM_DSTAT (n : Nat) : Nat := 0x40320000 + 4 * n
/-- Address of VXM_DFLAG (R303). -/
abbrev VXM_DFLAG (n : Nat) : Nat := 0x40320100 + 4 * n
/-- Address of DPO_STAT (R326). -/
abbrev DPO_STAT (n : Nat) : Nat := 0x40340000 + 0x40 * n
/-- Address of DPO_FRAME (R326). -/
abbrev DPO_FRAME (n : Nat) : Nat := 0x40340004 + 0x40 * n
/-- Address of XSC_DEC (R321). -/
abbrev XSC_DEC (n : Nat) : Nat := 0x40330000 + 4 * n
/-- Address of CMP_STAT (R340). -/
abbrev CMP_STAT (n : Nat) : Nat := 0x40350000 + 0x100 * n
/-- Address of CMP_ZORDER (R329). -/
abbrev CMP_ZORDER (n : Nat) : Nat := 0x40350004 + 0x100 * n
/-- Address of CMP_STATIC (R338). -/
abbrev CMP_STATIC (n : Nat) : Nat := 0x40350008 + 0x100 * n
/-- Address of CMP_LFLAG (R331). -/
abbrev CMP_LFLAG (n : Nat) : Nat := 0x4035000C + 0x100 * n
/-- Address of CMP_FRAME (R336). -/
abbrev CMP_FRAME (n : Nat) : Nat := 0x40350010 + 0x100 * n
/-- Address of AUD_LOOP (R352). -/
abbrev AUD_LOOP : Nat := 0x40380000
/-- Address of AUD_STAT (R357). -/
abbrev AUD_STAT : Nat := 0x40380004
/-- Address of AUD_NCO (R350). -/
abbrev AUD_NCO (n : Nat) : Nat := 0x40380010 + 8 * n
/-- Address of AUD_NSTAT (R352). -/
abbrev AUD_NSTAT (n : Nat) : Nat := 0x40380014 + 8 * n
/-- Address of AUD_OCNT (R346). -/
abbrev AUD_OCNT (n : Nat) : Nat := 0x40380100 + 4 * n
/-- Address of TDM_STAT (R348). -/
abbrev TDM_STAT (n : Nat) : Nat := 0x40390000 + 4 * n
/-- Address of MAC_STAT (R415). -/
abbrev MAC_STAT (n : Nat) : Nat := 0x40400000 + 0x100 * n
/-- Address of MAC_IP (R415). -/
abbrev MAC_IP (n : Nat) : Nat := 0x40400004 + 0x100 * n
/-- Address of MAC_VLAN (R427). -/
abbrev MAC_VLAN (n : Nat) : Nat := 0x40400008 + 0x100 * n
/-- Address of MAC_TXERR (R419). -/
abbrev MAC_TXERR (n : Nat) : Nat := 0x40400010 + 0x100 * n
/-- Address of MAC_RXDROP (R417). -/
abbrev MAC_RXDROP (n : Nat) : Nat := 0x40400014 + 0x100 * n
/-- Address of TSN_GATE (R423). -/
abbrev TSN_GATE (n : Nat) : Nat := 0x40410000 + 0x100 * n
/-- Address of TSN_DROP (R416). -/
abbrev TSN_DROP (n : Nat) : Nat := 0x40410004 + 0x100 * n
/-- Address of TSN_TRDP (R427). -/
abbrev TSN_TRDP (n : Nat) : Nat := 0x40410008 + 0x100 * n
/-- Address of TSN_TOPO (R427). -/
abbrev TSN_TOPO (n : Nat) : Nat := 0x40410400 + 4 * n
/-- Address of TSN_FLOW (R421). -/
abbrev TSN_FLOW (k : Nat) (n : Nat) : Nat := 0x40410800 + 0x20 * k + 4 * n
/-- Address of MSC_STAT (R431). -/
abbrev MSC_STAT (n : Nat) : Nat := 0x40420000 + 0x100 * n
/-- Address of JNC_NODE (R437). -/
abbrev JNC_NODE : Nat := 0x40430000
/-- Address of JNC_STAT (R434). -/
abbrev JNC_STAT (n : Nat) : Nat := 0x40430010 + 4 * n
/-- Address of JNC_RING (R437). -/
abbrev JNC_RING : Nat := 0x40430020
/-- Address of JNC_POS (R437). -/
abbrev JNC_POS : Nat := 0x40430024
/-- Address of JNC_TXMAP (R438). -/
abbrev JNC_TXMAP (n : Nat) : Nat := 0x40430100 + 4 * n
/-- Address of JNC_RXMAP (R438). -/
abbrev JNC_RXMAP (n : Nat) : Nat := 0x40430120 + 4 * n
/-- Address of JNC_RXDLY (R438). -/
abbrev JNC_RXDLY (n : Nat) : Nat := 0x40430140 + 4 * n
/-- Address of JNC_UDPMAC (R439). -/
abbrev JNC_UDPMAC : Nat := 0x40430160
/-- Address of KEY_STAT (R447). -/
abbrev KEY_STAT : Nat := 0x40500000
/-- Address of KEY_SLOT (R446). -/
abbrev KEY_SLOT (n : Nat) : Nat := 0x40500100 + 4 * n
/-- Address of CRY_JOB (R454). -/
abbrev CRY_JOB (k : Nat) (n : Nat) : Nat := 0x40510000 + 0x100 * k + 4 * n
/-- Address of CRY_STATUS (R454). -/
abbrev CRY_STATUS (n : Nat) : Nat := 0x4051001C + 0x100 * n
/-- Address of CRY_GO (R454). -/
abbrev CRY_GO (n : Nat) : Nat := 0x40510020 + 0x100 * n
/-- Address of SEAL_STAT (R464). -/
abbrev SEAL_STAT (n : Nat) : Nat := 0x40520000 + 0x10 * n
/-- Address of SEAL_SEQ (R464). -/
abbrev SEAL_SEQ (n : Nat) : Nat := 0x40520004 + 0x10 * n
/-- Address of SEAL_RING (R464). -/
abbrev SEAL_RING (k : Nat) (n : Nat) (i : Nat) : Nat := 0x40521000 + 0x2000 * k + 0x80 * n + 4 * i
/-- Address of DBG_CTL (R507). -/
abbrev DBG_CTL (n : Nat) : Nat := 0x40600000 + 0x40 * n
/-- Address of DBG_STAT (R508). -/
abbrev DBG_STAT (n : Nat) : Nat := 0x40600004 + 0x40 * n
/-- Address of DBG_PC (R508). -/
abbrev DBG_PC (n : Nat) : Nat := 0x40600008 + 0x40 * n
/-- Address of DBG_FEED (R509). -/
abbrev DBG_FEED (n : Nat) : Nat := 0x4060000C + 0x40 * n
/-- Address of DBG_DATA (R509). -/
abbrev DBG_DATA (n : Nat) : Nat := 0x40600010 + 0x40 * n
/-- Address of DBG_EN (R503). -/
abbrev DBG_EN (n : Nat) : Nat := 0x40600014 + 0x40 * n
/-- Address of DBG_TEN (R516). -/
abbrev DBG_TEN (n : Nat) : Nat := 0x40600018 + 0x40 * n
/-- Address of DBG_SINK (R522). -/
abbrev DBG_SINK (n : Nat) : Nat := 0x4060001C + 0x40 * n
/-- Address of DBG_FILT (R519). -/
abbrev DBG_FILT (n : Nat) : Nat := 0x40600020 + 0x40 * n
/-- Address of DBG_VTOUT (R515). -/
abbrev DBG_VTOUT (n : Nat) : Nat := 0x40600024 + 0x40 * n
/-- Address of DBG_VTIN (R515). -/
abbrev DBG_VTIN (n : Nat) : Nat := 0x40600028 + 0x40 * n
/-- Address of TRC_CTL (R522). -/
abbrev TRC_CTL : Nat := 0x40610000
/-- Address of TRC_STAT (R522). -/
abbrev TRC_STAT : Nat := 0x40610004
/-- Address of TRC_WP (R522). -/
abbrev TRC_WP : Nat := 0x40610008
/-- Address of TRC_RADDR (R522). -/
abbrev TRC_RADDR : Nat := 0x4061000C
/-- Address of TRC_RDATA (R522). -/
abbrev TRC_RDATA : Nat := 0x40610010
/-- Address of XTR_GRP (R513). -/
abbrev XTR_GRP (n : Nat) : Nat := 0x40620000 + 4 * n
/-- Address of XTR_FIRE (R513). -/
abbrev XTR_FIRE : Nat := 0x40620200
/-- Address of XTR_RESUME (R514). -/
abbrev XTR_RESUME : Nat := 0x40620204
/-- Address of XTR_STAT (R514). -/
abbrev XTR_STAT : Nat := 0x40620208
/-- Address of MBX_CMD_PI (R240). -/
abbrev MBX_CMD_PI (n : Nat) : Nat := 0x40203800 + 0x2000 * n
/-- Address of MBX_CMD_CI (R240). -/
abbrev MBX_CMD_CI (n : Nat) : Nat := 0x40203804 + 0x2000 * n
/-- Address of MBX_RSP_PI (R240). -/
abbrev MBX_RSP_PI (n : Nat) : Nat := 0x40203808 + 0x2000 * n
/-- Address of MBX_RSP_CI (R240). -/
abbrev MBX_RSP_CI (n : Nat) : Nat := 0x4020380C + 0x2000 * n
/-- Address of MBX_EVT_PI (R240). -/
abbrev MBX_EVT_PI (n : Nat) : Nat := 0x40203810 + 0x2000 * n
/-- Address of MBX_EVT_CI (R240). -/
abbrev MBX_EVT_CI (n : Nat) : Nat := 0x40203814 + 0x2000 * n
/-- Address of MBX_DOORBELL (R240). -/
abbrev MBX_DOORBELL (n : Nat) : Nat := 0x40203818 + 0x2000 * n
/-- Address of MBX_RSTAT (R240). -/
abbrev MBX_RSTAT (n : Nat) : Nat := 0x4020381C + 0x2000 * n
/-- Address of MBX_EXPSEQ (R240). -/
abbrev MBX_EXPSEQ (n : Nat) : Nat := 0x40203820 + 0x2000 * n
/-- Address of MBX_IRQ (R240). -/
abbrev MBX_IRQ (n : Nat) : Nat := 0x40203824 + 0x2000 * n

end Reg

namespace Fd

/-- SYS_CHIP_ID.PART. -/
abbrev SYS_CHIP_ID_PART : Fld := ⟨Reg.SYS_CHIP_ID, 31, 16⟩
/-- SYS_CHIP_ID.STEP. -/
abbrev SYS_CHIP_ID_STEP : Fld := ⟨Reg.SYS_CHIP_ID, 7, 0⟩
/-- SYS_CLKSTAT.LOCK_COUNT. -/
abbrev SYS_CLKSTAT_LOCK_COUNT : Fld := ⟨Reg.SYS_CLKSTAT, 15, 8⟩
/-- SYS_CLKSTAT.LOCK_LOST. -/
abbrev SYS_CLKSTAT_LOCK_LOST : Fld := ⟨Reg.SYS_CLKSTAT, 7, 7⟩
/-- SYS_CLKSTAT.BEAT_ALIGNED. -/
abbrev SYS_CLKSTAT_BEAT_ALIGNED : Fld := ⟨Reg.SYS_CLKSTAT, 3, 3⟩
/-- SYS_CLKSTAT.MDLL_LOCK. -/
abbrev SYS_CLKSTAT_MDLL_LOCK : Fld := ⟨Reg.SYS_CLKSTAT, 2, 2⟩
/-- SYS_CLKSTAT.OSC_SEL. -/
abbrev SYS_CLKSTAT_OSC_SEL : Fld := ⟨Reg.SYS_CLKSTAT, 1, 0⟩
/-- SYS_REMAP.SWAP. -/
abbrev SYS_REMAP_SWAP : Fld := ⟨Reg.SYS_REMAP, 0, 0⟩
/-- SYS_PAIR.RESETS_01. -/
abbrev SYS_PAIR_RESETS_01 : Fld := ⟨Reg.SYS_PAIR, 31, 24⟩
/-- SYS_PAIR.MISMATCH_45. -/
abbrev SYS_PAIR_MISMATCH_45 : Fld := ⟨Reg.SYS_PAIR, 18, 18⟩
/-- SYS_PAIR.MISMATCH_23. -/
abbrev SYS_PAIR_MISMATCH_23 : Fld := ⟨Reg.SYS_PAIR, 17, 17⟩
/-- SYS_PAIR.MISMATCH_01. -/
abbrev SYS_PAIR_MISMATCH_01 : Fld := ⟨Reg.SYS_PAIR, 16, 16⟩
/-- SYS_PAIR.LOCK45. -/
abbrev SYS_PAIR_LOCK45 : Fld := ⟨Reg.SYS_PAIR, 1, 1⟩
/-- SYS_PAIR.LOCK23. -/
abbrev SYS_PAIR_LOCK23 : Fld := ⟨Reg.SYS_PAIR, 0, 0⟩
/-- SYS_CORECTL.CACHE_PE. -/
abbrev SYS_CORECTL_CACHE_PE (n : Nat) : Fld := ⟨(Reg.SYS_CORECTL n), 15, 8⟩
/-- SYS_CORECTL.STATE. -/
abbrev SYS_CORECTL_STATE (n : Nat) : Fld := ⟨(Reg.SYS_CORECTL n), 3, 2⟩
/-- SYS_CORECTL.RUN. -/
abbrev SYS_CORECTL_RUN (n : Nat) : Fld := ⟨(Reg.SYS_CORECTL n), 0, 0⟩
/-- SYS_BAYSTATE.BAY0. -/
abbrev SYS_BAYSTATE_BAY0 : Fld := ⟨Reg.SYS_BAYSTATE, 3, 0⟩
/-- SYS_BAYSTATE.BAY1. -/
abbrev SYS_BAYSTATE_BAY1 : Fld := ⟨Reg.SYS_BAYSTATE, 7, 4⟩
/-- SYS_BAYSTATE.BAY2. -/
abbrev SYS_BAYSTATE_BAY2 : Fld := ⟨Reg.SYS_BAYSTATE, 11, 8⟩
/-- SYS_BAYSTATE.BAY3. -/
abbrev SYS_BAYSTATE_BAY3 : Fld := ⟨Reg.SYS_BAYSTATE, 15, 12⟩
/-- SYS_BAYSTATE.BAY4. -/
abbrev SYS_BAYSTATE_BAY4 : Fld := ⟨Reg.SYS_BAYSTATE, 19, 16⟩
/-- SYS_BAYSTATE.BAY5. -/
abbrev SYS_BAYSTATE_BAY5 : Fld := ⟨Reg.SYS_BAYSTATE, 23, 20⟩
/-- SYS_BAYSTATE.BAY6. -/
abbrev SYS_BAYSTATE_BAY6 : Fld := ⟨Reg.SYS_BAYSTATE, 27, 24⟩
/-- SYS_BAYSTATE.BAY7. -/
abbrev SYS_BAYSTATE_BAY7 : Fld := ⟨Reg.SYS_BAYSTATE, 31, 28⟩
/-- SYS_FWVER.BANK. -/
abbrev SYS_FWVER_BANK : Fld := ⟨Reg.SYS_FWVER, 31, 31⟩
/-- SYS_FWVER.NEXT. -/
abbrev SYS_FWVER_NEXT : Fld := ⟨Reg.SYS_FWVER, 30, 30⟩
/-- SYS_FWVER.MAJOR. -/
abbrev SYS_FWVER_MAJOR : Fld := ⟨Reg.SYS_FWVER, 23, 16⟩
/-- SYS_FWVER.MINOR. -/
abbrev SYS_FWVER_MINOR : Fld := ⟨Reg.SYS_FWVER, 15, 8⟩
/-- SYS_FWVER.PATCH. -/
abbrev SYS_FWVER_PATCH : Fld := ⟨Reg.SYS_FWVER, 7, 0⟩
/-- SYS_FLTSUM.ESCALATED. -/
abbrev SYS_FLTSUM_ESCALATED : Fld := ⟨Reg.SYS_FLTSUM, 11, 11⟩
/-- SYS_FLTSUM.BOARD_BAD. -/
abbrev SYS_FLTSUM_BOARD_BAD : Fld := ⟨Reg.SYS_FLTSUM, 10, 10⟩
/-- SYS_FLTSUM.BOOT_FAIL. -/
abbrev SYS_FLTSUM_BOOT_FAIL : Fld := ⟨Reg.SYS_FLTSUM, 9, 9⟩
/-- SYS_FLTSUM.WATCHDOG. -/
abbrev SYS_FLTSUM_WATCHDOG : Fld := ⟨Reg.SYS_FLTSUM, 8, 8⟩
/-- SYS_FLTSUM.PLATFORM. -/
abbrev SYS_FLTSUM_PLATFORM : Fld := ⟨Reg.SYS_FLTSUM, 7, 7⟩
/-- SYS_FLTSUM.BAY. -/
abbrev SYS_FLTSUM_BAY : Fld := ⟨Reg.SYS_FLTSUM, 6, 6⟩
/-- SYS_FLTSUM.LINK. -/
abbrev SYS_FLTSUM_LINK : Fld := ⟨Reg.SYS_FLTSUM, 5, 5⟩
/-- SYS_FLTSUM.PWM. -/
abbrev SYS_FLTSUM_PWM : Fld := ⟨Reg.SYS_FLTSUM, 4, 4⟩
/-- SYS_FLTSUM.TURN_STUCK. -/
abbrev SYS_FLTSUM_TURN_STUCK : Fld := ⟨Reg.SYS_FLTSUM, 3, 3⟩
/-- SYS_FLTSUM.SKIPPED. -/
abbrev SYS_FLTSUM_SKIPPED : Fld := ⟨Reg.SYS_FLTSUM, 2, 2⟩
/-- SYS_FLTSUM.TURN. -/
abbrev SYS_FLTSUM_TURN : Fld := ⟨Reg.SYS_FLTSUM, 1, 1⟩
/-- SYS_FLTSUM.CLOCK. -/
abbrev SYS_FLTSUM_CLOCK : Fld := ⟨Reg.SYS_FLTSUM, 0, 0⟩
/-- SYS_WDOG.KICK. -/
abbrev SYS_WDOG_KICK : Fld := ⟨Reg.SYS_WDOG, 31, 0⟩
/-- SYS_WDOGCFG.WDOG_MS. -/
abbrev SYS_WDOGCFG_WDOG_MS : Fld := ⟨Reg.SYS_WDOGCFG, 9, 0⟩
/-- SYS_BAYPOL.POLICY. -/
abbrev SYS_BAYPOL_POLICY : Fld := ⟨Reg.SYS_BAYPOL, 7, 1⟩
/-- SYS_STRAP.VDDIO_AON_V. -/
abbrev SYS_STRAP_VDDIO_AON_V : Fld := ⟨Reg.SYS_STRAP, 15, 8⟩
/-- SYS_STRAP.SNP_SYNC. -/
abbrev SYS_STRAP_SNP_SYNC : Fld := ⟨Reg.SYS_STRAP, 4, 4⟩
/-- SYS_STRAP.BOOT_SEL. -/
abbrev SYS_STRAP_BOOT_SEL : Fld := ⟨Reg.SYS_STRAP, 3, 2⟩
/-- SYS_STRAP.OSC_SEL. -/
abbrev SYS_STRAP_OSC_SEL : Fld := ⟨Reg.SYS_STRAP, 1, 0⟩
/-- SYS_TEMP.ALARM. -/
abbrev SYS_TEMP_ALARM : Fld := ⟨Reg.SYS_TEMP, 31, 31⟩
/-- SYS_TEMP.TEMP. -/
abbrev SYS_TEMP_TEMP : Fld := ⟨Reg.SYS_TEMP, 15, 0⟩
/-- SYS_TEMPALM.THRESH. -/
abbrev SYS_TEMPALM_THRESH : Fld := ⟨Reg.SYS_TEMPALM, 15, 0⟩
/-- SYS_TEMPMAX.MAX. -/
abbrev SYS_TEMPMAX_MAX : Fld := ⟨Reg.SYS_TEMPMAX, 15, 0⟩
/-- SYS_DDRWIN.BASE. -/
abbrev SYS_DDRWIN_BASE (n : Nat) : Fld := ⟨(Reg.SYS_DDRWIN n), 6, 0⟩
/-- PWR_STATE.ABANDONED. -/
abbrev PWR_STATE_ABANDONED (n : Nat) : Fld := ⟨(Reg.PWR_STATE n), 31, 16⟩
/-- PWR_STATE.STATE. -/
abbrev PWR_STATE_STATE (n : Nat) : Fld := ⟨(Reg.PWR_STATE n), 2, 0⟩
/-- PWR_REQ.UP. -/
abbrev PWR_REQ_UP : Fld := ⟨Reg.PWR_REQ, 8, 8⟩
/-- PWR_REQ.DOMAIN. -/
abbrev PWR_REQ_DOMAIN : Fld := ⟨Reg.PWR_REQ, 3, 0⟩
/-- PWR_POLICY.GATE. -/
abbrev PWR_POLICY_GATE : Fld := ⟨Reg.PWR_POLICY, 13, 4⟩
/-- PWR_DOWNCNT.COUNT. -/
abbrev PWR_DOWNCNT_COUNT : Fld := ⟨Reg.PWR_DOWNCNT, 31, 0⟩
/-- PWR_RESET.STATIC. -/
abbrev PWR_RESET_STATIC : Fld := ⟨Reg.PWR_RESET, 1, 1⟩
/-- PWR_RESET.SYSTEM. -/
abbrev PWR_RESET_SYSTEM : Fld := ⟨Reg.PWR_RESET, 0, 0⟩
/-- PWR_RSTCAUSE.CAUSE. -/
abbrev PWR_RSTCAUSE_CAUSE : Fld := ⟨Reg.PWR_RSTCAUSE, 3, 0⟩
/-- RDY_BOARD_LO.READY. -/
abbrev RDY_BOARD_LO_READY : Fld := ⟨Reg.RDY_BOARD_LO, 31, 0⟩
/-- RDY_BOARD_HI.READY. -/
abbrev RDY_BOARD_HI_READY : Fld := ⟨Reg.RDY_BOARD_HI, 31, 0⟩
/-- RDY_SETTIME.T_US. -/
abbrev RDY_SETTIME_T_US (n : Nat) : Fld := ⟨(Reg.RDY_SETTIME n), 31, 0⟩
/-- PLB_CTL.HOLD_LIMIT_S. -/
abbrev PLB_CTL_HOLD_LIMIT_S : Fld := ⟨Reg.PLB_CTL, 31, 16⟩
/-- PLB_CTL.STEP_FREERUN. -/
abbrev PLB_CTL_STEP_FREERUN : Fld := ⟨Reg.PLB_CTL, 9, 9⟩
/-- PLB_CTL.REVERTIVE. -/
abbrev PLB_CTL_REVERTIVE : Fld := ⟨Reg.PLB_CTL, 8, 8⟩
/-- PLB_CTL.AUTO. -/
abbrev PLB_CTL_AUTO : Fld := ⟨Reg.PLB_CTL, 7, 7⟩
/-- PLB_CTL.MANUAL_REF. -/
abbrev PLB_CTL_MANUAL_REF : Fld := ⟨Reg.PLB_CTL, 2, 0⟩
/-- PLB_STATE.QUALIFIED. -/
abbrev PLB_STATE_QUALIFIED : Fld := ⟨Reg.PLB_STATE, 15, 9⟩
/-- PLB_STATE.ALARM. -/
abbrev PLB_STATE_ALARM : Fld := ⟨Reg.PLB_STATE, 8, 8⟩
/-- PLB_STATE.VALID. -/
abbrev PLB_STATE_VALID : Fld := ⟨Reg.PLB_STATE, 7, 7⟩
/-- PLB_STATE.SELECTED. -/
abbrev PLB_STATE_SELECTED : Fld := ⟨Reg.PLB_STATE, 6, 4⟩
/-- PLB_STATE.SLOPE_ACTIVE. -/
abbrev PLB_STATE_SLOPE_ACTIVE : Fld := ⟨Reg.PLB_STATE, 2, 2⟩
/-- PLB_STATE.STATE. -/
abbrev PLB_STATE_STATE : Fld := ⟨Reg.PLB_STATE, 1, 0⟩
/-- PLB_HIST.HIST. -/
abbrev PLB_HIST_HIST : Fld := ⟨Reg.PLB_HIST, 9, 0⟩
/-- PLB_IEN.IEN. -/
abbrev PLB_IEN_IEN : Fld := ⟨Reg.PLB_IEN, 9, 0⟩
/-- PLB_ALMEN.ALMEN. -/
abbrev PLB_ALMEN_ALMEN : Fld := ⟨Reg.PLB_ALMEN, 4, 0⟩
/-- PLB_LOCK.WIN_NS. -/
abbrev PLB_LOCK_WIN_NS : Fld := ⟨Reg.PLB_LOCK, 31, 16⟩
/-- PLB_LOCK.LOCK_CYCLES. -/
abbrev PLB_LOCK_LOCK_CYCLES : Fld := ⟨Reg.PLB_LOCK, 15, 0⟩
/-- PLB_LOOP.BW. -/
abbrev PLB_LOOP_BW : Fld := ⟨Reg.PLB_LOOP, 1, 0⟩
/-- PLB_SLOPE.SLOPE_PS. -/
abbrev PLB_SLOPE_SLOPE_PS : Fld := ⟨Reg.PLB_SLOPE, 26, 0⟩
/-- PLB_PHASE.E. -/
abbrev PLB_PHASE_E : Fld := ⟨Reg.PLB_PHASE, 31, 0⟩
/-- PLB_GAP.CYCLES. -/
abbrev PLB_GAP_CYCLES : Fld := ⟨Reg.PLB_GAP, 31, 0⟩
/-- PLB_REFCFG.PRIORITY. -/
abbrev PLB_REFCFG_PRIORITY (n : Nat) : Fld := ⟨(Reg.PLB_REFCFG n), 3, 0⟩
/-- PLB_REFFREQ.FREQ_HZ. -/
abbrev PLB_REFFREQ_FREQ_HZ (n : Nat) : Fld := ⟨(Reg.PLB_REFFREQ n), 27, 0⟩
/-- PLB_REFTOL.TOL_PPB. -/
abbrev PLB_REFTOL_TOL_PPB (n : Nat) : Fld := ⟨(Reg.PLB_REFTOL n), 19, 0⟩
/-- PLB_REFQUAL.QUAL_CYCLES. -/
abbrev PLB_REFQUAL_QUAL_CYCLES (n : Nat) : Fld := ⟨(Reg.PLB_REFQUAL n), 15, 0⟩
/-- PLB_REFSTAT.LOSS. -/
abbrev PLB_REFSTAT_LOSS (n : Nat) : Fld := ⟨(Reg.PLB_REFSTAT n), 15, 8⟩
/-- PLB_REFSTAT.LOS. -/
abbrev PLB_REFSTAT_LOS (n : Nat) : Fld := ⟨(Reg.PLB_REFSTAT n), 2, 2⟩
/-- PLB_REFSTAT.GOOD. -/
abbrev PLB_REFSTAT_GOOD (n : Nat) : Fld := ⟨(Reg.PLB_REFSTAT n), 1, 1⟩
/-- PLB_REFSTAT.QUALIFIED. -/
abbrev PLB_REFSTAT_QUALIFIED (n : Nat) : Fld := ⟨(Reg.PLB_REFSTAT n), 0, 0⟩
/-- PLB_REFOFS.OFS. -/
abbrev PLB_REFOFS_OFS (n : Nat) : Fld := ⟨(Reg.PLB_REFOFS n), 31, 0⟩
/-- PLB_OUT0.ENABLE. -/
abbrev PLB_OUT0_ENABLE : Fld := ⟨Reg.PLB_OUT0, 31, 31⟩
/-- PLB_OUT0.SQUELCH. -/
abbrev PLB_OUT0_SQUELCH : Fld := ⟨Reg.PLB_OUT0, 30, 30⟩
/-- PLB_OUT0.FREQ_HZ. -/
abbrev PLB_OUT0_FREQ_HZ : Fld := ⟨Reg.PLB_OUT0, 26, 0⟩
/-- PLB_OUT1.ENABLE. -/
abbrev PLB_OUT1_ENABLE : Fld := ⟨Reg.PLB_OUT1, 31, 31⟩
/-- PLB_OUT1.SQUELCH. -/
abbrev PLB_OUT1_SQUELCH : Fld := ⟨Reg.PLB_OUT1, 30, 30⟩
/-- PLB_OUT1.FREQ_HZ. -/
abbrev PLB_OUT1_FREQ_HZ : Fld := ⟨Reg.PLB_OUT1, 26, 0⟩
/-- PLB_PPSOUT.ENABLE. -/
abbrev PLB_PPSOUT_ENABLE : Fld := ⟨Reg.PLB_PPSOUT, 31, 31⟩
/-- PLB_PPSOUT.SQUELCH. -/
abbrev PLB_PPSOUT_SQUELCH : Fld := ⟨Reg.PLB_PPSOUT, 30, 30⟩
/-- PLB_PPSOUT.PW_US. -/
abbrev PLB_PPSOUT_PW_US : Fld := ⟨Reg.PLB_PPSOUT, 18, 0⟩
/-- TME_SEC_LO.SECONDS. -/
abbrev TME_SEC_LO_SECONDS : Fld := ⟨Reg.TME_SEC_LO, 31, 0⟩
/-- TME_SEC_HI.SECONDS. -/
abbrev TME_SEC_HI_SECONDS : Fld := ⟨Reg.TME_SEC_HI, 15, 0⟩
/-- TME_NS.NS. -/
abbrev TME_NS_NS : Fld := ⟨Reg.TME_NS, 29, 0⟩
/-- TME_FRAC.FRAC. -/
abbrev TME_FRAC_FRAC : Fld := ⟨Reg.TME_FRAC, 15, 0⟩
/-- TME_FREQ.F. -/
abbrev TME_FREQ_F : Fld := ⟨Reg.TME_FREQ, 31, 0⟩
/-- TME_STEPS.STEPS. -/
abbrev TME_STEPS_STEPS : Fld := ⟨Reg.TME_STEPS, 15, 0⟩
/-- ODO_STALL_T.MS. -/
abbrev ODO_STALL_T_MS : Fld := ⟨Reg.ODO_STALL_T, 15, 0⟩
/-- ODO_SEL.SWITCHES. -/
abbrev ODO_SEL_SWITCHES : Fld := ⟨Reg.ODO_SEL, 31, 16⟩
/-- ODO_SEL.UNRELIABLE. -/
abbrev ODO_SEL_UNRELIABLE : Fld := ⟨Reg.ODO_SEL, 6, 6⟩
/-- ODO_SEL.DIR. -/
abbrev ODO_SEL_DIR : Fld := ⟨Reg.ODO_SEL, 5, 5⟩
/-- ODO_SEL.PREDICTED. -/
abbrev ODO_SEL_PREDICTED : Fld := ⟨Reg.ODO_SEL, 4, 4⟩
/-- ODO_SEL.STALLED. -/
abbrev ODO_SEL_STALLED : Fld := ⟨Reg.ODO_SEL, 3, 3⟩
/-- ODO_SEL.VALID. -/
abbrev ODO_SEL_VALID : Fld := ⟨Reg.ODO_SEL, 2, 2⟩
/-- ODO_SEL.AXLE. -/
abbrev ODO_SEL_AXLE : Fld := ⟨Reg.ODO_SEL, 1, 0⟩
/-- ODO_POS_LO.POS. -/
abbrev ODO_POS_LO_POS : Fld := ⟨Reg.ODO_POS_LO, 31, 0⟩
/-- ODO_POS_HI.POS. -/
abbrev ODO_POS_HI_POS : Fld := ⟨Reg.ODO_POS_HI, 31, 0⟩
/-- ODO_OFFSET_LO.OFFSET. -/
abbrev ODO_OFFSET_LO_OFFSET : Fld := ⟨Reg.ODO_OFFSET_LO, 31, 0⟩
/-- ODO_OFFSET_HI.OFFSET. -/
abbrev ODO_OFFSET_HI_OFFSET : Fld := ⟨Reg.ODO_OFFSET_HI, 31, 0⟩
/-- ODO_AXCFG.SWAP. -/
abbrev ODO_AXCFG_SWAP (n : Nat) : Fld := ⟨(Reg.ODO_AXCFG n), 4, 4⟩
/-- ODO_AXCFG.PRIORITY. -/
abbrev ODO_AXCFG_PRIORITY (n : Nat) : Fld := ⟨(Reg.ODO_AXCFG n), 3, 0⟩
/-- ODO_AXFAC.HIGH. -/
abbrev ODO_AXFAC_HIGH (n : Nat) : Fld := ⟨(Reg.ODO_AXFAC n), 31, 16⟩
/-- ODO_AXFAC.LOW. -/
abbrev ODO_AXFAC_LOW (n : Nat) : Fld := ⟨(Reg.ODO_AXFAC n), 15, 0⟩
/-- ODO_AXSTAT.RUN. -/
abbrev ODO_AXSTAT_RUN (n : Nat) : Fld := ⟨(Reg.ODO_AXSTAT n), 15, 8⟩
/-- ODO_AXSTAT.STATE. -/
abbrev ODO_AXSTAT_STATE (n : Nat) : Fld := ⟨(Reg.ODO_AXSTAT n), 2, 0⟩
/-- ODO_AXPOS_LO.POS. -/
abbrev ODO_AXPOS_LO_POS (n : Nat) : Fld := ⟨(Reg.ODO_AXPOS_LO n), 31, 0⟩
/-- ODO_AXPOS_HI.POS. -/
abbrev ODO_AXPOS_HI_POS (n : Nat) : Fld := ⟨(Reg.ODO_AXPOS_HI n), 31, 0⟩
/-- ODO_AXPER.PP. -/
abbrev ODO_AXPER_PP (n : Nat) : Fld := ⟨(Reg.ODO_AXPER n), 31, 0⟩
/-- ODO_AXCNT.NOISE. -/
abbrev ODO_AXCNT_NOISE (n : Nat) : Fld := ⟨(Reg.ODO_AXCNT n), 31, 24⟩
/-- ODO_AXCNT.SYNTH. -/
abbrev ODO_AXCNT_SYNTH (n : Nat) : Fld := ⟨(Reg.ODO_AXCNT n), 23, 16⟩
/-- ODO_AXCNT.QERR. -/
abbrev ODO_AXCNT_QERR (n : Nat) : Fld := ⟨(Reg.ODO_AXCNT n), 15, 8⟩
/-- ODO_EVARM.ARM. -/
abbrev ODO_EVARM_ARM (k : Nat) (n : Nat) : Fld := ⟨(Reg.ODO_EVARM k n), 31, 0⟩
/-- ODO_EVSTAT.FIRED. -/
abbrev ODO_EVSTAT_FIRED (n : Nat) : Fld := ⟨(Reg.ODO_EVSTAT n), 31, 16⟩
/-- ODO_EVSTAT.SKIPPED. -/
abbrev ODO_EVSTAT_SKIPPED (n : Nat) : Fld := ⟨(Reg.ODO_EVSTAT n), 15, 8⟩
/-- ODO_EVSTAT.PREDICTED. -/
abbrev ODO_EVSTAT_PREDICTED (n : Nat) : Fld := ⟨(Reg.ODO_EVSTAT n), 6, 6⟩
/-- ODO_EVSTAT.LATE. -/
abbrev ODO_EVSTAT_LATE (n : Nat) : Fld := ⟨(Reg.ODO_EVSTAT n), 5, 5⟩
/-- ODO_EVSTAT.REVERSED. -/
abbrev ODO_EVSTAT_REVERSED (n : Nat) : Fld := ⟨(Reg.ODO_EVSTAT n), 4, 4⟩
/-- ODO_EVSTAT.STATE. -/
abbrev ODO_EVSTAT_STATE (n : Nat) : Fld := ⟨(Reg.ODO_EVSTAT n), 2, 0⟩
/-- ODO_EVERR.ERR. -/
abbrev ODO_EVERR_ERR (n : Nat) : Fld := ⟨(Reg.ODO_EVERR n), 31, 0⟩
/-- PWM_CTL.SYNC_ARG. -/
abbrev PWM_CTL_SYNC_ARG (n : Nat) : Fld := ⟨(Reg.PWM_CTL n), 15, 8⟩
/-- PWM_CTL.SYNC. -/
abbrev PWM_CTL_SYNC (n : Nat) : Fld := ⟨(Reg.PWM_CTL n), 5, 4⟩
/-- PWM_CTL.INVERT. -/
abbrev PWM_CTL_INVERT (n : Nat) : Fld := ⟨(Reg.PWM_CTL n), 1, 1⟩
/-- PWM_CTL.ENABLE. -/
abbrev PWM_CTL_ENABLE (n : Nat) : Fld := ⟨(Reg.PWM_CTL n), 0, 0⟩
/-- PWM_PER.PERIOD. -/
abbrev PWM_PER_PERIOD (n : Nat) : Fld := ⟨(Reg.PWM_PER n), 28, 0⟩
/-- PWM_DUTY.DUTY. -/
abbrev PWM_DUTY_DUTY (n : Nat) : Fld := ⟨(Reg.PWM_DUTY n), 28, 0⟩
/-- PWM_DEAD.DEAD. -/
abbrev PWM_DEAD_DEAD (n : Nat) : Fld := ⟨(Reg.PWM_DEAD n), 15, 0⟩
/-- PWM_BOOT.BOOT_HOLD. -/
abbrev PWM_BOOT_BOOT_HOLD (n : Nat) : Fld := ⟨(Reg.PWM_BOOT n), 31, 16⟩
/-- PWM_BOOT.BOOT_PW. -/
abbrev PWM_BOOT_BOOT_PW (n : Nat) : Fld := ⟨(Reg.PWM_BOOT n), 15, 0⟩
/-- PWM_LIM.ENABLE. -/
abbrev PWM_LIM_ENABLE (n : Nat) : Fld := ⟨(Reg.PWM_LIM n), 31, 31⟩
/-- PWM_LIM.MAX_ON_US. -/
abbrev PWM_LIM_MAX_ON_US (n : Nat) : Fld := ⟨(Reg.PWM_LIM n), 23, 0⟩
/-- PWM_STAT.DELAYED. -/
abbrev PWM_STAT_DELAYED (n : Nat) : Fld := ⟨(Reg.PWM_STAT n), 31, 24⟩
/-- PWM_STAT.DROPPED. -/
abbrev PWM_STAT_DROPPED (n : Nat) : Fld := ⟨(Reg.PWM_STAT n), 23, 16⟩
/-- PWM_STAT.FROZEN. -/
abbrev PWM_STAT_FROZEN (n : Nat) : Fld := ⟨(Reg.PWM_STAT n), 5, 5⟩
/-- PWM_STAT.LIMIT. -/
abbrev PWM_STAT_LIMIT (n : Nat) : Fld := ⟨(Reg.PWM_STAT n), 4, 4⟩
/-- PWM_STAT.FAULT. -/
abbrev PWM_STAT_FAULT (n : Nat) : Fld := ⟨(Reg.PWM_STAT n), 3, 3⟩
/-- PWM_STAT.QUEUED. -/
abbrev PWM_STAT_QUEUED (n : Nat) : Fld := ⟨(Reg.PWM_STAT n), 2, 2⟩
/-- PWM_STAT.L_ON. -/
abbrev PWM_STAT_L_ON (n : Nat) : Fld := ⟨(Reg.PWM_STAT n), 1, 1⟩
/-- PWM_STAT.H_ON. -/
abbrev PWM_STAT_H_ON (n : Nat) : Fld := ⟨(Reg.PWM_STAT n), 0, 0⟩
/-- PWM_FLTSTAT.TRIPS. -/
abbrev PWM_FLTSTAT_TRIPS : Fld := ⟨Reg.PWM_FLTSTAT, 31, 16⟩
/-- PWM_FLTSTAT.FLT1_SEEN. -/
abbrev PWM_FLTSTAT_FLT1_SEEN : Fld := ⟨Reg.PWM_FLTSTAT, 3, 3⟩
/-- PWM_FLTSTAT.FLT0_SEEN. -/
abbrev PWM_FLTSTAT_FLT0_SEEN : Fld := ⟨Reg.PWM_FLTSTAT, 2, 2⟩
/-- PWM_FLTSTAT.FLT1_LOW. -/
abbrev PWM_FLTSTAT_FLT1_LOW : Fld := ⟨Reg.PWM_FLTSTAT, 1, 1⟩
/-- PWM_FLTSTAT.FLT0_LOW. -/
abbrev PWM_FLTSTAT_FLT0_LOW : Fld := ⟨Reg.PWM_FLTSTAT, 0, 0⟩
/-- FGE_STATUS.COMMIT_PENDING. -/
abbrev FGE_STATUS_COMMIT_PENDING : Fld := ⟨Reg.FGE_STATUS, 31, 24⟩
/-- FGE_STATUS.STAGED. -/
abbrev FGE_STATUS_STAGED : Fld := ⟨Reg.FGE_STATUS, 23, 16⟩
/-- FGE_STATUS.SLIP_EARLY. -/
abbrev FGE_STATUS_SLIP_EARLY : Fld := ⟨Reg.FGE_STATUS, 3, 3⟩
/-- FGE_STATUS.SLIP_LATE. -/
abbrev FGE_STATUS_SLIP_LATE : Fld := ⟨Reg.FGE_STATUS, 2, 2⟩
/-- FGE_STATUS.REPLAY_SLOT. -/
abbrev FGE_STATUS_REPLAY_SLOT : Fld := ⟨Reg.FGE_STATUS, 1, 1⟩
/-- FGE_STATUS.RUNNING. -/
abbrev FGE_STATUS_RUNNING : Fld := ⟨Reg.FGE_STATUS, 0, 0⟩
/-- FGE_GEOM.TAIL_NOM. -/
abbrev FGE_GEOM_TAIL_NOM : Fld := ⟨Reg.FGE_GEOM, 27, 16⟩
/-- FGE_GEOM.TURN_LEN. -/
abbrev FGE_GEOM_TURN_LEN : Fld := ⟨Reg.FGE_GEOM, 12, 0⟩
/-- FGE_TURNS.N. -/
abbrev FGE_TURNS_N : Fld := ⟨Reg.FGE_TURNS, 18, 0⟩
/-- FGE_PAD.PAD. -/
abbrev FGE_PAD_PAD : Fld := ⟨Reg.FGE_PAD, 28, 0⟩
/-- FGE_PERIOD.PERIOD_US. -/
abbrev FGE_PERIOD_PERIOD_US : Fld := ⟨Reg.FGE_PERIOD, 19, 0⟩
/-- FGE_MEASURE_LO.MEASURE. -/
abbrev FGE_MEASURE_LO_MEASURE : Fld := ⟨Reg.FGE_MEASURE_LO, 31, 0⟩
/-- FGE_MEASURE_HI.MEASURE. -/
abbrev FGE_MEASURE_HI_MEASURE : Fld := ⟨Reg.FGE_MEASURE_HI, 31, 0⟩
/-- FGE_TAIL.LAST. -/
abbrev FGE_TAIL_LAST : Fld := ⟨Reg.FGE_TAIL, 11, 0⟩
/-- FGE_SLIP.SKIPPED. -/
abbrev FGE_SLIP_SKIPPED : Fld := ⟨Reg.FGE_SLIP, 31, 16⟩
/-- FGE_SLIP.SLIPS. -/
abbrev FGE_SLIP_SLIPS : Fld := ⟨Reg.FGE_SLIP, 15, 0⟩
/-- FGE_LOAD.CODE. -/
abbrev FGE_LOAD_CODE (n : Nat) : Fld := ⟨(Reg.FGE_LOAD n), 15, 0⟩
/-- FGE_LOAD_OFS.OFFSET. -/
abbrev FGE_LOAD_OFS_OFFSET (n : Nat) : Fld := ⟨(Reg.FGE_LOAD_OFS n), 31, 0⟩
/-- FGE_LOAD_LOC.RESOURCE. -/
abbrev FGE_LOAD_LOC_RESOURCE (n : Nat) : Fld := ⟨(Reg.FGE_LOAD_LOC n), 28, 20⟩
/-- FGE_LOAD_LOC.STEP. -/
abbrev FGE_LOAD_LOC_STEP (n : Nat) : Fld := ⟨(Reg.FGE_LOAD_LOC n), 17, 0⟩
/-- FGE_FMT.VERSION. -/
abbrev FGE_FMT_VERSION : Fld := ⟨Reg.FGE_FMT, 15, 0⟩
/-- FGE_ACT.QUOTA. -/
abbrev FGE_ACT_QUOTA (n : Nat) : Fld := ⟨(Reg.FGE_ACT n), 28, 16⟩
/-- FGE_ACT.USED. -/
abbrev FGE_ACT_USED (n : Nat) : Fld := ⟨(Reg.FGE_ACT n), 12, 0⟩
/-- FGE_DESC.QUOTA. -/
abbrev FGE_DESC_QUOTA (n : Nat) : Fld := ⟨(Reg.FGE_DESC n), 31, 16⟩
/-- FGE_DESC.USED. -/
abbrev FGE_DESC_USED (n : Nat) : Fld := ⟨(Reg.FGE_DESC n), 15, 0⟩
/-- FGE_FAULT.TURN_FAULTS. -/
abbrev FGE_FAULT_TURN_FAULTS : Fld := ⟨Reg.FGE_FAULT, 31, 16⟩
/-- FGE_FAULT.STORE_UE. -/
abbrev FGE_FAULT_STORE_UE : Fld := ⟨Reg.FGE_FAULT, 15, 8⟩
/-- FGE_FAULT.CONSEC. -/
abbrev FGE_FAULT_CONSEC : Fld := ⟨Reg.FGE_FAULT, 7, 0⟩
/-- FGE_REPLAY.REPLAYED. -/
abbrev FGE_REPLAY_REPLAYED : Fld := ⟨Reg.FGE_REPLAY, 31, 16⟩
/-- FGE_REPLAY.UNJOURNALLED. -/
abbrev FGE_REPLAY_UNJOURNALLED : Fld := ⟨Reg.FGE_REPLAY, 15, 8⟩
/-- FGE_REPLAY.FORCED_SWAP. -/
abbrev FGE_REPLAY_FORCED_SWAP : Fld := ⟨Reg.FGE_REPLAY, 7, 0⟩
/-- SE_STATUS.BAY. -/
abbrev SE_STATUS_BAY (n : Nat) : Fld := ⟨(Reg.SE_STATUS n), 10, 8⟩
/-- SE_STATUS.DRAIN. -/
abbrev SE_STATUS_DRAIN (n : Nat) : Fld := ⟨(Reg.SE_STATUS n), 1, 1⟩
/-- SE_STATUS.ISSUE. -/
abbrev SE_STATUS_ISSUE (n : Nat) : Fld := ⟨(Reg.SE_STATUS n), 0, 0⟩
/-- SE_FLAGS.RESIDUE. -/
abbrev SE_FLAGS_RESIDUE (k : Nat) (n : Nat) : Fld := ⟨(Reg.SE_FLAGS k n), 4, 4⟩
/-- SE_FLAGS.UNF. -/
abbrev SE_FLAGS_UNF (k : Nat) (n : Nat) : Fld := ⟨(Reg.SE_FLAGS k n), 3, 3⟩
/-- SE_FLAGS.OVF. -/
abbrev SE_FLAGS_OVF (k : Nat) (n : Nat) : Fld := ⟨(Reg.SE_FLAGS k n), 2, 2⟩
/-- SE_FLAGS.INV. -/
abbrev SE_FLAGS_INV (k : Nat) (n : Nat) : Fld := ⟨(Reg.SE_FLAGS k n), 1, 1⟩
/-- SE_FLAGS.SAT. -/
abbrev SE_FLAGS_SAT (k : Nat) (n : Nat) : Fld := ⟨(Reg.SE_FLAGS k n), 0, 0⟩
/-- SE_DONE.COUNT. -/
abbrev SE_DONE_COUNT (k : Nat) (n : Nat) : Fld := ⟨(Reg.SE_DONE k n), 31, 0⟩
/-- SE_LUTSWAP.SWAP. -/
abbrev SE_LUTSWAP_SWAP (n : Nat) : Fld := ⟨(Reg.SE_LUTSWAP n), 7, 0⟩
/-- SE_LUT.ENTRY. -/
abbrev SE_LUT_ENTRY (k : Nat) (n : Nat) (i : Nat) : Fld := ⟨(Reg.SE_LUT k n i), 31, 0⟩
/-- BKF_SCRUB.PASSES. -/
abbrev BKF_SCRUB_PASSES : Fld := ⟨Reg.BKF_SCRUB, 31, 16⟩
/-- BKF_SCRUB.ROW. -/
abbrev BKF_SCRUB_ROW : Fld := ⟨Reg.BKF_SCRUB, 15, 3⟩
/-- BKF_SCRUB.RATE. -/
abbrev BKF_SCRUB_RATE : Fld := ⟨Reg.BKF_SCRUB, 1, 0⟩
/-- BKF_ECC.CE. -/
abbrev BKF_ECC_CE : Fld := ⟨Reg.BKF_ECC, 31, 16⟩
/-- BKF_ECC.UE. -/
abbrev BKF_ECC_UE : Fld := ⟨Reg.BKF_ECC, 15, 8⟩
/-- BKF_ECC.WB_LOST. -/
abbrev BKF_ECC_WB_LOST : Fld := ⟨Reg.BKF_ECC, 7, 0⟩
/-- BKF_ERR_ADDR.VALID. -/
abbrev BKF_ERR_ADDR_VALID : Fld := ⟨Reg.BKF_ERR_ADDR, 31, 31⟩
/-- BKF_ERR_ADDR.DYNAMIC. -/
abbrev BKF_ERR_ADDR_DYNAMIC : Fld := ⟨Reg.BKF_ERR_ADDR, 30, 30⟩
/-- BKF_ERR_ADDR.ADDR. -/
abbrev BKF_ERR_ADDR_ADDR : Fld := ⟨Reg.BKF_ERR_ADDR, 24, 0⟩
/-- BKF_DYN_WAIT.MAX. -/
abbrev BKF_DYN_WAIT_MAX : Fld := ⟨Reg.BKF_DYN_WAIT, 15, 0⟩
/-- BKF_RMW.RETRY. -/
abbrev BKF_RMW_RETRY : Fld := ⟨Reg.BKF_RMW, 15, 0⟩
/-- DDR_CFG.CAP. -/
abbrev DDR_CFG_CAP : Fld := ⟨Reg.DDR_CFG, 7, 6⟩
/-- DDR_CFG.RATE. -/
abbrev DDR_CFG_RATE : Fld := ⟨Reg.DDR_CFG, 1, 0⟩
/-- DDR_STAT.DYN_WAIT. -/
abbrev DDR_STAT_DYN_WAIT : Fld := ⟨Reg.DDR_STAT, 31, 16⟩
/-- DDR_STAT.ZQ_DEFER. -/
abbrev DDR_STAT_ZQ_DEFER : Fld := ⟨Reg.DDR_STAT, 15, 8⟩
/-- DDR_STAT.TRAINED. -/
abbrev DDR_STAT_TRAINED : Fld := ⟨Reg.DDR_STAT, 0, 0⟩
/-- DDR_ECC.CE. -/
abbrev DDR_ECC_CE : Fld := ⟨Reg.DDR_ECC, 31, 16⟩
/-- DDR_ECC.UE. -/
abbrev DDR_ECC_UE : Fld := ⟨Reg.DDR_ECC, 15, 0⟩
/-- BXM_PRI.PRI_M0. -/
abbrev BXM_PRI_PRI_M0 (n : Nat) : Fld := ⟨(Reg.BXM_PRI n), 3, 0⟩
/-- BXM_PRI.PRI_M1. -/
abbrev BXM_PRI_PRI_M1 (n : Nat) : Fld := ⟨(Reg.BXM_PRI n), 7, 4⟩
/-- BXM_PRI.PRI_M2. -/
abbrev BXM_PRI_PRI_M2 (n : Nat) : Fld := ⟨(Reg.BXM_PRI n), 11, 8⟩
/-- BXM_PRI.PRI_M3. -/
abbrev BXM_PRI_PRI_M3 (n : Nat) : Fld := ⟨(Reg.BXM_PRI n), 15, 12⟩
/-- BXM_PRI.PRI_M4. -/
abbrev BXM_PRI_PRI_M4 (n : Nat) : Fld := ⟨(Reg.BXM_PRI n), 19, 16⟩
/-- BXM_PRI.PRI_M5. -/
abbrev BXM_PRI_PRI_M5 (n : Nat) : Fld := ⟨(Reg.BXM_PRI n), 23, 20⟩
/-- BXM_PRI.PRI_M6. -/
abbrev BXM_PRI_PRI_M6 (n : Nat) : Fld := ⟨(Reg.BXM_PRI n), 27, 24⟩
/-- BXM_PRI.PRI_M7. -/
abbrev BXM_PRI_PRI_M7 (n : Nat) : Fld := ⟨(Reg.BXM_PRI n), 31, 28⟩
/-- BXM_AGE.LIMIT. -/
abbrev BXM_AGE_LIMIT : Fld := ⟨Reg.BXM_AGE, 11, 0⟩
/-- BXM_SRAM.LEN. -/
abbrev BXM_SRAM_LEN (n : Nat) : Fld := ⟨(Reg.BXM_SRAM n), 22, 16⟩
/-- BXM_SRAM.BASE. -/
abbrev BXM_SRAM_BASE (n : Nat) : Fld := ⟨(Reg.BXM_SRAM n), 5, 0⟩
/-- BXM_BKF.LEN. -/
abbrev BXM_BKF_LEN (n : Nat) : Fld := ⟨(Reg.BXM_BKF n), 25, 16⟩
/-- BXM_BKF.BASE. -/
abbrev BXM_BKF_BASE (n : Nat) : Fld := ⟨(Reg.BXM_BKF n), 8, 0⟩
/-- BXM_DDR.LEN. -/
abbrev BXM_DDR_LEN (n : Nat) : Fld := ⟨(Reg.BXM_DDR n), 27, 16⟩
/-- BXM_DDR.BASE. -/
abbrev BXM_DDR_BASE (n : Nat) : Fld := ⟨(Reg.BXM_DDR n), 10, 0⟩
/-- BXM_VIOL.CAPTURED. -/
abbrev BXM_VIOL_CAPTURED (n : Nat) : Fld := ⟨(Reg.BXM_VIOL n), 31, 31⟩
/-- BXM_VIOL.SOURCE. -/
abbrev BXM_VIOL_SOURCE (n : Nat) : Fld := ⟨(Reg.BXM_VIOL n), 16, 16⟩
/-- BXM_VIOL.COUNT. -/
abbrev BXM_VIOL_COUNT (n : Nat) : Fld := ⟨(Reg.BXM_VIOL n), 15, 0⟩
/-- BXM_VADDR.ADDR. -/
abbrev BXM_VADDR_ADDR (n : Nat) : Fld := ⟨(Reg.BXM_VADDR n), 31, 0⟩
/-- VXM_DOWN.OWNER0. -/
abbrev VXM_DOWN_OWNER0 (n : Nat) : Fld := ⟨(Reg.VXM_DOWN n), 3, 0⟩
/-- VXM_DOWN.OWNER1. -/
abbrev VXM_DOWN_OWNER1 (n : Nat) : Fld := ⟨(Reg.VXM_DOWN n), 7, 4⟩
/-- VXM_DOWN.OWNER2. -/
abbrev VXM_DOWN_OWNER2 (n : Nat) : Fld := ⟨(Reg.VXM_DOWN n), 11, 8⟩
/-- VXM_DOWN.OWNER3. -/
abbrev VXM_DOWN_OWNER3 (n : Nat) : Fld := ⟨(Reg.VXM_DOWN n), 15, 12⟩
/-- VXM_DOWN.OWNER4. -/
abbrev VXM_DOWN_OWNER4 (n : Nat) : Fld := ⟨(Reg.VXM_DOWN n), 19, 16⟩
/-- VXM_DOWN.OWNER5. -/
abbrev VXM_DOWN_OWNER5 (n : Nat) : Fld := ⟨(Reg.VXM_DOWN n), 23, 20⟩
/-- VXM_DOWN.OWNER6. -/
abbrev VXM_DOWN_OWNER6 (n : Nat) : Fld := ⟨(Reg.VXM_DOWN n), 27, 24⟩
/-- VXM_DOWN.OWNER7. -/
abbrev VXM_DOWN_OWNER7 (n : Nat) : Fld := ⟨(Reg.VXM_DOWN n), 31, 28⟩
/-- VXM_SOWN.OWNER0. -/
abbrev VXM_SOWN_OWNER0 (n : Nat) : Fld := ⟨(Reg.VXM_SOWN n), 3, 0⟩
/-- VXM_SOWN.OWNER1. -/
abbrev VXM_SOWN_OWNER1 (n : Nat) : Fld := ⟨(Reg.VXM_SOWN n), 7, 4⟩
/-- VXM_SOWN.OWNER2. -/
abbrev VXM_SOWN_OWNER2 (n : Nat) : Fld := ⟨(Reg.VXM_SOWN n), 11, 8⟩
/-- VXM_SOWN.OWNER3. -/
abbrev VXM_SOWN_OWNER3 (n : Nat) : Fld := ⟨(Reg.VXM_SOWN n), 15, 12⟩
/-- VXM_SOWN.OWNER4. -/
abbrev VXM_SOWN_OWNER4 (n : Nat) : Fld := ⟨(Reg.VXM_SOWN n), 19, 16⟩
/-- VXM_SOWN.OWNER5. -/
abbrev VXM_SOWN_OWNER5 (n : Nat) : Fld := ⟨(Reg.VXM_SOWN n), 23, 20⟩
/-- VXM_SOWN.OWNER6. -/
abbrev VXM_SOWN_OWNER6 (n : Nat) : Fld := ⟨(Reg.VXM_SOWN n), 27, 24⟩
/-- VXM_SOWN.OWNER7. -/
abbrev VXM_SOWN_OWNER7 (n : Nat) : Fld := ⟨(Reg.VXM_SOWN n), 31, 28⟩
/-- MBX_DBLATCH.PF. -/
abbrev MBX_DBLATCH_PF : Fld := ⟨Reg.MBX_DBLATCH, 8, 8⟩
/-- MBX_DBLATCH.BAY. -/
abbrev MBX_DBLATCH_BAY : Fld := ⟨Reg.MBX_DBLATCH, 7, 0⟩
/-- MBX_CFG.PRODUCER. -/
abbrev MBX_CFG_PRODUCER (n : Nat) : Fld := ⟨(Reg.MBX_CFG n), 0, 0⟩
/-- PCI_ERR.WR_DROP. -/
abbrev PCI_ERR_WR_DROP : Fld := ⟨Reg.PCI_ERR, 31, 24⟩
/-- PCI_ERR.BAD_ACCESS. -/
abbrev PCI_ERR_BAD_ACCESS : Fld := ⟨Reg.PCI_ERR, 23, 16⟩
/-- PCI_ERR.ABSENT. -/
abbrev PCI_ERR_ABSENT : Fld := ⟨Reg.PCI_ERR, 15, 8⟩
/-- PCI_ERR.TIMEOUT. -/
abbrev PCI_ERR_TIMEOUT : Fld := ⟨Reg.PCI_ERR, 7, 0⟩
/-- PCI_CTO.TIMEOUT. -/
abbrev PCI_CTO_TIMEOUT : Fld := ⟨Reg.PCI_CTO, 13, 0⟩
/-- PCI_RAISE.VEC. -/
abbrev PCI_RAISE_VEC (n : Nat) : Fld := ⟨(Reg.PCI_RAISE n), 31, 0⟩
/-- PEG_WIN.TARGET. -/
abbrev PEG_WIN_TARGET (n : Nat) : Fld := ⟨(Reg.PEG_WIN n), 31, 31⟩
/-- PEG_WIN.BASE. -/
abbrev PEG_WIN_BASE (n : Nat) : Fld := ⟨(Reg.PEG_WIN n), 18, 0⟩
/-- PEG_REQ.TARGET. -/
abbrev PEG_REQ_TARGET (n : Nat) : Fld := ⟨(Reg.PEG_REQ n), 17, 16⟩
/-- PEG_REQ.PEG. -/
abbrev PEG_REQ_PEG (n : Nat) : Fld := ⟨(Reg.PEG_REQ n), 11, 0⟩
/-- PEG_DQ.VALID. -/
abbrev PEG_DQ_VALID (n : Nat) : Fld := ⟨(Reg.PEG_DQ n), 31, 31⟩
/-- PEG_DQ.OVF. -/
abbrev PEG_DQ_OVF (n : Nat) : Fld := ⟨(Reg.PEG_DQ n), 30, 30⟩
/-- PEG_DQ.PEG. -/
abbrev PEG_DQ_PEG (n : Nat) : Fld := ⟨(Reg.PEG_DQ n), 11, 0⟩
/-- PEG_DSTAT.FLR. -/
abbrev PEG_DSTAT_FLR (n : Nat) : Fld := ⟨(Reg.PEG_DSTAT n), 1, 1⟩
/-- PEG_DSTAT.PENDING. -/
abbrev PEG_DSTAT_PENDING (n : Nat) : Fld := ⟨(Reg.PEG_DSTAT n), 0, 0⟩
/-- PEG_FSTAT.FAULTS. -/
abbrev PEG_FSTAT_FAULTS (n : Nat) : Fld := ⟨(Reg.PEG_FSTAT n), 31, 24⟩
/-- PEG_FSTAT.IGNORED. -/
abbrev PEG_FSTAT_IGNORED (n : Nat) : Fld := ⟨(Reg.PEG_FSTAT n), 23, 16⟩
/-- PEG_FSTAT.CAUSE. -/
abbrev PEG_FSTAT_CAUSE (n : Nat) : Fld := ⟨(Reg.PEG_FSTAT n), 15, 14⟩
/-- PEG_FSTAT.PEG. -/
abbrev PEG_FSTAT_PEG (n : Nat) : Fld := ⟨(Reg.PEG_FSTAT n), 11, 0⟩
/-- PEG_STATE.STATE. -/
abbrev PEG_STATE_STATE (k : Nat) (n : Nat) : Fld := ⟨(Reg.PEG_STATE k n), 31, 0⟩
/-- SNP_STAT.IGNORED. -/
abbrev SNP_STAT_IGNORED : Fld := ⟨Reg.SNP_STAT, 31, 16⟩
/-- SNP_STAT.SYNC. -/
abbrev SNP_STAT_SYNC : Fld := ⟨Reg.SNP_STAT, 0, 0⟩
/-- CSI_STAT.ECC_CE. -/
abbrev CSI_STAT_ECC_CE (n : Nat) : Fld := ⟨(Reg.CSI_STAT n), 31, 24⟩
/-- CSI_STAT.HDR_DROP. -/
abbrev CSI_STAT_HDR_DROP (n : Nat) : Fld := ⟨(Reg.CSI_STAT n), 23, 16⟩
/-- CSI_STAT.CRC_ERR. -/
abbrev CSI_STAT_CRC_ERR (n : Nat) : Fld := ⟨(Reg.CSI_STAT n), 15, 8⟩
/-- CSI_STAT.ULPS. -/
abbrev CSI_STAT_ULPS (n : Nat) : Fld := ⟨(Reg.CSI_STAT n), 2, 2⟩
/-- CSI_STAT.LANES. -/
abbrev CSI_STAT_LANES (n : Nat) : Fld := ⟨(Reg.CSI_STAT n), 1, 0⟩
/-- CSI_DISC.BAD_DT. -/
abbrev CSI_DISC_BAD_DT (n : Nat) : Fld := ⟨(Reg.CSI_DISC n), 31, 16⟩
/-- CSI_DISC.UNBOUND. -/
abbrev CSI_DISC_UNBOUND (n : Nat) : Fld := ⟨(Reg.CSI_DISC n), 15, 0⟩
/-- CNF_STAT.LOST_RUN. -/
abbrev CNF_STAT_LOST_RUN (n : Nat) : Fld := ⟨(Reg.CNF_STAT n), 31, 24⟩
/-- CNF_STAT.OVERRUN. -/
abbrev CNF_STAT_OVERRUN (n : Nat) : Fld := ⟨(Reg.CNF_STAT n), 8, 8⟩
/-- CNF_STAT.LATE. -/
abbrev CNF_STAT_LATE (n : Nat) : Fld := ⟨(Reg.CNF_STAT n), 7, 7⟩
/-- CNF_STAT.LOST. -/
abbrev CNF_STAT_LOST (n : Nat) : Fld := ⟨(Reg.CNF_STAT n), 6, 6⟩
/-- CNF_STAT.LONG_FRAME. -/
abbrev CNF_STAT_LONG_FRAME (n : Nat) : Fld := ⟨(Reg.CNF_STAT n), 5, 5⟩
/-- CNF_STAT.SHORT_FRAME. -/
abbrev CNF_STAT_SHORT_FRAME (n : Nat) : Fld := ⟨(Reg.CNF_STAT n), 4, 4⟩
/-- CNF_STAT.LONG_LINE. -/
abbrev CNF_STAT_LONG_LINE (n : Nat) : Fld := ⟨(Reg.CNF_STAT n), 3, 3⟩
/-- CNF_STAT.SHORT_LINE. -/
abbrev CNF_STAT_SHORT_LINE (n : Nat) : Fld := ⟨(Reg.CNF_STAT n), 2, 2⟩
/-- CNF_STAT.CONFIGURED. -/
abbrev CNF_STAT_CONFIGURED (n : Nat) : Fld := ⟨(Reg.CNF_STAT n), 1, 1⟩
/-- CNF_STAT.BOUND. -/
abbrev CNF_STAT_BOUND (n : Nat) : Fld := ⟨(Reg.CNF_STAT n), 0, 0⟩
/-- CNF_FRAME.FRAME. -/
abbrev CNF_FRAME_FRAME (n : Nat) : Fld := ⟨(Reg.CNF_FRAME n), 31, 0⟩
/-- CNF_CNT.LOST. -/
abbrev CNF_CNT_LOST (n : Nat) : Fld := ⟨(Reg.CNF_CNT n), 31, 16⟩
/-- CNF_CNT.MISALIGNED. -/
abbrev CNF_CNT_MISALIGNED (n : Nat) : Fld := ⟨(Reg.CNF_CNT n), 15, 8⟩
/-- CNF_CNT.SUPPRESSED. -/
abbrev CNF_CNT_SUPPRESSED (n : Nat) : Fld := ⟨(Reg.CNF_CNT n), 7, 0⟩
/-- VXM_DSTAT.PENDING. -/
abbrev VXM_DSTAT_PENDING (n : Nat) : Fld := ⟨(Reg.VXM_DSTAT n), 31, 31⟩
/-- VXM_DSTAT.OVERRIDE. -/
abbrev VXM_DSTAT_OVERRIDE (n : Nat) : Fld := ⟨(Reg.VXM_DSTAT n), 30, 30⟩
/-- VXM_DSTAT.REPLAY. -/
abbrev VXM_DSTAT_REPLAY (n : Nat) : Fld := ⟨(Reg.VXM_DSTAT n), 29, 29⟩
/-- VXM_DSTAT.NOFEED. -/
abbrev VXM_DSTAT_NOFEED (n : Nat) : Fld := ⟨(Reg.VXM_DSTAT n), 28, 28⟩
/-- VXM_DSTAT.PROFILE. -/
abbrev VXM_DSTAT_PROFILE (n : Nat) : Fld := ⟨(Reg.VXM_DSTAT n), 21, 16⟩
/-- VXM_DSTAT.SOURCE. -/
abbrev VXM_DSTAT_SOURCE (n : Nat) : Fld := ⟨(Reg.VXM_DSTAT n), 15, 8⟩
/-- VXM_DFLAG.REPEAT. -/
abbrev VXM_DFLAG_REPEAT (n : Nat) : Fld := ⟨(Reg.VXM_DFLAG n), 4, 4⟩
/-- VXM_DFLAG.FAULT. -/
abbrev VXM_DFLAG_FAULT (n : Nat) : Fld := ⟨(Reg.VXM_DFLAG n), 3, 3⟩
/-- VXM_DFLAG.LATE. -/
abbrev VXM_DFLAG_LATE (n : Nat) : Fld := ⟨(Reg.VXM_DFLAG n), 2, 2⟩
/-- VXM_DFLAG.FORMAT. -/
abbrev VXM_DFLAG_FORMAT (n : Nat) : Fld := ⟨(Reg.VXM_DFLAG n), 1, 1⟩
/-- VXM_DFLAG.OVERRUN. -/
abbrev VXM_DFLAG_OVERRUN (n : Nat) : Fld := ⟨(Reg.VXM_DFLAG n), 0, 0⟩
/-- DPO_STAT.RESYNC. -/
abbrev DPO_STAT_RESYNC (n : Nat) : Fld := ⟨(Reg.DPO_STAT n), 31, 24⟩
/-- DPO_STAT.TRAIN_FAIL. -/
abbrev DPO_STAT_TRAIN_FAIL (n : Nat) : Fld := ⟨(Reg.DPO_STAT n), 23, 16⟩
/-- DPO_STAT.RATE. -/
abbrev DPO_STAT_RATE (n : Nat) : Fld := ⟨(Reg.DPO_STAT n), 7, 6⟩
/-- DPO_STAT.LANES. -/
abbrev DPO_STAT_LANES (n : Nat) : Fld := ⟨(Reg.DPO_STAT n), 5, 3⟩
/-- DPO_STAT.TRAINED. -/
abbrev DPO_STAT_TRAINED (n : Nat) : Fld := ⟨(Reg.DPO_STAT n), 2, 2⟩
/-- DPO_STAT.HPD. -/
abbrev DPO_STAT_HPD (n : Nat) : Fld := ⟨(Reg.DPO_STAT n), 1, 1⟩
/-- DPO_STAT.ENABLED. -/
abbrev DPO_STAT_ENABLED (n : Nat) : Fld := ⟨(Reg.DPO_STAT n), 0, 0⟩
/-- DPO_FRAME.FRAME. -/
abbrev DPO_FRAME_FRAME (n : Nat) : Fld := ⟨(Reg.DPO_FRAME n), 31, 0⟩
/-- XSC_DEC.LATE. -/
abbrev XSC_DEC_LATE (n : Nat) : Fld := ⟨(Reg.XSC_DEC n), 31, 16⟩
/-- XSC_DEC.BAD_SLICE. -/
abbrev XSC_DEC_BAD_SLICE (n : Nat) : Fld := ⟨(Reg.XSC_DEC n), 15, 8⟩
/-- XSC_DEC.LOST. -/
abbrev XSC_DEC_LOST (n : Nat) : Fld := ⟨(Reg.XSC_DEC n), 7, 0⟩
/-- CMP_STAT.REBUILDS. -/
abbrev CMP_STAT_REBUILDS (n : Nat) : Fld := ⟨(Reg.CMP_STAT n), 31, 24⟩
/-- CMP_STAT.TILES. -/
abbrev CMP_STAT_TILES (n : Nat) : Fld := ⟨(Reg.CMP_STAT n), 15, 6⟩
/-- CMP_STAT.STATIC_LIVE. -/
abbrev CMP_STAT_STATIC_LIVE (n : Nat) : Fld := ⟨(Reg.CMP_STAT n), 5, 5⟩
/-- CMP_STAT.CACHE_FULL. -/
abbrev CMP_STAT_CACHE_FULL (n : Nat) : Fld := ⟨(Reg.CMP_STAT n), 4, 4⟩
/-- CMP_STAT.REBUILDING. -/
abbrev CMP_STAT_REBUILDING (n : Nat) : Fld := ⟨(Reg.CMP_STAT n), 3, 3⟩
/-- CMP_STAT.CACHED. -/
abbrev CMP_STAT_CACHED (n : Nat) : Fld := ⟨(Reg.CMP_STAT n), 2, 2⟩
/-- CMP_STAT.PENDING. -/
abbrev CMP_STAT_PENDING (n : Nat) : Fld := ⟨(Reg.CMP_STAT n), 1, 1⟩
/-- CMP_STAT.RUNNING. -/
abbrev CMP_STAT_RUNNING (n : Nat) : Fld := ⟨(Reg.CMP_STAT n), 0, 0⟩
/-- CMP_ZORDER.LAYERS. -/
abbrev CMP_ZORDER_LAYERS (n : Nat) : Fld := ⟨(Reg.CMP_ZORDER n), 31, 0⟩
/-- CMP_STATIC.TOP. -/
abbrev CMP_STATIC_TOP (n : Nat) : Fld := ⟨(Reg.CMP_STATIC n), 15, 8⟩
/-- CMP_STATIC.STATIC. -/
abbrev CMP_STATIC_STATIC (n : Nat) : Fld := ⟨(Reg.CMP_STATIC n), 7, 0⟩
/-- CMP_LFLAG.CACHE_FAULT. -/
abbrev CMP_LFLAG_CACHE_FAULT (n : Nat) : Fld := ⟨(Reg.CMP_LFLAG n), 8, 8⟩
/-- CMP_LFLAG.LATE. -/
abbrev CMP_LFLAG_LATE (n : Nat) : Fld := ⟨(Reg.CMP_LFLAG n), 7, 0⟩
/-- CMP_FRAME.FRAME. -/
abbrev CMP_FRAME_FRAME (n : Nat) : Fld := ⟨(Reg.CMP_FRAME n), 31, 0⟩
/-- AUD_LOOP.SPAN. -/
abbrev AUD_LOOP_SPAN : Fld := ⟨Reg.AUD_LOOP, 25, 16⟩
/-- AUD_LOOP.BW. -/
abbrev AUD_LOOP_BW : Fld := ⟨Reg.AUD_LOOP, 1, 0⟩
/-- AUD_STAT.BAD_REC. -/
abbrev AUD_STAT_BAD_REC : Fld := ⟨Reg.AUD_STAT, 31, 20⟩
/-- AUD_STAT.DELAY_USED. -/
abbrev AUD_STAT_DELAY_USED : Fld := ⟨Reg.AUD_STAT, 19, 0⟩
/-- AUD_NCO.WORD. -/
abbrev AUD_NCO_WORD (n : Nat) : Fld := ⟨(Reg.AUD_NCO n), 31, 0⟩
/-- AUD_NSTAT.REPHASE. -/
abbrev AUD_NSTAT_REPHASE (n : Nat) : Fld := ⟨(Reg.AUD_NSTAT n), 31, 16⟩
/-- AUD_NSTAT.DEVICE. -/
abbrev AUD_NSTAT_DEVICE (n : Nat) : Fld := ⟨(Reg.AUD_NSTAT n), 1, 1⟩
/-- AUD_NSTAT.LOCK. -/
abbrev AUD_NSTAT_LOCK (n : Nat) : Fld := ⟨(Reg.AUD_NSTAT n), 0, 0⟩
/-- AUD_OCNT.SLIP. -/
abbrev AUD_OCNT_SLIP (n : Nat) : Fld := ⟨(Reg.AUD_OCNT n), 31, 16⟩
/-- AUD_OCNT.LATE. -/
abbrev AUD_OCNT_LATE (n : Nat) : Fld := ⟨(Reg.AUD_OCNT n), 15, 8⟩
/-- AUD_OCNT.LOST. -/
abbrev AUD_OCNT_LOST (n : Nat) : Fld := ⟨(Reg.AUD_OCNT n), 7, 0⟩
/-- TDM_STAT.RX_FRAME_ERR. -/
abbrev TDM_STAT_RX_FRAME_ERR (n : Nat) : Fld := ⟨(Reg.TDM_STAT n), 31, 24⟩
/-- TDM_STAT.RX_RATE_ERR. -/
abbrev TDM_STAT_RX_RATE_ERR (n : Nat) : Fld := ⟨(Reg.TDM_STAT n), 7, 7⟩
/-- TDM_STAT.RX_CLOCK_LOST. -/
abbrev TDM_STAT_RX_CLOCK_LOST (n : Nat) : Fld := ⟨(Reg.TDM_STAT n), 6, 6⟩
/-- TDM_STAT.RX_MASTER. -/
abbrev TDM_STAT_RX_MASTER (n : Nat) : Fld := ⟨(Reg.TDM_STAT n), 5, 5⟩
/-- TDM_STAT.RX_RUN. -/
abbrev TDM_STAT_RX_RUN (n : Nat) : Fld := ⟨(Reg.TDM_STAT n), 4, 4⟩
/-- TDM_STAT.TX_RATE_ERR. -/
abbrev TDM_STAT_TX_RATE_ERR (n : Nat) : Fld := ⟨(Reg.TDM_STAT n), 3, 3⟩
/-- TDM_STAT.TX_CLOCK_LOST. -/
abbrev TDM_STAT_TX_CLOCK_LOST (n : Nat) : Fld := ⟨(Reg.TDM_STAT n), 2, 2⟩
/-- TDM_STAT.TX_MASTER. -/
abbrev TDM_STAT_TX_MASTER (n : Nat) : Fld := ⟨(Reg.TDM_STAT n), 1, 1⟩
/-- TDM_STAT.TX_RUN. -/
abbrev TDM_STAT_TX_RUN (n : Nat) : Fld := ⟨(Reg.TDM_STAT n), 0, 0⟩
/-- MAC_STAT.SPEED. -/
abbrev MAC_STAT_SPEED (n : Nat) : Fld := ⟨(Reg.MAC_STAT n), 6, 4⟩
/-- MAC_STAT.PRP. -/
abbrev MAC_STAT_PRP (n : Nat) : Fld := ⟨(Reg.MAC_STAT n), 1, 1⟩
/-- MAC_STAT.LINK. -/
abbrev MAC_STAT_LINK (n : Nat) : Fld := ⟨(Reg.MAC_STAT n), 0, 0⟩
/-- MAC_IP.ADDR. -/
abbrev MAC_IP_ADDR (n : Nat) : Fld := ⟨(Reg.MAC_IP n), 31, 0⟩
/-- MAC_VLAN.ENABLE. -/
abbrev MAC_VLAN_ENABLE (n : Nat) : Fld := ⟨(Reg.MAC_VLAN n), 31, 31⟩
/-- MAC_VLAN.VID. -/
abbrev MAC_VLAN_VID (n : Nat) : Fld := ⟨(Reg.MAC_VLAN n), 11, 0⟩
/-- MAC_TXERR.BAD. -/
abbrev MAC_TXERR_BAD (n : Nat) : Fld := ⟨(Reg.MAC_TXERR n), 31, 16⟩
/-- MAC_TXERR.NOT_OWNED. -/
abbrev MAC_TXERR_NOT_OWNED (n : Nat) : Fld := ⟨(Reg.MAC_TXERR n), 15, 8⟩
/-- MAC_TXERR.LONG. -/
abbrev MAC_TXERR_LONG (n : Nat) : Fld := ⟨(Reg.MAC_TXERR n), 7, 0⟩
/-- MAC_RXDROP.NOT_READY. -/
abbrev MAC_RXDROP_NOT_READY (n : Nat) : Fld := ⟨(Reg.MAC_RXDROP n), 31, 16⟩
/-- MAC_RXDROP.NO_OWNER. -/
abbrev MAC_RXDROP_NO_OWNER (n : Nat) : Fld := ⟨(Reg.MAC_RXDROP n), 15, 8⟩
/-- MAC_RXDROP.LONG. -/
abbrev MAC_RXDROP_LONG (n : Nat) : Fld := ⟨(Reg.MAC_RXDROP n), 7, 0⟩
/-- TSN_GATE.STATE. -/
abbrev TSN_GATE_STATE (n : Nat) : Fld := ⟨(Reg.TSN_GATE n), 7, 0⟩
/-- TSN_DROP.TX_FULL. -/
abbrev TSN_DROP_TX_FULL (n : Nat) : Fld := ⟨(Reg.TSN_DROP n), 31, 16⟩
/-- TSN_DROP.RX_FULL. -/
abbrev TSN_DROP_RX_FULL (n : Nat) : Fld := ⟨(Reg.TSN_DROP n), 15, 8⟩
/-- TSN_DROP.GATE_OVERSIZE. -/
abbrev TSN_DROP_GATE_OVERSIZE (n : Nat) : Fld := ⟨(Reg.TSN_DROP n), 7, 0⟩
/-- TSN_TRDP.SENT. -/
abbrev TSN_TRDP_SENT (n : Nat) : Fld := ⟨(Reg.TSN_TRDP n), 31, 16⟩
/-- TSN_TRDP.NO_ARP. -/
abbrev TSN_TRDP_NO_ARP (n : Nat) : Fld := ⟨(Reg.TSN_TRDP n), 15, 8⟩
/-- TSN_TRDP.RX_DROP. -/
abbrev TSN_TRDP_RX_DROP (n : Nat) : Fld := ⟨(Reg.TSN_TRDP n), 7, 0⟩
/-- TSN_TOPO.TOPO. -/
abbrev TSN_TOPO_TOPO (n : Nat) : Fld := ⟨(Reg.TSN_TOPO n), 31, 0⟩
/-- TSN_FLOW.FLOW. -/
abbrev TSN_FLOW_FLOW (k : Nat) (n : Nat) : Fld := ⟨(Reg.TSN_FLOW k n), 31, 0⟩
/-- MSC_STAT.UNPROT. -/
abbrev MSC_STAT_UNPROT (n : Nat) : Fld := ⟨(Reg.MSC_STAT n), 31, 24⟩
/-- MSC_STAT.VERIFY. -/
abbrev MSC_STAT_VERIFY (n : Nat) : Fld := ⟨(Reg.MSC_STAT n), 23, 16⟩
/-- MSC_STAT.REPLAY. -/
abbrev MSC_STAT_REPLAY (n : Nat) : Fld := ⟨(Reg.MSC_STAT n), 15, 8⟩
/-- MSC_STAT.NO_SA. -/
abbrev MSC_STAT_NO_SA (n : Nat) : Fld := ⟨(Reg.MSC_STAT n), 7, 0⟩
/-- JNC_NODE.MODE. -/
abbrev JNC_NODE_MODE : Fld := ⟨Reg.JNC_NODE, 25, 24⟩
/-- JNC_NODE.NODE_ID. -/
abbrev JNC_NODE_NODE_ID : Fld := ⟨Reg.JNC_NODE, 19, 0⟩
/-- JNC_STAT.RETRIES. -/
abbrev JNC_STAT_RETRIES (n : Nat) : Fld := ⟨(Reg.JNC_STAT n), 31, 8⟩
/-- JNC_STAT.TRAINED. -/
abbrev JNC_STAT_TRAINED (n : Nat) : Fld := ⟨(Reg.JNC_STAT n), 1, 1⟩
/-- JNC_STAT.LINK. -/
abbrev JNC_STAT_LINK (n : Nat) : Fld := ⟨(Reg.JNC_STAT n), 0, 0⟩
/-- JNC_RING.MASTER. -/
abbrev JNC_RING_MASTER : Fld := ⟨Reg.JNC_RING, 31, 12⟩
/-- JNC_RING.DUP. -/
abbrev JNC_RING_DUP : Fld := ⟨Reg.JNC_RING, 9, 9⟩
/-- JNC_RING.OPEN. -/
abbrev JNC_RING_OPEN : Fld := ⟨Reg.JNC_RING, 8, 8⟩
/-- JNC_RING.SIZE. -/
abbrev JNC_RING_SIZE : Fld := ⟨Reg.JNC_RING, 7, 0⟩
/-- JNC_POS.POSITION. -/
abbrev JNC_POS_POSITION : Fld := ⟨Reg.JNC_POS, 27, 20⟩
/-- JNC_POS.UPSTREAM. -/
abbrev JNC_POS_UPSTREAM : Fld := ⟨Reg.JNC_POS, 19, 0⟩
/-- JNC_TXMAP.BCAST. -/
abbrev JNC_TXMAP_BCAST (n : Nat) : Fld := ⟨(Reg.JNC_TXMAP n), 31, 31⟩
/-- JNC_TXMAP.NODE. -/
abbrev JNC_TXMAP_NODE (n : Nat) : Fld := ⟨(Reg.JNC_TXMAP n), 19, 0⟩
/-- JNC_RXMAP.CH. -/
abbrev JNC_RXMAP_CH (n : Nat) : Fld := ⟨(Reg.JNC_RXMAP n), 22, 20⟩
/-- JNC_RXMAP.NODE. -/
abbrev JNC_RXMAP_NODE (n : Nat) : Fld := ⟨(Reg.JNC_RXMAP n), 19, 0⟩
/-- JNC_RXDLY.NS. -/
abbrev JNC_RXDLY_NS (n : Nat) : Fld := ⟨(Reg.JNC_RXDLY n), 23, 0⟩
/-- JNC_UDPMAC.PORT. -/
abbrev JNC_UDPMAC_PORT : Fld := ⟨Reg.JNC_UDPMAC, 1, 0⟩
/-- KEY_STAT.BAD. -/
abbrev KEY_STAT_BAD : Fld := ⟨Reg.KEY_STAT, 31, 24⟩
/-- KEY_STAT.ENTROPY_FAIL. -/
abbrev KEY_STAT_ENTROPY_FAIL : Fld := ⟨Reg.KEY_STAT, 4, 4⟩
/-- KEY_STAT.OTP_SPENT. -/
abbrev KEY_STAT_OTP_SPENT : Fld := ⟨Reg.KEY_STAT, 3, 3⟩
/-- KEY_STAT.PUF_FAIL. -/
abbrev KEY_STAT_PUF_FAIL : Fld := ⟨Reg.KEY_STAT, 2, 2⟩
/-- KEY_STAT.PROVISIONED. -/
abbrev KEY_STAT_PROVISIONED : Fld := ⟨Reg.KEY_STAT, 1, 1⟩
/-- KEY_STAT.RESTORED. -/
abbrev KEY_STAT_RESTORED : Fld := ⟨Reg.KEY_STAT, 0, 0⟩
/-- KEY_SLOT.USAGE. -/
abbrev KEY_SLOT_USAGE (n : Nat) : Fld := ⟨(Reg.KEY_SLOT n), 31, 16⟩
/-- KEY_SLOT.OWNER. -/
abbrev KEY_SLOT_OWNER (n : Nat) : Fld := ⟨(Reg.KEY_SLOT n), 11, 8⟩
/-- KEY_SLOT.BAD. -/
abbrev KEY_SLOT_BAD (n : Nat) : Fld := ⟨(Reg.KEY_SLOT n), 4, 4⟩
/-- KEY_SLOT.TYPE. -/
abbrev KEY_SLOT_TYPE (n : Nat) : Fld := ⟨(Reg.KEY_SLOT n), 3, 0⟩
/-- CRY_JOB.JOB. -/
abbrev CRY_JOB_JOB (k : Nat) (n : Nat) : Fld := ⟨(Reg.CRY_JOB k n), 31, 0⟩
/-- CRY_STATUS.STATUS. -/
abbrev CRY_STATUS_STATUS (n : Nat) : Fld := ⟨(Reg.CRY_STATUS n), 31, 0⟩
/-- CRY_GO.GO. -/
abbrev CRY_GO_GO (n : Nat) : Fld := ⟨(Reg.CRY_GO n), 0, 0⟩
/-- SEAL_STAT.LOST. -/
abbrev SEAL_STAT_LOST (n : Nat) : Fld := ⟨(Reg.SEAL_STAT n), 31, 16⟩
/-- SEAL_STAT.WP. -/
abbrev SEAL_STAT_WP (n : Nat) : Fld := ⟨(Reg.SEAL_STAT n), 13, 8⟩
/-- SEAL_STAT.GAP. -/
abbrev SEAL_STAT_GAP (n : Nat) : Fld := ⟨(Reg.SEAL_STAT n), 1, 1⟩
/-- SEAL_STAT.ACTIVE. -/
abbrev SEAL_STAT_ACTIVE (n : Nat) : Fld := ⟨(Reg.SEAL_STAT n), 0, 0⟩
/-- SEAL_SEQ.SEQ. -/
abbrev SEAL_SEQ_SEQ (n : Nat) : Fld := ⟨(Reg.SEAL_SEQ n), 31, 0⟩
/-- SEAL_RING.DATA. -/
abbrev SEAL_RING_DATA (k : Nat) (n : Nat) (i : Nat) : Fld := ⟨(Reg.SEAL_RING k n i), 31, 0⟩
/-- DBG_CTL.STOPCNT. -/
abbrev DBG_CTL_STOPCNT (n : Nat) : Fld := ⟨(Reg.DBG_CTL n), 5, 5⟩
/-- DBG_CTL.HALT_ON_RESET. -/
abbrev DBG_CTL_HALT_ON_RESET (n : Nat) : Fld := ⟨(Reg.DBG_CTL n), 4, 4⟩
/-- DBG_CTL.STEP_IRQ. -/
abbrev DBG_CTL_STEP_IRQ (n : Nat) : Fld := ⟨(Reg.DBG_CTL n), 3, 3⟩
/-- DBG_CTL.STEP. -/
abbrev DBG_CTL_STEP (n : Nat) : Fld := ⟨(Reg.DBG_CTL n), 2, 2⟩
/-- DBG_CTL.RESUME_REQ. -/
abbrev DBG_CTL_RESUME_REQ (n : Nat) : Fld := ⟨(Reg.DBG_CTL n), 1, 1⟩
/-- DBG_CTL.HALT_REQ. -/
abbrev DBG_CTL_HALT_REQ (n : Nat) : Fld := ⟨(Reg.DBG_CTL n), 0, 0⟩
/-- DBG_STAT.SLICES_LOST. -/
abbrev DBG_STAT_SLICES_LOST (n : Nat) : Fld := ⟨(Reg.DBG_STAT n), 31, 24⟩
/-- DBG_STAT.VT_LOST. -/
abbrev DBG_STAT_VT_LOST (n : Nat) : Fld := ⟨(Reg.DBG_STAT n), 23, 16⟩
/-- DBG_STAT.FEED_ERR. -/
abbrev DBG_STAT_FEED_ERR (n : Nat) : Fld := ⟨(Reg.DBG_STAT n), 13, 8⟩
/-- DBG_STAT.FEED_BUSY. -/
abbrev DBG_STAT_FEED_BUSY (n : Nat) : Fld := ⟨(Reg.DBG_STAT n), 7, 7⟩
/-- DBG_STAT.PENDING. -/
abbrev DBG_STAT_PENDING (n : Nat) : Fld := ⟨(Reg.DBG_STAT n), 6, 6⟩
/-- DBG_STAT.LEVEL. -/
abbrev DBG_STAT_LEVEL (n : Nat) : Fld := ⟨(Reg.DBG_STAT n), 5, 4⟩
/-- DBG_STAT.CAUSE. -/
abbrev DBG_STAT_CAUSE (n : Nat) : Fld := ⟨(Reg.DBG_STAT n), 3, 1⟩
/-- DBG_STAT.HALTED. -/
abbrev DBG_STAT_HALTED (n : Nat) : Fld := ⟨(Reg.DBG_STAT n), 0, 0⟩
/-- DBG_PC.PC. -/
abbrev DBG_PC_PC (n : Nat) : Fld := ⟨(Reg.DBG_PC n), 31, 2⟩
/-- DBG_FEED.INSN. -/
abbrev DBG_FEED_INSN (n : Nat) : Fld := ⟨(Reg.DBG_FEED n), 31, 0⟩
/-- DBG_DATA.DATA. -/
abbrev DBG_DATA_DATA (n : Nat) : Fld := ⟨(Reg.DBG_DATA n), 31, 0⟩
/-- DBG_EN.F. -/
abbrev DBG_EN_F (n : Nat) : Fld := ⟨(Reg.DBG_EN n), 16, 16⟩
/-- DBG_EN.S_BAY. -/
abbrev DBG_EN_S_BAY (n : Nat) : Fld := ⟨(Reg.DBG_EN n), 15, 8⟩
/-- DBG_EN.U_BAY. -/
abbrev DBG_EN_U_BAY (n : Nat) : Fld := ⟨(Reg.DBG_EN n), 7, 0⟩
/-- DBG_TEN.F. -/
abbrev DBG_TEN_F (n : Nat) : Fld := ⟨(Reg.DBG_TEN n), 16, 16⟩
/-- DBG_TEN.S_BAY. -/
abbrev DBG_TEN_S_BAY (n : Nat) : Fld := ⟨(Reg.DBG_TEN n), 15, 8⟩
/-- DBG_TEN.U_BAY. -/
abbrev DBG_TEN_U_BAY (n : Nat) : Fld := ⟨(Reg.DBG_TEN n), 7, 0⟩
/-- DBG_SINK.SINK. -/
abbrev DBG_SINK_SINK (n : Nat) : Fld := ⟨(Reg.DBG_SINK n), 1, 0⟩
/-- DBG_FILT.FILTER. -/
abbrev DBG_FILT_FILTER (n : Nat) : Fld := ⟨(Reg.DBG_FILT n), 7, 0⟩
/-- DBG_VTOUT.VALID. -/
abbrev DBG_VTOUT_VALID (n : Nat) : Fld := ⟨(Reg.DBG_VTOUT n), 8, 8⟩
/-- DBG_VTOUT.BYTE. -/
abbrev DBG_VTOUT_BYTE (n : Nat) : Fld := ⟨(Reg.DBG_VTOUT n), 7, 0⟩
/-- DBG_VTIN.FULL. -/
abbrev DBG_VTIN_FULL (n : Nat) : Fld := ⟨(Reg.DBG_VTIN n), 8, 8⟩
/-- DBG_VTIN.BYTE. -/
abbrev DBG_VTIN_BYTE (n : Nat) : Fld := ⟨(Reg.DBG_VTIN n), 7, 0⟩
/-- TRC_CTL.PORT_EN. -/
abbrev TRC_CTL_PORT_EN : Fld := ⟨Reg.TRC_CTL, 2, 2⟩
/-- TRC_CTL.MODE. -/
abbrev TRC_CTL_MODE : Fld := ⟨Reg.TRC_CTL, 1, 1⟩
/-- TRC_CTL.EN. -/
abbrev TRC_CTL_EN : Fld := ⟨Reg.TRC_CTL, 0, 0⟩
/-- TRC_STAT.LOST. -/
abbrev TRC_STAT_LOST : Fld := ⟨Reg.TRC_STAT, 31, 16⟩
/-- TRC_STAT.FULL. -/
abbrev TRC_STAT_FULL : Fld := ⟨Reg.TRC_STAT, 1, 1⟩
/-- TRC_STAT.WRAPPED. -/
abbrev TRC_STAT_WRAPPED : Fld := ⟨Reg.TRC_STAT, 0, 0⟩
/-- TRC_WP.FRAME. -/
abbrev TRC_WP_FRAME : Fld := ⟨Reg.TRC_WP, 13, 0⟩
/-- TRC_RADDR.WORD. -/
abbrev TRC_RADDR_WORD : Fld := ⟨Reg.TRC_RADDR, 15, 0⟩
/-- TRC_RDATA.DATA. -/
abbrev TRC_RDATA_DATA : Fld := ⟨Reg.TRC_RDATA, 31, 0⟩
/-- XTR_GRP.MEMBERS. -/
abbrev XTR_GRP_MEMBERS (n : Nat) : Fld := ⟨(Reg.XTR_GRP n), 21, 16⟩
/-- XTR_GRP.SOURCES. -/
abbrev XTR_GRP_SOURCES (n : Nat) : Fld := ⟨(Reg.XTR_GRP n), 13, 8⟩
/-- XTR_GRP.ACTIONS. -/
abbrev XTR_GRP_ACTIONS (n : Nat) : Fld := ⟨(Reg.XTR_GRP n), 5, 0⟩
/-- XTR_FIRE.GRP. -/
abbrev XTR_FIRE_GRP : Fld := ⟨Reg.XTR_FIRE, 7, 0⟩
/-- XTR_RESUME.GRP. -/
abbrev XTR_RESUME_GRP : Fld := ⟨Reg.XTR_RESUME, 7, 0⟩
/-- XTR_STAT.FIRED. -/
abbrev XTR_STAT_FIRED : Fld := ⟨Reg.XTR_STAT, 7, 0⟩
/-- MBX_CMD_PI.PI. -/
abbrev MBX_CMD_PI_PI (n : Nat) : Fld := ⟨(Reg.MBX_CMD_PI n), 15, 0⟩
/-- MBX_CMD_CI.CI. -/
abbrev MBX_CMD_CI_CI (n : Nat) : Fld := ⟨(Reg.MBX_CMD_CI n), 15, 0⟩
/-- MBX_RSP_PI.PI. -/
abbrev MBX_RSP_PI_PI (n : Nat) : Fld := ⟨(Reg.MBX_RSP_PI n), 15, 0⟩
/-- MBX_RSP_CI.CI. -/
abbrev MBX_RSP_CI_CI (n : Nat) : Fld := ⟨(Reg.MBX_RSP_CI n), 15, 0⟩
/-- MBX_EVT_PI.PI. -/
abbrev MBX_EVT_PI_PI (n : Nat) : Fld := ⟨(Reg.MBX_EVT_PI n), 15, 0⟩
/-- MBX_EVT_CI.CI. -/
abbrev MBX_EVT_CI_CI (n : Nat) : Fld := ⟨(Reg.MBX_EVT_CI n), 15, 0⟩
/-- MBX_DOORBELL.RING. -/
abbrev MBX_DOORBELL_RING (n : Nat) : Fld := ⟨(Reg.MBX_DOORBELL n), 31, 0⟩
/-- MBX_RSTAT.EVT_LOST. -/
abbrev MBX_RSTAT_EVT_LOST (n : Nat) : Fld := ⟨(Reg.MBX_RSTAT n), 31, 16⟩
/-- MBX_RSTAT.BAD_WR. -/
abbrev MBX_RSTAT_BAD_WR (n : Nat) : Fld := ⟨(Reg.MBX_RSTAT n), 15, 8⟩
/-- MBX_RSTAT.RSP_STALL. -/
abbrev MBX_RSTAT_RSP_STALL (n : Nat) : Fld := ⟨(Reg.MBX_RSTAT n), 2, 2⟩
/-- MBX_RSTAT.OVERRUN. -/
abbrev MBX_RSTAT_OVERRUN (n : Nat) : Fld := ⟨(Reg.MBX_RSTAT n), 1, 1⟩
/-- MBX_RSTAT.READY. -/
abbrev MBX_RSTAT_READY (n : Nat) : Fld := ⟨(Reg.MBX_RSTAT n), 0, 0⟩
/-- MBX_EXPSEQ.SEQ. -/
abbrev MBX_EXPSEQ_SEQ (n : Nat) : Fld := ⟨(Reg.MBX_EXPSEQ n), 31, 0⟩
/-- MBX_IRQ.PEG_P. -/
abbrev MBX_IRQ_PEG_P (n : Nat) : Fld := ⟨(Reg.MBX_IRQ n), 10, 10⟩
/-- MBX_IRQ.EVT_P. -/
abbrev MBX_IRQ_EVT_P (n : Nat) : Fld := ⟨(Reg.MBX_IRQ n), 9, 9⟩
/-- MBX_IRQ.RSP_P. -/
abbrev MBX_IRQ_RSP_P (n : Nat) : Fld := ⟨(Reg.MBX_IRQ n), 8, 8⟩
/-- MBX_IRQ.PEG_IE. -/
abbrev MBX_IRQ_PEG_IE (n : Nat) : Fld := ⟨(Reg.MBX_IRQ n), 2, 2⟩
/-- MBX_IRQ.EVT_IE. -/
abbrev MBX_IRQ_EVT_IE (n : Nat) : Fld := ⟨(Reg.MBX_IRQ n), 1, 1⟩
/-- MBX_IRQ.RSP_IE. -/
abbrev MBX_IRQ_RSP_IE (n : Nat) : Fld := ⟨(Reg.MBX_IRQ n), 0, 0⟩

end Fd

end Sys2Proof.Machine
end

