-- ==== Sys2Proof/Machine/TypesCore.lean ====
section
/-! DEFINITION. The plain data of the clocks and power control (01, 20), the steward cores and the bus (05, 06), debug and
trace (22): structures only. Each field's default is its reset value. -/

namespace Sys2Proof.Machine

/-- The three privilege levels of R167. -/
inductive Level where
  | u | s | f
deriving DecidableEq, Repr, Inhabited

/-- The clock root and the timelines (R18 to R24, R469). The lock and alignment bits live in SYS_CLKSTAT. -/
structure Clk where
  /-- FCLK steps delivered since the model began; stands while the derived clocks are gated (R19, R23). -/
  now : Nat := 0
  /-- Keep-alive time in ns, which never stops (R24). -/
  ka : Nat := 0
  /-- Keep-alive time at the start of the present timeline (R469, R471). -/
  timeline : Nat := 0
  /-- The step at which the present beat grid began (R22). -/
  beat0 : Nat := 0
  /-- Whole beats that had begun before `beat0`: the derived clocks' edges are counted from the start of a beat (R19, R22). -/
  beats : Nat := 0
  /-- The divider chain has started at least once since reset of the always-on domain (R22, R410). -/
  started : Bool := false
  /-- The derived clocks are gated after a loss of lock (R23); before the first start they do not run either. -/
  gated : Bool := false
  /-- The step at whose start they will be gated, a beat boundary (R23). -/
  gateAt : Option Nat := none
  /-- Keep-alive time at which the MDLL last began to acquire lock (R21). -/
  mdllFrom : Nat := 0
deriving DecidableEq, Repr, Inhabited

/-- Power control of one domain beyond PWR_STATEd (R478 to R480). -/
structure PwrDom where
  /-- An up request met DRAIN or FENCED. -/
  upWanted : Bool := false
  /-- A down request met WAKE. -/
  downWanted : Bool := false
  /-- Keep-alive time at which the present DRAIN began. -/
  drainAt : Nat := 0
deriving DecidableEq, Repr, Inhabited

/-- STATUS, EPC, CAUSE, ADDR, VEC and SCRATCH of one exception level (R175, R177). -/
structure ExcRegs where
  ien : Bool := false
  pien : Bool := false
  inexc : Bool := false
  ppl : Level
  epc : BitVec 30 := 0
  intr : Bool := false
  code : BitVec 6 := 0
  addr : Word := 0
  vec : BitVec 30 := 0
  scratch : Word := 0
deriving DecidableEq, Repr, Inhabited

/-- One U region (R168): the base register and the last-line register, bits 31:5 with enable and permissions. -/
structure Rgn where
  base : BitVec 27 := 0
  en : Bool := false
  x : Bool := false
  w : Bool := false
  r : Bool := false
  last : BitVec 27 := 0
deriving DecidableEq, Repr, Inhabited

/-- One cache line of 32 bytes, named by address / 32 (R169). -/
structure CLine where
  line : Nat
  data : List Byte
  /-- Its parity is in error, and that of the same line of a locked partner (R174). -/
  bad : Bool := false
  badFollower : Bool := false
deriving DecidableEq, Repr, Inhabited

/-- A bay's saved slice context (R200). -/
structure SliceCtx where
  g : List Word
  pc : BitVec 30
  level : Level
  sx : ExcRegs
  ie : BitVec 2
  timecmp : BitVec 64
  rgn : List Rgn
  async : List (Level × Word)
deriving DecidableEq, Repr, Inhabited

/-- Whether a core rests because the present sixteenth is granted to no bay (R199), and what it did before: it ran, or it rested after
REST (R186). -/
inductive Idle where
  | no | ran | rested
deriving DecidableEq, Repr, Inhabited

/-- Who awaits the answer to a request at the bus matrix: for a posted store only an error comes back (R176); a core's fetch, load or SC
waits for it, as it does for a register store (put), and so do the PCIe endpoint and a crypto job (R156). A register row of the table, the TAP and a device-side peg request have
their access made for them when it is granted. -/
inductive Asker where
  | store | fetch | load | put | sc | host | job | row | tap | peg
deriving DecidableEq, Repr, Inhabited

/-- An access that a core waits for: what it asked for and the place that its address named then (as Place.key; R37), the number of its
request, and the answer once it is there, which is none for an error response. -/
structure Wait where
  ask : Asker
  addr : Nat
  key : Nat
  n : Nat
  id : Nat
  ans : Option (Option (List Byte)) := none
deriving DecidableEq, Repr, Inhabited

/-- One steward core (R161 to R188). g0 is stored but reads 0 through the register accessor (R166). -/
structure Core where
  g : Vector Word 32 := Vector.replicate 32 0
  /-- pc bits 31:2; bits 1:0 are always 0 (R166). -/
  pc : BitVec 30 := 0
  level : Level := .f
  /-- SCC_BAY (R162). -/
  bay : BitVec 3 := 0
  /-- SCC_CYCLE (R186) and the latch of its high word. -/
  cycle : BitVec 64 := 0
  cycleHi : Word := 0
  timecmp : BitVec 64 := BitVec.allOnes 64
  sx : ExcRegs := { ppl := .s }
  fx : ExcRegs := { ppl := .f }
  /-- SCC_IE: bit 1 EXTERNAL, bit 0 TIMER (R179). -/
  ie : BitVec 2 := 0
  /-- PLATFORM is pending (R175). -/
  platform : Bool := false
  rgn : Vector Rgn 8 := Vector.replicate 8 {}
  /-- The reservation: the line number reserved by LL (R173). -/
  resv : Option Nat := none
  /-- Pending STORE_ASYNC reports, oldest first: level of issue and address (R176). -/
  async : List (Level × Word) := []
  icache : List CLine := []
  dcache : List CLine := []
  /-- An instruction fed by the debugger is executing: its exceptions are not taken (R509). -/
  feeding : Bool := false
  /-- A resume with STEP set: the core halts again after one instruction (R510). -/
  stepping : Bool := false
  idle : Idle := .no
  /-- The fetch, and the load or SC, of the instruction under way that the bank port or the DDR port serves (R141, R155). -/
  fetched : Option Wait := none
  loaded : Option Wait := none
deriving DecidableEq, Repr, Inhabited

/-- A request at the bus matrix (R156, R157): a store of `data`, or a read of `read` bytes; of a register, on a path. -/
structure BusReq where
  master : Nat
  /-- The core; 6 for a core that has been reset since, and 7 for another master. -/
  core : Nat
  level : Level
  path : Path := .fw
  target : Nat
  /-- Platform address as the core issued it, and the place it named then (as Place.key; R37, R160). -/
  addr : Nat
  key : Nat
  data : List Byte
  /-- Step at which the request became the first of its master at its target. -/
  since : Nat
  ask : Asker := .store
  read : Nat := 0
  id : Nat := 0
deriving DecidableEq, Repr, Inhabited

/-- The head request of the bank port or of the DDR port (R141 to R143, R155). -/
structure BankHead where
  req : BusReq
  /-- Bytes already accessed, and those of a read. -/
  done : Nat := 0
  got : List Byte := []
  /-- Step at which the present access became the head. -/
  since : Nat := 0
  /-- It has yielded one open step; the next is reserved for it (R142). -/
  yielded : Bool := false
  /-- The granule a read-modify-write has read, with its number (R143); at the DDR port, the merged 64-bit word (R154). -/
  merge : Option (Nat × List Byte) := none
  /-- Another access wrote that granule since (R143). -/
  stale : Bool := false
deriving DecidableEq, Repr, Inhabited

/-- The check state of one granule or word: clean, correctable, uncorrectable or the poison mark (R136, R154). -/
inductive Ecc where
  | clean | single | double | poison
deriving DecidableEq, Repr, Inhabited

/-- Bank field machinery beyond its registers and bytes (R139, R140). -/
structure BankField where
  /-- Check state of the granules that are not clean (granule = byte address / 16). -/
  ecc : List (Nat × Ecc) := []
  /-- Write-back queue, oldest first: granule numbers, at most 16 (R140). -/
  wb : List Nat := []
  /-- Step at which each bank's next scrub falls due: banks not listed are due at once (R139). -/
  due : List (Nat × Nat) := []
  /-- Scrubs made of each bank; its next row is this modulo 8,192 (R139). -/
  row : List (Nat × Nat) := []
  /-- The step in which the banks of `used` have had a scrub or write-back, and the step of the last dynamic access. -/
  usedAt : Nat := 0
  used : List Nat := []
  portAt : Option Nat := none
  /-- Step from which the bank port takes a new head: the last one has completed (R141). -/
  freeAt : Nat := 0
  head : Option BankHead := none
deriving DecidableEq, Repr, Inhabited

/-- A dynamic access to LPDDR5X on its way: the step at which it completes, bytes `ofs` to `ofs + n - 1` of its request (R155), and where and
what a write writes, which is a whole word where a part of it was merged (R154). -/
structure DdrFly where
  at_ : Nat
  req : BusReq
  ofs : Nat
  n : Nat
  key : Nat := 0
  data : List Byte := []
deriving DecidableEq, Repr, Inhabited

/-- LPDDR5X controller beyond its registers (R145 to R155). -/
structure DdrCtl where
  ecc : List (Nat × Ecc) := []
  /-- Training has started since the last static reset: DDR_CFG ignores writes (R145). -/
  training : Bool := false
  /-- The requests at the DDR port, in the order of their grants: the first is its head. -/
  heads : List BankHead := []
  /-- The head writes part of a 64-bit word: the step at which the word's read delivers (R154, R155). -/
  readAt : Option Nat := none
  /-- Accesses issued, and the bytes read so far of requests whose reads are among them (R155, R562). -/
  flight : List DdrFly := []
  got : List (Nat × List Byte) := []
  /-- Step at which each channel is next free, and the last DDR_XFER of each (bank, step) (R155). -/
  busy0 : Nat := 0
  busy1 : Nat := 0
  xfers : List (Nat × Nat × Nat) := []
  /-- Step of the last ZQ calibration latch, and of the last deferral of one (R153). -/
  zqAt : Nat := 0
  zqDeferAt : Nat := 0
  /-- All-bank refreshes issued on channels 0 and 1, and the steps of the last ones (R152). -/
  refresh0 : Nat := 0
  refresh1 : Nat := 0
  refreshAt0 : Nat := 0
  refreshAt1 : Nat := 0
deriving DecidableEq, Repr, Inhabited

/-- The bus matrix: waiting requests in order of issue, and the round-robin pointer of each target (R157). -/
structure Bxm where
  reqs : List BusReq := []
  /-- CCLK cycle from which each target can grant again (R157). -/
  grantFrom : Vector Nat 8 := Vector.replicate 8 0
  /-- Number of the next request. -/
  next : Nat := 0
  /-- Answers on their way, with the step at which they arrive; none is an error response (R141). -/
  lands : List (Nat × BusReq × Option (List Byte)) := []
  /-- Register accesses, and device-side peg requests, that wait for stores made before them, with the numbers of those (R171, R229). -/
  held : List (List Nat × BusReq) := []
  /-- Answers to the PCIe endpoint and to crypto jobs, by request. -/
  answers : List (Nat × Option (List Byte)) := []
  ptr : Vector Nat 8 := Vector.replicate 8 7
deriving DecidableEq, Repr, Inhabited

/-- One trace source: a core or the cross-trigger matrix (R516 to R521). -/
structure TrSrc where
  /-- Trace was running after the last event. -/
  on : Bool := false
  /-- Address base of the differences (R519). -/
  base : Nat := 0
  /-- Device time (ns) of the last time stamp. -/
  lastTs : Nat := 0
  /-- Bytes since the last SYNC. -/
  since : Nat := 0
  /-- Branch outcomes held, oldest first (R518). -/
  outcomes : List Bool := []
  /-- Stream bytes not yet in a full frame, and whether that frame starts with SYNC (R521). -/
  buf : List Byte := []
  start : Bool := false
  /-- Frames that wait for room in a sink, four at most (R522). -/
  wait : List (List Byte) := []
  /-- Bytes were lost: the next packet that finds room is OVERFLOW (R522). -/
  lost : Bool := false
  /-- A SYNC is owed before the next packet (R519). -/
  sync : Bool := true
  /-- The first packet after the next release is WAKE with CONTEXT_LOST (R188, R520). -/
  ctxLost : Bool := false
deriving DecidableEq, Repr, Inhabited

/-- A virtual terminal: the bytes towards the debugger and towards the core (R515). -/
structure Vt where
  out : List Byte := []
  inp : List Byte := []
deriving DecidableEq, Repr, Inhabited

/-- A debug challenge of a bay (R504). -/
structure Challenge where
  level : Nat
  cores : Nat
  nonce : List Byte
deriving DecidableEq, Repr, Inhabited

/-- An authorisation in force, with the device-time second at which it expires (R505, R506). -/
structure Auth where
  bay : Nat
  level : Nat
  cores : Nat
  expiry : Nat
deriving DecidableEq, Repr, Inhabited

/-- The TAP instructions of R500. -/
inductive TapIr where
  | extest | samplePreload | idcode | clamp | highz | dbgacc | bypass
deriving DecidableEq, Repr, Inhabited

/-- The debug domain beyond its registers. -/
structure Dbg where
  /-- Current TAP instruction (IDCODE at TAP reset: PRESUMED, IEEE 1149.1, log entry 14). -/
  ir : TapIr := .idcode
  /-- The boundary register: 492 cells (R537). -/
  boundary : BitVec 492 := 0
  /-- What the next Capture-DR of DBGACC shows (R501). -/
  accData : Word := 0
  accErr : Bool := false
  accBusy : Bool := false
  /-- Debug challenges by bay, at most one each (R504). -/
  challenges : List (Nat × Challenge) := []
  auths : List Auth := []
  vt : Vector Vt 6 := Vector.replicate 6 {}
  /-- Sources 0 to 5 are the cores, 6 the matrix (R521). -/
  src : Vector TrSrc 7 := Vector.replicate 7 {}
  /-- Trace RAM bytes, 256 KiB (R522). -/
  ram : List (Nat × Byte) := []
  /-- Trace port FIFO, at most 4,096 bytes (R522). -/
  port : List Byte := []
  /-- A halt request of a stop group is pending at the core (R507, R513). -/
  grpHalt : Vector Bool 6 := Vector.replicate 6 false
  /-- Words written to DBG_FEEDn that have not executed yet (R509). -/
  feed : Vector (Option Word) 6 := Vector.replicate 6 none
  /-- Levels of XTR_IN0 and XTR_IN1, and steps at which the XTR_OUT pulses end (R513). -/
  in0 : Bool := false
  in1 : Bool := false
  /-- TCK cycles that have passed as far as the model tells them apart: each TAP command brings some (R560). -/
  tck : Nat := 0
  out0 : Nat := 0
  out1 : Nat := 0
deriving DecidableEq, Repr, Inhabited

end Sys2Proof.Machine
end

