-- ==== Sys2Proof/Machine/TypesHost.lean ====
section
/-! DEFINITION. The plain data of figures and parts (02, 03), bays and share grants (07), host ports and mailboxes (08, 09),
keys and start-up (19, 20): structures only. Each field's default is its reset value. -/

namespace Sys2Proof.Machine

/-- One 16-byte granule on its way, with its poison mark (R137); on its way out of the bank field also the bay whose MOVE took
it and its bank address, as bay × 2^25 + address (R419, R428). -/
structure Granule where
  data : BitVec 128 := 0
  poison : Bool := false
  tag : Nat := 0
deriving DecidableEq, Repr, Inhabited

/-- The geometry of a figure (R40, R81). -/
structure Geom where
  turnLen : Nat
  period : Nat
  turns : Nat
  tail : Nat
  replay : Nat
deriving DecidableEq, Repr, Inhabited

/-- One action word with the resource of its list and its image offset (R87 to R89). -/
structure Act where
  res : Nat
  step : Nat
  kind : Nat
  arg0 : Nat
  a1 : Nat
  a2 : Nat
  a3 : Nat
  ofs : Nat
deriving DecidableEq, Repr, Inhabited

/-- One stream descriptor: its image offset and its sixteen words (R110). -/
structure Desc where
  ofs : Nat
  w : List Nat
deriving DecidableEq, Repr, Inhabited

/-- One route entry (R100). -/
structure RouteEnt where
  ofs : Nat
  dest : Nat
  source : Nat
  replay : Bool
  profile : Nat
deriving DecidableEq, Repr, Inhabited

/-- One carry declaration (R101). -/
structure CarryDecl where
  ofs : Nat
  id : Nat
  inherit : Bool
  base : Nat
  len : Nat
  shadow : Nat
deriving DecidableEq, Repr, Inhabited

/-- A part as the loader took it from its image (R79 to R101). -/
structure Part where
  bay : Nat
  geom : Geom
  ppm : Nat
  partId : Nat
  allotOfs : Nat
  allot : List (Nat × Nat)
  acts : List Act
  descs : List Desc
  routes : List RouteEnt
  carries : List CarryDecl
deriving DecidableEq, Repr, Inhabited

/-- The state of one carry region of a running part (R63, R103, R104). -/
structure Carry where
  id : Nat
  base : Nat
  shadow : Nat
  len : Nat
  /-- Copy A is the current copy (writes go to it). -/
  curA : Bool := true
  /-- The previous copy is fresh and reads zero. -/
  fresh : Bool := true
deriving DecidableEq, Repr, Inhabited

/-- One I/O endpoint (R96, R98, R487, R488). -/
structure Endpoint where
  fifo : List Granule := []
  /-- Turn journal of an inbound endpoint, and how far a replay has read it. -/
  journal : List Granule := []
  jpos : Nat := 0
  /-- Granules of turns not yet released (turn number, granules), oldest first. -/
  held : List (Nat × List Granule) := []
  /-- Repeat buffer: what was last released; `none` when it did not fit (R489). -/
  rep : Option (List Granule) := some []
  overrun : Bool := false
  underrun : Bool := false
  /-- A seal input lost granules of a turn whose outputs were replaced (R463). -/
  gap : Bool := false
deriving DecidableEq, Repr, Inhabited

/-- A turn whose outputs await their release (R65, R488): turn index, measure, how it ended (0: good; else the cause of
R489), whether it was a replay, the step of its release, the bays with a running part, the outbound
endpoints it serves, and its NOTIFY events as (bay, code). -/
structure TurnFate where
  u : Nat
  measure : Nat
  cause : Nat
  replayed : Bool
  at_ : Nat
  bays : List Nat
  eps : List Nat
  notifies : List (Nat × Nat)
deriving DecidableEq, Repr, Inhabited

/-- A descriptor in progress on an engine (R124 to R128): what its reads have fetched so far, as (stream, row, granule). -/
structure SeRun where
  id : Nat
  bay : Nat
  engine : Nat
  desc : Desc
  got : List (Nat × Nat × Nat × Granule) := []
deriving DecidableEq, Repr, Inhabited

/-- The part of an action that falls in a later step than the action itself (R92, R124, R148). -/
inductive Job where
  | moveIn (bay ep addr : Nat)
  | moveOut (bay ep addr : Nat)
  | arrive (ep turn : Nat) (g : Granule)
  | fromBank (bay addr dest : Nat)
  | toDdr (dest : Nat) (g : Granule)
  | fromDdr (bay addr src : Nat)
  | toBank (bay addr : Nat) (g : Granule)
  | seRead (run stream row gran addr : Nat)
  | seWrite (run row gran addr : Nat)
  | seDone (run : Nat)
deriving DecidableEq, Repr, Inhabited

/-- The figure engine beyond its registers (R40 to R77, R487 to R493). -/
structure Fig where
  geom : Option Geom := none
  /-- Current measure number, 64 bits, and the latch of its high word (R41). -/
  measure : Nat := 0
  measureHi : Word := 0
  /-- Period (µs) by which `measure` counts: that of the figure that runs or ran last (R41). -/
  counted : Nat := 0
  /-- The next time point had passed when the pad of this measure ended (R47). -/
  latePad : Bool := false
  /-- Step at which the current measure began (R42). -/
  boundary : Nat := 0
  /-- Present slot and turn of the measure (R40). -/
  slot : Nat := 0
  turn : Nat := 0
  /-- The turn in the slot is a replay; the measure's replay is spent; the turn is faulted; its turn is unjournalled. -/
  replaying : Bool := false
  spent : Bool := false
  faulted : Bool := false
  unjournalled : Bool := false
  /-- All turns of the measure have run: pad and tail (R43). -/
  resting : Bool := true
  /-- A clock fault interrupted the measure: no further action of it (R493). -/
  stopped : Bool := false
  /-- The chain has restarted since: the next measure starts at its time point (R493). -/
  interrupted : Bool := false
  /-- NOTIFY events of the turn in progress, as (bay, code); turns awaiting release, oldest first. -/
  notifies : List (Nat × Nat) := []
  fates : List TurnFate := []
  /-- Work of actions already issued, by the step in which it falls. -/
  jobs : List (Nat × Job) := []
  runs : List SeRun := []
  /-- Faulted turns since the last good turn or forced swap (R492). -/
  stuck : Nat := 0
  /-- Action and descriptor words with an uncorrectable error: bay and image offset (R485). -/
  badWords : List (Nat × Nat) := []
  running : Vector (Option Part) 8 := Vector.replicate 8 none
  staged : Vector (Option Part) 8 := Vector.replicate 8 none
  /-- Accepted commits: (bay, measure, part) in order of acceptance (R70, R71). -/
  commits : List (Nat × Nat × Part) := []
  /-- The merge made last: its measure, and the actions of the parts that run from then on joined into one list, by resource in STEP order,
  each with its bay (R107). -/
  merged : Option (Nat × List (Nat × Act)) := none
  carry : Vector (List Carry) 8 := Vector.replicate 8 []
  /-- Endpoint records by resource number. -/
  ends : List (Nat × Endpoint) := []
  /-- Active LUT tables: (engine × 8 + bay) × 256 + index (R116). -/
  lut : List (Nat × Word) := []
  /-- Steps of the last read and the last write of each engine's latest descriptor, and its bay (R129). -/
  seRead : Vector Nat 4 := Vector.replicate 4 0
  seWrite : Vector Nat 4 := Vector.replicate 4 0
  /-- Per engine: the step of the last write of the descriptors before the one started last (R109). -/
  seTail : Vector Nat 4 := Vector.replicate 4 0
  seBay : Vector Nat 4 := Vector.replicate 4 0
  /-- SerDes and D-PHY recalibrations deferred, by unit: the owning blocks' telemetry, of which the spec lays out no
  register (R68). -/
  phyDefer : List (Nat × Nat) := []
  /-- Steps of the last deferral and of the last recalibration of each unit (R68). -/
  phyDeferAt : List (Nat × Nat) := []
  phyAt : List (Nat × Nat) := []
  /-- Telemetry copies of the last boundary step: register address and value (R67). -/
  shadow : List (Nat × Word) := []
deriving DecidableEq, Repr, Inhabited

/-- A bay's network grant on one port (R191). -/
structure NetGrant where
  queues : BitVec 8 := 0
  trdpFirst : Nat := 0
  trdpCount : Nat := 0
  filtFirst : Nat := 0
  filtCount : Nat := 0
  saFirst : Nat := 0
  saCount : Nat := 0
deriving DecidableEq, Repr, Inhabited

/-- A share grant (R202). -/
structure Share where
  memory : Bool
  owner : Nat
  borrower : Nat
  source : Nat
  target : Nat
  base : Nat
  len : Nat
deriving DecidableEq, Repr, Inhabited

/-- Who sent a scheduled command: ring set, SEQ and opcode, for COMMAND_DONE (R250). -/
structure Origin where
  ring : Nat
  seq : Word
  opcode : Nat
deriving DecidableEq, Repr, Inhabited

/-- What firmware and the monitor keep for one bay beyond registers (R191, R206 to R210, R496, R499). -/
structure Bay where
  /-- Phase masks by resource (R191). -/
  phase : List (Nat × BitVec 64) := []
  entry : Word := 0
  /-- CORE_UNIT as R275 codes it; 0xFF no core. -/
  coreUnit : Nat := 0xFF
  sliceFirst : Nat := 0
  sliceLen : Nat := 0
  figKey : Nat := 0
  net : Vector NetGrant 4 := Vector.replicate 4 {}
  parked : Option (Part × List Carry) := none
  ctx : Option SliceCtx := none
  faultTimes : List Nat := []
  counters : Vector Nat 12 := Vector.replicate 12 0
  /-- A deletion is scheduled or under way (R208). -/
  deleting : Bool := false
  /-- A wake is under way, started by this command (ring, whole command) or by BAY_WAKE (R210, R257). -/
  waking : Bool := false
  /-- g2 for the next entry into bay code and the measure of the wake's re-commit (R210), and the command that deletes the bay (R208). -/
  reason : Nat := 1
  wakeAt : Nat := 0
  delBy : Option Origin := none
deriving DecidableEq, Repr, Inhabited

/-- The state of a journal entry (R260). -/
inductive JState where
  | taken | done | delivered
deriving DecidableEq, Repr, Inhabited

/-- One journal entry: its SEQ, the whole command, its state and its response (R260). -/
structure JEntry where
  seq : Word
  cmd : List Byte
  state : JState
  rsp : List Byte
  /-- A replay of it was begun (R262). -/
  replaying : Bool := false
  /-- Its effect has taken place, with the answer it gave: status and payload (R261). -/
  did : Option (Nat × List Byte) := none
deriving DecidableEq, Repr, Inhabited

/-- One ring set: slots, indices, flags and journal (R240 to R263). Ring set 8 is the PF's. -/
structure RingSet where
  cmdPi : BitVec 16 := 0
  cmdCi : BitVec 16 := 0
  rspPi : BitVec 16 := 0
  rspCi : BitVec 16 := 0
  evtPi : BitVec 16 := 0
  evtCi : BitVec 16 := 0
  expSeq : Word := 0
  evtLost : Nat := 0
  badWr : Nat := 0
  rspStall : Bool := false
  overrun : Bool := false
  pegIe : Bool := false
  evtIe : Bool := false
  rspIe : Bool := false
  /-- EVT_SEQ: events posted since the ring's reset, lost ones included (R247). -/
  evtSeq : Word := 0
  /-- The next event carries FLAGS.LOST (R247). -/
  lostMark : Bool := false
  journal : List JEntry := []
  /-- The ring slots: offsets 0x0000 to 0x17FF of the ring area. -/
  mem : List (Nat × Byte) := []
deriving DecidableEq, Repr, Inhabited

/-- Mailbox service (R249, R250). -/
structure Mbx where
  rings : Vector RingSet 9 := Vector.replicate 9 {}
  /-- Ring sets in the rotation (9 bits, bit 8 the PF) and the next position of the rotation: 0 is the PF. -/
  active : BitVec 9 := 0
  next : Nat := 0
  /-- A WAKE command taken and waiting for its bay (ring, whole command) (R257). -/
  waiting : List (Nat × List Byte) := []
deriving DecidableEq, Repr, Inhabited

/-- One PCIe function: 0 to 7 are VF n, 8 is the PF (R212, R218). -/
structure PcieFn where
  /-- The command register of configuration space. -/
  command : BitVec 16 := 0
  /-- MSI-X Enable and Function Mask of its capability (PRESUMED, PCI, log entry 12). -/
  msixEn : Bool := false
  msixMask : Bool := false
  /-- MSI-X table words 0 to 255; the vector control words read masked at reset (PRESUMED, PCI, log entry 12). -/
  msix : List (Nat × Word) := []
  pend : BitVec 64 := 0
  /-- Base address words of the three 64-bit BARs as software writes them (R215). -/
  bars : Vector Word 6 := Vector.replicate 6 0
  /-- Max Payload Size code (0: 128, 1: 256, 2: 512 bytes), D3hot, ASPM L1 enabled, and the uncorrectable error status of AER (R213;
  their layout and reset values PRESUMED, PCI, log entry 12). -/
  maxPayload : BitVec 3 := 0
  d3 : Bool := false
  aspmL1 : Bool := false
  aer : Word := 0
deriving DecidableEq, Repr, Inhabited

/-- An access of the host that memory serves, or one that waits behind it: bytes still to read with those read, bytes still to write, or an
access to BAR2 (R223, R229). -/
inductive HostOp where
  | read (left : Nat) (got : List Byte)
  | write (left : List Byte)
  | bar2Read (o : Nat)
  | bar2Write (o : Nat) (w : Word)
deriving DecidableEq, Repr, Inhabited

/-- An access of function `fn` under way: the window offset at which it goes on, when it was made, and the request that it waits for with that
request's length. -/
structure HostAsk where
  fn : Nat
  op : HostOp
  ofs : Nat := 0
  since : Nat := 0
  wait : Option (Nat × Nat) := none
deriving DecidableEq, Repr, Inhabited

/-- PCIe endpoint and pegs beyond registers (R212 to R230). -/
structure Pcie where
  fns : Vector PcieFn 9 := Vector.replicate 9 {}
  vfEnable : Bool := false
  link : Bool := false
  /-- Speed (0 to 3: 2.5 to 16 GT/s) and width (0 to 2: ×1, ×2, ×4) at which the link came up (R213). -/
  gen : Nat := 0
  width : Nat := 0
  /-- Handover queues to host and to device (peg indices, oldest first) and their lost marks (R230). -/
  hq : Vector (List (BitVec 12)) 8 := Vector.replicate 8 []
  hqLost : Vector Bool 8 := Vector.replicate 8 false
  dq : Vector (List (BitVec 12)) 8 := Vector.replicate 8 []
  dqLost : Vector Bool 8 := Vector.replicate 8 false
  /-- Host accesses under way, oldest first (R223, R225, R229). -/
  asks : List HostAsk := []
  /-- Host peg requests (bay, word) that a device-side request of their CCLK cycle for the same peg goes before, oldest first (R228). -/
  pegHeld : List (Nat × Word) := []
deriving DecidableEq, Repr, Inhabited

/-- The latched snapshots of the snap port (R236 to R238). -/
structure Snap where
  time : List (BitVec 16) := List.replicate 7 0
  pos : List (BitVec 16) := List.replicate 4 0
  timeSeq : BitVec 8 := 0
  posSeq : BitVec 8 := 0
deriving DecidableEq, Repr, Inhabited

/-- A route of a destination (R100, R272). -/
structure Route where
  source : Nat := 0xFF
  replay : Bool := false
  profile : Nat := 0
  bay : Nat := 0xF
deriving DecidableEq, Repr, Inhabited

/-- An effect scheduled for a measure (R270, R271). -/
inductive Effect where
  | grantPhase (bay first count : Nat) (mask : BitVec 64)
  | grantPorts (bay sources dests : Nat)
  | grantNet (bay port : Nat) (g : NetGrant)
  | grantKeys (bay : Nat) (slots : BitVec 64)
  | shareMake (index : Nat) (sh : Share)
  | shareRevoke (index : Nat)
  | bayPark (bay : Nat)
  | bayWake (bay : Nat)
  | bayResume (bay : Nat)
  | partRemove (bay : Nat)
  | bayDelete (bay : Nat) (force : Bool)
  | commit (bay : Nat)
  | routeSet (dest : Nat) (r : Route)
  | layerCommit (comp group : Nat)
  | audRoute (out inp : Nat) (gain : Int)
  | sealStart (bay input keySlot frames chainId : Nat)
  | sealStop (input : Nat)
deriving DecidableEq, Repr, Inhabited

/-- A scheduled effect with its measure, the measure period (µs) by which that number counts, and the command that asked for
it. -/
structure Sched where
  measure : Nat
  period : Nat
  eff : Effect
  origin : Option Origin
deriving DecidableEq, Repr, Inhabited

/-- A completion to be reported by COMMAND_DONE (R250). -/
structure Done where
  origin : Origin
  status : Nat
deriving DecidableEq, Repr, Inhabited

/-- Firmware's own memory (R495, R496, R498, R563). -/
structure Fw where
  /-- Scheduled effects in order of acceptance. -/
  sched : List Sched := []
  done : List Done := []
  shares : Vector (Option Share) 16 := Vector.replicate 16 none
  bays : Vector Bay 8 := Vector.replicate 8 {}
  /-- Device-time seconds of the platform-pair resets that count for escalation (R497), in ns. -/
  pairResets : List Nat := []
  /-- The board record applied at start (R563). -/
  board : List (Nat × Word) := []
  /-- Bits of SYS_FLTSUM already reported by FAULT_SUMMARY (R498). -/
  fltSeen : Word := 0
  /-- Keep-alive time at which firmware was entered from boot ROM, and how far it has come since: 1 static blocks initialised,
  2 in service (R455, R469). -/
  entered : Option Nat := none
  stage : Nat := 0
  /-- Host boot (R457): 1 takes the image, 2 the board record, 3 done; what has come of it; the record. -/
  hostPhase : Nat := 0
  hostBuf : List Byte := []
  hostRecord : Option (List Byte) := none
  /-- ROLLBACK of the image that runs (R456). -/
  rollback : Nat := 0
  /-- Grant registers of the static domain as firmware recorded them at a static reset, the bays whose part it removed, the measure
  of the reset, and that its recovery is due (R468, R563). -/
  saved : List (Nat × Word) := []
  lostPart : List Nat := []
  staticAt : Nat := 0
  staticDue : Bool := false
  /-- Interval time (`runNs`) of the last watchdog kick; suspended while the pair is halted (R494, R512). -/
  kick : Nat := 0
deriving DecidableEq, Repr, Inhabited

/-- Device time and its latches (R407 to R410). -/
structure Tme where
  /-- Device time in units of 2^-48 ns: seconds, nanoseconds, 16 fraction bits and 32 further bits. -/
  t : Nat := 0
  /-- Stretches over which device time has advanced evenly, newest first: first step, device time then, advance a step. -/
  past : List (Nat × Nat × Nat) := []
  /-- Latched TME_SEC_HI, TME_NS and TME_FRAC (read by TME_SEC_LO_READ). -/
  latHi : Word := 0
  latNs : Word := 0
  latFrac : Word := 0
deriving DecidableEq, Repr, Inhabited

/-- What a command drives out of the block: the answer to a read, a message, a frame, a pulse. State holds the outputs of
the latest command only. -/
inductive Out where
  /-- Data returned to a reader of a register. -/
  | word (w : Word)
  /-- Bytes returned to a reader of memory. -/
  | bytes (l : List Byte)
  /-- Completer Abort, Unsupported Request or Configuration Request Retry Status (PCIe), or an error response on another path. -/
  | abort
  | unsupported
  | retry
  | error
  /-- An MSI-X message of a function (8 is the PF) for a vector (R218). -/
  | msix (fn vector : Nat)
  /-- The word driven on SNP_D, or high impedance (R231). -/
  | snap (w : BitVec 16)
  | highZ
  /-- An Ethernet frame sent on a port; bytes sent on a junction link. -/
  | frame (port : Nat) (l : List Byte)
  | link (port : Nat) (l : List Byte)
  /-- A pulse on a named output: kind, index, start and end: in FCLK steps for POS_EVT and XTR_OUT, in quarters of a step (0.5 ns) for
  CAM_TRIG, in units of 78.125 ps for PWM. What a later output drives on the same ball takes the place of what is left of it. -/
  | pulse (kind : String) (index start stop : Nat)
  /-- A level driven on a named ball. -/
  | level (ball : String) (index : Nat) (high : Bool)
  /-- An edge of a clock output, at a point of the 78.125 ps grid of root time, 128 points a beat (R381, R411). -/
  | edge (ball : String) (index : Nat) (high : Bool) (point : Nat)
  /-- One frame of a TDM direction, bit clock by bit clock from its start: port, receive direction, FS where the device drives it, data where it
  sends. It takes the place of what is left of the frame before; an empty one leaves the balls at 0 (R347, R352). -/
  | tdm (port : Nat) (rx : Bool) (fs data : List Bool)
  /-- A DisplayPort audio frame of secondary-data packets: output, sample rate, Maud and Naud of its time stamp, samples (R353). -/
  | dpAudio (dp rate maud naud : Nat) (l : List Int)
  /-- A line of pixels driven out of a unit: unit, index, line number, pixel values, flags. -/
  | line (unit : String) (index num : Nat) (px : List Nat) (flags : Nat)
  /-- Bits shifted out on DBG_TDO, given as number and length (R500). -/
  | tdo (bits len : Nat)
deriving DecidableEq, Repr, Inhabited

end Sys2Proof.Machine
end

