-- ==== Sys2Proof/Machine/TypesAudio.lean ====
section
/-! DEFINITION. The plain data of audio (14) beyond its registers. Each field's default is its reset value. Times are thirds of a ns of device
time, in which the 48 kHz grid is whole, unless said otherwise. -/

namespace Sys2Proof.Machine

/-- One direction of a TDM port (R347, R348). -/
structure TdmDir where
  run : Bool := false
  slots : Nat := 0
  width : Nat := 0
  offset : Nat := 0
  master : Bool := false
  falling : Bool := false
  rate : Nat := 0
  /-- No frame has been sent since it started. -/
  first : Bool := true
  /-- Data bits of the last frame sent that fall in the first OFFSET bit clocks of the next. -/
  tail : List Bool := []
deriving DecidableEq, Repr, Inhabited

/-- The route of an output channel (R343): input, gain, delay in µs; a route that waits for a frame at or after its boundary's time, with who
ordered it; the capture time of the sample that the last frame took. -/
structure AudRoute where
  inp : Nat := 0xFFFF
  gain : Int := 0
  delay : Nat := 0
  pend : Option (Nat × Int × Nat × Option Origin) := none
  prev : Option Nat := none
deriving DecidableEq, Repr, Inhabited

/-- One sample clock (R350 to R352): oscillators 0 to 3 TDM transmit, 4 to 7 TDM receive, 8 to 11 DisplayPort. -/
structure Osc where
  on : Bool := false
  rate : Nat := 0
  /-- Bit clocks in a frame (1 for DisplayPort). -/
  bits : Nat := 1
  /-- An ACLK edge of the present frame or its start, in units of 2^-32 ns of the root clock, and the phase in the frame then, in 2^-32 bit
  clocks; the frame's device time; a frame has started. -/
  last : Nat := 0
  acc : Nat := 0
  out : Nat := 0
  ran : Bool := false
  /-- Target time of the present frame: second and index within it, or the lead's sample by its capture time. -/
  tSec : Nat := 0
  tK : Nat := 0
  leadC : Option Nat := none
  /-- Integral and proportional parts in ppt, updates in a row within 1 µs. -/
  fi : Int := 0
  fp : Int := 0
  good : Nat := 0
  /-- Device time of a re-phase: zeros are sent until a frame starts on the target phase (R352). -/
  gap : Option Nat := none
deriving DecidableEq, Repr, Inhabited

/-- One frame of an output domain: its time, its samples by channel, its record flags (R355). -/
structure AudFrame where
  out : Nat
  samples : List Int
  flags : Nat
deriving DecidableEq, Repr, Inhabited

/-- The audio router. -/
structure Aud where
  tx : Vector TdmDir 4 := Vector.replicate 4 {}
  rx : Vector TdmDir 4 := Vector.replicate 4 {}
  /-- Routes by output channel number (R342). -/
  routes : List (Nat × AudRoute) := []
  /-- Samples at hand by input: 0 to 3 TDM receive, 4 to 11 figure input, 12 to 19 receive stream; frames newest first, as
  (C, samples). -/
  ins : Vector (List (Nat × List Int)) 20 := Vector.replicate 20 []
  /-- Encoding of the packets a receive stream last took: L16 or not. -/
  l16 : Vector Bool 8 := Vector.replicate 8 false
  osc : Vector Osc 12 := Vector.replicate 12 {}
  /-- Domains 0 to 3 TDM transmit, 4 to 7 DisplayPort: the frame that is next to leave. 8 to 23: frames not yet in a record. -/
  frames : Vector (List AudFrame) 24 := Vector.replicate 24 []
  /-- Run time of the last grid point (k / 48,000 s) used by domains 8 to 23, and of the last emission. -/
  grid : Vector Nat 24 := Vector.replicate 24 0
  sent : Vector Nat 24 := Vector.replicate 24 0
  /-- RTP sequence numbers of transmit streams. -/
  seq : Vector Nat 8 := Vector.replicate 8 0
  /-- RTP packets of records taken and not yet delivered: stream and packet. -/
  rtp : List (Nat × List Byte) := []
  /-- Bytes taken from the router's output FIFO that do not make a record yet. -/
  part : List Byte := []
  /-- Run time of the millisecond of each oscillator's last loop update. -/
  loopAt : Vector Nat 12 := Vector.replicate 12 0
deriving DecidableEq, Repr, Inhabited

end Sys2Proof.Machine
end

