-- ==== Sys2Proof/Machine/TypesKeys.lean ====
section
/-! DEFINITION. The plain data of root secrets, key slots, crypto jobs and seal chains (19) beyond their registers. Each field's default
is its value at power-on of a new part. -/

namespace Sys2Proof.Machine

/-- One write-once region of OTP (R444): blank, cut short, or written with a good CRC. -/
inductive OtpRegion where
  | blank | torn
  | good (a b : Nat)
deriving DecidableEq, Repr, Inhabited

/-- One-time programmable memory, which no reset touches (R443, R444, R456). DRK regions hold its two shares; a helper region's
1 KiB is given as a number. -/
structure Otp where
  provisioned : Bool := false
  drkA : OtpRegion := .blank
  drkB : OtpRegion := .blank
  helpA : OtpRegion := .blank
  helpB : OtpRegion := .blank
  rollback : BitVec 64 := 0
deriving DecidableEq, Repr, Inhabited

/-- One key slot's value as two shares, with its integrity tag (R446 to R448). TYPE, USAGE, owner and BAD stand in KEY_SLOTs. -/
structure KeySlot where
  share : Nat := 0
  mask : Nat := 0
  tag : List Byte := []
deriving DecidableEq, Repr, Inhabited

/-- A crypto job under way: the byte ranges read so far (R454). -/
structure JobRun where
  bay : Nat
  got : List (List Byte) := []
  /-- The request that it waits for, and the STATUS it ends with once that is a write. -/
  wait : Option Nat := none
  ends : Option Nat := none
deriving DecidableEq, Repr, Inhabited

/-- The key store and the crypto engines. -/
structure Keys where
  slots : Vector KeySlot 64 := Vector.replicate 64 {}
  /-- The storage permutation drawn at the last start (R448). -/
  perm : Nat := 0
  /-- Bays whose crypto job runs, and the bay last served (R454). -/
  jobs : BitVec 8 := 0
  next : Nat := 7
  /-- The job that the engines work on. -/
  run : Option JobRun := none
deriving DecidableEq, Repr, Inhabited

/-- A seal that waits for the signer: its first 64 bytes, SEQ, the measure in which its last frame ended, and whether it closes. -/
structure SealDue where
  body : List Byte
  seq : Nat
  measure : Nat
  closing : Bool
deriving DecidableEq, Repr, Inhabited

/-- One seal input (R459 to R464). -/
structure SealIn where
  active : Bool := false
  bay : Nat := 0
  slot : Nat := 0
  frames : Nat := 1
  chainId : Nat := 0
  /-- C of the last frame, the records of the frame in progress, whether records are hashed or dropped. -/
  c : List Byte := []
  df : List Byte := []
  hashing : Bool := false
  /-- Frames since the last seal, FAULT and GAP for the next seal. -/
  count : Nat := 0
  fault : Bool := false
  gap : Bool := false
  /-- SEQ of the next seal, seals emitted, measure of the last seal. -/
  seq : Nat := 0
  emitted : Nat := 0
  lastMeasure : Nat := 0
  /-- SEAL_STOP's boundary has passed; the closing seal is due. -/
  stopping : Bool := false
  stopBy : Option Origin := none
  closed : Bool := false
  /-- Entries ever written to the ring, up to 64. -/
  filled : Nat := 0
  due : List SealDue := []
  /-- Delivered bytes that do not make a record yet; whole records not yet hashed, `none` where granules were discarded (R463). -/
  part : List Byte := []
  recs : List (Option (List Byte)) := []
deriving DecidableEq, Repr, Inhabited

end Sys2Proof.Machine
end

