-- ==== Sys2Proof/Machine/TypesVideo.lean ====
section
/-! DEFINITION. The plain data of camera inputs (11), the video matrix and outputs (12) and layer composition (13) beyond their
registers. Each field's default is its reset value. -/

namespace Sys2Proof.Machine

/-- One pixel: three 12-bit components (R303). -/
structure Px where
  c0 : Nat
  c1 : Nat
  c2 : Nat
deriving DecidableEq, Repr, Inhabited

/-- The tag of a line or frame (R295). -/
structure Tag where
  sec : Nat := 0
  ns : Nat := 0
  frac : Nat := 0
  pos : Int := 0
  line : Nat := 0
  frame : Nat := 0
  flags : Nat := 0
  axle : Nat := 0
  event : Nat := 0xFF
deriving DecidableEq, Repr, Inhabited

/-- A line on its way: tag, colour space (0 RGB, 1 YCbCr, 2 RAW), 4:2:2 subsampled, pixels. A frame tag has LINE 0xFFFF. -/
structure VLine where
  tag : Tag := {}
  space : Nat := 0
  sub : Bool := false
  px : List Px := []
  /-- Step at which its source frame started (R313). -/
  fs : Nat := 0
  /-- Step of its delivery to a memory reader (R311); of a held line, the one in which its last pixel leaves the conversion (R317). -/
  arr : Nat := 0
deriving DecidableEq, Repr, Inhabited

/-- A conformer configuration (R300). The stage tables have their reset values: identity matrix, O 0, knots min(32k, 1,023). -/
structure CnfCfg where
  rx : Nat := 0
  vc : Nat := 0
  dt : Nat := 0
  lanes : Nat := 1
  padLast : Bool := false
  frontEnd : Bool := false
  linescan : Bool := false
  suppressRev : Bool := false
  bayer : Nat := 0
  rate : Nat := 80
  width : Nat := 16
  height : Nat := 1
  fps : Nat := 1
  linePeriod : Nat := 0
  outDelay : Nat := 0
  phase : Nat := 0
  window : Nat := 0
  black : Nat := 0
  hold : Nat := 0
  holdSrc : Nat := 0xFF
  trigMode : Nat := 0
  trigArg : Nat := 0
  trigLead : Nat := 0
  trigPw : Nat := 1
  m : List Int := [4096, 0, 0, 0, 4096, 0, 0, 0, 4096]
  o : List Int := [0, 0, 0]
  knots : List Nat := (List.range 33).map fun k => min (32 * k) 1023
deriving DecidableEq, Repr, Inhabited

/-- A firing waiting to be paired with a line (R379). -/
structure PairFiring where
  slot : Nat
  rev : Bool
  predicted : Bool
  late : Bool
deriving DecidableEq, Repr, Inhabited

/-- An input line in a conformer's FIFO: its input frame, number, header stamp, CRC flag, header step and raw samples; the header steps of
the lines received before and after it, whether those were kept or not. -/
structure InLine where
  fid : Nat
  num : Nat
  tag : Tag
  crc : Bool
  at_ : Nat
  samples : List Nat
  before : Option Nat := none
  nextAt : Option Nat := none
deriving DecidableEq, Repr, Inhabited

/-- One conformer (R285 to R300). -/
structure Conf where
  /-- A valid VIN_CFG has named a stream; the settings in force; the shadow waiting for the next frame start. -/
  bound : Bool := false
  cfg : CnfCfg := {}
  shadow : Option CnfCfg := none
  /-- Input frames so far; the one being received (none: discarded), its lines so far, its start stamp and the step of its latest header; it had
  more than HEIGHT lines. -/
  fids : Nat := 0
  inFid : Option Nat := none
  inNum : Nat := 0
  inTag : Tag := {}
  hdrAt : Option Nat := none
  longIn : Bool := false
  /-- The input frame bound to the next output frame, with the Tf (ns) it is bound to; the one of the current frame. -/
  nextFid : Option (Nat × Nat) := none
  curFid : Option Nat := none
  curTag : Tag := {}
  fifo : List InLine := []
  /-- Tf (ns of device time) of the current output frame, the run time up to which time points have had their frame, its start step, the next
  line, its frame flags so far and the flags of all its lines. -/
  tf : Option Nat := none
  tfRun : Nat := 0
  startAt : Nat := 0
  outN : Nat := 0
  flags : Nat := 0
  all : Nat := 0
  holding : Bool := false
  last : Option VLine := none
  /-- Line-scan mode: step of the last output line's start, and the input line before the oldest one in the FIFO. -/
  lastLineAt : Nat := 0
  prev : Option InLine := none
  /-- Trigger pulses owed after odometry firings; the run time up to which mode 1's trigger instants are past; firings to pair. -/
  trigDue : Nat := 0
  trigRun : Nat := 0
  firings : List PairFiring := []
deriving DecidableEq, Repr, Inhabited

/-- One matrix destination with its pipe (R302 to R318). -/
structure Dest where
  /-- The route in force (R272), the step in which it took effect, and since which measure a ROUTE_SET overrides the part's entry. -/
  route : Route := {}
  since : Nat := 0
  override : Option Nat := none
  /-- An armed or ordered route change: route, measure, boundary step once it has passed, who ordered it. -/
  pend : Option (Route × Nat × Option Nat × Option Origin) := none
  /-- Profile in use since the last frame boundary. -/
  prof : List Byte := List.replicate 40 0
  /-- The route has no feed because of the format of a line that reached it (R304, R308, R309). -/
  badFormat : Bool := false
  /-- Lines of the source frame in progress after horizontal scaling, its first line's number, and the next output line. -/
  lines : List VLine := []
  outN : Nat := 0
  inFrame : Bool := false
  /-- Start step of that frame, flags its lines have met in the pipe, and the step of the latest frame tag. -/
  curFs : Nat := 0
  pipeFlags : Nat := 0
  tagAt : Nat := 0
  /-- What the scaler holds: the line at work, with the step in which it is finished and its fault marks (R318), and a frame tag behind
  it (R308). -/
  scal : List (Nat × VLine × Bool × Bool) := []
  /-- Scaled lines with the steps in which they leave, and a frame tag behind them; the step from which the scaler's output is free (R308). -/
  outq : List (Nat × VLine × Bool × Bool) := []
  outFree : Nat := 0
  /-- Lines in the destination's FIFO with their arrival step (R303, R313); junction transmit keeps its lines in `Vid.jtx`. -/
  fifo : List (Nat × VLine) := []
  /-- Granules of the first line there that a memory writer has delivered; the step until which a JPEG XS encoder is busy (R319). -/
  sent : Nat := 0
  encAt : Nat := 0
  /-- Lines of a replayable route held until the step of their release (below 2: a slot of the next measure; 0 of the last slot, 1 of pad and
  tail), with the mark of a slot whose re-conversion failed (R317, R318); the last line released. -/
  held : List (Nat × Bool × VLine) := []
  lastOut : Option VLine := none
  /-- The slot whose lines a frame-rate-converted layer feed shows, and whether their re-conversion failed (R318). -/
  frcSlot : Option (Nat × Bool) := none
  /-- Network encoder: RTP sequence number, time stamp, the next packet is the frame's first, lines not yet sent. -/
  seq : Nat := 0
  encTs : Nat := 0
  encFirst : Bool := true
  slice : List VLine := []
  /-- Frame-rate conversion towards a following destination: output frame's time (ns), the run time up to which time points have had their
  frame, start step, next line (R311). -/
  frcNs : Option Nat := none
  frcRun : Nat := 0
  frcAt : Nat := 0
  frcN : Nat := 0
deriving DecidableEq, Repr, Inhabited

/-- A memory or layer reader: delivered lines of the frame in progress and the frames kept for frame-rate conversion, newest
first (R310, R311, R331); bytes of a record not yet complete. -/
structure Reader where
  part : List Byte := []
  lines : List VLine := []
  frames : List (List VLine) := []
  /-- Start step of the frame in progress. -/
  fs : Nat := 0
  /-- Layer readers: lines up to the next frame tag belong to a frame whose time has passed. -/
  skip : Bool := false
deriving DecidableEq, Repr, Inhabited

/-- One network decoder (R321): bytes of a record not yet complete, RTP packets by time stamp, the frame being emitted (time
stamp, start step, steps per line, next line, flags) and the times (ns) of the last two frames. -/
structure Dec where
  part : List Byte := []
  packets : List (Nat × List Byte) := []
  ts : Nat := 0
  on : Bool := false
  startAt : Nat := 0
  pace : Nat := 1
  line : Nat := 0
  flags : Nat := 0
  /-- The slice in progress has been counted as bad. -/
  badSlice : Bool := false
  frame : Nat := 0
  ns : Option Nat := none
  before : Option Nat := none
deriving DecidableEq, Repr, Inhabited

/-- One DisplayPort output (R323 to R327): timing payload, running frame's start (ns of device time) and step, the run time up to which time
points have had their frame, next line. -/
structure DpOut where
  timing : List Byte := List.replicate 40 0
  frameNs : Option Nat := none
  frameRun : Nat := 0
  startAt : Nat := 0
  line : Nat := 0
  /-- The output has ended its frame and blanks until the next one; the step of device time (run time) last looked at (R326). -/
  blank : Bool := false
  stepSeen : Option Nat := none
  /-- Step of the last failed training round. -/
  failAt : Option Nat := none
  newTiming : Bool := false
  /-- Rates at which the sink last let the link train, by RATE code. -/
  sink : BitVec 4 := 0
deriving DecidableEq, Repr, Inhabited

/-- An accepted layer commit: measure, boundary step once passed, copied parameter sets by layer, who ordered it (R335). -/
structure LayCommit where
  measure : Nat
  armed : Option Nat
  sets : List (Nat × List Byte)
  origin : Option Origin
deriving DecidableEq, Repr, Inhabited

/-- A cached pixel: premultiplied colour and coverage (R338). -/
structure CPx where
  c0 : Nat
  c1 : Nat
  c2 : Nat
  a : Nat
deriving DecidableEq, Repr, Inhabited

/-- One compositor (R329 to R341). -/
structure Comp where
  active : Vector (List Byte) 8 := Vector.replicate 8 (List.replicate 40 0)
  shadow : Vector (List Byte) 8 := Vector.replicate 8 (List.replicate 40 0)
  commits : List LayCommit := []
  /-- Rows of the cache, by output line; why the next frame boundary must invalidate it (1 timing, 2 fault). -/
  cache : List (Nat × List CPx) := []
  invalid : Option Nat := none
  /-- The run time up to which frame boundaries have passed (R340). -/
  boundRun : Nat := 0
  /-- A line of a static-top layer was late in this rebuild frame; the rebuild frame has ended. -/
  lateTop : Bool := false
  ended : Bool := false
  /-- The tiles to compose without the static top in this frame (R341). -/
  badTiles : List Nat := []
deriving DecidableEq, Repr, Inhabited

/-- Video: conformers, destinations, profiles, readers, outputs and compositors. -/
structure Vid where
  conf : Vector Conf 24 := Vector.replicate 24 {}
  dests : Vector Dest 48 := Vector.replicate 48 {}
  /-- ROUTE_PROFILE records by bay × 64 + index. -/
  profs : List (Nat × List Byte) := []
  /-- Memory readers MR0 to MR7 and the layer readers of CMP0 to CMP3 (8 + 4c + j). -/
  readers : Vector Reader 24 := Vector.replicate 24 {}
  decs : Vector Dec 8 := Vector.replicate 8 {}
  /-- Step of the latest frame start of each source; lines of its frame so far and of its last whole frame. -/
  srcAt : Vector (Option Nat) 48 := Vector.replicate 48 none
  heights : Vector (Nat × Nat) 48 := Vector.replicate 48 (0, 0)
  dps : Vector DpOut 4 := Vector.replicate 4 {}
  comps : Vector Comp 4 := Vector.replicate 4 {}
  /-- Lines and frame tags queued for junction transmit D24 to D31, oldest first (R302, R433). -/
  jtx : List (Nat × VLine) := []
  /-- Camera trigger pulses: when each CAM_TRIGr's pulse ends, in quarters of an FCLK step. -/
  trigEnd : Vector Nat 12 := Vector.replicate 12 0
  /-- Pipes whose next line meets an uncorrectable fault, and whose conversion of it again fails too (R318). -/
  faults : BitVec 48 := 0
  again : BitVec 48 := 0
deriving DecidableEq, Repr, Inhabited

end Sys2Proof.Machine
end

