-- ==== Sys2Proof/Machine/TypesNet.lean ====
section
/-! DEFINITION. The plain data of the MAC ports, TSN, TRDP, MACsec and the junction links (18) beyond their registers. Each field's
default is its reset value. -/

namespace Sys2Proof.Machine

/-- A frame in a transmit queue: its bay (8: platform firmware), its bytes without FCS, its MACsec SA (0xFF: none), whether it asks
for a transmit-time record, and its TAG (R418). -/
structure NetFrame where
  bay : Nat
  bytes : List Byte
  sa : Nat := 0xFF
  stamp : Bool := false
  tag : Nat := 0
deriving DecidableEq, Repr, Inhabited

/-- One class queue of a port (R416, R423, R425, R426): transmit frames, limits, idle slope in kb/s, credit in 10^-6 bits, the longest
open interval in ns (none: without bound), and the state of its last GATE action. -/
structure NetClass where
  tx : List NetFrame := []
  txLimit : Nat := 16384
  rxLimit : Nat := 16384
  idle : Nat := 0
  credit : Int := 0
  longest : Option Nat := none
  gate : Bool := true
deriving DecidableEq, Repr, Inhabited

/-- One TRDP telegram (R427, R428). -/
structure Telegram where
  bay : Nat
  comId : Nat
  dest : Nat
  len : Nat
  buf : Nat
  counter : Nat := 0
  store : List Byte := []
deriving DecidableEq, Repr, Inhabited

/-- One TRDP receive filter entry with its store (R428). -/
structure Filter where
  bay : Nat
  ports : Nat
  enable : Bool
  comId : Nat
  src : Nat
  buf : Nat
  maxLen : Nat
  counter : Nat := 0
  len : Nat := 0
  fresh : Bool := false
  valid : Bool := false
  port : Nat := 0
  time : Nat := 0
  data : List Byte := []
deriving DecidableEq, Repr, Inhabited

/-- One MACsec secure association (R431). -/
structure Sa where
  bay : Nat
  rx : Bool
  an : Nat
  slot : Nat
  xpn : Bool
  sci : Nat
  pn : Nat
  ssci : Nat
  salt : List Byte
  /-- Replay window: highest packet number seen and a mask of the 64 below it. -/
  top : Nat := 0
  seen : BitVec 64 := 0
  lowPosted : Bool := false
  stopped : Bool := false
deriving DecidableEq, Repr, Inhabited

/-- Records of a bay on a port (R421, R422): granules waiting, bytes by class, and the next SEQ. -/
structure RxStream where
  queues : Vector (List (List Granule)) 8 := Vector.replicate 8 []
  /-- The rest of the record being taken. -/
  cur : List Granule := []
  seq : Nat := 0
deriving DecidableEq, Repr, Inhabited

/-- One source of PRP duplicates: LAN address, highest sequence number, mask, time of the last frame (R430). -/
structure PrpSrc where
  mac : Nat
  top : Nat
  seen : BitVec 64
  at_ : Nat
deriving DecidableEq, Repr, Inhabited

/-- One MAC port (R414 to R431). -/
structure MacPort where
  mac : List Byte := List.replicate 6 0
  mtu : Nat := 0
  prp : Bool := false
  ptp : Nat := 0
  classes : Vector NetClass 8 := Vector.replicate 8 {}
  platform : List NetFrame := []
  trdp : List NetFrame := []
  /-- Step until which the port is busy, and the class whose frame it sends. -/
  busy : Nat := 0
  busyClass : Option Nat := none
  /-- Granules that the transmit DMA has been given and has not parsed (R418). -/
  dma : List Granule := []
  telegrams : List (Nat × Telegram) := []
  sas : List (Nat × Sa) := []
  rx : Vector RxStream 8 := Vector.replicate 8 {}
  prpSeq : Nat := 0
  prpSrcs : List PrpSrc := []
  /-- Device-time second of the last PRP supervision frame. -/
  supAt : Nat := 0
deriving DecidableEq, Repr, Inhabited

/-- Work of network actions that falls in the step after them (R54, R423). -/
inductive NetJob where
  | gate (port mask value : Nat)
  | telegram (bay port index : Nat)
deriving DecidableEq, Repr, Inhabited

/-- The time stamp of a PTP message (R28, R429): its port, whether it was sent, device time of its SFD in 78.125 ps less or plus the
board's PHY latency, and the plumb state at that moment. -/
structure PtpStamp where
  port : Nat
  sent : Bool
  time : Int
  plumb : Nat
deriving DecidableEq, Repr, Inhabited

/-- The MAC ports and what firmware knows about them. -/
structure Net where
  ports : Vector MacPort 4 := Vector.replicate 4 {}
  filters : List (Nat × Filter) := []
  /-- Records of the RTP flows (R421). -/
  flows : Vector (List Granule) 16 := Vector.replicate 16 []
  jobs : List (Nat × NetJob) := []
  /-- Addresses firmware has resolved by ARP: IPv4 address and MAC address. -/
  arp : List (Nat × List Byte) := []
  /-- Frames delivered to platform firmware, newest first (port, bytes). -/
  fw : List (Nat × List Byte) := []
  /-- Time stamps of the PTP messages received and sent, newest first. -/
  ptp : List PtpStamp := []
  /-- Those of messages being sent, with the step in which the SFD passes (R28, R429). -/
  ptpDue : List (Nat × PtpStamp) := []
deriving DecidableEq, Repr, Inhabited

/-- A junction frame waiting for its acknowledgement: its SEQ, its bytes, how often it was resent, when it was last sent (`runNs`). -/
structure JncSent where
  seq : Nat
  bytes : List Byte
  again : Nat := 0
  at_ : Nat := 0
deriving DecidableEq, Repr, Inhabited

/-- What a TIME frame told: the master's time, node and state, the correction with the link delay, and the local stamp (times in
2^-16 ns; R440). -/
structure JncHeard where
  time : Nat
  node : Nat
  state : Nat
  corr : Int
  stamp : Nat
deriving DecidableEq, Repr, Inhabited

/-- One junction link (R432 to R436, R440). -/
structure JncLink where
  txSeq : Nat := 0
  rxSeq : Nat := 0
  retry : List JncSent := []
  queue : List (List Byte) := []
  /-- A NAK has been sent and the expected SEQ has not come since. -/
  naked : Bool := false
  /-- Interval time (`runNs`) of the last frame sent. -/
  sentAt : Nat := 0
  /-- T_TX of the last TIME frame received and its local stamp, in 2^-16 ns. -/
  echoTx : Nat := 0
  echoRx : Nat := 0
  heard : Option JncHeard := none
  /-- Device time (ms) of the last TIME frame sent. -/
  timeAt : Option Nat := none
deriving DecidableEq, Repr, Inhabited

/-- A received segment of a line: FRAME, LINE, FIRST_PIXEL, and its tag or pixels with the line's colour space (R433). -/
structure JncSeg where
  frame : Nat
  line : Nat
  first : Nat
  body : VLine
deriving DecidableEq, Repr, Inhabited

/-- One junction receive source (R438): segments received and the frame being played. -/
structure JncRx where
  segs : List JncSeg := []
  /-- Number of the frame being played, its start step, steps per line, the next line, its flags. -/
  cur : Option Nat := none
  startAt : Nat := 0
  pace : Nat := 1
  line : Nat := 0
  flags : Nat := 0
  /-- Number of the last frame played. -/
  done : Option Nat := none
deriving DecidableEq, Repr, Inhabited

/-- Junction links beyond registers. -/
structure Jnc where
  links : Vector JncLink 2 := Vector.replicate 2 {}
  /-- JNC_CFG: ports in use, UDP endpoint. -/
  ports : Nat := 3
  udpIp : Nat := 0
  udpPort : Nat := 0
  rx : Vector JncRx 8 := Vector.replicate 8 {}
  /-- Step until which the links are busy with the lines of junction transmit sent so far (R303). -/
  txAt : Nat := 0
  /-- Interval time (`runNs`) at which the discovery under way was sent, and the commands that wait for it. -/
  disc : Option Nat := none
  discBy : List Origin := []
  /-- The lowest node that the last discovery which closed the ring saw (R437). -/
  low : Option Nat := none
  /-- Node IDs that frames have shown on the ring. -/
  nodes : List Nat := []
  /-- Frames discarded on receipt, and frames dropped by a full queue or for want of an address (the spec gives no register). -/
  discarded : Nat := 0
  dropped : Nat := 0
  /-- CONTROL messages delivered to firmware. -/
  control : List (List Byte) := []
deriving DecidableEq, Repr, Inhabited

end Sys2Proof.Machine
end

