-- ==== Sys2Proof/Machine/TypesTime.lean ====
section
/-! DEFINITION. The plain data of odometry (15), PWM (16) and plumb (17) beyond their registers. Each field's default is its
reset value. Odometry times are PCLK cycles; plumb times are device time in units of 2^-48 ns. -/

namespace Sys2Proof.Machine

/-- One axle's decoder and predictor (R358 to R364). -/
structure Axle where
  /-- Filtered levels of balls AXLa_A and AXLa_B. -/
  levA : Bool := false
  levB : Bool := false
  /-- Index of the point last crossed, and whether that crossing was in reverse (R359). -/
  j : Int := 0
  rev : Bool := false
  /-- Cycle of the last mark, real or synthetic; of the last accepted real mark; and whether any was accepted. -/
  markAt : Nat := 0
  realAt : Nat := 0
  /-- Device time as it runs, at the last accepted mark (R5, R370). -/
  realRun : Nat := 0
  marked : Bool := false
  /-- The last mark is synthetic. -/
  synth : Bool := false
  /-- The last four periods, newest first (R361). -/
  periods : List Nat := []
  /-- Noise marks since the last accepted mark; a noise mark not yet cancelled; a cause since then that makes the next
  mark unclean (R362, R367). -/
  noise : Nat := 0
  noiseOpen : Bool := false
  dirty : Bool := false
  /-- The position at the selected axle's last real mark (R369). -/
  latch : Option Int := none
  /-- A position frozen by STALLED or a clock gap, until the next real mark (R364). -/
  frozen : Option Int := none
deriving DecidableEq, Repr, Inhabited

/-- A firing of an event slot (R374): direction reverse, late, predicted. -/
structure Firing where
  rev : Bool
  late : Bool
  predicted : Bool
deriving DecidableEq, Repr, Inhabited

/-- One event slot (R371 to R378). Its state, counters and flags are in ODO_EVSTATs, its arming in ODO_EVARMs. -/
structure Slot where
  kind : Nat := 0
  dir : Nat := 0
  flags : Nat := 0
  position : Int := 0
  length : Nat := 0
  count : Nat := 0
  timeNs : Nat := 0
  output : Nat := 0xFF
  strobe : Nat := 0xFF
  /-- The unit position up to which crossings have been acted on (R372). -/
  seen : Int := 0
  /-- It opened on a reverse crossing; the next line of a TRAIN in its opening direction. -/
  openRev : Bool := false
  next : Nat := 0
  /-- Firings waiting for their pulse, and the cycle of the last pulse start. -/
  queue : List Firing := []
  lastPulse : Option Nat := none
  /-- Device time as it runs at which a window closes or a train fires its next line after a stall (R5, R376). -/
  timeAt : Option Nat := none
deriving DecidableEq, Repr, Inhabited

/-- The odometry unit beyond its registers. -/
structure Odo where
  axles : Vector Axle 4 := Vector.replicate 4 {}
  sel : Nat := 0
  /-- Cycle up to which pulses hold each POS_EVT ball high (R374). -/
  evtUntil : Vector Nat 8 := Vector.replicate 8 0
  /-- ODO_OFFSET, 48 bits. -/
  offset : Int := 0
  stalled : Bool := false
  /-- Unit position of the last real mark of the selected axle (R369). -/
  realPos : Int := 0
  slots : Vector Slot 64 := Vector.replicate 64 {}
  /-- Latches of the high words of ODO_POS, ODO_OFFSET and ODO_AXPOSa. -/
  latPos : Word := 0
  latOfs : Word := 0
  latAx : Vector Word 4 := Vector.replicate 4 0
deriving DecidableEq, Repr, Inhabited

/-- A PWM configuration in force, in units of 78.125 ps (R381, R383, R385). -/
structure PwmCfg where
  en : Bool := false
  inv : Bool := false
  sync : Nat := 0
  arg : Nat := 0
  period : Nat := 256
  duty : Nat := 0
  dead : Nat := 0
  bootHold : Nat := 0
  bootPw : Nat := 0
deriving DecidableEq, Repr, Inhabited

/-- A refresh of the high-side switch: PWM_H off for DEAD, PWM_L on, DEAD again (R387). -/
structure Refresh where
  /-- Unit of the period at which it began, before 0 where it began in the period before; DEAD and the length of the low pulse, in units. -/
  at_ : Int
  dead : Nat
  pw : Nat
deriving DecidableEq, Repr, Inhabited

/-- One PWM channel (R381 to R391). -/
structure PwmCh where
  cfg : PwmCfg := {}
  /-- A period has begun, at unit `start` of the FCLK count (128 units in 5 steps) and keep-alive time `startKa`. -/
  run : Bool := false
  start : Nat := 0
  startKa : Nat := 0
  /-- On intervals of the high and the low side in this period, in units from its start; empty where the ends are equal. -/
  h0 : Nat := 0
  h1 : Nat := 0
  l0 : Nat := 0
  l1 : Nat := 0
  /-- Units at which each switch last turned off or will at the end of its interval. -/
  hOff : Nat := 0
  lOff : Nat := 0
  /-- Units for which the high side had been on when this period began (R387). -/
  hCarry : Nat := 0
  /-- Units at which the cycles of strobes not yet used began under SYNC 1; the last frame instant that was used under SYNC 2 (ns of device
  time). -/
  due : List Nat := []
  frameAt : Option Nat := none
  /-- Unit from which frame instants count and a free channel may start (R385, R391). -/
  from_ : Nat := 0
  /-- The last refresh of this period (R387). -/
  refresh : Option Refresh := none
  /-- Unit of the period at which each side's stretch began, and the keep-alive time (ns) then, where the period's start does not tell (R390). -/
  hSince : Option (Int × Nat) := none
  lSince : Option (Int × Nat) := none
  /-- Unit of the period at which the channel froze, and the keep-alive time then (R388). -/
  frozen : Option (Nat × Nat) := none
deriving DecidableEq, Repr, Inhabited

/-- The PWM block beyond its registers. -/
structure Pwm where
  ch : Vector PwmCh 12 := Vector.replicate 12 {}
  /-- Channels newly forced off and causes not yet reported by PWM_TRIP (R392). -/
  tripMask : Nat := 0
  tripCause : Nat := 0
  /-- Reasons to be frozen: the platform pair is halted; PCLK has stopped (R388). -/
  halted : Bool := false
  stopped : Bool := false
deriving DecidableEq, Repr, Inhabited

/-- The measurement of one reference (R393 to R397). Times of a gate are base-rate time, which a pull does not bias. -/
structure RefMeas where
  /-- Run time (`Plb.run`) at which the measurement began and of the last sample; the whole ms of device time of that sample. -/
  began : Nat := 0
  last : Option Nat := none
  lastMs : Nat := 0
  /-- Base-rate time and root time at the start of the gate in progress, and the cycles counted in it. -/
  gate : Option (Nat × Nat × Nat) := none
  /-- The gate in progress contained a LOS. -/
  gateLos : Bool := false
  /-- Offset of the previous gate against the root, in ppt (R397; DEDUCED, log entry 36). -/
  prevOfs : Option Int := none
  good : Nat := 0
  /-- Run time since which it has been qualified. -/
  since : Nat := 0
deriving DecidableEq, Repr, Inhabited

/-- Plumb beyond its registers (R393 to R412). -/
structure Plb where
  refs : Vector RefMeas 7 := Vector.replicate 7 {}
  /-- Base-rate time: what device time would count at offset FI alone (R396). -/
  base : Nat := 0
  /-- Run time of the last step of device time (R408). -/
  stepRun : Option Nat := none
  /-- Run time: device time without its steps (R408), against which plumb's intervals are measured (DEDUCED, log entry 36). -/
  run : Nat := 0
  /-- FI and FP in ppt (R405). -/
  fi : Int := 0
  fp : Int := 0
  /-- Run time at which the move in progress ends. -/
  moveEnd : Option Nat := none
  /-- Consecutive samples within WIN_NS in ACQUIRE; a step is still allowed in this acquisition from FREERUN (R408). -/
  lockRun : Nat := 0
  mayStep : Bool := false
  /-- Stamp that defines the target of a selected frequency reference (R401). -/
  freq0 : Option Nat := none
  /-- The manual reference has been selected while it was not qualified (R400). -/
  advance : Bool := false
  /-- The last e of reference 6 (R394, R441). -/
  lastE6 : Int := 0
  /-- FI once a second while LOCKED, newest first, with its run time, and the second of device time of the newest (R406). -/
  hist : List (Nat × Int) := []
  histSec : Nat := 0
  /-- Run time of the last entry into HOLDOVER. -/
  heldAt : Nat := 0
  /-- State last reported by PLB_STATE (R404). -/
  reported : Nat := 0
  /-- Keep-alive time at which the derived clocks were gated (R410). -/
  gapAt : Option Nat := none
  /-- Half-period index of CLKOUT0 and CLKOUT1 at their last edge, and the run time until which a half-period runs on after a
  time step (R411, R412). -/
  half : Vector Nat 2 := Vector.replicate 2 0
  hold : Vector Nat 2 := Vector.replicate 2 0
  /-- Last whole second for which PPS_OUT rose or that a step passed, and whether PPS_OUT is high. -/
  ppsSec : Nat := 0
  ppsHigh : Bool := false
  /-- Run time of the last rise of PPS_OUT (R411). -/
  ppsRose : Nat := 0
deriving DecidableEq, Repr, Inhabited

end Sys2Proof.Machine
end

