-- ==== Sys2Proof/Machine/State.lean ====
section
/-! DEFINITION. The machine's state, its stop reasons and its reset. -/

namespace Sys2Proof.Machine

/-- Why the machine stops. No command of the spec stops it, so no meaning answers with a fault. -/
inductive Fault where
  /-- Raised by nobody: every row of the table has an effect (safe). -/
  | unreachable
deriving DecidableEq, Repr

/-- Why a command is refused. -/
inductive Refusal where
  /-- Raised by an arm of exec whose command has no meaning yet; safe. -/
  | notModelled (mnemonic : String)
  /-- Raised by exec for a command whose operands are not well formed (an index no unit has); safe. -/
  | illFormed
deriving DecidableEq, Repr

/-- The whole machine. Registers and memories are sparse stores in canonical form; every other field holds state the
spec gives the block beyond its registers. -/
structure State where
  /-- Commands waiting, first in, first out. -/
  pending : List Instr := []
  /-- What the latest command drove out. -/
  out : List Out := []
  /-- The model's own counter of free values drawn (log entry 5). -/
  free : Nat := 0
  /-- Every register by platform address; an unlisted register holds its reset value (R6, R12). -/
  regs : List (Nat × Word) := []
  /-- Boot ROM, working SRAM, bank field, LPDDR5X and xSPI flash, by offset from the start of each (R33). -/
  rom : List (Nat × Byte) := []
  sram : List (Nat × Byte) := []
  bkf : List (Nat × Byte) := []
  ddr : List (Nat × Byte) := []
  flash : List (Nat × Byte) := []
  clk : Clk := {}
  pwr : Vector PwrDom 14 := Vector.replicate 14 {}
  tme : Tme := {}
  cores : Vector Core 6 := Vector.replicate 6 {}
  /-- SC2/SC3 and SC4/SC5 run as locked pairs; SC0/SC1 always do (R17, R163). -/
  lock23 : Bool := false
  lock45 : Bool := false
  field : BankField := {}
  ddrCtl : DdrCtl := {}
  bxm : Bxm := {}
  dbg : Dbg := {}
  fig : Fig := {}
  mbx : Mbx := {}
  pcie : Pcie := {}
  snap : Snap := {}
  fw : Fw := {}
  odo : Odo := {}
  pwm : Pwm := {}
  plb : Plb := {}
  vid : Vid := {}
  aud : Aud := {}
  net : Net := {}
  jnc : Jnc := {}
  otp : Otp := {}
  keys : Keys := {}
  seals : Vector SealIn 4 := Vector.replicate 4 {}
  /-- What hardware set in W1C fields and what writes set in W1S fields, as (register, cycle of its block's clock, bits): R8 and R560
  order a write and a hardware event of one cycle by it. -/
  marks : List (Nat × Nat × Word) := []
  /-- Interval time (`runNs`) until which the seal signer is busy (R464). -/
  signerBusy : Nat := 0
deriving DecidableEq, Repr, Inhabited

/-- The machine right after power-on reset with every strap open: POR_N has just risen and t = 0 (R465, R469). -/
def State.reset : State := {}

end Sys2Proof.Machine
end

