-- ==== Sys2Proof/Machine/Ops.lean ====
section
/-! DEFINITION. The shared operations: registers and fields, memories, free values, outputs, readiness, events, MSI-X and the
frame every meaning runs in. -/

namespace Sys2Proof.Machine

/-! ### Registers (R6 to R12) -/

/-- The indices by which the strides `dims` reach offset `o`, if they do. -/
def famIdx : List (Nat × Nat) → Nat → Option (List Nat)
  | [], o => if o = 0 then some [] else none
  | (s, c) :: t, o => if o / s < c then (famIdx t (o % s)).map (o / s :: ·) else none

/-- The register table and indices of the register at platform address `a`, if a table lists it. -/
def findReg (a : Nat) : Option (Family × List Nat) :=
  (blockFamilies (a / 65536)).findSome? fun f =>
    if f.base ≤ a then (famIdx f.dims (a - f.base)).map (f, ·) else none

/-- The reset value of the register at `a` (R12); 0 where no table lists one. -/
def regReset (a : Nat) : Word :=
  match findReg a with
  | some (f, _) => BitVec.ofNat 32 (f.fields.foldl (fun n x => n + x.reset * 2 ^ x.lo) 0)
  | none => 0

/-- The bits of the register at `a` that some field of its table holds; the others are reserved (R10). -/
def regMask (a : Nat) : Word :=
  match findReg a with
  | some (f, _) => BitVec.ofNat 32 (f.fields.foldl (fun n x => n + (2 ^ (x.hi + 1) - 2 ^ x.lo)) 0)
  | none => 0

/-- The value of the register at platform address `a`. -/
def State.reg (s : State) (a : Nat) : Word := sget regReset s.regs a

/-- Set the register at `a`. -/
def State.setReg (s : State) (a : Nat) (v : Word) : State := { s with regs := sset regReset a v s.regs }

/-- The value of a register field. -/
def State.get (s : State) (f : Fld) : Nat := (s.reg f.addr).toNat / 2 ^ f.lo % 2 ^ (f.hi + 1 - f.lo)

/-- The value of a one-bit field. -/
def State.bit (s : State) (f : Fld) : Bool := s.get f = 1

/-- The value of a field read as two's complement. -/
def State.getI (s : State) (f : Fld) : Int := signed (f.hi + 1 - f.lo) (s.get f)

/-- Register word `w` with bits `hi:lo` replaced by the low bits of `v`. -/
def insertBits (w : Word) (hi lo v : Nat) : Word :=
  let m := BitVec.ofNat 32 (2 ^ (hi + 1) - 2 ^ lo)
  (w &&& ~~~m) ||| (BitVec.ofNat 32 (v * 2 ^ lo) &&& m)

/-- Set a register field to the low bits of `v`. -/
def State.put (s : State) (f : Fld) (v : Nat) : State := s.setReg f.addr (insertBits (s.reg f.addr) f.hi f.lo v)

/-- Set a one-bit field. -/
def State.putB (s : State) (f : Fld) (b : Bool) : State := s.put f (if b then 1 else 0)

/-- Set a field to a two's complement value. -/
def State.putI (s : State) (f : Fld) (z : Int) : State := s.put f (unsigned (f.hi + 1 - f.lo) z)

/-- Add to a counter field that saturates at its largest value. -/
def State.bump (s : State) (f : Fld) (n : Nat := 1) : State :=
  s.put f (min (2 ^ (f.hi + 1 - f.lo) - 1) (s.get f + n))

/-- Add to a counter field that wraps. -/
def State.bumpWrap (s : State) (f : Fld) (n : Nat := 1) : State := s.put f (s.get f + n)

/-- Return every register of the blocks numbered in `bs` to its reset value (R466). -/
def State.resetBlocks (s : State) (bs : List Nat) : State :=
  { s with regs := s.regs.filter (fun p => !bs.contains (p.1 / 65536)) }

/-- The blocks of the always-on, static, dynamic and debug domains (R39). -/
def aonBlocks : List Nat := [0x4000, 0x4001, 0x4002, 0x4003, 0x4004, 0x4005, 0x4006, 0x4022]
def staticBlocks : List Nat :=
  [0x4010, 0x4011, 0x4012, 0x4013, 0x4014, 0x4018, 0x4019, 0x4030, 0x4031, 0x4032, 0x4033, 0x4034, 0x4035, 0x4038,
   0x4039, 0x4040, 0x4041, 0x4042, 0x4043, 0x4052]
def dynBlocks : List Nat := [0x401A, 0x4020, 0x4021, 0x4023, 0x4050, 0x4051]
def dbgBlocks : List Nat := [0x4060, 0x4061, 0x4062]

/-! ### Memories (R33) -/

def romSize : Nat := 0x40000
def sramSize : Nat := 0x80000
def bkfSize : Nat := 0x2000000
def ddrSize : Nat := 0x800000000

/-- Bytes of a ring area that are stored: its slots, and the words that host boot uses (R240, R457). -/
def ringSize : Nat := 0x1900
/-- Trace RAM bytes (R522). -/
def traceSize : Nat := 0x40000

/-- A memory in canonical form with no byte at or beyond `n`. -/
def trimMem (n : Nat) (m : List (Nat × Byte)) : List (Nat × Byte) := snorm zeroByte (fun a v => if a < n then v else 0) m

/-- The canonical form of every store of the state, with reserved register bits 0 and no byte beyond a memory's end:
what every command leaves (R10, R33). -/
def State.seal (s : State) : State :=
  { s with
    regs := snorm regReset (fun a v => v &&& regMask a) s.regs
    rom := trimMem romSize s.rom
    sram := trimMem sramSize s.sram
    bkf := trimMem bkfSize s.bkf
    ddr := trimMem ddrSize s.ddr
    flash := snorm erasedByte (fun _ v => v) s.flash
    dbg := { s.dbg with ram := trimMem traceSize s.dbg.ram }
    mbx := { s.mbx with rings := s.mbx.rings.map fun q => { q with mem := trimMem ringSize q.mem } } }

/-- A memory of `n` bytes: canonical form, no byte at or beyond `n`. -/
abbrev Memory.wf (n : Nat) (m : List (Nat × Byte)) : Prop := SWf zeroByte m ∧ ∀ p ∈ m, p.1 < n

/-- The invariant that `seal` establishes: register and memory stores in canonical form, reserved register bits 0 (R10), no byte
beyond a memory's end (R33). -/
abbrev State.Sealed (s : State) : Prop :=
  SWf regReset s.regs ∧ (∀ p ∈ s.regs, p.2 &&& ~~~ regMask p.1 = 0) ∧
  Memory.wf romSize s.rom ∧ Memory.wf sramSize s.sram ∧ Memory.wf bkfSize s.bkf ∧ Memory.wf ddrSize s.ddr ∧ SWf erasedByte s.flash ∧
  Memory.wf traceSize s.dbg.ram ∧ ∀ q ∈ s.mbx.rings.toList, Memory.wf ringSize q.mem

/-- The state as a command finds it: the outputs of the command before are gone. -/
def State.clean (s : State) : State := { s with out := [] }

/-- The state that a command with effect `f` leaves: outputs of this command only, the queue's rest untouched, the stores sealed. -/
def State.after (s : State) (f : State → State) : State := { (f s.clean).seal with pending := s.pending }

/-- Every meaning is this frame around its effect. -/
def run (s : State) (f : State → State) : Host.Outcome State Fault Refusal := .next (s.after f)

/-- As `run`, for a command whose operands a check must pass. -/
def runIf (ok : Bool) (s : State) (f : State → State) : Host.Outcome State Fault Refusal :=
  if ok then run s f else .refused .illFormed

/-- The derived clocks stand: they are gated after a loss of lock (R23), or the strapped OSC_SEL never lets them start (R20). -/
def State.stands (s : State) : Bool := s.clk.gated || s.get Fd.SYS_CLKSTAT_OSC_SEL = 3

/-- The derived clocks run: the divider chain has started, and a lock that has been lost has not gated them yet (R22, R23). -/
def State.clocksRun (s : State) : Bool := s.bit Fd.SYS_CLKSTAT_BEAT_ALIGNED || s.clk.gateAt.isSome

/-- As `run`, for a command of a unit that the derived clocks drive: while they stand it does not act (R20, R23; log entry 50). -/
def runClk (s : State) (f : State → State) : Host.Outcome State Fault Refusal := run s fun s => if s.stands then s else f s

/-- As `runIf`, for such a command. -/
def runIfClk (ok : Bool) (s : State) (f : State → State) : Host.Outcome State Fault Refusal := runIf ok s fun s => if s.stands then s else f s

/-- Apply `f` if `b` holds. -/
def State.when (s : State) (b : Bool) (f : State → State) : State := if b then f s else s

/-- Drive an output. -/
def State.emit (s : State) (o : Out) : State := { s with out := s.out ++ [o] }

/-- EXTEST, CLAMP or HIGHZ holds the balls: nothing that the functions do reaches them (R537). -/
def State.scanHeld (s : State) : Bool := s.dbg.ir = .extest || s.dbg.ir = .clamp || s.dbg.ir = .highz

/-- What functions drive reaches the balls of the chain only while the boundary scan leaves them to it (R537). -/
def State.atBalls (s : State) (l : List Out) : List Out := if s.scanHeld then [] else l

/-- Drive an output at balls of the boundary-scan chain. -/
def State.drive (s : State) (o : Out) : State := if s.scanHeld then s else s.emit o

/-- Draw a free value (log entry 5). -/
def State.draw (s : State) : Nat × State := (Config.freeValue s.free, { s with free := s.free + 1 })

/-- Draw `n` free bytes. -/
def State.drawBytes : Nat → State → List Byte × State
  | 0, s => ([], s)
  | n + 1, s =>
    let (v, s1) := s.draw
    let (l, s2) := State.drawBytes n s1
    (BitVec.ofNat 8 v :: l, s2)

/-- Apply `f` to each element in turn. -/
def State.each {α : Type} (s : State) (l : List α) (f : State → α → State) : State := l.foldl f s

/-! ### Unstated roundings -/

/-- n / d: exact where it is whole, else one of its two neighbours (the rounding is unstated, log entry 6). -/
def roundQ (n : Int) (d : Nat) : Int :=
  let q := n / d
  if n % d = 0 then q else if Config.roundsUp n d then q + 1 else q

/-! ### Time (R5, R19, R407) -/

/-- One nanosecond in units of device time. -/
def nsU : Nat := 2 ^ 48

/-- Device time in whole ns. -/
def State.ns (s : State) : Nat := s.tme.t / 2 ^ 48

/-- Device time in whole seconds and the ns within the second. -/
def State.sec (s : State) : Nat := s.ns / 1000000000
def State.nsInSec (s : State) : Nat := s.ns % 1000000000

/-- The time in ns that intervals are measured in: device time as the time engine counts it, without its steps (R5, R408; DEDUCED, log
entry 48). -/
def State.runNs (s : State) : Nat := s.plb.run / 2 ^ 48

/-- Device time has reached the instant that lies `ago` units before now by counting, not by a step (R408, R412). -/
def State.counted (s : State) (ago : Nat) : Bool := s.plb.stepRun.all fun r => ago < s.plb.run - r

/-- The run time at which device time reached `t` ns by counting; none where `t` lies ahead, or a step of device time passed it. -/
def State.crossed (s : State) (t : Nat) : Option Nat :=
  if t * nsU ≤ s.tme.t && s.counted (s.tme.t - t * nsU) then some (s.plb.run - (s.tme.t - t * nsU)) else none

/-- Rising edges so far of a derived clock with `k` cycles in a beat: its edges coincide with the start of each beat (R18, R19, R22). -/
def State.cycles (s : State) (k : Nat) : Nat := k * s.clk.beats + (s.clk.now - s.clk.beat0) * k / 5

/-- Time since the start of the present timeline, in ns of keep-alive time (R469). -/
def State.tline (s : State) : Nat := s.clk.ka - s.clk.timeline

/-! ### A write and a hardware event in one cycle (R8, R560) -/

/-- The period of the keep-alive oscillator in ps: 20 MHz ±10 %, free within it (R24, R560; log entry 5). -/
def kaPeriod : Nat := 45455 + Config.keepAlive % 10101

/-- The blocks of the stream engines, which SCLK clocks (R39). -/
def seBlock (b : Nat) : Bool := 0x4011 ≤ b && b ≤ 0x4014

/-- The present cycle of the clock of register block `b` (R39, R560). The keep-alive oscillator clocks PWR, TCK the DBG and XTR blocks,
and the trace clock, 200 MHz of the root, TRC. Of SCLK's two cycles in a step, a write to SE0 to SE3 takes effect in a free one (log entry 49). -/
def State.blockCycle (s : State) (b : Nat) : Nat :=
  if seBlock b then 2 * s.clk.now + Config.sclkHalf (2 * s.clk.now) % 2
  else if b = 0x4001 then s.clk.ka * 1000 / kaPeriod
  else if b = 0x4060 || b = 0x4062 then s.dbg.tck
  else if b = 0x4061 then s.cycles 2
  else if [0x401A, 0x4020, 0x4021, 0x4023, 0x4050, 0x4051].contains b then s.cycles 8
  else if [0x4005, 0x4006, 0x4030, 0x4031, 0x4032, 0x4033, 0x4034, 0x4035].contains b then s.cycles 4
  else if [0x4000, 0x4002, 0x4003, 0x4022, 0x4038, 0x4039].contains b then s.cycles 1
  else s.clk.now

/-- Bits of the register at `a` that are marked in the present cycle of its block's clock. -/
def State.marked (s : State) (a : Nat) : Word :=
  (s.marks.filter fun m => m.1 = a && m.2.1 = s.blockCycle (a / 65536)).foldl (fun w m => w ||| m.2.2) 0

/-- Mark bits of the register at `a`; marks of earlier cycles of its block go. What an engine sets falls in a free one of the step's two SCLK
cycles. -/
def State.mark (s : State) (a : Nat) (w : Word) : State :=
  let c := if seBlock (a / 65536) then 2 * s.clk.now + Config.sclkHalf (2 * s.clk.now + 1) % 2 else s.blockCycle (a / 65536)
  { s with marks := (a, c, w) :: s.marks.filter fun m => m.1 / 65536 ≠ a / 65536 || m.2.1 = c }

/-- Hardware sets `bits` of the W1C field `f`: a write that would clear them in the same cycle leaves them set (R8). -/
def State.flag (s : State) (f : Fld) (bits : Nat := 1) : State :=
  (s.put f (s.get f ||| bits)).mark f.addr (BitVec.ofNat 32 (bits * 2 ^ f.lo))

/-- Hardware clears the W1S field `f`, but for bits that a write sets in the same cycle (R8). -/
def State.unflag (s : State) (f : Fld) : State := s.put f ((s.marked f.addr).toNat / 2 ^ f.lo)

/-! ### Readiness board (R472) -/

def rdyBit (b : Nat) : Fld := if b < 32 then ⟨Reg.RDY_BOARD_LO, b, b⟩ else ⟨Reg.RDY_BOARD_HI, b - 32, b - 32⟩

def State.ready (s : State) (b : Nat) : Bool := s.bit (rdyBit b)

/-- Set bit `b` and stamp its set time: t in µs, rounded up and at least 1 (RDY_SETTIMEb). A set bit stays as it is. -/
def State.setReady (s : State) (b : Nat) : State :=
  if s.ready b then s
  else (s.put (rdyBit b) 1).put (Fd.RDY_SETTIME_T_US b) (max 1 (cdiv s.tline 1000))

def State.clearReady (s : State) (b : Nat) : State := s.put (rdyBit b) 0

/-- As `runClk`, for a command to an interface that R474 has answer in a set way until bit `b` is set, clocks or none. -/
def runReady (b : Nat) (s : State) (f : State → State) : Host.Outcome State Fault Refusal :=
  run s fun s => if s.stands && s.ready b then s else f s

/-- Readiness bit numbers by name (R472). -/
def rCLK : Nat := 0
def rAON : Nat := 1
def rODO : Nat := 2
def rPLB : Nat := 3
def rPWM : Nat := 4
def rXSPI : Nat := 5
def rKEY : Nat := 6
def rMBX : Nat := 7
def rPCIE : Nat := 8
def rDDR : Nat := 9
def rFGE : Nat := 10
def rVID : Nat := 11
def rAUD : Nat := 12
def rNET : Nat := 13
def rJNC : Nat := 14
def rSEAL : Nat := 15
def rDBG : Nat := 16
def rBOARD : Nat := 17
def rBAY (n : Nat) : Nat := 32 + n

/-! ### Power domains (R477, R482) -/

/-- The power domain of a register block, by block number (R477). -/
def blockDomain (b : Nat) : Nat :=
  if 0x4011 ≤ b ∧ b ≤ 0x4014 then 8 + (b - 0x4011)
  else if b = 0x4033 then 12
  else if b = 0x4043 then 13
  else if aonBlocks.contains b then 0
  else if dbgBlocks.contains b then 1
  else if dynBlocks.contains b then 2
  else 3

/-- Domain `d` admits requests: it is ON (R478). Domains that are never gated always do. -/
def State.domOn (s : State) (d : Nat) : Bool := s.get (Fd.PWR_STATE_STATE d) = 0

/-- Count a request returned DOMAIN_DOWN (R482). -/
def State.countDown (s : State) : State := s.bump Fd.PWR_DOWNCNT_COUNT

/-! ### Bays (R206) -/

def bayStateFld (b : Nat) : Fld := ⟨Reg.SYS_BAYSTATE, 4 * b + 3, 4 * b⟩

/-- State codes of R206. -/
def bEMPTY : Nat := 0
def bCREATED : Nat := 1
def bRUNNING : Nat := 2
def bASLEEP : Nat := 3
def bDRAINING : Nat := 4
def bFAULTED : Nat := 5

def State.bayState (s : State) (b : Nat) : Nat := s.get (bayStateFld b)

def State.bayRec (s : State) (b : Nat) : Bay := vget s.fw.bays b

def State.modBay (s : State) (b : Nat) (f : Bay → Bay) : State :=
  { s with fw := { s.fw with bays := vmod s.fw.bays b f } }

/-- Count in bay `b`'s firmware counter `i` (R499). -/
def State.countBay (s : State) (b i : Nat) : State :=
  s.modBay b fun r => { r with counters := vmod r.counters i (fun n => min (2 ^ 32 - 1) (n + 1)) }

/-! ### Mailbox rings and events (R240 to R253) -/

def State.ring (s : State) (r : Nat) : RingSet := vget s.mbx.rings r

def State.modRing (s : State) (r : Nat) (f : RingSet → RingSet) : State :=
  { s with mbx := { s.mbx with rings := vmod s.mbx.rings r f } }

/-- Ring set `r`'s producer and consumer is the host: always for the PF and bay 0 (R242). -/
def State.hostRing (s : State) (r : Nat) : Bool :=
  r = 8 || r = 0 || !s.bit (Fd.MBX_CFG_PRODUCER r)

/-- The unlisted word of an MSI-X table: vector control words read masked (PRESUMED, PCI, log entry 12). -/
def msixReset (k : Nat) : Word := if k % 4 = 3 then 1 else 0

/-- Change function `n` of the PCIe endpoint. -/
def State.modFn (s : State) (n : Nat) (f : PcieFn → PcieFn) : State :=
  { s with pcie := { s.pcie with fns := vmod s.pcie.fns n f } }

/-- Function `n` exists: the PF (8) always, a VF while the PF's VF Enable is set (R212, R221; PRESUMED, PCI, log entry 12). -/
def State.fnThere (s : State) (n : Nat) : Bool := n ≥ 8 || s.pcie.vfEnable

/-- Function `n` exists and is in D0, where it takes memory requests and sends messages (R213; PRESUMED, PCI, log entry 12). -/
def State.fnOn (s : State) (n : Nat) : Bool := s.fnThere n && !(vget s.pcie.fns n).d3

/-- Set bit `b` of function `n`'s uncorrectable error status (R213; PRESUMED, PCI, log entry 12). -/
def State.aerSet (s : State) (n b : Nat) : State := s.modFn n fun f => { f with aer := f.aer ||| (1#32 <<< b) }

/-- Function `n` answers a memory read with Completer Abort, which AER reports (R213, R216, R223 to R225). -/
def State.abortTo (s : State) (n : Nat) : State := (s.aerSet n 15).emit .abort

/-- A memory request of the host to function `n`: `f` is what it does. A function in D3hot, or one that does not exist, answers a read with
Unsupported Request and drops a write; AER reports the first (R213; PRESUMED, PCI, log entry 12). -/
def State.memRequest (s : State) (n : Nat) (read : Bool) (f : State → State) : State :=
  if s.fnOn n then f s
  else
    let s1 := if s.fnThere n then s.aerSet n 20 else s
    if read then s1.emit .unsupported else s1

/-- Vector `v` of function `n` may send: the function is there in D0, MSI-X is enabled, and neither the function nor the vector is masked
(R213, R218). -/
def State.msixOpen (s : State) (n v : Nat) : Bool :=
  let f := vget s.pcie.fns n
  s.fnOn n && f.msixEn && !f.msixMask && !(sget msixReset f.msix (4 * v + 3)).getLsbD 0

/-- A vector's source fires: the message is sent, or the vector becomes pending under its mask (R218). -/
def State.msix (s : State) (n v : Nat) : State :=
  if s.msixOpen n v then s.emit (.msix n v)
  else s.modFn n fun f => { f with pend := f.pend ||| (1#64 <<< v) }

/-- The 32 bytes of an event (R253). -/
def eventBytes (code kind flags : Nat) (seq : Word) (measure : Nat) (arg : List Byte) : List Byte :=
  natLe 2 code ++ natLe 1 kind ++ natLe 1 flags ++ natLe 4 seq.toNat ++ natLe 8 measure ++ fixLen 0 16 arg

/-- Lose an event due on ring `r`: count it and mark the next (R247, R258). -/
def State.loseEvent (s : State) (r : Nat) : State :=
  let s1 := s.modRing r fun q =>
    { q with evtLost := min 65535 (q.evtLost + 1), evtSeq := q.evtSeq + 1, lostMark := true }
  if r < 8 then s1.countBay r 10 else s1

/-- Post an event to ring `r` only (R247). `force` writes even while the mailbox bit is clear (R258). -/
def State.postRaw (s : State) (r code kind measure : Nat) (arg : List Byte) (force : Bool) : State :=
  let q := s.ring r
  if (!s.ready rMBX && !force) || (q.evtPi - q.evtCi).toNat ≥ 64 then s.loseEvent r
  else
    let flags := if q.lostMark then 1 else 0
    let s1 := s.modRing r fun q =>
      { q with
        mem := writeBytes zeroByte (eventBytes code kind flags q.evtSeq measure arg) (0x1000 + 32 * (q.evtPi.toNat % 64)) q.mem
        evtPi := q.evtPi + 1, evtSeq := q.evtSeq + 1, lostMark := false }
    if s.hostRing r then s1.msix r 1 else s1

/-- Post a platform event to ring `r`; every event of bay 0 also goes to the PF (R253a). -/
def State.post (s : State) (r code : Nat) (arg : List Byte) : State :=
  let s1 := s.postRaw r code 0 s.fig.measure arg false
  if r = 0 then s1.postRaw 8 code 0 s.fig.measure arg false else s1

/-- Post to bay 0 (and so the PF) and to bay `b`. -/
def State.postBoth (s : State) (b code : Nat) (arg : List Byte) : State :=
  let s1 := s.post 0 code arg
  if b = 0 then s1 else s1.post b code arg

/-- Enter bay state `c` and keep the bay's readiness bit with it (R206, R472); BAY_STATE is posted to bay 0 and, unless
it is now EMPTY, to the bay (DEDUCED, log entry 15). -/
def State.setBayState (s : State) (b c : Nat) : State :=
  let s1 := s.put (bayStateFld b) c
  let s2 := if c = bRUNNING then s1.setReady (rBAY b) else s1.clearReady (rBAY b)
  let arg := natLe 1 b ++ natLe 1 c
  if c = bEMPTY then s2.post 0 0x000C arg else s2.postBoth b 0x000C arg

/-! ### Endpoints (R96, R98) -/

/-- The endpoint record of a resource. -/
def State.endp (s : State) (r : Nat) : Endpoint := sget (fun _ => ({} : Endpoint)) s.fig.ends r

def State.modEnd (s : State) (r : Nat) (f : Endpoint → Endpoint) : State :=
  { s with fig := { s.fig with ends := sset (fun _ => ({} : Endpoint)) r (f (s.endp r)) s.fig.ends } }

/-- FIFO size of an endpoint in granules (R96). -/
def endSize (r : Nat) : Nat :=
  if 0x1A8 ≤ r ∧ r ≤ 0x1BF then 2048
  else if r = 0x1C0 ∨ r = 0x1C1 then 512
  else 1024

/-- Push a granule into an endpoint FIFO; a full FIFO drops it and sets OVERRUN (R98). -/
def State.pushEnd (s : State) (r : Nat) (g : Granule) : State :=
  s.modEnd r fun e => if e.fifo.length < endSize r then { e with fifo := e.fifo ++ [g] } else { e with overrun := true }

/-! ### Share grants and ownership (R191, R202) -/

/-- Owner bay of destination `d` and of source `i`; 0xF is none. -/
def State.destOwner (s : State) (d : Nat) : Nat := s.get ⟨Reg.VXM_DOWN (d / 8), 4 * (d % 8) + 3, 4 * (d % 8)⟩
def State.sourceOwner (s : State) (i : Nat) : Nat := s.get ⟨Reg.VXM_SOWN (i / 8), 4 * (i % 8) + 3, 4 * (i % 8)⟩

/-- The share grants in force. -/
def State.shares (s : State) : List Share := s.fw.shares.toList.filterMap id

/-- Bay `b` may use source `i`: it owns it or a SOURCE share lends it (R100, R202). -/
def State.maySource (s : State) (b i : Nat) : Bool :=
  s.sourceOwner i = b || s.shares.any fun h => !h.memory && h.borrower = b && h.source = i && s.sourceOwner i = h.owner

/-- Granules of a list of bytes, zero padded (R4). -/
def granules (fuel : Nat) (l : List Byte) : List Granule :=
  match fuel with
  | 0 => []
  | n + 1 => if l.isEmpty then [] else { data := BitVec.ofNat 128 (leNat (l.take 16)) } :: granules n (l.drop 16)

/-- The sixteen bytes of a granule. -/
def Granule.bytes (g : Granule) : List Byte := natLe 16 g.data.toNat

end Sys2Proof.Machine
end

