-- ==== Sys2Proof/Machine/Frames.lean ====
section
/-! DEFINITION. Frame arithmetic (CRC-32 of IEEE 802.3, IPv4 headers) and the sources of MAC receive DMA (R421, R422, R428). -/

namespace Sys2Proof.Machine

/-- One bit of CRC-32, reflected. -/
def crcBit (c : Word) : Word := if c.getLsbD 0 then (c >>> 1) ^^^ 0xEDB88320#32 else c >>> 1

/-- CRC-32 of IEEE 802.3 over a list of bytes. -/
def crc32 (l : List Byte) : Word :=
  ~~~ (l.foldl (fun c b => (List.range 8).foldl (fun c _ => crcBit c) (c ^^^ b.zeroExtend 32)) (BitVec.allOnes 32))

/-- One's complement checksum of a header of 16-bit words in network order. -/
def ipSum (l : List Byte) : Nat :=
  let words := (List.range (l.length / 2)).map fun i => beNat ((l.drop (2 * i)).take 2)
  let t := words.foldl (· + ·) 0
  let f := t % 65536 + t / 65536
  65535 - (f % 65536 + f / 65536)

/-- A 20-byte IPv4 header: payload bytes, protocol, TTL, don't fragment, source, destination. -/
def ipHeader (len proto ttl : Nat) (df : Bool) (src dst : Nat) : List Byte :=
  let h (sum : Nat) : List Byte :=
    natBe 1 0x45 ++ natBe 1 0 ++ natBe 2 (20 + len) ++ natBe 2 0 ++ natBe 2 (if df then 0x4000 else 0) ++ natBe 1 ttl ++ natBe 1 proto ++
      natBe 2 sum ++ natBe 4 src ++ natBe 4 dst
  h (ipSum (h 0))

/-- A UDP datagram without checksum in an IPv4 packet. -/
def udpPacket (ttl : Nat) (df : Bool) (src dst sport dport : Nat) (l : List Byte) : List Byte :=
  ipHeader (8 + l.length) 17 ttl df src dst ++ natBe 2 sport ++ natBe 2 dport ++ natBe 2 (8 + l.length) ++ natBe 2 0 ++ l

/-- A big-endian field of a frame. -/
def beAt (l : List Byte) (o k : Nat) : Nat := beNat (fixLen 0 k (l.drop o))

/-- EtherType of a frame and the offset of its payload, past one VLAN tag. -/
def etherType (l : List Byte) : Nat × Nat := if beAt l 12 2 = 0x8100 then (beAt l 16 2, 18) else (beAt l 12 2, 14)

/-! ### Owners (R191) -/

def State.macPort (s : State) (p : Nat) : MacPort := vget s.net.ports p
def State.modMac (s : State) (p : Nat) (f : MacPort → MacPort) : State := { s with net := { s.net with ports := vmod s.net.ports p f } }
def State.modNet (s : State) (f : Net → Net) : State := { s with net := f s.net }
def State.netClass (s : State) (p c : Nat) : NetClass := vget (s.macPort p).classes c
def State.modClass (s : State) (p c : Nat) (f : NetClass → NetClass) : State :=
  s.modMac p fun m => { m with classes := vmod m.classes c f }

/-- Bay `b` owns class `c` of port `p`; the owner of a class. -/
def State.ownsClass (s : State) (b p c : Nat) : Bool := (vget (s.bayRec b).net p).queues.getLsbD c
def State.classOwner (s : State) (p c : Nat) : Option Nat := (List.range 8).find? fun b => s.ownsClass b p c

/-! ### Receive DMA (R421, R428) -/

/-- The eight words of an RTP flow entry and one field of it: 0 port, 1 bay, 2 IPv4 address, 3 UDP port, 4 FORM, 5 INDEX, 6 LIMIT,
7 base and 8 length of the landing range. The spec does not lay the words out (log entry 24). -/
def State.flow (s : State) (f k : Nat) : Nat := Config.flowField ((List.range 8).map fun i => (s.reg (Reg.TSN_FLOW f i)).toNat) k

/-- Flow `f` has been set. -/
def State.flowOn (s : State) (f : Nat) : Bool := (List.range 8).any fun i => s.reg (Reg.TSN_FLOW f i) ≠ 0

/-- The status granule of a filter entry (R428). -/
def Filter.status (e : Filter) : List Byte :=
  natLe 4 e.counter ++ natLe 2 e.len ++ natLe 1 ((if e.fresh then 1 else 0) + if e.valid then 2 else 0) ++ natLe 1 e.port ++ natLe 8 e.time

/-- Granule `i` of a filter entry's range. -/
def Filter.granule (e : Filter) (i : Nat) : Granule :=
  { data := BitVec.ofNat 128 (leNat (if i = 0 then e.status else fixLen 0 16 ((e.data.drop (16 * (i - 1))).take 16))) }

/-- Bytes of a filter entry's range. -/
def Filter.span (e : Filter) : Nat := 16 + 16 * cdiv e.maxLen 16

/-- The next granule of a bay's frame records on a port, from the classes `own` that it owns, highest class first. -/
def RxStream.pop (own : Nat → Bool) (r : RxStream) : Option (Granule × RxStream) :=
  match r.cur with
  | g :: t => some (g, { r with cur := t })
  | [] =>
    match (List.range 8).reverse.find? fun c => own c && !(vget r.queues c).isEmpty with
    | some c =>
      match vget r.queues c with
      | (g :: t) :: rest => some (g, { r with cur := t, queues := vmod r.queues c fun _ => rest })
      | _ => none
    | none => none

/-- The granule that a MOVE of bay `b` on MAC receive DMA of port `p` takes for bank address `a` (R421). -/
def State.macTake (s : State) (b p a : Nat) : Option Granule × State :=
  match s.net.filters.find? fun e => e.2.bay = b && bitAt e.2.ports p && e.2.buf ≤ a && a < e.2.buf + e.2.span with
  | some (n, e) =>
    let i := (a - e.buf) / 16
    (some (e.granule i), s.modNet fun q =>
      { q with filters := q.filters.map fun x => if x.1 = n && i = 0 then (n, { x.2 with fresh := false }) else x })
  | none =>
    match (List.range 16).find? fun f => s.flowOn f && s.flow f 0 = p && s.flow f 1 = b && s.flow f 7 ≤ a && a < s.flow f 7 + s.flow f 8 with
    | some f =>
      match vget s.net.flows f with
      | g :: t => (some g, s.modNet fun q => { q with flows := vmod q.flows f fun _ => t })
      | [] => (none, s)
    | none =>
      match (vget (s.macPort p).rx b).pop (s.ownsClass b p) with
      | some (g, r) => (some g, s.modMac p fun m => { m with rx := vmod m.rx b fun _ => r })
      | none => (none, s)

end Sys2Proof.Machine
end

