-- ==== Sys2Proof/Machine/Bus.lean ====
section
/-! DEFINITION. Memories behind the bus (05, 07): the interleave hash, error correction, granule and word accesses, the
grant checks, and violations. -/

namespace Sys2Proof.Machine

/-! ### Places -/

/-- Where a platform address leads (R33, R159): a memory with an offset, a register, or nothing. -/
inductive Place where
  | rom (o : Nat)
  | sram (o : Nat)
  | bkf (o : Nat)
  | ddr (o : Nat)
  | reg (a : Nat)
  | hole
deriving DecidableEq, Repr, Inhabited

/-- Bytes per LPDDR5X channel declared in DDR_CFG (R145). -/
def State.ddrChan (s : State) : Nat := 2 ^ 31 * 2 ^ s.get Fd.DDR_CFG_CAP

/-- LPDDR5X byte address `a` may be addressed: inside the capacity and outside the inline ECC stores (R146). -/
def State.ddrOk (s : State) (a : Nat) : Bool := a < 2 * s.ddrChan && a % s.ddrChan < s.ddrChan / 8 * 7

/-- The core whose DDR window register core `c` uses (R36). -/
def State.windowCore (s : State) (c : Nat) : Nat :=
  if c = 1 then 0 else if c = 3 && s.lock23 then 2 else if c = 5 && s.lock45 then 4 else c

/-- Where address `a` leads, through the DDR window of core `c`, on the map of R33 or on the exchanged one (R33 to R36, R159). -/
def State.placeOn (s : State) (swap : Bool) (c a : Nat) : Place :=
  if a < 0x40000 then (if swap then .sram a else .rom a)
  else if 0x08000000 ≤ a ∧ a < 0x08080000 then
    (if swap && a < 0x08040000 then .rom (a - 0x08000000) else .sram (a - 0x08000000))
  else if 0x10000000 ≤ a ∧ a < 0x12000000 then .bkf (a - 0x10000000)
  else if 0x40000000 ≤ a ∧ a < 0x40630000 then (if listedBlocks.contains (a / 65536) then .reg a else .hole)
  else if 0x80000000 ≤ a ∧ a < 0x100000000 then
    .ddr (s.get (Fd.SYS_DDRWIN_BASE (s.windowCore c)) * 0x10000000 + (a - 0x80000000))
  else .hole

/-- Where address `a` leads for core `c`: the platform pair sees the exchanged map while SWAP is set (R159). -/
def State.place (s : State) (c a : Nat) : Place := s.placeOn (c < 2 && s.bit Fd.SYS_REMAP_SWAP) c a

/-- The number by which a reservation or a waiting request names a place (R173). -/
def Place.key : Place → Nat
  | .sram o => 0x08000000 + o
  | .ddr o => 0x100000000 + o
  | .rom o => o
  | .bkf o => 0x10000000 + o
  | .reg a => a
  | .hole => 0x50000000

/-- The place that a key names. -/
def keyPlace (k : Nat) : Place :=
  if k < romSize then .rom k
  else if 0x08000000 ≤ k ∧ k < 0x08080000 then .sram (k - 0x08000000)
  else if 0x10000000 ≤ k ∧ k < 0x12000000 then .bkf (k - 0x10000000)
  else if 0x40000000 ≤ k ∧ k < 0x40630000 then .reg k
  else if 0x100000000 ≤ k then .ddr (k - 0x100000000)
  else .hole

/-! ### Reservations -/

/-- A write by a master other than core `own` clears every reservation on the lines of the written bytes (R173). -/
def State.breakResv (s : State) (own : Option Nat) (key n : Nat) : State :=
  { s with cores := s.cores.mapIdx fun i c =>
      if own = some i then c
      else match c.resv with
        | some l => if key / 32 ≤ l && l ≤ (key + n - 1) / 32 then { c with resv := none } else c
        | none => c }

/-! ### Bank field (R135 to R144) -/

/-- The bank of bank-field byte address `a` (R135). -/
def bankOf (a : Nat) : Nat := (a / 16 % 256) ^^^ (a / 4096 % 256) ^^^ (a / 2 ^ 20 % 32)

/-- The row of bank-field byte address `a` (R135). -/
def rowOf (a : Nat) : Nat := a / 4096 % 8192

/-- The granule (byte address / 16) of bank `b`, row `r` (R135 read backwards). -/
def granuleAt (b r : Nat) : Nat := r * 256 + (b ^^^ (r % 256) ^^^ (r / 256))

/-- Check state of granule `g`. -/
def State.eccOf (s : State) (g : Nat) : Ecc := sget (fun _ => Ecc.clean) s.field.ecc g

def State.setEcc (s : State) (g : Nat) (e : Ecc) : State :=
  { s with field := { s.field with ecc := sset (fun _ => Ecc.clean) g e s.field.ecc } }

/-- Queue granule `g` for write-back: at most one entry each, sixteen in all, a lost one counted (R140). -/
def State.queueWb (s : State) (g : Nat) : State :=
  if s.field.wb.contains g then s
  else if s.field.wb.length < 16 then { s with field := { s.field with wb := s.field.wb ++ [g] } }
  else s.bump Fd.BKF_ECC_WB_LOST

/-- Count an uncorrectable granule and record the first one (R137). -/
def State.noteUe (s : State) (g : Nat) (dynamic : Bool) : State :=
  let s1 := s.bump Fd.BKF_ECC_UE
  if s1.bit Fd.BKF_ERR_ADDR_VALID then s1
  else ((s1.flag Fd.BKF_ERR_ADDR_VALID).putB Fd.BKF_ERR_ADDR_DYNAMIC dynamic).put Fd.BKF_ERR_ADDR_ADDR (g * 16)

/-- Act on the check result of a read of granule `g` (R137): whether it is correctable, and the state after. -/
def State.checkGranule (s : State) (g : Nat) (dynamic : Bool) : Bool × State :=
  match s.eccOf g with
  | .clean => (true, s)
  | .single => (true, (s.bump Fd.BKF_ECC_CE).queueWb g)
  | .double => (false, s.noteUe g dynamic)
  | .poison => (false, s.noteUe g dynamic)

/-- Store bytes inside granule `g` with fresh check bits or the poison mark; a waiting write-back of it is dropped and a
merge that read it is stale (R138, R140, R143). -/
def State.storeGranule (s : State) (a : Nat) (l : List Byte) (poison : Bool) : State :=
  let g := a / 16
  let s1 := ({ s with bkf := writeBytes zeroByte l a s.bkf }).setEcc g (if poison then .poison else .clean)
  let hd := s1.field.head.map fun h =>
    match h.merge with
    | some (m, _) => if m = g then { h with stale := true } else h
    | none => h
  { s1 with field := { s1.field with wb := s1.field.wb.filter (· ≠ g), head := hd } }

/-- A figure read of the granule at `a` (R137): the granule with its poison mark, and the state after. -/
def State.figRead (s : State) (a : Nat) : Granule × State :=
  let (ok, s1) := s.checkGranule (a / 16) false
  ({ data := BitVec.ofNat 128 (leNat (readBytes zeroByte s.bkf (a / 16 * 16) 16)), poison := !ok }, s1)

/-- A figure write of the granule at `a`. -/
def State.figWrite (s : State) (a : Nat) (g : Granule) : State := s.storeGranule (a / 16 * 16) g.bytes g.poison

/-- A dynamic read of `n` bytes at `a`, granule by granule in ascending order, stopping at the first uncorrectable one
(R562). `fuel` bounds the granules. -/
def State.bkfRead (fuel : Nat) (s : State) (a n : Nat) : Option (List Byte) × State :=
  match fuel, n with
  | _, 0 => (some [], s)
  | 0, _ => (none, s)
  | f + 1, n =>
    let k := min n (16 - a % 16)
    let (ok, s1) := s.checkGranule (a / 16) true
    if a ≥ bkfSize then (none, s)
    else if ok then
      let (r, s2) := State.bkfRead f s1 (a + k) (n - k)
      (r.map (readBytes zeroByte s.bkf a k ++ ·), s2)
    else (none, s1)

/-- A dynamic write of `l` at `a`, granule by granule; a part of a granule is read, merged and written, and abandoned on
an uncorrectable read (R143, R562). Answers whether all of it was done. -/
def State.bkfWrite (fuel : Nat) (s : State) (a : Nat) (l : List Byte) : Bool × State :=
  match fuel, l with
  | _, [] => (true, s)
  | 0, _ => (false, s)
  | f + 1, l =>
    let k := min l.length (16 - a % 16)
    if a ≥ bkfSize then (false, s)
    else if k = 16 then State.bkfWrite f (s.storeGranule a (l.take k) false) (a + k) (l.drop k)
    else
      let (ok, s1) := s.checkGranule (a / 16) true
      if ok then State.bkfWrite f (s1.storeGranule a (l.take k) false) (a + k) (l.drop k) else (false, s1)

/-! ### LPDDR5X (R146, R154, R155) -/

def State.ddrEccOf (s : State) (w : Nat) : Ecc := sget (fun _ => Ecc.clean) s.ddrCtl.ecc w

def State.setDdrEcc (s : State) (w : Nat) (e : Ecc) : State :=
  { s with ddrCtl := { s.ddrCtl with ecc := sset (fun _ => Ecc.clean) w e s.ddrCtl.ecc } }

/-- Act on the check result of 64-bit word `w` (R154). -/
def State.checkWord (s : State) (w : Nat) : Bool × State :=
  match s.ddrEccOf w with
  | .clean => (true, s)
  | .single => (true, s.bump Fd.DDR_ECC_CE)
  | .double => (false, s.bump Fd.DDR_ECC_UE)
  | .poison => (false, s.bump Fd.DDR_ECC_UE)

/-- A dynamic read of `n` bytes at LPDDR5X address `a`, word by word (R154, R562). -/
def State.ddrRead (fuel : Nat) (s : State) (a n : Nat) : Option (List Byte) × State :=
  match fuel, n with
  | _, 0 => (some [], s)
  | 0, _ => (none, s)
  | f + 1, n =>
    let k := min n (8 - a % 8)
    if !s.ddrOk a || !s.bit Fd.DDR_STAT_TRAINED then (none, s)
    else
      let (ok, s1) := s.checkWord (a / 8)
      if ok then
        let (r, s2) := State.ddrRead f s1 (a + k) (n - k)
        (r.map (readBytes zeroByte s.ddr a k ++ ·), s2)
      else (none, s1)

/-- A dynamic write of `l` at LPDDR5X address `a`, word by word; part of a word reads the word first (R154, R562). -/
def State.ddrWrite (fuel : Nat) (s : State) (a : Nat) (l : List Byte) : Bool × State :=
  match fuel, l with
  | _, [] => (true, s)
  | 0, _ => (false, s)
  | f + 1, l =>
    let k := min l.length (8 - a % 8)
    if !s.ddrOk a || !s.bit Fd.DDR_STAT_TRAINED then (false, s)
    else
      let (ok, s1) := if k = 8 then (true, s) else s.checkWord (a / 8)
      if ok then
        State.ddrWrite f (({ s1 with ddr := writeBytes zeroByte (l.take k) a s1.ddr }).setDdrEcc (a / 8) .clean)
          (a + k) (l.drop k)
      else (false, s1)

/-! ### Accesses by place -/

/-- Read `n` bytes at a place that is a memory; none is an error response. -/
def State.readPlace (s : State) (p : Place) (n : Nat) : Option (List Byte) × State :=
  match p with
  | .rom o => (if o + n ≤ romSize then some (readBytes zeroByte s.rom o n) else none, s)
  | .sram o => (if o + n ≤ sramSize then some (readBytes zeroByte s.sram o n) else none, s)
  | .bkf o => s.bkfRead (n + 1) o n
  | .ddr o => s.ddrRead (n + 1) o n
  | .reg _ => (none, s)
  | .hole => (none, s)

/-- Write bytes at a place that is a memory, by master `own` (a core, or none for another agent); false is an error
response. The line's reservations held by others clear (R173). -/
def State.writePlace (s : State) (own : Option Nat) (p : Place) (l : List Byte) : Bool × State :=
  match p with
  | .sram o =>
    if o + l.length ≤ sramSize then
      (true, ({ s with sram := writeBytes zeroByte l o s.sram }).breakResv own p.key l.length)
    else (false, s)
  | .bkf o => s.bkfWrite (l.length + 1) o l
  | .ddr o =>
    let (ok, s1) := s.ddrWrite (l.length + 1) o l
    (ok, s1.breakResv own p.key l.length)
  | .rom _ => (false, s)
  | .reg _ => (false, s)
  | .hole => (false, s)

/-! ### Grants (R191, R196, R198) -/

/-- Bytes `o` to `o + n - 1` lie in a range of `len` units of `unit` bytes from unit `base` on. -/
def inRange (o n base len unit : Nat) : Bool := base * unit ≤ o && o + n ≤ (base + len) * unit

/-- The bytes lie inside a range that a MEMORY share lends to bay `b` (R202). -/
def State.lent (s : State) (b target o n unit : Nat) : Bool :=
  s.shares.any fun h => h.memory && h.borrower = b && h.target = target && inRange o n h.base h.len unit

/-- Bay `b`'s grant allows this memory access (R196). -/
def State.granted (s : State) (b : Nat) (p : Place) (n : Nat) (write : Bool) : Bool :=
  match p with
  | .sram o => 0x40000 ≤ o && inRange (o - 0x40000) n (s.get (Fd.BXM_SRAM_BASE b)) (s.get (Fd.BXM_SRAM_LEN b)) 4096
  | .bkf o => inRange o n (s.get (Fd.BXM_BKF_BASE b)) (s.get (Fd.BXM_BKF_LEN b)) 65536 || (!write && s.lent b 0 o n 65536)
  | .ddr o => inRange o n (s.get (Fd.BXM_DDR_BASE b)) (s.get (Fd.BXM_DDR_LEN b)) (2 ^ 24) || (!write && s.lent b 1 o n (2 ^ 24))
  | .rom _ => false
  | .reg _ => false
  | .hole => false

/-- Count a violation of bay `b` at platform address `a`, capture the first, and report it (R198). Source 0 is a bay core,
1 is VF n. -/
def State.violation (s : State) (b a source : Nat) : State :=
  let s1 := s.bump (Fd.BXM_VIOL_COUNT b)
  let s2 := if s1.bit (Fd.BXM_VIOL_CAPTURED b) then s1
    else ((s1.flag (Fd.BXM_VIOL_CAPTURED b)).put (Fd.BXM_VIOL_SOURCE b) source).setReg (Reg.BXM_VADDR b) (BitVec.ofNat 32 a)
  s2.post 0 0x0006 (natLe 1 b ++ natLe 1 source ++ [0, 0] ++ natLe 4 a)

/-! ### Paths to registers (R9, R197) -/

/-- Some phase of resource `r` is in bay `b`'s grant. -/
def State.holdsPhase (s : State) (b r : Nat) : Bool := sget (fun _ => (0 : BitVec 64)) (s.bayRec b).phase r ≠ 0

/-- Bay `b` owns destinations `4c` to `4c + 3`. -/
def State.ownsPort (s : State) (b c : Nat) : Bool := (List.range 4).all fun j => s.destOwner (4 * c + j) = b

/-- Bay `b` owns the unit a register of path "owner" belongs to: a decoder's source, a DisplayPort or compositor's feeds,
a key slot, a seal input (the register tables of 12, 13, 19). -/
def State.ownsUnit (s : State) (b a : Nat) (ix : List Nat) : Bool :=
  let i := ix.getD 0 0
  match a / 65536 with
  | 0x4033 => s.sourceOwner (24 + i) = b
  | 0x4034 => s.ownsPort b i
  | 0x4035 => s.ownsPort b i
  | 0x4050 => s.get (Fd.KEY_SLOT_OWNER i) = b
  | 0x4052 => s.holdsPhase b (0x1C4 + i)
  | _ => false

/-- The register at `a` is bay `b`'s own per-bay instance (R197); `c` is the core that asks. -/
def State.ownInstance (s : State) (b : Nat) (c : Option Nat) (f : Family) (ix : List Nat) (a : Nat) : Bool :=
  match f.path with
  | .own => ix.getD 0 99 = b
  | .own2 => ix.getD 1 99 = b
  | .core => c.map s.windowCore = some (ix.getD 0 99)
  | .unit => s.ownsUnit b a ix
  | .source => s.sourceOwner (ix.getD 0 0) = b
  | .dest => s.destOwner (ix.getD 0 0) = b
  | .all => false
  | .none => false
  | .ring => false

/-- Ring area of bays 1 to 7 in block MBX: the ring set and the offset in it (R240). -/
def ringArea (a : Nat) : Option (Nat × Nat) :=
  if 0x40202000 ≤ a ∧ a < 0x40210000 then some ((a - 0x40200000) / 0x2000, (a - 0x40200000) % 0x2000) else none

/-- On path B, bay `b` may read the register at `a` (R197). A reserved offset of a listed block reads 0, as R10 says of every path
(DEDUCED, log entry 51); a ring area holds none. -/
def State.bayReads (s : State) (b : Nat) (c : Option Nat) (a : Nat) : Bool :=
  match findReg a with
  | some (f, ix) => f.path = .all || s.ownInstance b c f ix a
  | none => (ringArea a).isNone

/-- The fields of a register that a bay may write: a writing access code and no restriction to F (R197). -/
def bayFields (f : Family) : List FieldSpec := f.fields.filter fun x => x.acc ≠ .ro && !x.fOnly && !x.board

/-- On path B, bay `b` may write the register at `a`: its own instance (owner instances included, DEDUCED, log entry 17)
with a field it may write (R197). -/
def State.bayWrites (s : State) (b : Nat) (c : Option Nat) (a : Nat) : Bool :=
  match findReg a with
  | some (f, ix) =>
    f.path ≠ .all && s.ownInstance b c f ix a && !(bayFields f).isEmpty
  | none => false

/-- One field of a write (R8, R10, R11): the new register word. -/
def writeField (old new : Word) (x : FieldSpec) : Word :=
  let o := bitsOf old.toNat x.hi x.lo
  let n := bitsOf new.toNat x.hi x.lo
  match x.acc with
  | .rw => if x.valid.isEmpty || x.valid.any (fun p => p.1 ≤ n && n ≤ p.2) then insertBits old x.hi x.lo n else old
  | .ro => old
  | .wo => old
  | .w1c => insertBits old x.hi x.lo (o - (o &&& n))
  | .w1s => insertBits old x.hi x.lo (o ||| n)
  | .w1a => if n % 2 = 1 then insertBits old x.hi x.lo 0 else old

/-- The bits of a word that fields with access code `acc` hold. -/
def accMask (acc : Acc) (fs : List FieldSpec) : Word :=
  BitVec.ofNat 32 ((fs.filter fun x => x.acc = acc).foldl (fun n x => n + (2 ^ (x.hi + 1) - 2 ^ x.lo)) 0)

/-- A write of `new` to the register at `a` through the given fields (R8). Bits that hardware has set in the present cycle end set, and the
bits that a write sets in W1S fields are marked. -/
def State.writeFields (s : State) (a : Nat) (fs : List FieldSpec) (new : Word) : State :=
  let s1 := s.setReg a (fs.foldl (fun w x => writeField w new x) (s.reg a) ||| (s.reg a &&& s.marked a))
  let set := new &&& accMask .w1s fs
  if set = 0 then s1 else s1.mark a set

end Sys2Proof.Machine
end

