-- ==== Sys2Proof/Machine/Freeze.lean ====
section
/-! DEFINITION. The switches of the PWM channels (16): what a channel's configuration and position in its period make them do, and the freeze
of R388, which a halt of the platform pair brings with it. Times within a channel are units of 78.125 ps, of which five FCLK steps hold 128. -/

namespace Sys2Proof.Machine

def State.modPwm (s : State) (f : Pwm → Pwm) : State := { s with pwm := f s.pwm }
def State.pch (s : State) (c : Nat) : PwmCh := vget s.pwm.ch c
def State.modPch (s : State) (c : Nat) (f : PwmCh → PwmCh) : State := s.modPwm fun p => { p with ch := vmod p.ch c f }

/-- Units since the model began, and the start of the present PCLK cycle (32 units). -/
def State.unit (s : State) : Nat := s.cycles 128
def State.cycleUnit (s : State) : Nat := s.cycles 4 * 32

/-- A span of units in ns of keep-alive time. -/
def unitNs (u : Nat) : Nat := u * 5 / 64

/-- Units into the period of channel `c`; frozen channels stand (R388). -/
def State.pwmPos (s : State) (c : Nat) : Nat := match (s.pch c).frozen with | some f => f.1 | none => s.unit - (s.pch c).start

/-- FAULT or LIMIT is latched: the channel is forced off (R389 to R391). -/
def State.pwmForced (s : State) (c : Nat) : Bool := s.bit (Fd.PWM_STAT_FAULT c) || s.bit (Fd.PWM_STAT_LIMIT c)

/-- The configuration of PWM channel `c` as its registers hold it. -/
def State.pwmRegs (s : State) (c : Nat) : PwmCfg :=
  { en := s.bit (Fd.PWM_CTL_ENABLE c), inv := s.bit (Fd.PWM_CTL_INVERT c), sync := s.get (Fd.PWM_CTL_SYNC c)
    arg := s.get (Fd.PWM_CTL_SYNC_ARG c), period := s.get (Fd.PWM_PER_PERIOD c), duty := s.get (Fd.PWM_DUTY_DUTY c)
    dead := s.get (Fd.PWM_DEAD_DEAD c), bootHold := s.get (Fd.PWM_BOOT_BOOT_HOLD c), bootPw := s.get (Fd.PWM_BOOT_BOOT_PW c) }

/-- Channel `c` is inside no period, and none follows by itself: it has begun none, or it waits for a strobe with none queued (R383, R386). -/
def State.pwmIdle (s : State) (c : Nat) : Bool :=
  let p := s.pch c
  !p.run || (p.cfg.sync ≠ 0 && p.cfg.period ≤ s.pwmPos c && !s.bit (Fd.PWM_STAT_QUEUED c))

/-- The configuration that governs channel `c` now: an idle channel takes what its registers hold, one forced off takes it when it is
cleared (R383, R391). -/
def State.pwmNow (s : State) (c : Nat) : PwmCfg := if s.pwmIdle c && !s.pwmForced c then s.pwmRegs c else (s.pch c).cfg

/-- The unit at which a refresh ends and the high side may be on again (R387). -/
def Refresh.end_ (r : Refresh) : Int := r.at_ + 2 * r.dead + r.pw

/-- Unit `x` lies in the low pulse of the refresh. -/
def Refresh.low (r : Refresh) (x : Int) : Bool := r.at_ + r.dead ≤ x && x < r.at_ + r.dead + r.pw

/-- Levels of the high and low switch at unit `x` of the period (R381, R387). -/
def PwmCh.levels (p : PwmCh) (x : Nat) : Bool × Bool :=
  let hi := p.h0 ≤ x && x < p.h1
  let lo := p.l0 ≤ x && x < p.l1
  match p.refresh with
  | some r => (hi && !(r.at_ ≤ x && x < r.end_), lo || r.low x)
  | none => (hi, lo)

/-- Switches of channel `c` that are on now (PWM_STATc.H_ON, L_ON). -/
def State.pwmOn (s : State) (c : Nat) : Bool × Bool :=
  let p := s.pch c
  if p.run && !s.pwmForced c && s.ready rPWM && p.cfg.en && s.pwmPos c < p.cfg.period then p.levels (s.pwmPos c) else (false, false)

/-- Units of the period at which the stretches began for which the high and the low side are on at unit `x`. -/
def PwmCh.highFrom (p : PwmCh) (x : Nat) : Int := match p.refresh with
  | some r => if r.end_ ≤ x then r.end_ else p.h0
  | none => p.h0
def PwmCh.lowFrom (p : PwmCh) (x : Nat) : Int := match p.refresh with
  | some r => if r.low x then r.at_ + r.dead else p.l0
  | none => p.l0

/-- Keep-alive time at which the stretch that began at unit `x` began: as noted where a freeze or a period boundary lies in it, else as the
period's start tells (R390). -/
def PwmCh.since (p : PwmCh) (noted : Option (Int × Nat)) (x : Int) : Nat := match noted with
  | some (k, t) => if k = x then t else p.startKa + unitNs x.toNat
  | none => p.startKa + unitNs x.toNat

/-- Drive the on intervals that are left of the period of channel `c`. -/
def State.driveRest (s : State) (c : Nat) : State :=
  let p := s.pch c
  let x : Int := s.pwmPos c
  let part (ball : String) (s : State) (i : Int × Int) : State :=
    s.when (max i.1 x < i.2) fun s => s.drive (.pulse ball c (p.start + max i.1 x).toNat (p.start + i.2).toNat)
  let hs : List (Int × Int) := match p.refresh with
    | some r => [((p.h0 : Int), min (p.h1 : Int) r.at_), (max (p.h0 : Int) r.end_, (p.h1 : Int))]
    | none => [((p.h0 : Int), (p.h1 : Int))]
  let ls : List (Int × Int) := match p.refresh with
    | some r => [((p.l0 : Int), (p.l1 : Int)), (r.at_ + r.dead, r.at_ + r.dead + r.pw)]
    | none => [((p.l0 : Int), (p.l1 : Int))]
  (s.each hs (part "PWM_H")).each ls (part "PWM_L")

/-- Drive the present levels of the two balls of channel `c` (R382). -/
def State.driveNow (s : State) (c : Nat) : State :=
  let on := s.pwmOn c
  let inv := (s.pwmNow c).inv
  (s.drive (.level "PWM_H" c (on.1 != inv))).drive (.level "PWM_L" c (on.2 != inv))

/-- Bring the freeze of every channel in line with its causes: a frozen channel holds its levels, and goes on from where it stopped
(R388). -/
def State.pwmFreeze (s : State) : State :=
  let now := s.pwm.halted || s.pwm.stopped
  s.each (List.range 12) fun s c =>
    let p := s.pch c
    let x := s.pwmPos c
    let inside := p.run && x < p.cfg.period
    if now && p.frozen.isNone then
      ((s.modPch c fun p => { p with frozen := some (s.unit - p.start, s.clk.ka) }).put (Fd.PWM_STAT_FROZEN c) 1).when inside fun s => s.driveNow c
    else if !now then
      match p.frozen with
      | some (x, ka) =>
        let on := s.pwmOn c
        let late := s.unit - (p.start + x)
        ((s.modPch c fun p =>
          { p with frozen := none, start := s.unit - x, startKa := p.startKa + (s.clk.ka - ka), hOff := p.hOff + late, lOff := p.lOff + late
                   hSince := if on.1 then some (p.highFrom x, p.since p.hSince (p.highFrom x)) else none
                   lSince := if on.2 then some (p.lowFrom x, p.since p.lSince (p.lowFrom x)) else none }).put
          (Fd.PWM_STAT_FROZEN c) 0).when inside fun s => s.driveRest c
      | none => s
    else s

/-- Freeze causes: the platform pair is halted by debug; PCLK has stopped. -/
def State.pwmHalt (s : State) (b : Bool) : State := (s.modPwm fun p => { p with halted := b }).pwmFreeze
def State.pwmStop (s : State) (b : Bool) : State := (s.modPwm fun p => { p with stopped := b }).pwmFreeze

/-- PWM stands while SC0/SC1 are halted (R388, R512). -/
def State.pwmFollow (s : State) : State :=
  let halted := s.get (Fd.SYS_CORECTL_STATE 0) = 3
  if s.pwm.halted = halted then s else s.pwmHalt halted

end Sys2Proof.Machine
end

