-- ==== Sys2Proof/Machine/Trace.lean ====
section
/-! DEFINITION. Cores as a set, trace packets, frames and sinks, and the cross-trigger groups (22). -/

namespace Sys2Proof.Machine

/-! ### Cores -/

def State.core (s : State) (c : Nat) : Core := vget s.cores c

def State.modCore (s : State) (c : Nat) (f : Core → Core) : State := { s with cores := vmod s.cores c f }

/-- SYS_CORECTLn.STATE codes (R161): reset, running, rest, halted. -/
def State.coreState (s : State) (c : Nat) : Nat := s.get (Fd.SYS_CORECTL_STATE c)

/-- Core `c` is the higher core of a locked pair (R17, R163). -/
def State.follows (s : State) (c : Nat) : Bool := c = 1 || (c = 3 && s.lock23) || (c = 5 && s.lock45)

/-- Core `c` is in a locked pair. -/
def State.locked (s : State) (c : Nat) : Bool := c < 2 || (c < 4 && s.lock23) || (4 ≤ c && s.lock45)

/-- The core whose registers a locked pair uses (R36, R503). -/
def State.lead (s : State) (c : Nat) : Nat := if s.follows c then c - 1 else c

/-- The cores that act with core `c`: a locked pair, or the core alone (R164). -/
def State.mates (s : State) (c : Nat) : List Nat := if s.locked c then [s.lead c, s.lead c + 1] else [c]

/-- Core `k` waits for an access of the instruction under way (R141, R155). -/
def Core.waits (k : Core) : Bool := (k.fetched.toList ++ k.loaded.toList).any (·.ans.isNone)

/-- Code of a level in PPL, DBG_STAT.LEVEL and the SYNC packet. -/
def Level.code : Level → Nat
  | .u => 0
  | .s => 1
  | .f => 3

/-- The core runs at a level that the enable register `en` (its F, S_BAY and U_BAY fields) enables (R503, R516). -/
def State.levelEnabled (s : State) (c : Nat) (ten : Bool) : Bool :=
  let k := s.core c
  let w := s.reg (if ten then Reg.DBG_TEN (s.lead c) else Reg.DBG_EN (s.lead c))
  match k.level with
  | .f => w.getLsbD 16
  | .s => w.getLsbD (8 + k.bay.toNat)
  | .u => w.getLsbD k.bay.toNat

/-! ### Packets (R517) -/

/-- Unsigned LEB: 7-bit groups, least significant first. -/
def uleb : Nat → Nat → List Byte
  | 0, n => [BitVec.ofNat 8 (n % 128)]
  | f + 1, n => if n < 128 then [BitVec.ofNat 8 n] else BitVec.ofNat 8 (n % 128 + 128) :: uleb f (n / 128)

/-- Signed LEB: 7-bit groups; the sign is bit 6 of the last group. -/
def sleb : Nat → Int → List Byte
  | 0, z => [BitVec.ofNat 8 (z % 128).toNat]
  | f + 1, z =>
    if -64 ≤ z ∧ z < 64 then [BitVec.ofNat 8 (z % 128).toNat]
    else BitVec.ofNat 8 ((z % 128).toNat + 128) :: sleb f (z / 128)

def State.src (s : State) (i : Nat) : TrSrc := vget s.dbg.src i

def State.modSrc (s : State) (i : Nat) (f : TrSrc → TrSrc) : State :=
  { s with dbg := { s.dbg with src := vmod s.dbg.src i f } }

/-- The sinks that take source `i`'s frames (R522): the core's sink if enabled; for the matrix every enabled one. -/
def State.sinkRam (s : State) (i : Nat) : Bool :=
  s.bit Fd.TRC_CTL_EN && (i = 6 || s.get (Fd.DBG_SINK_SINK (s.lead i)) = 1)
def State.sinkPort (s : State) (i : Nat) : Bool :=
  s.bit Fd.TRC_CTL_PORT_EN && (i = 6 || s.get (Fd.DBG_SINK_SINK (s.lead i)) = 2)

/-- Source `i` emits trace now (R516). A sink that is not enabled takes nothing (DEDUCED, log entry 18). -/
def State.tracing (s : State) (i : Nat) : Bool :=
  (s.sinkRam i || s.sinkPort i) && (i = 6 || s.levelEnabled i true)

/-- A sink of source `i` has no room for one more frame (R522). -/
def State.sinkFull (s : State) (i : Nat) : Bool :=
  (s.sinkRam i && s.bit Fd.TRC_CTL_MODE && s.bit Fd.TRC_STAT_FULL) ||
  (s.sinkPort i && s.dbg.port.length + 16 > 4096)

/-- Put one frame of 16 bytes into the trace RAM and move the write pointer (R522). -/
def State.ramFrame (s : State) (l : List Byte) : State :=
  let w := s.get Fd.TRC_WP_FRAME
  let s1 := { s with dbg := { s.dbg with ram := writeBytes zeroByte l (16 * w) s.dbg.ram } }
  let s2 := s1.put Fd.TRC_WP_FRAME (w + 1)
  if w = 16383 then (if s.bit Fd.TRC_CTL_MODE then s2.put Fd.TRC_STAT_FULL 1 else s2.put Fd.TRC_STAT_WRAPPED 1) else s2

/-- A frame of source `i` goes into its sinks (R521, R522). -/
def State.sinkFrame (s : State) (i : Nat) (l : List Byte) : State :=
  let s1 := if s.sinkRam i then s.ramFrame l else s
  if s.sinkPort i then { s1 with dbg := { s1.dbg with port := s1.dbg.port ++ l } } else s1

/-- Send a finished frame of source `i` to its sinks; without room it waits in the source's buffer of 64 bytes, four frames, and else is
lost (R521, R522). -/
def State.sendFrame (s : State) (i : Nat) (l : List Byte) : State :=
  let q := s.src i
  if q.wait.isEmpty && !s.sinkFull i then s.sinkFrame i l
  else if q.wait.length < 4 then s.modSrc i fun q => { q with wait := q.wait ++ [l] }
  else (s.bump Fd.TRC_STAT_LOST l.length).modSrc i fun q => { q with lost := true }

/-- Frames that wait in the sources' buffers go on as their sinks have room (R522). -/
def State.sendWaiting (s : State) : State :=
  s.each (List.range 7) fun s i =>
    match (s.src i).wait with
    | [] => s
    | l :: rest => if s.sinkFull i then s else (s.sinkFrame i l).modSrc i fun q => { q with wait := rest }

/-- Close source `i`'s present frame, padded with PAD; nothing if it is empty (R521). -/
def State.flushFrame (s : State) (i : Nat) : State :=
  let q := s.src i
  if q.buf.isEmpty then s
  else
    let head := BitVec.ofNat 8 (i + if q.start then 16 else 0)
    (s.modSrc i fun q => { q with buf := [], start := false }).sendFrame i (head :: fixLen 0 15 q.buf)

/-- Append stream bytes to source `i`, sending every frame that fills. -/
def State.stream (s : State) (i : Nat) (l : List Byte) : State :=
  s.each l fun s b =>
    let s1 := s.modSrc i fun q => { q with buf := q.buf ++ [b], since := q.since + 1 }
    if (s1.src i).buf.length ≥ 15 then s1.flushFrame i else s1

/-- Time stamp fields: 6 bytes of seconds and 4 of ns. -/
def State.stampBytes (s : State) : List Byte := natLe 6 s.sec ++ natLe 4 s.nsInSec

/-- Emit SYNC at the start of a frame (R517, R519, R521). -/
def State.emitSync (s : State) (i : Nat) : State :=
  let k := s.core i
  let pc := 4 * k.pc.toNat
  let body := natLe 1 0x20 ++ natLe 1 (k.level.code + 16 * k.bay.toNat) ++ natLe 4 pc ++ s.stampBytes
  let s1 := (s.flushFrame i).modSrc i fun q =>
    { q with start := true, base := pc, lastTs := s.ns, since := 0, sync := false, on := true }
  s1.stream i body

/-- Emit the branch outcomes held, oldest in bit 0 (R518). -/
def State.emitBranches (s : State) (i : Nat) : State :=
  let o := (s.src i).outcomes
  if o.isEmpty then s
  else
    let v := o.foldr (fun b n => 2 * n + if b then 1 else 0) 0
    (s.modSrc i fun q => { q with outcomes := [] }).stream i [BitVec.ofNat 8 (0x70 + o.length), BitVec.ofNat 8 v]

/-- After a loss, the first packet that finds room is OVERFLOW (R522). -/
def State.owedOverflow (s : State) (i : Nat) : State :=
  if (s.src i).lost && (s.src i).wait.length < 4 then (s.modSrc i fun q => { q with lost := false, sync := true, outcomes := [] }).stream i [0x5A] else s

/-- Core `i` emits a packet: OVERFLOW and SYNC first if owed, then the branch outcomes held, then the bytes `f` gives from the base and
the stamp that then stand, which `g` moves, then a TS if its interval has passed (R518, R519; the place of TS: DEDUCED from the worked
example, log entry 18). -/
def State.tracePacket (s : State) (i : Nat) (f : TrSrc → List Byte) (g : TrSrc → TrSrc) : State :=
  if !s.tracing i then s
  else
    let s1 := s.owedOverflow i
    let s2 := (if (s1.src i).sync then s1.emitSync i else s1).emitBranches i
    let s3 := (s2.stream i (f (s2.src i))).modSrc i g
    let ts := s.get (Fd.DBG_FILT_FILTER (s.lead i)) / 16
    let ago := s3.ns - (s3.src i).lastTs
    if ts ≠ 15 && ago ≥ 2 ^ ts * 1000 then (s3.stream i (natLe 1 0x28 ++ uleb 9 ago)).modSrc i fun q => { q with lastTs := s3.ns } else s3

/-- Core `i` emits SYNC once its byte count since the last has passed (R519). -/
def State.countSync (s : State) (i : Nat) : State :=
  if s.tracing i && (s.src i).since ≥ 256 * 2 ^ (s.get (Fd.DBG_FILT_FILTER (s.lead i)) % 16) then s.emitSync i else s

/-- Core `i` emits a packet of fixed bytes. -/
def State.packet (s : State) (i : Nat) (l : List Byte) : State := (s.tracePacket i (fun _ => l) fun q => q).countSync i

/-- Start or stop core `i`'s trace as its level and bay are or are not traced (R516, R519, R520). -/
def State.traceSync (s : State) (i : Nat) : State :=
  let q := s.src i
  if s.tracing i then
    (if q.on then s
     else
       let s1 := if q.ctxLost then (s.modSrc i fun q => { q with ctxLost := false, on := true }).stream i [0x59, 0x01] else s
       s1.emitSync i)
  else if q.on then (s.flushFrame i).modSrc i fun q => { q with on := false, sync := true, outcomes := [] }
  else s

/-- Hold a branch outcome; emit the packet once eight are held (R518). -/
def State.traceBranch (s : State) (i : Nat) (taken : Bool) : State :=
  if !s.tracing i then s
  else
    let s1 := s.modSrc i fun q => { q with outcomes := q.outcomes ++ [taken] }
    if (s1.src i).outcomes.length ≥ 8 then s1.packet i [] else s1

/-- ADDR packet of a JALR to `target` (R517, R519). -/
def State.traceAddr (s : State) (i target : Nat) : State :=
  (s.tracePacket i (fun q => 0x40 :: sleb 5 (((target : Int) - q.base) / 4)) fun q => { q with base := target }).countSync i

/-- EXC packet: cause byte, EPC and handler (R517, R519). A SYNC that its bytes make due waits for the core to stand at the handler
(State.traceMoved). -/
def State.traceExc (s : State) (i cause epc handler : Nat) : State :=
  s.tracePacket i (fun q => natLe 1 0x48 ++ natLe 1 cause ++ sleb 5 (((epc : Int) - q.base) / 4) ++
    sleb 5 (((handler : Int) - epc) / 4)) fun q => { q with base := handler }

/-- LEVEL packet. -/
def State.traceLevel (s : State) (i : Nat) (l : Level) : State :=
  s.packet i [BitVec.ofNat 8 (0x50 + l.code)]

/-- A packet of kind REST (0x58) or HALT (0x5B) with the ns since the last stamp, then a flush (R520). -/
def State.traceStop (s : State) (i : Nat) (kind : Byte) : State :=
  if s.tracing i then
    ((s.tracePacket i (fun q => kind :: uleb 9 (s.ns - q.lastTs)) fun q => { q with lastTs := s.ns }).flushFrame i).modSrc i fun q =>
      { q with sync := true, on := false }
  else s

/-- WAKE, with CONTEXT_LOST if the domain was gated, then SYNC (R520). -/
def State.traceWake (s : State) (i : Nat) : State :=
  if s.tracing i then
    ((s.modSrc i fun q => { q with ctxLost := false }).stream i [0x59, if (s.src i).ctxLost then 1 else 0]).emitSync i
  else s

/-! ### Cross-trigger groups (R513, R514) -/

def State.grpField (s : State) (g hi lo : Nat) : Nat := bitsOf (s.reg (Reg.XTR_GRP g)).toNat hi lo

/-- A halt request of core `c` or of its locked partner stands: HALT_REQ or a stop group's (R507, R513). -/
def State.haltWanted (s : State) (c : Nat) : Bool :=
  (s.mates c).any fun i => s.bit (Fd.DBG_CTL_HALT_REQ i) || vget s.dbg.grpHalt i

/-- DBG_STATn.PENDING: a halt request waits. -/
def State.showPending (s : State) (c : Nat) : State :=
  s.each (s.mates c) fun s i => s.putB (Fd.DBG_STAT_PENDING i) (s.haltWanted i && s.coreState i ≠ 3)

/-- Restart core `c`, with its locked partner, at DBG_PC if it is halted (R510, R511); the watchdog restarts with the platform
pair (R512). -/
def State.resumeCore (s : State) (c : Nat) : State :=
  if s.coreState c = 3 then
    let l := s.lead c
    let s1 := s.each (s.mates c) fun s i =>
      ((s.put (Fd.SYS_CORECTL_STATE i) 1).put (Fd.DBG_STAT_HALTED i) 0).modCore i fun k =>
        { k with pc := (s.reg (Reg.DBG_PC l)).extractLsb' 2 30, stepping := s.bit (Fd.DBG_CTL_STEP l) }
    let s2 := if l = 0 then { s1 with fw := { s1.fw with kick := s1.runNs } } else s1
    ((s2.traceSync l).showPending c).pwmFollow
  else s

/-- The members of group `g`. -/
def State.grpMembers (s : State) (g : Nat) : List Nat := (List.range 6).filter fun c => bitAt (s.grpField g 21 16) c

/-- Group `g` has fired: it is recorded, and its resume acts (R513, R514). -/
def State.groupResume (s : State) (g : Nat) : State :=
  let s1 := (s.setReg Reg.XTR_STAT (s.reg Reg.XTR_STAT ||| (1#32 <<< g))).mark Reg.XTR_STAT (1#32 <<< g)
  s1.when (bitAt (s.grpField g 5 0) 5) fun s => s.each (s.grpMembers g) fun s c => s.resumeCore c

/-- The actions of group `g` beside a resume (R513): halt request, trace stop, pulses. -/
def State.groupActions (s2 : State) (g : Nat) : State :=
  let acts := s2.grpField g 5 0
  let cs := s2.grpMembers g
  let s3 := s2.when (bitAt acts 0) fun s => s.each cs fun s c =>
    if s.coreState c = 1 then
      ({ s with dbg := { s.dbg with grpHalt := vmod s.dbg.grpHalt c fun _ => true } }).showPending c
    else s
  let s4 := s3.when (bitAt acts 1) fun s => s.put Fd.TRC_CTL_EN 0
  let s5 := s4.when (bitAt acts 3) fun s =>
    ({ s with dbg := { s.dbg with out0 := s.clk.now + 10 } }).drive (.pulse "XTR_OUT" 0 s.clk.now (s.clk.now + 10))
  s5.when (bitAt acts 4) fun s =>
    ({ s with dbg := { s.dbg with out1 := s.clk.now + 10 } }).drive (.pulse "XTR_OUT" 1 s.clk.now (s.clk.now + 10))

/-- Fire the groups of the mask `m` as one: their actions, resumes first as a halt request in the same cycle prevails (R514), and one TRIG
packet naming those whose actions ask for it (R513, R517). -/
def State.fireGroups (s : State) (m : Nat) : State :=
  let gs := (List.range 8).filter fun g => bitAt m g
  let trig := (gs.filter fun g => bitAt (s.grpField g 5 0) 2).foldl (fun n g => n + 2 ^ g) 0
  let s1 := (s.each gs State.groupResume).each gs State.groupActions
  if trig = 0 || !s.tracing 6 then s1
  else ((s1.owedOverflow 6).stream 6 ([0x60, BitVec.ofNat 8 trig] ++ s1.stampBytes)).flushFrame 6

/-- The groups whose SOURCES bit `b` is set, all or only those with core `c` as a member. -/
def State.groupsOn (s : State) (b : Nat) (c : Option Nat) : Nat :=
  ((List.range 8).filter fun g => bitAt (s.grpField g 13 8) b &&
    (match c with | some c => bitAt (s.grpField g 21 16) c | none => true)).foldl (fun n g => n + 2 ^ g) 0

/-- A source of the cross-trigger matrix happens (R513). -/
def State.xtrSource (s : State) (b : Nat) (c : Option Nat) : State := s.fireGroups (s.groupsOn b c)

/-- Core `c` and its locked partner halt before the instruction at `4 × next` (R508, R511): the stop groups that name a member's
halt fire. -/
def State.enterHalt (s : State) (c cause : Nat) (next : BitVec 30) : State :=
  let l := s.lead c
  let us := s.mates c
  let s1 := s.each us fun s i =>
    (((((s.put (Fd.SYS_CORECTL_STATE i) 3).put (Fd.DBG_STAT_HALTED i) 1).put (Fd.DBG_STAT_CAUSE i) cause).put (Fd.DBG_STAT_LEVEL i)
      (s.core l).level.code).put (Fd.DBG_PC_PC i) next.toNat).modCore i fun k => { k with pc := next, stepping := false, fetched := none, loaded := none }
  let s2 := ({ s1 with dbg := { s1.dbg with grpHalt := us.foldl (fun v i => vmod v i fun _ => false) s1.dbg.grpHalt } }).showPending c
  (s2.traceStop l 0x5B).pwmFollow.fireGroups (us.foldl (fun n i => n ||| s2.groupsOn 0 (some i)) 0)

/-- A halt request acts at an instruction boundary if the core runs or rests at an enabled level; else it stays pending (R507, R508). -/
def State.haltPoll (s : State) (c : Nat) : State :=
  let l := s.lead c
  if (s.coreState l = 1 || s.coreState l = 2) && !(s.core l).waits && s.haltWanted l && s.levelEnabled l false then
    s.enterHalt l (if (s.mates l).any fun i => s.bit (Fd.DBG_CTL_HALT_REQ i) then 1 else 2) (s.core l).pc
  else s

/-- A debug enable has ended: cores halted at a level that is no longer enabled resume, and trace follows DBG_TEN (R506). -/
def State.enablesEnded (s : State) : State :=
  s.each (List.range 6) fun s c =>
    let s1 := if s.coreState c = 3 && !s.levelEnabled c false then s.resumeCore c else s
    s1.traceSync c

/-- Every U and S enable and trace enable of bay `b` ends, with its authorisations (R506). -/
def State.endEnables (s : State) (b : Nat) : State :=
  let s1 := s.each (List.range 6) fun s c =>
    (((s.put ⟨Reg.DBG_EN c, b, b⟩ 0).put ⟨Reg.DBG_EN c, 8 + b, 8 + b⟩ 0).put ⟨Reg.DBG_TEN c, b, b⟩ 0).put ⟨Reg.DBG_TEN c, 8 + b, 8 + b⟩ 0
  { s1 with dbg := { s1.dbg with auths := s1.dbg.auths.filter fun a => a.bay ≠ b || a.level = 2 } }.enablesEnded

/-- After trace has gone out: a trace RAM that became full fires the groups that name it (R522). -/
def State.ramFullSince (s0 s : State) : State :=
  if s.bit Fd.TRC_STAT_FULL && !s0.bit Fd.TRC_STAT_FULL then s.xtrSource 1 none else s

end Sys2Proof.Machine
end

