-- ==== Sys2Proof/Machine/Resets.lean ====
section
/-! DEFINITION. Measures to come and scheduled effects (R41, R70, R270), and the resets of R465 with what follows from
them: platform-pair reset and escalation (R495, R497), bay core release and bay faults (R161, R496). -/

namespace Sys2Proof.Machine

/-! ### Measures to come -/

/-- The measure period in force, in µs: the running figure's, else the nominal 1 ms of R199. -/
def State.periodUs (s : State) : Nat := match s.fig.geom with | some g => g.period | none => 1000

/-- The time point of measure `k` for a period of `p` µs, in units of 2^-48 ns (R41). -/
def timePoint (p k : Nat) : Nat := k * p * 1000 * 2 ^ 48

/-- 100 µs in units of 2^-48 ns (R70). -/
def mergeTime : Nat := 100000 * 2 ^ 48

/-- The measure that a command names (R70): itself if its time point lies at least 100 µs ahead; for 0 the first such. -/
def State.chooseMeasure (s : State) (p m : Nat) : Option Nat :=
  if m = 0 then some (cdiv (s.tme.t + mergeTime) (timePoint p 1))
  else if s.tme.t + mergeTime ≤ timePoint p m then some m
  else none

/-- Schedule an effect for measure `k` of period `p` µs (R270). -/
def State.schedule (s : State) (p k : Nat) (e : Effect) (o : Option Origin) : State :=
  { s with fw := { s.fw with sched := s.fw.sched ++ [⟨k, p, e, o⟩] } }

/-- A completion awaits COMMAND_DONE (R250). -/
def State.finish (s : State) (o : Option Origin) (status : Nat) : State :=
  match o with
  | some o => { s with fw := { s.fw with done := s.fw.done ++ [⟨o, status⟩] } }
  | none => s

/-! ### Power domains (R477 to R481) -/

def State.modDom (s : State) (d : Nat) (f : PwrDom → PwrDom) : State := { s with pwr := vmod s.pwr d f }
def State.domState (s : State) (d : Nat) : Nat := s.get (Fd.PWR_STATE_STATE d)
def dON : Nat := 0
def dDRAIN : Nat := 1
def dFENCED : Nat := 2
def dOFF : Nat := 3
def dWAKE : Nat := 4

/-- A part, committed, running or parked, uses stream engine `e`. -/
def usesEngine (e : Nat) (p : Part) : Bool := p.acts.any fun a => a.kind = 2 && a.res % 4 = e

/-- POWER_UP_REQUEST (R478, R480); firmware makes one for each gated domain that an accepted command will use (R481). -/
def State.powerUp (s : State) (d : Nat) : State :=
  if d < 4 || 13 < d then s
  else if s.domState d = dOFF then s.put (Fd.PWR_STATE_STATE d) dWAKE
  else if s.domState d = dDRAIN then s.modDom d fun x => { x with upWanted := true }
  else if s.domState d = dFENCED then
    let s1 := s.put (Fd.PWR_STATE_STATE d) dON
    if d = 13 then s1.setReady rJNC else s1
  else s

/-- The stream engines that part `p` uses are powered (R481). -/
def State.wakeEngines (s : State) (p : Part) : State :=
  s.each ((List.range 4).filter fun e => usesEngine e p) fun s e => s.powerUp (8 + e)

/-! ### Straps and system resets (R465 to R467, R471) -/

/-- Write the sampled straps into the registers that show them (R20, R231, R536). -/
def State.putStraps (s : State) (osc boot snp volt : Nat) : State :=
  ((((((s.put Fd.SYS_STRAP_OSC_SEL osc).put Fd.SYS_STRAP_BOOT_SEL boot).put Fd.SYS_STRAP_SNP_SYNC snp).put
    Fd.SYS_STRAP_VDDIO_AON_V volt).put Fd.SYS_CLKSTAT_OSC_SEL osc).put Fd.SNP_STAT_SYNC snp)

/-- What a power-on or system reset keeps beside the debug domain: the model's queue and counter, time as the keep-alive
oscillator counts it, boot ROM and flash, and the live levels of the fault inputs (R389, R465). `delay` ns pass before t = 0 (R471). -/
def State.afterReset (s : State) (delay : Nat) : State :=
  { State.reset with
    pending := s.pending
    out := s.out
    free := s.free
    regs := sset regReset Reg.PWM_FLTSTAT (s.reg Reg.PWM_FLTSTAT &&& 3#32) (s.regs.filter (fun p => dbgBlocks.contains (p.1 / 65536)))
    rom := s.rom
    flash := s.flash
    otp := s.otp
    dbg := s.dbg
    clk := { now := s.clk.now, ka := s.clk.ka, timeline := s.clk.ka + delay, mdllFrom := s.clk.ka + delay } }

/-- Reset of the always-on, dynamic and static domains without resampling the straps, with its cause (R465, R466). -/
def State.systemReset (s : State) (cause delay : Nat) : State :=
  ((s.afterReset delay).putStraps (s.get Fd.SYS_STRAP_OSC_SEL) (s.get Fd.SYS_STRAP_BOOT_SEL)
    (s.get Fd.SYS_STRAP_SNP_SYNC) (s.get Fd.SYS_STRAP_VDDIO_AON_V)).put Fd.PWR_RSTCAUSE_CAUSE cause

/-! ### Cores in and out of reset -/

/-- A request of core `c` from before its reset completes, and its answer reaches nobody (R161, SYS_CORECTL.RUN). -/
def BusReq.orphan (r : BusReq) (c : Nat) : BusReq := if r.core = c then { r with core := 6 } else r

def State.orphan (s : State) (c : Nat) : State :=
  let head (h : BankHead) : BankHead := { h with req := h.req.orphan c }
  { s with
    bxm := { s.bxm with reqs := s.bxm.reqs.map (·.orphan c), held := s.bxm.held.filter (·.2.core ≠ c), lands := s.bxm.lands.map fun e => (e.1, e.2.1.orphan c, e.2.2) }
    field := { s.field with head := s.field.head.map head }
    ddrCtl := { s.ddrCtl with heads := s.ddrCtl.heads.map head, flight := s.ddrCtl.flight.map fun f => { f with req := f.req.orphan c } } }

/-- Hold core `c` in reset: its registers and caches return to their reset values, and what it had under way is discarded (R161). -/
def State.holdCore (s : State) (c : Nat) : State :=
  (((s.orphan c).modCore c fun _ => {}).put (Fd.SYS_CORECTL_STATE c) 0).put (Fd.DBG_STAT_HALTED c) 0

/-- Release core `c` from reset: level F, pc 0 (R161); its SCC_CYCLE starts at 0. -/
def State.releaseCore (s : State) (c : Nat) : State := (s.holdCore c).put (Fd.SYS_CORECTL_STATE c) 1

/-- The first act of a released core unit `cs`: with HALT_ON_RESET at an enabled level it halts at once with CAUSE 5, after its
first trace packet (R507, R520). -/
def State.released (s : State) (cs : List Nat) : State :=
  s.each cs fun s c =>
    if s.lead c ≠ c then s
    else
      let s1 := if (s.src c).ctxLost then s.traceWake c else s.traceSync c
      if s1.bit (Fd.DBG_CTL_HALT_ON_RESET c) && s1.levelEnabled c false && s1.coreState c = 1 then s1.enterHalt c 5 (s1.core c).pc else s1

/-- The two cores of a core unit as R275 codes it (one for a split core). -/
def unitCores (u : Nat) : List Nat :=
  if u = 0x82 then [2, 3] else if u = 0x84 then [4, 5] else if 2 ≤ u ∧ u ≤ 5 then [u] else []

/-- A pair's lock is sampled when a core of it is released while both are held (R163). -/
def State.sampleLock (s : State) (c : Nat) : State :=
  if s.coreState (c / 2 * 2) ≠ 0 || s.coreState (c / 2 * 2 + 1) ≠ 0 then s
  else if c < 4 then { s with lock23 := s.bit Fd.SYS_PAIR_LOCK23 }
  else { s with lock45 := s.bit Fd.SYS_PAIR_LOCK45 }

/-- The cores released with a core unit: a locked pair is released as one (R163, R164). -/
def State.unitMates (s : State) (u : Nat) : List Nat :=
  match unitCores u with
  | [c] => s.mates c
  | cs => cs

/-- The sixteenth of the measure in progress, or of the nominal millisecond while no figure runs (R199). -/
def State.sixteenth (s : State) : Nat :=
  match s.fig.geom with
  | some g => min 15 ((s.clk.now - s.fig.boundary) * 32 / (1000 * max 1 g.period))
  | none => s.ns % 1000000 * 16 / 1000000

/-- The present sixteenth lies in bay `b`'s slice (R199). -/
def State.inSlice (s : State) (b : Nat) : Bool :=
  let x := s.sixteenth
  (s.bayRec b).sliceFirst ≤ x && x < (s.bayRec b).sliceFirst + (s.bayRec b).sliceLen

/-- The unit of core `l` rests in a sixteenth that is granted to no bay (R199, R186). -/
def State.idleUnit (s0 : State) (l : Nat) : State :=
  let s := s0.each (s0.mates l) fun s i => s.modCore i fun k => { k with platform := false }
  let was : Idle := if s.coreState l = 1 then .ran else if (s.core l).idle = .no then .rested else (s.core l).idle
  let s1 := s.when (s.coreState l = 1) fun s => s.traceStop l 0x58
  s1.each (s.mates l) fun s i => (s.put (Fd.SYS_CORECTL_STATE i) 2).modCore i fun k => { k with idle := was }

/-- Release the core unit of bay `b` into bay code: its cores are reset, the locks are sampled, and the unit is at level S at the entry point with the reason in
g2 (R161, R163, R206, R207). Outside the bay's slice it rests until that begins (R199). A core that halts at its release is left at F,
before the monitor's ERET (log entry 29). -/
def State.enterBay (s : State) (b g2 : Nat) : State :=
  let r := s.bayRec b
  let held := s.each (s.unitMates r.coreUnit) fun s c => if s.coreState c = 0 then s else s.holdCore c
  let sl := held.each (unitCores r.coreUnit) State.sampleLock
  let cs := sl.unitMates r.coreUnit
  let s0 := (sl.each cs fun s c => (s.put (Fd.SYS_CORECTL_RUN c) 1).releaseCore c).released cs
  let s1 := s0.each cs fun s c =>
    s.modCore c fun k0 =>
      let k := { k0 with bay := BitVec.ofNat 3 b, g := vmod k0.g 2 fun _ => BitVec.ofNat 32 g2 }
      if s.coreState c = 3 then { k with fx := { k.fx with epc := r.entry.extractLsb' 2 30, ppl := .s } }
      else { k with level := .s, pc := r.entry.extractLsb' 2 30 }
  if s.inSlice b then s1 else (cs.filter fun c => s1.lead c = c && s1.coreState c = 1).foldl State.idleUnit s1

/-- Another bay that is RUNNING shares bay `b`'s core unit (R199). -/
def State.unitShared (s : State) (b : Nat) : Bool :=
  (List.range 8).any fun i => i ≠ b && s.bayState i = bRUNNING && i ≠ 0 &&
    (unitCores (s.bayRec i).coreUnit).any fun c => (unitCores (s.bayRec b).coreUnit).contains c

/-- The context with which a bay enters its code: level S at the entry point, the reason in g2 (R161, R206). -/
def freshCtx (entry : Word) (g2 : Nat) : SliceCtx :=
  { g := (List.range 32).map fun i => if i = 2 then BitVec.ofNat 32 g2 else 0, pc := entry.extractLsb' 2 30, level := .s
    sx := { ppl := .s }, ie := 0, timecmp := BitVec.allOnes 64, rgn := List.replicate 8 {}, async := [] }

/-- The core unit of bay `b` enters the bay's code again: at once while it serves the bay or is held in reset, else in the bay's next slice
(R165, R200, R496). -/
def State.restartBay (s : State) (b g2 : Nat) : State :=
  if s.unitShared b && (unitCores (s.bayRec b).coreUnit).all (fun c => (s.core c).bay.toNat ≠ b && s.coreState c ≠ 0) then
    s.modBay b fun r => { r with ctx := some (freshCtx r.entry g2) }
  else s.enterBay b g2

/-- Stop serving bay `b`: its cores are held in reset, or rest until the next slice where another RUNNING bay shares them (R199, R209);
its saved context is dropped. -/
def State.leaveBay (s : State) (b : Nat) : State :=
  let s1 := (s.modBay b fun r => { r with ctx := none }).endEnables b
  if s.unitShared b then s1.each (unitCores (s.bayRec b).coreUnit) fun s c =>
    if (s.core c).bay.toNat = b then (s.put (Fd.SYS_CORECTL_STATE c) 2).modCore c fun k => { k with level := .f, bay := 0 } else s
  else s1.each (unitCores (s.bayRec b).coreUnit) fun s c => (s.holdCore c).put (Fd.SYS_CORECTL_RUN c) 0

/-! ### Platform-pair reset and escalation (R495, R497) -/

/-- SC0/SC1 are reset and restart; the mailbox bit clears; everything else runs on (R465, R495, R258). The fourth such
reset within 10 s of device time causes a system reset with cause 3 (R497). Bay 0's counter 4 counts it (R499). -/
def State.pairReset (s : State) : State :=
  let s1 := (((s.releaseCore 0).releaseCore 1).put (Fd.SYS_CORECTL_RUN 0) 1 |>.put (Fd.SYS_CORECTL_RUN 1) 1).released [0]
  let s2 := ((s1.clearReady rMBX).flag Fd.SYS_FLTSUM_PLATFORM).countBay 0 4
  let recent := (s2.ns :: s2.fw.pairResets).filter fun t => s2.ns - t < 10000000000
  let s3 := { s2 with fw := { s2.fw with pairResets := recent, kick := s2.runNs } }
  if recent.length ≥ 4 then (s3.systemReset 3 10000).flag Fd.SYS_FLTSUM_ESCALATED else s3

/-- The reset of R165: as a platform-pair reset, counted in SYS_PAIR.RESETS_01. -/
def State.pairResetCounted (s : State) : State := (s.bump Fd.SYS_PAIR_RESETS_01).pairReset

/-! ### Bay faults (R496) -/

/-- Bay `b` has a fault of the given cause (1 mismatch, 2 DOUBLE); bay 0, which no bay core serves, has none. By its policy it becomes FAULTED, its part removed at
the next measure R70 allows, or its cores restart with g2 = 3; a fourth fault within 60 s acts as STOP (R496). -/
def State.bayFault (s : State) (b cause : Nat) : State :=
  if b = 0 || (s.bayState b ≠ bRUNNING && s.bayState b ≠ bASLEEP) then s
  else
    let recent := (s.ns :: (s.bayRec b).faultTimes).filter fun t => s.ns - t < 60000000000
    let restart := (s.reg Reg.SYS_BAYPOL).getLsbD b && recent.length < 4
    let s1 := ((s.flag Fd.SYS_FLTSUM_BAY).countBay b 4).modBay b fun r => { r with faultTimes := recent }
    let tell (s : State) : State := s.postBoth b 0x03C1 (natLe 1 b ++ natLe 1 cause ++ natLe 1 (if restart then 1 else 0))
    let s2 := tell s1
    if restart then (if s.bayState b = bRUNNING then (s2.countBay b 5).restartBay b 3 else s2.countBay b 5)
    else
      let s3 := tell ((s1.leaveBay b).setBayState b bFAULTED)
      match s3.chooseMeasure s3.periodUs 0 with
      | some k => s3.schedule s3.periodUs k (.partRemove b) none
      | none => s3

end Sys2Proof.Machine
end

