-- ==== Sys2Proof/Machine/HostPorts.lean ====
section
/-! DEFINITION. Host ports (08) and ring areas (09): pegs, windows, PCIe functions, the snap port's latches, doorbells and
the ring registers. -/

namespace Sys2Proof.Machine

/-! ### Pegs (R226 to R230) -/

/-- The two bits of peg `p` of bay `n` (PEG_STATEn). -/
def pegFld (n p : Nat) : Fld := ⟨Reg.PEG_STATE n (p / 16), 2 * (p % 16) + 1, 2 * (p % 16)⟩

/-- Peg codes of R226. -/
def pIDLE : Nat := 0
def pHOST : Nat := 1
def pDEVICE : Nat := 2
def pFAULT : Nat := 3

def State.peg (s : State) (n p : Nat) : Nat := s.get (pegFld n p)

/-- PEG_DSTATn.PENDING shows that PEG_DQn is not empty. -/
def State.dqPending (s : State) (n : Nat) : State :=
  s.putB (Fd.PEG_DSTAT_PENDING n) (!(vget s.pcie.dq n).isEmpty)

/-- Push peg `p` into PEG_HQ of bay `n` and raise vector 2; a full queue loses it (R230). -/
def State.pushHq (s : State) (n p : Nat) : State :=
  let q := vget s.pcie.hq n
  let s1 :=
    if q.length < 64 then { s with pcie := { s.pcie with hq := vmod s.pcie.hq n (· ++ [BitVec.ofNat 12 p]) } }
    else { s with pcie := { s.pcie with hqLost := vmod s.pcie.hqLost n fun _ => true } }
  s1.msix n 2

/-- Push peg `p` into PEG_DQn, which raises the bay's peg interrupt source; a full queue loses it (R230). -/
def State.pushDq (s : State) (n p : Nat) : State :=
  let q := vget s.pcie.dq n
  let s1 :=
    if q.length < 64 then { s with pcie := { s.pcie with dq := vmod s.pcie.dq n (· ++ [BitVec.ofNat 12 p]) } }
    else { s with pcie := { s.pcie with dqLost := vmod s.pcie.dqLost n fun _ => true } }
  s1.dqPending n

/-- The word a queue returns: VALID, OVF and the popped peg (PEG_DQn, PEG_HQ). -/
def queueWord (q : List (BitVec 12)) (lost : Bool) : Word :=
  match q with
  | [] => 0
  | p :: _ => BitVec.ofNat 32 (2 ^ 31 + (if lost then 2 ^ 30 else 0) + p.toNat)

/-- Pop one entry of PEG_HQ: the word, and the state after. OVF shows with the next word a non-empty queue returns (R230). -/
def State.popHq (s : State) (n : Nat) : Word × State :=
  let q := vget s.pcie.hq n
  (queueWord q (vget s.pcie.hqLost n),
   if q.isEmpty then s
   else { s with pcie := { s.pcie with hq := vmod s.pcie.hq n List.tail, hqLost := vmod s.pcie.hqLost n fun _ => false } })

/-- Pop one entry of PEG_DQn. -/
def State.popDq (s : State) (n : Nat) : Word × State :=
  let q := vget s.pcie.dq n
  (queueWord q (vget s.pcie.dqLost n),
   if q.isEmpty then s
   else ({ s with pcie := { s.pcie with dq := vmod s.pcie.dq n List.tail, dqLost := vmod s.pcie.dqLost n fun _ => false } }).dqPending n)

/-- Peg `p` of bay `n` enters FAULT with a cause (1 HOST_REQ, 2 DEVICE_REQ, 3 HOST_WRITE): recorded, vector 3, PEG_FAULT
to bay n and bay 0 (R227). -/
def State.pegFault (s : State) (n p cause : Nat) : State :=
  let s1 := ((((s.put (pegFld n p) pFAULT).put (Fd.PEG_FSTAT_PEG n) p).put (Fd.PEG_FSTAT_CAUSE n) cause).bump
    (Fd.PEG_FSTAT_FAULTS n)).msix n 3
  s1.postBoth n 0x000A (natLe 2 p ++ natLe 1 cause ++ natLe 1 n)

/-- What R226 does with a request: nothing, take it, fault, or ignore it. -/
inductive PegAct where
  | same | take | fault | ignore
deriving DecidableEq, Repr

/-- The transition table of R226, for a host or a device-side request. -/
def pegAct (host : Bool) (cur target : Nat) : PegAct :=
  if cur = pFAULT then .ignore
  else if target = pFAULT then .fault
  else if cur = pIDLE then (if target = pIDLE then .same else .take)
  else if cur = pHOST then (if host then (if target = pHOST then .same else .take) else .fault)
  else (if host then .fault else (if target = pDEVICE then .same else .take))

/-- Apply the request word `w` to bay `n`'s pegs (R226 to R230). A request with a non-zero reserved field, or until MBX sets one of the host
for an EMPTY bay (R474), is discarded and counted. -/
def State.pegRequest (s : State) (n : Nat) (host : Bool) (w : Word) : State :=
  let p := w.toNat % 4096
  let target := bitsOf w.toNat 17 16
  if w.toNat / 2 ^ 18 ≠ 0 ∨ bitsOf w.toNat 15 12 ≠ 0 ∨ (host = true ∧ s.bayState n = bEMPTY ∧ s.ready rMBX = false) then s.bump (Fd.PEG_FSTAT_IGNORED n)
  else
    match pegAct host (s.peg n p) target with
    | .same => s
    | .ignore => s.bump (Fd.PEG_FSTAT_IGNORED n)
    | .fault => s.pegFault n p (if host then 1 else 2)
    | .take =>
      let s1 := s.put (pegFld n p) target
      if target = pHOST then s1.pushHq n p
      else if target = pDEVICE && host then s1.pushDq n p
      else s1

/-- A command is a device-side request for peg `p` of bay `n`. -/
def asksPeg (n p : Nat) : Instr → Bool
  | .devicePegRequest m w => m.val = n && w.toNat % 4096 = p
  | .registerWrite path a w => a.toNat = Reg.PEG_REQ n && w.toNat % 4096 = p && (match path with | .fw | .bay _ _ => true | .tap | .host _ => false)
  | _ => false

/-- A device-side request for peg `p` of bay `n` comes in this CCLK cycle: it is among the commands of this step (R228, log entry 49). -/
def State.deviceAsks (s : State) (n p : Nat) : Bool := !s.stands && s.pending.any (asksPeg n p)

/-- A host request takes its turn behind a device-side request of the same CCLK cycle for its peg (R228). -/
def State.pegHost (s : State) (n : Nat) (w : Word) : State :=
  if s.deviceAsks n (w.toNat % 4096) then { s with pcie := { s.pcie with pegHeld := s.pcie.pegHeld ++ [(n, w)] } }
  else s.pegRequest n true w

/-- The host requests that waited now apply, each to the state that the one before left: those whose device-side request has come, and at
the cycle's end all (R228). -/
def State.pegRelease (s : State) : State :=
  let goes := fun (q : Nat × Word) => !s.deviceAsks q.1 (q.2.toNat % 4096)
  let s1 := { s with pcie := { s.pcie with pegHeld := s.pcie.pegHeld.filter fun q => !goes q } }
  s1.each (s.pcie.pegHeld.filter goes) fun s q => s.pegRequest q.1 true q.2

/-- A device-side request, and the host requests that waited for it (R228). -/
def State.pegDevice (s : State) (n : Nat) (w : Word) : State := (s.pegRequest n false w).pegRelease

/-! ### The shared window (R222 to R225) -/

/-- Where offset `o` of bay `n`'s window leads (R222). -/
def State.windowPlace (s : State) (n o : Nat) : Place :=
  let a := s.get (Fd.PEG_WIN_BASE n) * 65536 + o
  if s.bit (Fd.PEG_WIN_TARGET n) then .ddr a else .bkf a

/-- The address that a window violation records: platform address of a bank-field byte, or the LPDDR5X byte address. -/
def placeAddr : Place → Nat
  | .bkf o => 0x10000000 + o
  | .ddr o => o
  | .sram o => 0x08000000 + o
  | .rom o => o
  | .reg a => a
  | .hole => 0

/-- Cut `n` bytes at offset `o` into runs inside one 64 KiB block: (offset, length). -/
def blockRuns : Nat → Nat → Nat → List (Nat × Nat)
  | 0, _, _ => []
  | f + 1, o, n =>
    if n = 0 then []
    else
      let k := min n (65536 - o % 65536)
      (o, k) :: blockRuns f (o + k) (n - k)

/-- Bay `n` has no window: EMPTY or DRAINING (R223). -/
def State.windowAbsent (s : State) (n : Nat) : Bool := s.bayState n = bEMPTY || s.bayState n = bDRAINING

/-- What becomes of a window access in one block: it is made, it is aborted, or this block's part of it is dropped. -/
inductive WindowAct where
  | make | abort | drop
deriving DecidableEq, Repr

/-- The checks of a window access to `k` bytes at offset `o` that lie in one block: grant, then peg (R223, R224). -/
def State.windowCheck (s : State) (n o k : Nat) (write : Bool) : WindowAct × State :=
  let p := s.windowPlace n o
  let g := s.peg n (o / 65536)
  if !s.granted n p k write then (if write then .drop else .abort, s.violation n (placeAddr p) 1)
  else if g = pHOST then (.make, s)
  else if !write then (.abort, s)
  else (.drop, if g = pFAULT then s else s.pegFault n (o / 65536) 3)

/-! ### Ring areas (R240 to R248) -/

/-- Set the latch of ring set `r` (R248). -/
def State.ringBell (s : State) (r : Nat) : State :=
  (s.setReg Reg.MBX_DBLATCH (s.reg Reg.MBX_DBLATCH ||| (1#32 <<< r))).mark Reg.MBX_DBLATCH (1#32 <<< r)

/-- Clear the latch of ring set `r`. -/
def State.clearBell (s : State) (r : Nat) : State :=
  s.setReg Reg.MBX_DBLATCH (s.reg Reg.MBX_DBLATCH &&& ~~~(1#32 <<< r))

/-- Count a dropped ring write (R241, R242). -/
def State.badRing (s : State) (r : Nat) : State := s.modRing r fun q => { q with badWr := min 255 (q.badWr + 1) }

/-- The sources of MBX_IRQ of bay `n` that are pending: response, event and peg (R263). -/
def State.rspP (s : State) (n : Nat) : Bool := (s.ring n).rspPi ≠ (s.ring n).rspCi && !s.hostRing n
def State.evtP (s : State) (n : Nat) : Bool := (s.ring n).evtPi ≠ (s.ring n).evtCi && !s.hostRing n
def State.pegP (s : State) (n : Nat) : Bool := s.bit (Fd.PEG_DSTAT_PENDING n) || s.bit (Fd.PEG_DSTAT_FLR n)

def b2n (b : Bool) : Nat := if b then 1 else 0

/-- The word at offset `o` of ring set `r`'s area (R240 and the ring registers). -/
def State.ringRead (s : State) (r o : Nat) : Word :=
  let q := s.ring r
  if o < 0x1800 then BitVec.ofNat 32 (leNat (readBytes zeroByte q.mem o 4))
  else match o with
    | 0x1800 => q.cmdPi.setWidth 32
    | 0x1804 => q.cmdCi.setWidth 32
    | 0x1808 => q.rspPi.setWidth 32
    | 0x180C => q.rspCi.setWidth 32
    | 0x1810 => q.evtPi.setWidth 32
    | 0x1814 => q.evtCi.setWidth 32
    | 0x181C => BitVec.ofNat 32 (q.evtLost * 65536 + q.badWr * 256 + b2n q.rspStall * 4 + b2n q.overrun * 2 + b2n (s.ready rMBX))
    | 0x1820 => q.expSeq
    | 0x1824 => BitVec.ofNat 32 (b2n (s.pegP r) * 1024 + b2n (s.evtP r) * 512 + b2n (s.rspP r) * 256 + b2n q.pegIe * 4 +
        b2n q.evtIe * 2 + b2n q.rspIe)
    | _ => 0

/-- Key of the marks of MBX_RSTAT of ring set `r`, in the mailbox block (R8, R240). -/
def rstatAt (r : Nat) : Nat := 0x4020F000 + 4 * r

/-- A write of `w` at offset `o` of ring set `r`'s area, by the host or by the bay's cores (R8, R240 to R242, R248). MBX_IRQ, whose table
names no host path, is for the bay's cores whatever PRODUCER says, and a host write to it is dropped and not counted (DESIGN CHOICE, log
entry 58). -/
def State.ringWrite (s : State) (r o : Nat) (byHost : Bool) (w : Word) : State :=
  if 0x800 ≤ o && o < 0x1800 then s.badRing r
  else if o < 0x1824 && s.hostRing r ≠ byHost then s.badRing r
  else if o < 0x800 then s.modRing r fun q => { q with mem := writeBytes zeroByte (natLe 4 w.toNat) o q.mem }
  else match o with
    | 0x1800 => s.modRing r fun q => { q with cmdPi := w.setWidth 16 }
    | 0x180C => s.modRing r fun q => { q with rspCi := w.setWidth 16, rspStall := q.rspStall && (q.rspPi - w.setWidth 16).toNat ≥ 32 }
    | 0x1814 => s.modRing r fun q => { q with evtCi := w.setWidth 16 }
    | 0x1818 => s.ringBell r
    | 0x181C => if w.getLsbD 1 then s.modRing r fun q => { q with overrun := (s.marked (rstatAt r)).getLsbD 1 } else s
    | 0x1824 => if byHost then s else s.modRing r fun q => { q with pegIe := w.getLsbD 2, evtIe := w.getLsbD 1, rspIe := w.getLsbD 0 }
    | _ => s

/-- Platform firmware may write every ring area field whose access code allows it (R9, R240). -/
def State.ringWriteF (s : State) (r o : Nat) (w : Word) : State :=
  if o < 0x1800 then s.modRing r fun q => { q with mem := writeBytes zeroByte (natLe 4 w.toNat) o q.mem }
  else if o = 0x1824 then s.ringWrite r o false w
  else s.ringWrite r o (s.hostRing r) w

/-- A ring set after a reset of it (R259). Its journal clears, so that a command being executed gets no response; MBX_CFGn, the enables
of MBX_IRQ and the slots are kept. -/
def State.resetRing (s : State) (r : Nat) : State :=
  let s1 := (s.modRing r fun q => { mem := q.mem, pegIe := q.pegIe, evtIe := q.evtIe, rspIe := q.rspIe }).clearBell r
  { s1 with mbx := { s1.mbx with active := s1.mbx.active &&& ~~~(1#9 <<< r) } }

/-! ### Function resets (R220, R221, R259) -/

/-- Reset the PCIe state of function `n`; its accesses under way and its peg requests that wait are dropped. Max Payload Size, ASPM control and the AER status outlive it
(PRESUMED, PCI, log entry 12). -/
def State.resetFn (s : State) (n : Nat) : State :=
  let s1 := s.modFn n fun f => { maxPayload := f.maxPayload, aspmL1 := f.aspmL1, aer := f.aer }
  { s1 with pcie := { s1.pcie with asks := s1.pcie.asks.filter (·.fn ≠ n), pegHeld := s1.pcie.pegHeld.filter (·.1 ≠ n) } }

/-- A word of sixteen pegs with every HOST peg set to IDLE. -/
def hostToIdle (w : Word) : Word :=
  BitVec.ofNat 32 ((List.range 16).foldl (fun n j =>
    let p := bitsOf w.toNat (2 * j + 1) (2 * j)
    n + (if p = pHOST then pIDLE else p) * 4 ^ j) 0)

/-- Address `a` is one of bay `n`'s PEG_STATE words. -/
def isPegWord (n a : Nat) : Bool := Reg.PEG_STATE n 0 ≤ a && a ≤ Reg.PEG_STATE n 255

/-- Function Level Reset of VF `n` (R220, R259). -/
def State.vfReset (s : State) (n : Nat) : State :=
  let s1 := s.resetFn n
  let s2 := { s1 with regs := s1.regs.map fun (p : Nat × Word) => if isPegWord n p.1 then (p.1, hostToIdle p.2) else p }
  let s3 := { s2 with pcie := { s2.pcie with hq := vmod s2.pcie.hq n fun _ => [], hqLost := vmod s2.pcie.hqLost n fun _ => false } }
  (s3.flag (Fd.PEG_DSTAT_FLR n)).resetRing n

/-- Function Level Reset of the PF: its own state and ring set, VF Enable, and so every VF (R221, R259). -/
def State.pfReset (s : State) : State :=
  let s1 := (s.resetFn 8).resetRing 8
  let s2 := { s1 with pcie := { s1.pcie with vfEnable := false } }
  s2.each (List.range 8) State.vfReset

/-- MSI-X through PCI_RAISEn: each written bit raises vector 32 + i of VF n; the bit clears once the message has been
sent or the vector is pending (R219). -/
def State.raise (s : State) (n : Nat) (w : Word) : State :=
  s.each (List.range 32) fun s i => if w.getLsbD i then s.msix n (32 + i) else s

end Sys2Proof.Machine
end

