-- ==== Sys2Proof/Machine/SeArith.lean ====
section
/-! DEFINITION. The arithmetic of the stream-engine pipes (04): element types, exact dyadic floating point with one rounding,
integer fitting, the pipes, and RED. -/

namespace Sys2Proof.Machine.Se

/-- Type codes of R111. -/
inductive Ty where
  | i8 | i16 | i32 | bf | fp
deriving DecidableEq, Repr, Inhabited

def Ty.ofCode : Nat → Option Ty
  | 0 => some .i8
  | 1 => some .i16
  | 2 => some .i32
  | 3 => some .bf
  | 4 => some .fp
  | _ => none

/-- Element size in bytes (R109). -/
def Ty.size : Ty → Nat
  | .i8 => 1
  | .i16 => 2
  | .i32 => 4
  | .bf => 2
  | .fp => 4

def Ty.isInt : Ty → Bool
  | .i8 => true
  | .i16 => true
  | .i32 => true
  | .bf => false
  | .fp => false

/-- Rounding modes of CTRL.ROUND (R111). -/
inductive Rnd where
  | rne | rtz | rdn | rna
deriving DecidableEq, Repr, Inhabited

def Rnd.ofCode (n : Nat) : Rnd := if n = 0 then .rne else if n = 1 then .rtz else if n = 2 then .rdn else .rna

/-- The flags a computation raises (R121). -/
structure Flags where
  sat : Bool := false
  inv : Bool := false
  ovf : Bool := false
  unf : Bool := false
deriving DecidableEq, Repr, Inhabited

def Flags.or (a b : Flags) : Flags := ⟨a.sat || b.sat, a.inv || b.inv, a.ovf || b.ovf, a.unf || b.unf⟩

/-- A floating-point value: NaN, infinity, signed zero, or a dyadic number `m * 2 ^ e` with `m ≠ 0`. -/
inductive Fv where
  | nan
  | inf (neg : Bool)
  | zero (neg : Bool)
  | fin (m e : Int)
deriving DecidableEq, Repr, Inhabited

/-- Quotient and rounding of `n / d` (`d > 0`) by a mode, for a magnitude whose sign is `neg`. -/
def roundDiv (r : Rnd) (neg : Bool) (n d : Nat) : Nat :=
  let q := n / d
  let m := n % d
  match r with
  | .rne => if 2 * m > d ∨ (2 * m = d ∧ q % 2 = 1) then q + 1 else q
  | .rtz => q
  | .rdn => if neg && m ≠ 0 then q + 1 else q
  | .rna => if 2 * m ≥ d ∧ m ≠ 0 then q + 1 else q

/-- Number of bits of a magnitude. -/
def bitLen (n : Nat) : Nat := if n = 0 then 0 else Nat.log2 n + 1

/-- Precision of a floating type. -/
def Ty.prec : Ty → Nat
  | .bf => 8
  | .fp => 24
  | .i8 => 24
  | .i16 => 24
  | .i32 => 24

/-- The element of a floating type with the given binary32 pattern (bf16 is its upper half, R119). -/
def packBits (t : Ty) (bits : Nat) : Nat := if t = .bf then bits / 65536 else bits

/-- The quiet NaN of R119. -/
def qnan (t : Ty) : Nat := packBits t 0x7FC00000

/-- The largest finite magnitude of a type as a binary32 pattern. -/
def maxBits (t : Ty) : Nat := if t = .bf then 0x7F7F0000 else 0x7F7FFFFF

/-- Decode an element: subnormal inputs read as zero of the same sign (R119). -/
def decode (t : Ty) (v : Nat) : Fv :=
  let b := if t = .bf then v * 65536 else v
  let neg := bitAt b 31
  let ex := bitsOf b 30 23
  let fr := bitsOf b 22 0
  if ex = 255 then (if fr ≠ 0 then .nan else .inf neg)
  else if ex = 0 then .zero neg
  else .fin ((if neg then -1 else 1) * ((2 ^ 23 + fr : Nat) : Int)) ((ex : Int) - 150)

/-- Encode `mag * 2 ^ e` with its sign, where `mag < 2 ^ prec` and the value is in the normal range. -/
def encodeNormal (t : Ty) (neg : Bool) (mag : Nat) (e : Int) : Nat :=
  let n := bitLen mag
  let m24 := mag * 2 ^ (24 - n)
  let ex := (e + (n : Int) - 1 + 127).toNat
  packBits t ((if neg then 2 ^ 31 else 0) + ex * 2 ^ 23 + (m24 - 2 ^ 23))

def signedZero (t : Ty) (neg : Bool) : Nat := packBits t (if neg then 2 ^ 31 else 0)
def signedInf (t : Ty) (neg : Bool) : Nat := packBits t ((if neg then 2 ^ 31 else 0) + 0x7F800000)

/-- Round a non-zero dyadic number to a type (R119): precision first as if the exponent range were unbounded, then
underflow to zero with UNF or overflow with OVF. -/
def roundTo (t : Ty) (r : Rnd) (m e : Int) : Nat × Flags :=
  let neg := m < 0
  let a := m.natAbs
  let n := bitLen a
  let k := n - t.prec
  let q := if k = 0 then a else roundDiv r neg a (2 ^ k)
  let e' := e + k
  let top := e' + (bitLen q : Int) - 1
  if top < -126 then (signedZero t neg, { unf := true })
  else if top > 127 then
    let toInf := match r with
      | .rne => true
      | .rna => true
      | .rtz => false
      | .rdn => neg
    (if toInf then signedInf t neg else packBits t ((if neg then 2 ^ 31 else 0) + maxBits t), { ovf := true })
  else if bitLen q > t.prec then (encodeNormal t neg (q / 2) (e' + 1), {})
  else (encodeNormal t neg q e', {})

/-- The element of a value, rounding a dyadic number. NaN results carry no flag here. -/
def encode (t : Ty) (r : Rnd) : Fv → Nat × Flags
  | .nan => (qnan t, {})
  | .inf n => (signedInf t n, {})
  | .zero n => (signedZero t n, {})
  | .fin m e => roundTo t r m e

def Fv.neg : Fv → Fv
  | .nan => .nan
  | .inf n => .inf !n
  | .zero n => .zero !n
  | .fin m e => .fin (-m) e

/-- Exact sum of two dyadic numbers as (mantissa, exponent). -/
def dyAdd (m1 e1 m2 e2 : Int) : Int × Int :=
  let e := min e1 e2
  (m1 * 2 ^ (e1 - e).toNat + m2 * 2 ^ (e2 - e).toNat, e)

/-- Exact sum: value and whether the operation is invalid. -/
def fAdd (r : Rnd) (a b : Fv) : Fv × Bool :=
  match a, b with
  | .nan, _ => (.nan, true)
  | _, .nan => (.nan, true)
  | .inf x, .inf y => if x = y then (.inf x, false) else (.nan, true)
  | .inf x, _ => (.inf x, false)
  | _, .inf y => (.inf y, false)
  | .zero x, .zero y => if x = y then (.zero x, false) else (.zero (r = .rdn), false)
  | .zero _, b => (b, false)
  | a, .zero _ => (a, false)
  | .fin m1 e1, .fin m2 e2 =>
    let (m, e) := dyAdd m1 e1 m2 e2
    if m = 0 then (.zero (r = .rdn), false) else (.fin m e, false)

/-- Exact product. -/
def fMul (a b : Fv) : Fv × Bool :=
  let sg : Fv → Bool := fun
    | .inf n => n
    | .zero n => n
    | .fin m _ => m < 0
    | .nan => false
  let s := sg a != sg b
  match a, b with
  | .nan, _ => (.nan, true)
  | _, .nan => (.nan, true)
  | .inf _, .zero _ => (.nan, true)
  | .zero _, .inf _ => (.nan, true)
  | .inf _, _ => (.inf s, false)
  | _, .inf _ => (.inf s, false)
  | .zero _, _ => (.zero s, false)
  | _, .zero _ => (.zero s, false)
  | .fin m1 e1, .fin m2 e2 => (.fin (m1 * m2) (e1 + e2), false)

/-- Order of two values that are not NaN, by value only: -1, 0 or 1. -/
def fCmp (a b : Fv) : Int :=
  let key : Fv → Int × Int × Int := fun
    | .inf n => (if n then -1 else 1, 0, 0)
    | .zero _ => (0, 0, 0)
    | .fin m e => (0, m, e)
    | .nan => (0, 0, 0)
  let (i1, m1, e1) := key a
  let (i2, m2, e2) := key b
  if i1 ≠ i2 then (if i1 < i2 then -1 else 1)
  else
    let (m, _) := dyAdd m1 e1 (-m2) e2
    if m < 0 then -1 else if m = 0 then 0 else 1

/-- Below in the order of min and max, which puts -0 below +0 (R119). -/
def fLess (a b : Fv) : Bool :=
  match a, b with
  | .zero x, .zero y => x && !y
  | a, b => fCmp a b < 0

/-- Fit an exact integer to `w` bits: clamp with SAT, or keep the low bits (R118). -/
def fitInt (sat : Bool) (w : Nat) (z : Int) : Nat × Flags :=
  let hi : Int := 2 ^ (w - 1) - 1
  let lo : Int := -(2 ^ (w - 1))
  if sat then
    (if z > hi then (unsigned w hi, { sat := true }) else if z < lo then (unsigned w lo, { sat := true }) else (unsigned w z, {}))
  else (unsigned w z, {})

/-- Width of an element in bits. -/
def Ty.bits (t : Ty) : Nat := 8 * t.size

/-- An element of an integer type as a signed number. -/
def ival (t : Ty) (v : Nat) : Int := signed t.bits v

/-- Round a value to an integer by a mode; none for NaN and infinities. -/
def toInt (r : Rnd) : Fv → Option Int
  | .nan => none
  | .inf _ => none
  | .zero _ => some 0
  | .fin m e =>
    let a := m.natAbs
    let q : Nat := if 0 ≤ e then a * 2 ^ e.toNat else roundDiv r (m < 0) a (2 ^ (-e).toNat)
    some (if m < 0 then -(q : Int) else q)

/-- Convert an element between types (CVT, R118, R119). -/
def cvt (sat : Bool) (r : Rnd) (f t : Ty) (v : Nat) : Nat × Flags :=
  match f.isInt, t.isInt with
  | true, true => fitInt sat t.bits (ival f v)
  | true, false =>
    let z := ival f v
    if z = 0 then (0, {}) else roundTo t r z 0
  | false, true =>
    match decode f v with
    | .nan => (0, { inv := true })
    | .inf n => fitInt true t.bits (if n then -(2 ^ 40) else 2 ^ 40)
    | x => match toInt r x with
      | some z => fitInt true t.bits z
      | none => (0, {})
  | false, false =>
    match decode f v with
    | .nan => (qnan t, { inv := true })
    | x => encode t r x

/-- Widen a stream element to the chain type: sign extension, or bf16 to fp32 exactly (R117). -/
def widen (f t : Ty) (v : Nat) : Nat :=
  if f.isInt then unsigned t.bits (ival f v)
  else if f = .bf && t = .fp then v * 65536
  else v

/-- Result of an invalid or exact floating operation: R119's NaN and INV, else one rounding. -/
def fin (t : Ty) (r : Rnd) (p : Fv × Bool) : Nat × Flags :=
  if p.2 then (qnan t, { inv := true }) else encode t r p.1

/-- min or max of two floating elements (R119). -/
def fMinMax (t : Ty) (isMax : Bool) (x y : Nat) : Nat × Flags :=
  let a := decode t x
  let b := decode t y
  let nanFlag : Flags := { inv := a = .nan || b = .nan }
  if a = .nan && b = .nan then (qnan t, nanFlag)
  else if a = .nan then ((encode t .rne b).1, nanFlag)
  else if b = .nan then ((encode t .rne a).1, nanFlag)
  else if isMax then ((encode t .rne (if fLess a b then b else a)).1, {})
  else ((encode t .rne (if fLess b a then b else a)).1, {})

/-- ADD pipe (R113). -/
def pipeAdd (sat : Bool) (r : Rnd) (t : Ty) (fn x y : Nat) : Nat × Flags :=
  if t.isInt then
    let a := ival t x
    let b := ival t y
    match fn with
    | 0 => fitInt sat t.bits (a + b)
    | 1 => fitInt sat t.bits (a - b)
    | 2 => fitInt sat t.bits (min a b)
    | 3 => fitInt sat t.bits (max a b)
    | _ => fitInt sat t.bits ((a - b).natAbs : Int)
  else
    let a := decode t x
    let b := decode t y
    match fn with
    | 0 => fin t r (fAdd r a b)
    | 1 => fin t r (fAdd r a b.neg)
    | 2 => fMinMax t false x y
    | 3 => fMinMax t true x y
    | _ =>
      let (v, bad) := fAdd r a b.neg
      let mag := match v with
        | .fin m e => Fv.fin (m.natAbs : Int) e
        | .zero _ => .zero false
        | .inf _ => .inf false
        | .nan => .nan
      fin t r (mag, bad)

/-- MUL pipe. -/
def pipeMul (sat : Bool) (r : Rnd) (t : Ty) (x y : Nat) : Nat × Flags :=
  if t.isInt then fitInt sat t.bits (ival t x * ival t y) else fin t r (fMul (decode t x) (decode t y))

/-- MAC pipe: one rounding (R113, R119). -/
def pipeMac (sat : Bool) (r : Rnd) (t : Ty) (fn x y z : Nat) : Nat × Flags :=
  if t.isInt then
    match fn with
    | 0 => fitInt sat t.bits (ival t x * ival t y + ival t z)
    | 1 => fitInt sat t.bits (ival t y * ival t z + ival t x)
    | _ => fitInt sat t.bits (ival t z - ival t x * ival t y)
  else
    let a := decode t x
    let b := decode t y
    let c := decode t z
    let go (p : Fv × Bool) (q : Fv) : Nat × Flags :=
      let (v, bad) := fAdd r p.1 q
      fin t r (v, p.2 || bad)
    match fn with
    | 0 => go (fMul a b) c
    | 1 => go (fMul b c) a
    | _ => let p := fMul a b; go (p.1.neg, p.2) c

/-- SHF pipe (R113, R118). -/
def pipeShf (sat : Bool) (r : Rnd) (t : Ty) (fn x y : Nat) : Nat × Flags :=
  let w := t.bits
  let n := y % 32
  match fn with
  | 0 =>
    let z := ival t x
    if n ≥ w then (unsigned w (if z < 0 then -1 else 0), {})
    else
      let q : Nat := roundDiv r (z < 0) z.natAbs (2 ^ n)
      fitInt sat w (if z < 0 then -(q : Int) else q)
  | 1 => if n ≥ w then (0, {}) else fitInt sat w ((roundDiv r false (x % 2 ^ w) (2 ^ n) : Nat) : Int)
  | _ => fitInt sat w (ival t x * 2 ^ n)

/-- CMP pipe: 1 or 0 in the chain type (R113, R119). -/
def pipeCmp (t : Ty) (fn x y : Nat) : Nat × Flags :=
  let a := decode t x
  let b := decode t y
  let nan := !t.isInt && (a = .nan || b = .nan)
  let c : Int := if t.isInt then ival t x - ival t y else fCmp a b
  let res : Bool := match fn with
    | 0 => !nan && c = 0
    | 1 => nan || c ≠ 0
    | 2 => !nan && c < 0
    | 3 => !nan && c ≤ 0
    | 4 => !nan && c > 0
    | _ => !nan && c ≥ 0
  let one := if t.isInt then 1 else packBits t 0x3F800000
  (if res then one else 0, { inv := nan })

/-- LUT pipe: index 0 to 255 clamped, low bytes of the entry (R115). -/
def pipeLut (r : Rnd) (t : Ty) (table : Nat → Word) (x : Nat) : Nat × Flags :=
  let clampIx (z : Int) : Nat × Flags :=
    if z < 0 then (0, { sat := true }) else if z > 255 then (255, { sat := true }) else (z.toNat, {})
  let (i, f) :=
    if t.isInt then clampIx (ival t x)
    else match decode t x with
      | .nan => (0, { inv := true })
      | .inf n => clampIx (if n then -1 else 256)
      | v => match toInt r v with
        | some z => clampIx z
        | none => (0, {})
  ((table i).toNat % 2 ^ t.bits, f)

/-- One chain entry (R112). -/
structure Ent where
  kind : Nat
  fn : Nat
  sely : Nat
  selz : Nat
deriving DecidableEq, Repr, Inhabited

/-- The operands of one element: the streams as widened to CTYPE, and the scalars. -/
structure Opnds where
  ctype : Ty
  a : Nat
  b : Nat
  s0 : Nat
  s1 : Nat
deriving DecidableEq, Repr, Inhabited

/-- A selected operand in chain type `t` (R112): streams convert as a CVT would, scalars are read from their low bytes. -/
def sel (sat : Bool) (r : Rnd) (o : Opnds) (t : Ty) (code : Nat) : Nat × Flags :=
  let src (v : Nat) : Nat × Flags := if t = o.ctype then (v, {}) else cvt sat r o.ctype t v
  match code with
  | 0 => src o.a
  | 1 => src o.b
  | 2 => (o.s0 % 2 ^ t.bits, {})
  | 3 => (o.s1 % 2 ^ t.bits, {})
  | _ => (0, {})

/-- Does an entry use Y, or Z (R112, R113)? -/
def Ent.usesY (e : Ent) : Bool := e.kind ≤ 4
def Ent.usesZ (e : Ent) : Bool := e.kind = 2

/-- The chain type after an entry. -/
def Ent.typeAfter (e : Ent) (t : Ty) : Ty := if e.kind = 5 then (Ty.ofCode e.fn).getD t else t

/-- One pipe of the chain on one element; RED passes its element on (it works on rows). -/
def pipe (sat : Bool) (r : Rnd) (table : Nat → Word) (o : Opnds) (t : Ty) (e : Ent) (x : Nat) : Nat × Flags :=
  let (y, fy) := if e.usesY then sel sat r o t e.sely else (0, {})
  let (z, fz) := if e.usesZ then sel sat r o t e.selz else (0, {})
  let (v, f) : Nat × Flags := match e.kind with
    | 0 => pipeAdd sat r t e.fn x y
    | 1 => pipeMul sat r t x y
    | 2 => pipeMac sat r t e.fn x y z
    | 3 => pipeShf sat r t e.fn x y
    | 4 => pipeCmp t e.fn x y
    | 5 => cvt sat r t (e.typeAfter t) x
    | 6 => pipeLut r t table x
    | _ => (x, {})
  (v, (fy.or fz).or f)

/-- The whole chain on one element: value, its type, and the flags raised. -/
def chain (sat : Bool) (r : Rnd) (table : Nat → Word) (o : Opnds) : List Ent → Ty → Nat → Flags → Nat × Ty × Flags
  | [], t, x, f => (x, t, f)
  | e :: es, t, x, f =>
    let (v, g) := pipe sat r table o t e x
    chain sat r table o es (e.typeAfter t) v (f.or g)

/-- Add two floating elements, rounding (R120). -/
def fSum (r : Rnd) (t : Ty) (x y : Nat) : Nat × Flags := fin t r (fAdd r (decode t x) (decode t y))

/-- Combine partial sums in pairs; a pair with one value passes it on, with none holds none (R120). -/
def pairUp (r : Rnd) (t : Ty) : List (Option Nat) → List (Option Nat) × Flags
  | [] => ([], {})
  | [x] => ([x], {})
  | x :: y :: l =>
    let (rest, f) := pairUp r t l
    match x, y with
    | some a, some b => let (v, g) := fSum r t a b; (some v :: rest, g.or f)
    | some a, none => (some a :: rest, f)
    | none, b => (b :: rest, f)

/-- Reduce by pairs until one value remains. -/
def tree (r : Rnd) (t : Ty) : Nat → List (Option Nat) → Flags → Nat × Flags
  | 0, l, f => ((l.headD none).getD 0, f)
  | n + 1, l, f =>
    match l with
    | [] => (0, f)
    | [x] => (x.getD 0, f)
    | l => let (l', g) := pairUp r t l; tree r t n l' (f.or g)

/-- A floating element as RED takes it: subnormals read as zero, a NaN is the NaN of R119 and raises INV. -/
def canon (t : Ty) (x : Nat) : Nat × Flags :=
  match decode t x with
  | .nan => (qnan t, { inv := true })
  | v => encode t .rne v

/-- RED of one row of elements (R120); `c` is the slice width C. The spec does not say what a partial sum holds before its first element: it
takes that element as it is, so a lone −0 stays −0 (DESIGN CHOICE, log entry 53). -/
def red (sat : Bool) (r : Rnd) (t : Ty) (fn c : Nat) (xs : List Nat) : Nat × Flags :=
  if t.isInt then
    let zs := xs.map (ival t)
    match fn with
    | 0 => fitInt sat t.bits (zs.foldl (· + ·) 0)
    | 1 => fitInt sat t.bits (zs.foldl max (zs.headD 0))
    | _ => fitInt sat t.bits (zs.foldl min (zs.headD 0))
  else
    let ys := xs.map fun x => (canon t x).1
    let f0 := xs.foldl (fun f x => f.or (canon t x).2) ({} : Flags)
    match fn with
    | 0 =>
      let start : List (Option Nat) × Flags × Nat := (List.replicate c none, f0, 0)
      let (parts, f, _) := ys.foldl (fun (p : List (Option Nat) × Flags × Nat) x =>
        let i := p.2.2 % c
        match p.1.getD i none with
        | none => (setAt p.1 i (some x), p.2.1, p.2.2 + 1)
        | some a => let (v, g) := fSum r t a x; (setAt p.1 i (some v), p.2.1.or g, p.2.2 + 1)) start
      tree r t 8 parts f
    | fn =>
      match ys with
      | [] => (0, f0)
      | x :: l => l.foldl (fun p y => let (v, g) := fMinMax t (fn = 1) p.1 y; (v, p.2.or g)) (x, f0)

end Sys2Proof.Machine.Se
end

