-- ==== Sys2Proof/Machine/SeTiming.lean ====
section
/-! DEFINITION. Stream descriptors: their fields (R110 to R112), validity (R117, R122, R123, R133), addressing and the exact
step of every granule (R122 to R129). -/

namespace Sys2Proof.Machine.Se

/-- One stream of a descriptor: base, row stride, type code and direction code. -/
structure Strm where
  base : Nat
  ostride : Int
  ty : Nat
  dir : Nat
deriving DecidableEq, Repr, Inhabited

/-- The decoded fields of a descriptor. -/
structure Dsc where
  useB : Bool
  rnd : Rnd
  sat : Bool
  ctype : Nat
  npipe : Nat
  a : Strm
  b : Strm
  d : Strm
  dirD : Nat
  cols : Nat
  rows : Nat
  s0 : Nat
  s1 : Nat
  ents : List Ent
deriving DecidableEq, Repr, Inhabited

/-- Word `i` of a descriptor (R110). -/
def word (d : Desc) (i : Nat) : Nat := d.w.getD i 0

/-- Chain entry `i`: two bytes at 0x30 + 2i. -/
def entRaw (d : Desc) (i : Nat) : Nat := word d (12 + i / 2) / 65536 ^ (i % 2) % 65536

def entOf (n : Nat) : Ent := ⟨bitsOf n 7 5, bitsOf n 4 0, bitsOf n 10 8, bitsOf n 13 11⟩

/-- Decode a descriptor (R110 to R112). -/
def dsc (d : Desc) : Dsc :=
  let c := word d 0
  let f := word d 1
  let st (i ty dir : Nat) : Strm := ⟨word d i % 2 ^ 25, signed 32 (word d (i + 1)), ty, dir⟩
  let np := min 8 (bitsOf c 3 0)
  { useB := bitAt c 11, rnd := Rnd.ofCode (bitsOf c 9 8), sat := bitAt c 7, ctype := bitsOf c 6 4, npipe := bitsOf c 3 0
    a := st 4 (bitsOf f 2 0) (bitsOf f 4 3), b := st 6 (bitsOf f 7 5) (bitsOf f 9 8), d := st 8 (bitsOf f 12 10) 0
    dirD := bitsOf f 14 13
    cols := word d 2 % 2 ^ 24 + 1, rows := word d 3 % 2 ^ 24 + 1, s0 := word d 10, s1 := word d 11
    ents := (List.range np).map fun i => entOf (entRaw d i) }

def tyOf (n : Nat) : Ty := (Ty.ofCode n).getD .i8

/-- RED ends the chain. -/
def Dsc.hasRed (d : Dsc) : Bool := d.ents.getLast?.any fun e => e.kind = 7

/-- The chain types in force: at entry and after each CVT. -/
def Dsc.types (d : Dsc) : List Ty :=
  (d.ents.foldl (fun (p : List Ty × Ty) e => let t := e.typeAfter p.2; (p.1 ++ [t], t)) ([tyOf d.ctype], tyOf d.ctype)).1

/-- Slice width C = 128 / zmax (R109). -/
def Dsc.c (d : Dsc) : Nat :=
  let zs := [(tyOf d.a.ty).size, (tyOf d.d.ty).size] ++ (if d.useB then [(tyOf d.b.ty).size] else []) ++ d.types.map Ty.size
  128 / zs.foldl max 1

/-- Latency of a pipe kind (R113). -/
def kindLat (k : Nat) : Nat := [2, 3, 4, 1, 1, 2, 3, 4].getD k 0

/-- Chain latency Λ (R114). -/
def Dsc.lat (d : Dsc) : Nat := (d.ents.map fun e => kindLat e.kind).foldl (· + ·) 0

/-- Address of element `x` of row `r` (R122). -/
def Strm.addr (t : Strm) (r x : Nat) : Int :=
  let z : Int := (tyOf t.ty).size
  let b : Int := t.base + r * t.ostride
  if t.dir = 0 then b + x * z else if t.dir = 1 then b - x * z else b

/-- Granule, counted in element order from element 0's, that holds element `x` of row `r`. -/
def Strm.gran (t : Strm) (r x : Nat) : Nat := ((t.addr r x) / 16 - (t.addr r 0) / 16).natAbs

/-- Distinct granules a row touches (R124's n_X). -/
def Strm.n (t : Strm) (r cols : Nat) : Nat := t.gran r (cols - 1) + 1

/-- Byte address of granule `g` of row `r`. -/
def Strm.granAddr (t : Strm) (r g : Nat) : Nat :=
  let g0 := (t.addr r 0) / 16
  ((if t.dir = 1 then g0 - g else g0 + g) * 16).toNat

/-- Granules per cycle q_X. -/
def Dsc.q (d : Dsc) (t : Strm) : Nat := max 1 (d.c * (tyOf t.ty).size / 16)

def Dsc.sources (d : Dsc) : List Strm := if d.useB then [d.a, d.b] else [d.a]

/-- Row cycles RC of row `r` (R125). -/
def Dsc.rc (d : Dsc) (r : Nat) : Nat :=
  let ss := if d.hasRed then d.sources else d.sources ++ [d.d]
  (ss.map fun t => cdiv (t.n r d.cols) (d.q t)).foldl max (cdiv d.cols d.c)

/-- v_j: the latest read cycle offset that slice `j` of row `r` needs (R127), and not before cycle j, as one slice enters per cycle (R109):
the two rules disagree for rows whose sources are all broadcast, whose v_j R127's words put at 0, and in a misaligned row with a short last
slice, which may enter with the slice before it. The model follows R109 in the first and R127 in the second (DESIGN CHOICE, log entry 56). -/
def Dsc.v (d : Dsc) (r j : Nat) : Nat :=
  let last := min ((j + 1) * d.c) d.cols - 1
  (d.sources.map fun t => t.gran r last / d.q t).foldl max j

/-- One bank access of a descriptor: cycle, granule byte address, write. -/
structure Acc1 where
  cycle : Nat
  addr : Nat
  write : Bool
deriving DecidableEq, Repr, Inhabited

/-- Slices per row. -/
def Dsc.slices (d : Dsc) : Nat := cdiv d.cols d.c

/-- The accesses of row `r`, which starts at cycle `c0` (R126 to R128 without RED). -/
def Dsc.rowAccs (d : Dsc) (r c0 : Nat) : List Acc1 :=
  let reads := d.sources.flatMap fun t =>
    (List.range (t.n r d.cols)).map fun g => (⟨c0 + g / d.q t, t.granAddr r g, false⟩ : Acc1)
  let z := (tyOf d.d.ty).size
  let writes := (List.range d.slices).flatMap fun j =>
    let lo := j * d.c * z / 16
    let hi := cdiv (min ((j + 1) * d.c) d.cols * z) 16
    (List.range (hi - lo)).map fun g => (⟨c0 + d.v r j + 6 + d.lat + 4, d.d.granAddr r (lo + g), true⟩ : Acc1)
  if d.hasRed then reads else reads ++ writes

/-- The first cycle of each row (R125). -/
def Dsc.rowStarts (d : Dsc) : List Nat :=
  ((List.range d.rows).foldl (fun (p : List Nat × Nat) r => (p.2 :: p.1, p.2 + d.rc r)) ([], 0)).1.reverse

/-- The writes of a RED destination (R128): each granule 4 cycles after the result that fills it. -/
def Dsc.redAccs (d : Dsc) (starts : List Nat) : List Acc1 :=
  let per := 16 / (tyOf d.d.ty).size
  let done (r : Nat) : Nat := starts.getD r 0 + d.v r (d.slices - 1) + 6 + d.lat
  (List.range (cdiv d.rows per)).map fun g =>
    ⟨done (min (per * (g + 1)) d.rows - 1) + 4, d.d.base + 16 * g, true⟩

/-- Every bank access of a descriptor, by cycle (R124 to R128). -/
def Dsc.accs (d : Dsc) : List Acc1 :=
  let starts := d.rowStarts
  let rows := (List.range d.rows).flatMap fun r => d.rowAccs r (starts.getD r 0)
  if d.hasRed then rows ++ d.redAccs starts else rows

/-- The step in which cycle `c` of a descriptor started at step `s` lies (R124). -/
def stepOf (s c : Nat) : Nat := s + 1 + c / 2

/-! ### Validity (R133): the lowest failing field's offset inside the descriptor -/

/-- An entry's operand code suits its pipe (R112). FN bits 4:3 of CVT, of which the table says nothing, must be 0 (DESIGN CHOICE, log entry
56). -/
def entOk (useB : Bool) (raw : Nat) : Bool :=
  let e := entOf raw
  let fnOk := match e.kind with
    | 0 => e.fn ≤ 4
    | 1 => e.fn = 0
    | 2 => e.fn ≤ 2
    | 3 => e.fn ≤ 2
    | 4 => e.fn ≤ 5
    | 5 => e.fn ≤ 4
    | 6 => e.fn = 0
    | _ => e.fn ≤ 2
  let yOk := if e.usesY then e.sely ≤ 4 && (useB || e.sely ≠ 1) else e.sely = 0
  let zOk := if e.usesZ then e.selz ≤ 4 && (useB || e.selz ≠ 1) else e.selz = 0
  bitsOf raw 15 14 = 0 && fnOk && yOk && zOk

/-- Chain entry `i` is wrong in its place: bad code, repeated kind, RED not last, SHF on floating point, or non-zero beyond NPIPE. -/
def badEnt (d : Desc) (x : Dsc) (i : Nat) : Bool :=
  let raw := entRaw d i
  if i ≥ x.npipe then raw ≠ 0
  else
    let e := entOf raw
    !entOk x.useB raw ||
    (x.ents.take i).any (fun p => p.kind = e.kind) ||
    (e.kind = 7 && i + 1 ≠ x.npipe) ||
    (e.kind = 3 && !(x.types.getD i .i8).isInt)

/-- A source stream's type suits the chain type: same class, no wider (R117). -/
def srcTypeOk (ty ctype : Nat) : Bool :=
  match Ty.ofCode ty, Ty.ofCode ctype with
  | some t, some c => t.isInt = c.isInt && t.size ≤ c.size
  | _, _ => false

/-- Every element address of a stream lies in the bank field (R122). -/
def Strm.inField (t : Strm) (rows cols : Nat) : Bool :=
  let z : Int := (tyOf t.ty).size
  [0, rows - 1].all fun r => [0, cols - 1].all fun x =>
    let a := t.addr r x
    0 ≤ a && a + z ≤ 0x2000000

/-- The offsets inside a descriptor of the fields that fail a rule of R133 other than expansion, in order. -/
def badFields (d : Desc) : List Nat :=
  let x := dsc d
  let c := word d 0
  let f := word d 1
  let za := (tyOf x.a.ty).size
  let zb := (tyOf x.b.ty).size
  let zd := (tyOf x.d.ty).size
  let lastTy := x.types.getLast?.getD .i8
  let tests : List (Nat × Bool) :=
    [(0x00, bitsOf c 31 12 ≠ 0 || bitAt c 10 || x.npipe > 8 || (Ty.ofCode x.ctype).isNone),
     (0x04, bitsOf f 31 15 ≠ 0 || x.dirD ≠ 0 || (Ty.ofCode x.a.ty).isNone || (Ty.ofCode x.d.ty).isNone ||
        x.a.dir = 3 || (if x.useB then (Ty.ofCode x.b.ty).isNone || x.b.dir = 3 || !srcTypeOk x.b.ty x.ctype
                        else x.b.ty ≠ 0 || x.b.dir ≠ 0) ||
        !srcTypeOk x.a.ty x.ctype || tyOf x.d.ty ≠ lastTy),
     (0x08, word d 2 ≥ 2 ^ 24 || x.cols * x.rows > 2 ^ 24 || (!x.hasRed && x.cols * zd % 16 ≠ 0)),
     (0x0C, word d 3 ≥ 2 ^ 24),
     (0x10, word d 4 ≥ 2 ^ 25 || x.a.base % za ≠ 0 || !x.a.inField x.rows x.cols),
     (0x14, x.a.ostride % za ≠ 0),
     (0x18, word d 6 ≥ 2 ^ 25 || (x.useB && (x.b.base % zb ≠ 0 || !x.b.inField x.rows x.cols))),
     (0x1C, x.useB && x.b.ostride % zb ≠ 0),
     (0x20, word d 8 ≥ 2 ^ 25 || x.d.base % 16 ≠ 0 ||
        (if x.hasRed then x.d.base + cdiv (x.rows * zd) 16 * 16 > 0x2000000 else !x.d.inField x.rows x.cols)),
     (0x24, x.d.ostride % 16 ≠ 0 || (x.hasRed && x.d.ostride ≠ 0))]
  (tests.filter (·.2)).map (·.1) ++ ((List.range 8).filter (badEnt d x)).map fun i => 0x30 + 2 * i

/-- The descriptor fails no rule of R133 other than expansion. -/
def descOk (d : Desc) : Bool := (badFields d).isEmpty

end Sys2Proof.Machine.Se
end

