-- ==== Sys2Proof/Machine/Loader.lean ====
section
/-! DEFINITION. The loader: reading an image (R79 to R105), expanding its actions to bank accesses (R92, R102, R124, R148), and
the checks of R78 in table order with the item each reports (R561). -/

namespace Sys2Proof.Machine.Load

/-- A failed check: code, item offset, resource and step (R561). -/
structure Fail where
  code : Nat
  ofs : Nat
  res : Nat := 0
  step : Nat := 0
deriving DecidableEq, Repr, Inhabited

/-- The failure a check reports: the item at the lowest image offset, then the lowest resource and step (R561). -/
def first (l : List Fail) : Option Fail :=
  l.foldl (fun b f =>
    match b with
    | none => some f
    | some g =>
      if f.ofs < g.ofs ∨ (f.ofs = g.ofs ∧ (f.res < g.res ∨ (f.res = g.res ∧ f.step < g.step))) then some f else some g) none

/-! ### Resources (R84, R96) -/

/-- The action kind a resource takes; 0 for none. -/
def resKind (r : Nat) : Nat :=
  if 0x100 ≤ r ∧ r ≤ 0x103 then 2
  else if r = 0x104 ∨ r = 0x105 then 3
  else if (0x180 ≤ r ∧ r ≤ 0x1C1) ∨ (0x1C4 ≤ r ∧ r ≤ 0x1C7) then 1
  else if 0x1D0 ≤ r ∧ r ≤ 0x1D3 then 4
  else if 0x1D4 ≤ r ∧ r ≤ 0x1D7 then 5
  else if r = 0x1D8 then 6
  else 0

/-- Phase-masked resources: every listed one but the matrix ports (R84, R85). -/
def phased (r : Nat) : Bool := r < 0x100 || resKind r ≠ 0

/-- Endpoints that move data towards the bank field (R84). -/
def inbound (r : Nat) : Bool :=
  (0x180 ≤ r && r ≤ 0x18F) || (0x1A8 ≤ r && r ≤ 0x1AF) || (0x1BC ≤ r && r ≤ 0x1BF) || r = 0x1C1

/-- Depth of an endpoint in steps (R96). -/
def depth (r : Nat) : Nat :=
  if 0x180 ≤ r ∧ r ≤ 0x1A7 then 1024
  else if 0x1A8 ≤ r ∧ r ≤ 0x1B7 then 4096
  else if 0x1B8 ≤ r ∧ r ≤ 0x1BF then 2048
  else if r = 0x1C0 ∨ r = 0x1C1 then 16384
  else 4096

/-! ### LPDDR5X timing (R148) -/

def ddrW (rate : Nat) : Nat := if rate = 0 then 3 else 2
def latRd (rate : Nat) : Nat := [56, 48, 46, 44].getD rate 56
def latWr (rate : Nat) : Nat := [44, 40, 40, 40].getD rate 44

/-! ### Reading an image -/

def u8 (img : List Byte) (o : Nat) : Nat := fieldAt img o 1
def u16 (img : List Byte) (o : Nat) : Nat := fieldAt img o 2
def u32 (img : List Byte) (o : Nat) : Nat := fieldAt img o 4
def u64 (img : List Byte) (o : Nat) : Nat := fieldAt img o 8

/-- An action word at offset `o` of resource `r`'s list (R88). -/
def actAt (img : List Byte) (r o : Nat) : Act :=
  let a0 := u32 img o
  ⟨r, bitsOf a0 17 0, bitsOf a0 23 20, bitsOf a0 31 24, u32 img (o + 4), u32 img (o + 8), u32 img (o + 12), o⟩

/-- A directory entry: its offset, resource, count and list offset (R87). -/
structure DirEnt where
  ofs : Nat
  res : Nat
  count : Nat
  list : Nat
deriving DecidableEq, Repr, Inhabited

def dirEnts (img : List Byte) : List DirEnt :=
  (List.range (u16 img 0x3C)).map fun i =>
    let o := u32 img 0x38 + 16 * i
    ⟨o, u16 img o, u32 img (o + 4), u32 img (o + 8)⟩

/-- Action words wholly inside the delivered bytes, of entries wholly inside them (R83). -/
def reachable (img : List Byte) : List Act :=
  ((dirEnts img).filter fun e => e.ofs + 16 ≤ img.length).flatMap fun e =>
    (List.range (min e.count ((img.length - e.list) / 16))).map fun i => actAt img e.res (e.list + 16 * i)

/-- The part an image carries, read as R81 to R101 lay it out. -/
def readPart (img : List Byte) : Part :=
  { bay := u8 img 6
    geom := ⟨u32 img 0x0C, u32 img 0x10, u32 img 0x14, u16 img 0x18, u8 img 0x1C⟩
    ppm := u16 img 0x1A
    partId := u64 img 0x20
    allotOfs := u32 img 0x30
    allot := (List.range (u16 img 0x34)).map fun i =>
      let o := u32 img 0x30 + 16 * i
      (u16 img o, u64 img (o + 8))
    acts := reachable img
    descs := (List.range (u16 img 0x44)).map fun i =>
      let o := u32 img 0x40 + 64 * i
      ⟨o, (List.range 16).map fun j => u32 img (o + 4 * j)⟩
    routes := (List.range (u16 img 0x4C)).map fun i =>
      let o := u32 img 0x48 + 16 * i
      ⟨o, u8 img o, u8 img (o + 1), bitAt (u8 img (o + 2)) 0, u32 img (o + 4)⟩
    carries := (List.range (u16 img 0x54)).map fun i =>
      let o := u32 img 0x50 + 16 * i
      ⟨o, u8 img o, bitAt (u8 img (o + 1)) 0, u32 img (o + 4) % 2 ^ 25, u32 img (o + 8), u32 img (o + 12) % 2 ^ 25⟩ }

/-- Steps of a measure at nominal frequency (M). -/
def Geom.m (g : Geom) : Nat := g.period * 500

/-- The pad D, as an integer. -/
def Geom.d (g : Geom) : Int := (Geom.m g : Int) - (g.turns + g.replay) * g.turnLen - g.tail

/-! ### Accesses (R92, R102, R124, R148) -/

/-- A bank access: its action word's offset and resource, its step, byte address and direction. -/
structure Acc where
  ofs : Nat
  res : Nat
  step : Nat
  addr : Nat
  write : Bool
deriving DecidableEq, Repr, Inhabited

/-- The descriptor a SE_START names, if it exists and is valid. -/
def descOf (p : Part) (a : Act) : Option Se.Dsc :=
  match p.descs[a.a1 % 65536]? with
  | some d => if Se.descOk d then some (Se.dsc d) else none
  | none => none

/-- Bank accesses of an action, as addressed. -/
def actAccs (rate : Nat) (p : Part) (a : Act) : List Acc :=
  match a.kind with
  | 1 => (List.range (a.arg0 % 16 + 1)).map fun i => ⟨a.ofs, a.res, a.step + i, a.a1 % 2 ^ 25 + 16 * i, inbound a.res⟩
  | 2 => match descOf p a with
    | some d => d.accs.map fun x => ⟨a.ofs, a.res, Se.stepOf a.step x.cycle, x.addr, x.write⟩
    | none => []
  | 3 => (List.range 4).map fun i =>
      if bitAt a.arg0 0 then ⟨a.ofs, a.res, a.step + i, a.a1 % 2 ^ 25 + 16 * i, false⟩
      else ⟨a.ofs, a.res, a.step + latRd rate + i, a.a1 % 2 ^ 25 + 16 * i, true⟩
  | _ => []

/-- The carry region that holds address `a`, with the offset inside it (an address in either copy; R102). -/
def carryHit (cs : List CarryDecl) (a : Nat) : Option (CarryDecl × Nat) :=
  cs.findSome? fun c =>
    if c.base ≤ a ∧ a < c.base + c.len then some (c, a - c.base)
    else if c.shadow ≤ a ∧ a < c.shadow + c.len then some (c, a - c.shadow)
    else none

/-- A part as it runs or will run, with those of its carry regions that exist already (R74, R104). -/
abbrev Mate := Part × List Carry

/-- A part that takes effect after a part with carry regions `old` keeps those that it inherits (R74). -/
def mateOf (p : Part) (old : List Carry) : Mate :=
  (p, old.filter fun k => p.carries.any fun c => c.inherit && c.id = k.id && c.len = k.len)

/-- Which copies may be current together (R102): all regions swap at the same turn ends, so those that exist already keep their parity
to each other, and fresh ones theirs; how the two groups stand to each other depends on fault history. -/
def variants (m : Mate) : List (Bool × Bool) :=
  if m.1.carries.isEmpty then [(true, true)] else [(true, true), (true, false), (false, true), (false, false)]

/-- In variant `v`, copy A of region `c` is current. -/
def curOf (ks : List Carry) (v : Bool × Bool) (c : CarryDecl) : Bool :=
  match ks.find? fun k => k.id = c.id && k.len = c.len with
  | some k => k.curA == v.2
  | none => v.1

/-- The address an access really uses in variant `v` (R63, R102). -/
def relocate (m : Mate) (v : Bool × Bool) (x : Acc) : Acc :=
  match carryHit m.1.carries x.addr with
  | some (c, o) => { x with addr := (if x.write = curOf m.2 v c then c.base else c.shadow) + o }
  | none => x

/-- All bank accesses of a part inside its turn, in variant `v`. An expanded access at step L or later belongs to STREAM_DESC_BAD alone
(R99). -/
def accsOf (rate : Nat) (m : Mate) (v : Bool × Bool) : List Acc :=
  ((m.1.acts.flatMap (actAccs rate m.1)).filter fun x => x.step < m.1.geom.turnLen).map (relocate m v)

/-- The accesses of a part in any variant. -/
def allAccs (rate : Nat) (m : Mate) : List Acc := (variants m).flatMap (accsOf rate m)

/-- The accesses of several parts together, for every way in which their copies may stand (R60, R102). -/
def mergedAccs (rate : Nat) : List Mate → List (List Acc)
  | [] => [[]]
  | m :: t => (variants m).flatMap fun v => (mergedAccs rate t).map (accsOf rate m v ++ ·)

/-- Steps an action occupies on its own resource (R92, R129, R148). -/
def occupies (rate : Nat) (p : Part) (a : Act) : Nat × Nat :=
  match a.kind with
  | 1 => (a.step, a.step + a.arg0 % 16)
  | 2 => (a.step, ((actAccs rate p a).map (·.step)).foldl max a.step)
  | 3 => (a.step, a.step + ddrW rate - 1)
  | _ => (a.step, a.step)

/-- Last step an action occupies anywhere (R91). -/
def lastStep (rate : Nat) (a : Act) : Nat :=
  match a.kind with
  | 1 => a.step + a.arg0 % 16
  | 3 => if bitAt a.arg0 0 then a.step + 3 else a.step + latRd rate + 3
  | _ => a.step

/-- The failure of an item of several fields at offset `ofs`, given the offset of each field in it with whether it fails: the item's own
offset where one field fails, that of the lowest failing field where more do (R561). -/
def itemFail (code ofs res : Nat) (fields : List (Nat × Bool)) : List Fail :=
  match (fields.filter (·.2)).map (·.1) with
  | [] => []
  | [_] => [⟨code, ofs, res, 0⟩]
  | o :: _ :: _ => [⟨code, ofs + o, res, 0⟩]

/-! ### Checks up to the signature -/

/-- BAD_VERSION (R83). -/
def checkVersion (img : List Byte) : Option Fail :=
  let v := if u16 img 4 ≠ 0x0100 then [⟨0x0102, 4, 0, 0⟩] else []
  first (v ++ ((reachable img).filter fun a => a.kind = 0 ∨ a.kind ≥ 7).map fun a => ⟨0x0102, a.ofs, a.res, a.step⟩)

/-- Sections in order: (offset of the header field, start, bytes), those with a count of 0 left out (R80). -/
def sections (img : List Byte) : List (Nat × Nat × Nat) :=
  ([(0x30, u32 img 0x30, 16 * u16 img 0x34), (0x38, u32 img 0x38, 16 * u16 img 0x3C), (0x40, u32 img 0x40, 64 * u16 img 0x44),
    (0x48, u32 img 0x48, 16 * u16 img 0x4C), (0x50, u32 img 0x50, 16 * u16 img 0x54)]).filter fun s => s.2.2 ≠ 0

/-- Failures of section order, alignment and extent up to the signature. -/
def sectionFails (sig : Nat) : Nat → List (Nat × Nat × Nat) → List Fail
  | _, [] => []
  | pos, (f, o, n) :: t =>
    (if o % 16 ≠ 0 ∨ o < pos ∨ o + n > sig then [⟨0x0103, f, 0, 0⟩] else []) ++ sectionFails sig (max pos (o + n)) t

/-- Where the action lists must end: the next section after the directory, or the signature. -/
def listsEnd (img : List Byte) : Nat :=
  (((sections img).filter fun s => s.1 > 0x38).map fun s => s.2.1).foldl min (u32 img 0x60)

/-- BAD_LENGTH (R80, R87, R91). -/
def checkLength (rate : Nat) (img : List Byte) : Option Fail :=
  let len := u32 img 8
  let l := u32 img 0x0C
  let f8 := if len ≠ img.length ∨ len % 16 ≠ 0 then [⟨0x0103, 8, 0, 0⟩] else []
  let sig := u32 img 0x60
  let f60 := if sig % 16 ≠ 0 ∨ sig + 96 ≠ len then [⟨0x0103, 0x60, 0, 0⟩] else []
  let dirEnd := u32 img 0x38 + 16 * u16 img 0x3C
  let fdir := ((dirEnts img).filter fun e => e.ofs + 16 ≤ img.length).flatMap fun e =>
    itemFail 0x0103 e.ofs e.res [(4, e.count = 0),
      (8, e.list % 16 ≠ 0 || e.list < dirEnd || e.list + 16 * e.count > min (listsEnd img) img.length)]
  let fstep := ((reachable img).filter fun a => a.step ≥ l ∨ lastStep rate a ≥ l).map fun a => (⟨0x0103, a.ofs, a.res, a.step⟩ : Fail)
  first (f8 ++ f60 ++ sectionFails sig 128 (sections img) ++ fdir ++ fstep)

/-- Geometry, period, measure and tail (R40, R52, R78). `slope` is the plumb slope limit in ps per s. -/
def checkGeom (p : Part) (slope : Nat) : Option Fail :=
  let g := p.geom
  let room := min g.tail (4095 - g.tail)
  if g.turnLen < 1024 ∨ g.turnLen > 262144 ∨ g.turnLen % 64 ≠ 0 then some ⟨0x0110, 0x0C, 0, 0⟩
  else if g.turns = 0 then some ⟨0x0110, 0x14, 0, 0⟩
  else if g.tail > 4095 then some ⟨0x0110, 0x18, 0, 0⟩
  else if p.ppm > 1000 then some ⟨0x0110, 0x1A, 0, 0⟩
  else if g.replay > 1 then some ⟨0x0110, 0x1C, 0, 0⟩
  else if g.period < 1000 ∨ g.period > 1000000 ∨ 1000000 % g.period ≠ 0 then some ⟨0x0111, 0x10, 0, 0⟩
  else if Geom.d g < 0 then some ⟨0x0112, 0x14, 0, 0⟩
  else if (p.ppm * 1000000 + slope) * Geom.m g > room * 1000000000000 then some ⟨0x0113, 0x18, 0, 0⟩
  else none

/-! ### Allotments (R56, R57, R86) -/

/-- The declared mask of a resource: duplicates are joined (R85). -/
def maskOf (p : Part) (r : Nat) : Nat := (p.allot.filter (·.1 = r)).foldl (fun m e => m ||| e.2) 0

/-- OUTSIDE_ALLOTMENT: declared bits outside the grant, then steps outside the declared masks (R86, R56, R102, R129). -/
def checkAllot (s : State) (rate bay : Nat) (m : Mate) : Option Fail :=
  let p := m.1
  let grant (r : Nat) : Nat := (sget (fun _ => (0 : BitVec 64)) (s.bayRec bay).phase r).toNat
  let f1 := (List.range p.allot.length).filterMap fun i =>
    match p.allot[i]? with
    | some (r, m) =>
      if (phased r || !(0x110 ≤ r && r ≤ 0x16F)) && (m &&& grant r) ≠ m then
        some (⟨0x0120, p.allotOfs + 16 * i, r, 0⟩ : Fail) else none
    | none => none
  let f2 := (p.acts.filter fun a => resKind a.res ≠ 0).flatMap fun a =>
    let (lo, hi0) := occupies rate p a
    let hi := min hi0 (p.geom.turnLen - 1)
    (List.range (hi + 1 - lo)).filterMap fun i =>
      if bitAt (maskOf p a.res) ((lo + i) % 64) then none else some (⟨0x0120, a.ofs, a.res, lo + i⟩ : Fail)
  let f3 := (allAccs rate m).filterMap fun x =>
    if bitAt (maskOf p (bankOf x.addr)) (x.step % 64) then none else some (⟨0x0120, x.ofs, bankOf x.addr, x.step⟩ : Fail)
  first (f1 ++ f2 ++ f3)

/-- ALLOTMENT_OVERLAP with the declared masks of other bays' parts (R57). -/
def checkOverlap (img0 : Nat) (p : Part) (others : List Mate) : Option Fail :=
  first ((List.range p.allot.length).filterMap fun i =>
    match p.allot[i]? with
    | some (r, m) =>
      if phased r && others.any fun q => (m &&& maskOf q.1 r) ≠ 0 then some (⟨0x0121, img0 + 16 * i, r, 0⟩ : Fail) else none
    | none => none)

/-! ### Conflicts (R58, R87, R90, R130, R149) -/

/-- Conflicts among bank accesses with the same bank and step: the later item by offset (R58, R561). -/
def bankConflicts (mine all : List Acc) : List Fail :=
  (List.range mine.length).filterMap fun i =>
    match mine[i]? with
    | some x =>
      let same (y : Acc) : Bool := y.step = x.step && bankOf y.addr = bankOf x.addr
      if (mine.take i).any (fun y => same y && y.ofs ≤ x.ofs) || (mine.drop (i + 1)).any (fun y => same y && y.ofs < x.ofs) ||
          all.any same then
        some ⟨0x0122, x.ofs, bankOf x.addr, x.step⟩
      else none
    | none => none

/-- DRAM banks a DDR_XFER can touch, over all ring positions (R93, R146). -/
def ringPos (a : Act) : Nat := max 1 (a.a3 / 65536)
def ddrAddr (a : Act) (i : Nat) : Nat := 64 * (a.a2 + i * (a.a3 % 65536))
def dramBanks (a : Act) : List Nat := (List.range (min 16 (ringPos a))).map fun i => (ddrAddr a i / 64) % 16

/-- Two actions on one resource that may not stand as they do: SE overlap against R130, DDR channel overlap and same-bank
spacing across turns (R148, R149). -/
def clash (rate l : Nat) (p q : Part) (a b : Act) : Bool :=
  a.res = b.res && a.kind = b.kind &&
  (match a.kind with
   | 2 =>
     let (x, y, px, py) := if a.step ≤ b.step then (a, b, p, q) else (b, a, q, p)
     let ax := actAccs rate px x
     let ay := actAccs rate py y
     let lastRead := ((ax.filter fun z => !z.write).map (·.step)).foldl max x.step
     let lastWrite := ((ax.filter fun z => z.write).map (·.step)).foldl max x.step
     let firstWrite := ((ay.filter fun z => z.write).map (·.step)).foldl min (2 ^ 30)
     y.step ≤ lastWrite && !(lastRead ≤ y.step && lastWrite < firstWrite)
   | 3 =>
     let gap := if a.step ≤ b.step then b.step - a.step else a.step - b.step
     gap < ddrW rate || ((dramBanks a).any (dramBanks b).contains && (gap < 30 || l - gap < 30))
   | _ =>
     let (la, ha) := occupies rate p a
     let (lb, hb) := occupies rate q b
     la ≤ hb && lb ≤ ha)

/-- RESOURCE_CONFLICT inside a part, and with the parts that run beside it (R58, R71). -/
def checkConflict (rate : Nat) (dirs : List DirEnt) (m : Mate) (others : List Mate) : Option Fail :=
  let p := m.1
  let l := p.geom.turnLen
  let f1 := (List.range dirs.length).filterMap fun i =>
    match dirs[i]? with
    | some e => if (dirs.take i).any (fun d => d.res = e.res) then some (⟨0x0122, e.ofs, e.res, 0⟩ : Fail) else none
    | none => none
  let f2 := (List.range p.acts.length).filterMap fun i =>
    match p.acts[i]?, p.acts[i + 1]? with
    | some a, some b =>
      if a.res = b.res && b.ofs = a.ofs + 16 && b.step ≤ a.step then some (⟨0x0122, b.ofs, b.res, b.step⟩ : Fail) else none
    | _, _ => none
  let f3 := (List.range p.routes.length).filterMap fun i =>
    match p.routes[i]? with
    | some e => if (p.routes.take i).any (fun d => d.dest = e.dest) then some (⟨0x0122, e.ofs, if e.dest < 48 then 0x110 + e.dest else 0, 0⟩ : Fail) else none
    | none => none
  let f4 := p.acts.filterMap fun a =>
    if p.acts.any (fun b => b.ofs < a.ofs && clash rate l p p b a) || others.any (fun q => q.1.acts.any fun b => clash rate l q.1 p b a)
    then some (⟨0x0122, a.ofs, a.res, a.step⟩ : Fail) else none
  let f5 := (variants m).flatMap fun v => bankConflicts (accsOf rate m v) (others.flatMap (allAccs rate))
  first (f1 ++ f2 ++ f3 ++ f4 ++ f5)

/-! ### Housekeeping and refresh (R60, R151) -/

/-- A run of 64 consecutive steps from `st` on, cyclic in the turn, in which the bank is accessed in every step. -/
def starved (l : Nat) (steps : List Nat) (st : Nat) : Bool := (List.range 64).all fun i => steps.contains ((st + i) % l)

/-- The lowest of a list of offsets; 0 of none. -/
def lowest (l : List Nat) : Nat := l.foldl (fun m x => if m = 0 then x else min m x) 0

/-- STARVES_HOUSEKEEPING over the merged parts, for every way in which their copies may stand (R60, R102, R561). -/
def checkHouse (rate : Nat) (m : Mate) (others : List Mate) : Option Fail :=
  let l := m.1.geom.turnLen
  let mine := allAccs rate m
  first ((mergedAccs rate (m :: others)).flatMap fun (all : List Acc) => (List.range 256).filterMap fun (b : Nat) =>
    let steps := (all.filter fun x => bankOf x.addr = b).map (·.step)
    if steps.length < 64 then none
    else
      ((List.range l).find? (starved l steps)).map fun st =>
        (⟨0x0123, lowest ((mine.filter fun x => bankOf x.addr = b).map (·.ofs)), b, st⟩ : Fail))

/-- The runs of free steps of a cycle of `len` steps in which each transfer of `busy` occupies (first step, steps), as (first step, steps),
in no order: what lies between the end of a transfer and the next start after it. -/
def freeRuns (len : Nat) (busy : List (Nat × Nat)) : List (Nat × Nat) :=
  busy.filterMap fun p =>
    let e := (p.1 + p.2) % len
    let n := busy.foldl (fun m q => min m ((q.1 + len - e) % len)) len
    let covered := busy.any fun q => (e + len - q.1 % len) % len < q.2
    if n = 0 || covered then none else some (e, n)

/-- The first and the last refresh slot that a run of free steps can hold, by their first steps: slots of 150 steps that do not overlap, the
first at the start of the run (R151; log entry 20). -/
def slotsOf (run : Nat × Nat) : Option (Nat × Nat) :=
  if run.2 < 150 then none else some (run.1, if run.2 < 300 then run.1 else run.1 + run.2 - 150)

/-- Refresh slots start at most 976 steps apart, round a cycle of `len` steps (R151). -/
def refreshOk (len : Nat) (busy : List (Nat × Nat)) : Bool :=
  let slots := (freeRuns len busy).filterMap slotsOf
  let dist (a b : Nat) : Nat := (b + 2 * len - a - 1) % len + 1
  busy.isEmpty || (!slots.isEmpty && slots.all fun x => slots.any fun y => dist x.2 y.1 ≤ 976)

/-- DDR_REFRESH_MISSING over the merged parts: turns follow each other, and the last is followed by pad and nominal tail
(R61, R151). The item is the part's lowest action word on the channel, and STEP is 0, since what fails is an interval and no step
(DESIGN CHOICE, log entry 35). -/
def checkRefresh (rate : Nat) (p : Part) (others : List Mate) : Option Fail :=
  let g := p.geom
  let idle := (Geom.d g).toNat + g.tail
  first ([0x104, 0x105].filterMap fun ch =>
    let xs := ((p :: others.map (·.1)).flatMap fun q => q.acts.filter fun a => a.res = ch && a.kind = 3)
    let busy := xs.map fun a => (a.step, ddrW rate)
    if xs.isEmpty then none
    else if refreshOk (g.turnLen + idle) busy && (g.turns + g.replay < 2 || refreshOk g.turnLen busy) then none
    else
      some ⟨0x0124, lowest ((p.acts.filter fun a => a.res = ch && a.kind = 3).map (·.ofs)), ch, 0⟩)

/-! ### Quotas and ownership (R59, R94, R100, R108, R147) -/

/-- Bytes that bay `b`'s figure may reach in the bank field. -/
def bkfAllowed (s : State) (b a n : Nat) (write : Bool) : Bool := s.granted b (.bkf a) n write

/-- Action words and descriptors in the stores beside bay `bay`'s own: of each other bay those of the largest part that runs, is committed,
staged or parked (R108; DESIGN CHOICE, log entry 35). -/
def storesBeside (s : State) (bay : Nat) : Nat × Nat :=
  ((List.range 8).filter (· ≠ bay)).foldl (fun n b =>
    let ps := (vget s.fig.running b).toList ++ (vget s.fig.staged b).toList ++ ((s.fig.commits.filter (·.1 = b)).map (·.2.2)) ++
      ((s.bayRec b).parked.map (·.1)).toList
    (n.1 + ps.foldl (fun k p => max k p.acts.length) 0, n.2 + ps.foldl (fun k p => max k p.descs.length) 0)) (0, 0)

/-- ADDRESS_OUTSIDE_QUOTA (R59, R94, R108). What the stores hold in all binds beside the quotas. -/
def checkQuota (s : State) (rate bay : Nat) (m : Mate) : Option Fail :=
  let p := m.1
  let (words, descs) := storesBeside s bay
  let fq := (if p.acts.length > 64 * s.get (Fd.FGE_ACT_QUOTA bay) || words + p.acts.length > 262144 then [(⟨0x0125, 0x38, 0, 0⟩ : Fail)] else []) ++
    (if p.descs.length > s.get (Fd.FGE_DESC_QUOTA bay) || descs + p.descs.length > 4096 then [⟨0x0125, 0x40, 0, 0⟩] else [])
  let fm := p.acts.filterMap fun a =>
    if (a.kind = 1 && a.a1 % 16 ≠ 0) || (a.kind = 3 && a.a1 % 64 ≠ 0) then some (⟨0x0125, a.ofs, a.res, a.step⟩ : Fail) else none
  let fa := (allAccs rate m).filterMap fun x =>
    if bkfAllowed s bay (x.addr / 16 * 16) 16 x.write then none else some (⟨0x0125, x.ofs, x.res, x.step⟩ : Fail)
  let fd := (p.acts.filter fun a => a.kind = 3).filterMap fun a =>
    if (List.range (ringPos a)).all fun i =>
      let d := ddrAddr a i
      s.ddrOk d && s.ddrOk (d + 63) && s.granted bay (.ddr d) 64 (bitAt a.arg0 0)
    then none else some (⟨0x0125, a.ofs, a.res, a.step⟩ : Fail)
  let fc := p.carries.flatMap fun c =>
    itemFail 0x0125 c.ofs 0 [(4, !bkfAllowed s bay c.base c.len true), (12, !bkfAllowed s bay c.shadow c.len true)]
  first (fq ++ fm ++ fa ++ fd ++ fc)

/-- ENDPOINT_NOT_OWNED (R84, R100, R147, R191, R423). -/
def checkOwned (s : State) (bay : Nat) (p : Part) : Option Fail :=
  let r := s.bayRec bay
  let fa := p.acts.filterMap fun a =>
    let bad := resKind a.res ≠ a.kind ||
      (a.kind = 3 && (List.range (ringPos a)).any fun i => ddrAddr a i / s.ddrChan ≠ a.res - 0x104) ||
      (a.kind = 5 &&
        let g := vget r.net (a.res - 0x1D4)
        let t := a.a1 % 256
        !(g.trdpFirst ≤ t && t < g.trdpFirst + g.trdpCount)) ||
      (a.kind = 4 && (List.range 8).any fun c => bitAt a.arg0 c && !(vget r.net (a.res - 0x1D0)).queues.getLsbD c)
    if bad then some (⟨0x0126, a.ofs, a.res, a.step⟩ : Fail) else none
  let fr := p.routes.flatMap fun e =>
    let badDest := !(e.dest < 48 && s.destOwner e.dest = bay)
    let res := if badDest then (if e.dest < 48 then 0x110 + e.dest else 0) else if e.source < 48 then 0x140 + e.source else 0
    itemFail 0x0126 e.ofs res [(0, badDest), (1, !(e.source = 0xFF || (e.source < 48 && s.maySource bay e.source)))]
  first (fa ++ fr)

/-! ### Idempotence, carries, deadlines, descriptors (R62, R63, R66, R133) -/

/-- Two DDR_XFERs of one turn can meet at one LPDDR5X address (R62, R93). -/
def ddrMeet (a b : Act) : Bool :=
  let g := Nat.gcd (ringPos a) (ringPos b)
  (List.range (ringPos a)).any fun i => (List.range (ringPos b)).any fun j => i % g = j % g && ddrAddr a i = ddrAddr b j

/-- NOT_IDEMPOTENT: a write of what an earlier or the same step of the turn read, outside carry regions (R62). -/
def checkIdem (rate : Nat) (p : Part) : Option Fail :=
  let accs := (p.acts.flatMap (actAccs rate p)).filter fun x => (carryHit p.carries x.addr).isNone
  let f1 := accs.filterMap fun w =>
    if w.write && accs.any (fun r => !r.write && r.addr / 16 = w.addr / 16 && r.step ≤ w.step) then
      some (⟨0x0130, w.ofs, w.res, w.step⟩ : Fail) else none
  let xs := p.acts.filter fun a => a.kind = 3
  let f2 := xs.filterMap fun w =>
    if bitAt w.arg0 0 && xs.any (fun r => !bitAt r.arg0 0 && r.step ≤ w.step && ddrMeet r w) then
      some (⟨0x0130, w.ofs, w.res, w.step⟩ : Fail) else none
  first (f1 ++ f2)

def overlaps (a n b m : Nat) : Bool := a < b + m && b < a + n

/-- CARRY_BAD (R63, R101, R104). `now` is the carry state of the bay's running part. -/
def checkCarry (img : List Byte) (p : Part) (now : List Carry) : Option Fail :=
  let f0 := if u16 img 0x54 > 16 then [(⟨0x0131, 0x54, 0, 0⟩ : Fail)] else []
  let f1 := (List.range p.carries.length).flatMap fun i =>
    match p.carries[i]? with
    | none => []
    | some c =>
      let prev := p.carries.take i
      let hits (a : Nat) : Bool := prev.any fun d => overlaps a c.len d.base d.len || overlaps a c.len d.shadow d.len
      let inh := if c.inherit then now.find? fun k => k.id = c.id && k.len = c.len else none
      itemFail 0x0131 c.ofs 0
        [(0, prev.any fun d => d.id = c.id),
         (4, c.base % 16 ≠ 0 || hits c.base || inh.any fun k => k.base ≠ c.base),
         (8, c.len < 16 || c.len > 1048576 || c.len % 16 ≠ 0),
         (12, c.shadow % 16 ≠ 0 || hits c.shadow || overlaps c.shadow c.len c.base c.len || inh.any fun k => k.shadow ≠ c.shadow)]
  first (f0 ++ f1)

/-- Longest tail: T plus the R52 allowance, rounded up (R97). -/
def longTail (p : Part) (slope : Nat) : Nat := p.geom.tail + cdiv ((p.ppm * 1000000 + slope) * Geom.m p.geom) 1000000000000

/-- IO_DEADLINE: the longest gap between service actions of an endpoint, plus L with a replay slot, exceeds its depth
(R66, R97). The item is the action that ends the gap. The L that R66 adds is the spare slot: it counts once, in the gap at the measure's
end too (DESIGN CHOICE, log entry 35). -/
def checkDeadline (p : Part) (slope : Nat) : Option Fail :=
  let l := p.geom.turnLen
  let extra := if p.geom.replay = 1 then l else 0
  let moves := p.acts.filter fun a => a.kind = 1
  first (moves.filterMap fun a =>
    let same := (moves.filter fun b => b.res = a.res).map (·.step)
    let before := same.filter (· < a.step)
    let gap :=
      if before.isEmpty then
        let last := same.foldl max 0
        (l - last) + (Geom.d p.geom).toNat + longTail p slope + a.step
      else a.step - before.foldl max 0
    if gap + extra > depth a.res then some (⟨0x0140, a.ofs, a.res, a.step⟩ : Fail) else none)

/-- STREAM_DESC_BAD (R99, R133). An index that is not below DESC_CNT (R89) gets this code too, at its action word (DESIGN CHOICE, log
entry 35). -/
def checkDescs (rate : Nat) (p : Part) : Option Fail :=
  let f1 := p.descs.flatMap fun d => itemFail 0x0150 d.ofs 0 ((Se.badFields d).map fun o => (o, true))
  let f2 := (p.acts.filter fun a => a.kind = 2).filterMap fun a =>
    if a.a1 % 65536 ≥ p.descs.length then some (⟨0x0150, a.ofs, a.res, a.step⟩ : Fail)
    else
      match (actAccs rate p a).find? fun x => x.step ≥ p.geom.turnLen with
      | some x => some ⟨0x0150, a.ofs, a.res, x.step⟩
      | none => none
  first (f1 ++ f2)

/-! ### All checks -/

/-- What the loader needs to know of the signature check: it holds (R105, R106). -/
structure SigEnv where
  keyReady : Bool
  verifies : Bool

/-- The first of several checks that fails. -/
def orElseAll : List (Unit → Option Fail) → Option Fail
  | [] => none
  | f :: fs => match f () with
    | some x => some x
    | none => orElseAll fs

/-- The loader's checks at staging, in table order after the two of R80 (R78, R69). `others` are the other bays' running
parts. MERGE_GEOMETRY_MISMATCH is judged at the commit, since R75 lets a geometry change be staged; a signature that does not verify
reports the offset in SIG_OFS (DEDUCED and DESIGN CHOICE, log entry 35). -/
def checks (s : State) (bay : Nat) (img : List Byte) (env : SigEnv) (others : List Mate) : Option Fail :=
  if img.length < 4 ∨ img.take 4 ≠ [0x46, 0x49, 0x47, 0x44] then some ⟨0x0101, 0, 0, 0⟩
  else if img.length < 128 then some ⟨0x0103, 0, 0, 0⟩
  else
    let rate := s.get Fd.DDR_CFG_RATE
    let slope := s.get Fd.PLB_SLOPE_SLOPE_PS
    let p := readPart img
    let m := mateOf p (vget s.fig.carry bay)
    orElseAll
      [fun _ => checkVersion img,
       fun _ => checkLength rate img,
       fun _ => if env.keyReady then none else some ⟨0x0104, 0, 0, 0⟩,
       fun _ => if p.bay ≠ bay then some ⟨0x0105, 6, 0, 0⟩
                else if u8 img 0x64 ≠ 2 then some ⟨0x0105, 0x64, 0, 0⟩
                else if env.verifies then none else some ⟨0x0105, u32 img 0x60, 0, 0⟩,
       fun _ => checkGeom p slope,
       fun _ => checkAllot s rate bay m,
       fun _ => checkOverlap (u32 img 0x30) p others,
       fun _ => checkConflict rate (dirEnts img) m others,
       fun _ => checkHouse rate m others,
       fun _ => checkRefresh rate p others,
       fun _ => checkQuota s rate bay m,
       fun _ => checkOwned s bay p,
       fun _ => checkIdem rate p,
       fun _ => checkCarry img p (vget s.fig.carry bay),
       fun _ => checkDeadline p slope,
       fun _ => checkDescs rate p,
       fun _ => if (vget s.fig.staged bay).isSome then some ⟨0x0160, 0, 0, 0⟩ else none]

/-- MERGE_GEOMETRY_MISMATCH of geometry `g` with another: the first header field in which they differ (R75, R561). -/
def geomFail (g h : Geom) : Option Fail :=
  if g.turnLen ≠ h.turnLen then some ⟨0x0114, 0x0C, 0, 0⟩
  else if g.period ≠ h.period then some ⟨0x0114, 0x10, 0, 0⟩
  else if g.turns ≠ h.turns then some ⟨0x0114, 0x14, 0, 0⟩
  else if g.tail ≠ h.tail then some ⟨0x0114, 0x18, 0, 0⟩
  else if g.replay ≠ h.replay then some ⟨0x0114, 0x1C, 0, 0⟩
  else none

/-- The checks of bay `bay`'s grant alone, with the grants and shares of `s` (R56, R59, R191). -/
def grantChecks (s : State) (bay : Nat) (m : Mate) : Option Fail :=
  let rate := s.get Fd.DDR_CFG_RATE
  orElseAll [fun _ => checkAllot s rate bay m, fun _ => checkQuota s rate bay m, fun _ => checkOwned s bay m.1]

/-- The cross-bay checks of a commit for bay `bay` against the parts that will run beside it (R71), and those of the bay's grant, in table
order: `s` holds the grants and shares of the measure of the commit, outside which no part runs (R191, R211; DESIGN CHOICE, log entry 55). -/
def commitChecks (s : State) (bay : Nat) (m : Mate) (others : List Mate) : Option Fail :=
  let rate := s.get Fd.DDR_CFG_RATE
  orElseAll
    [fun _ => first (others.filterMap fun q => geomFail m.1.geom q.1.geom),
     fun _ => checkAllot s rate bay m,
     fun _ => checkOverlap m.1.allotOfs m.1 others,
     fun _ => checkConflict rate [] m others,
     fun _ => checkHouse rate m others,
     fun _ => checkRefresh rate m.1 others,
     fun _ => checkQuota s rate bay m,
     fun _ => checkOwned s bay m.1]

end Sys2Proof.Machine.Load
end

