-- ==== Sys2Proof/Machine/Figure.lean ====
section
/-! DEFINITION. The figure engine at work (02, 03, 04, 21): actions of a turn, the work they leave for later steps, turn ends,
replay, held release and forced swaps. -/

namespace Sys2Proof.Machine

def State.modFig (s : State) (f : Fig → Fig) : State := { s with fig := f s.fig }

/-- The part bay `b` runs. -/
def State.part (s : State) (b : Nat) : Option Part := vget s.fig.running b

/-- Bays with a running part. -/
def State.runningBays (s : State) : List Nat := (List.range 8).filter fun b => (s.part b).isSome

/-- The step at which the present slot began (R40). -/
def State.slotStart (s : State) (g : Geom) : Nat := s.fig.boundary + s.fig.slot * g.turnLen

/-- The step after the present slot's last one. -/
def State.slotEnd (s : State) (g : Geom) : Nat := s.slotStart g + g.turnLen

/-- A turn is in progress. -/
def State.inTurn (s : State) : Bool := s.fig.geom.isSome && !s.fig.resting && !s.fig.stopped

/-- Turn index of the turn in progress (R93). -/
def State.turnIndex (s : State) (g : Geom) : Nat := s.fig.measure * g.turns + s.fig.turn

/-- The word of bay `b` at image offset `o` has an uncorrectable error (R485). -/
def State.badWord (s : State) (b o : Nat) : Bool := s.fig.badWords.contains (b, o)

/-- Put an action with its bay into a list sorted by resource and STEP, after its equals. -/
def insertAct (x : Nat × Act) : List (Nat × Act) → List (Nat × Act)
  | [] => [x]
  | y :: t => if x.2.res < y.2.res || (x.2.res = y.2.res && x.2.step < y.2.step) then x :: y :: t else y :: insertAct x t

/-- Put a bay's action into a list in STEP order, after its equals. -/
def insertStep (x : Nat × Act) : List (Nat × Act) → List (Nat × Act)
  | [] => [x]
  | y :: t => if x.2.step < y.2.step then x :: y :: t else y :: insertStep x t

/-- The merged action list of resource `r`: the lists of the running parts joined in STEP order, each action with its bay (R107). -/
def State.resList (s : State) (r : Nat) : List (Nat × Act) :=
  s.runningBays.foldl (fun l b => match s.part b with
    | some p => (p.acts.filter (·.res = r)).foldl (fun l a => insertStep (b, a) l) l
    | none => l) []

/-- The action of bay `b` on resource `r` at step `n` of the turn, if it stands at the present step (R40, R53, R65). -/
def State.dueAct (s : State) (b r n kind : Nat) : Option Act :=
  match s.fig.geom with
  | some g =>
    let anchored := kind = 4 || kind = 5
    if s.inTurn && s.clk.now = s.slotStart g + n && (!anchored || s.fig.slot < g.turns) then
      ((s.resList r).find? fun x => x.1 = b && x.2.step = n && x.2.kind = kind).map (·.2)
    else none
  | none => none

/-! ### Turn faults (R485, R486) -/

/-- A detector faults the turn in progress: it faults once (R486), counted and summarised. -/
def State.faultTurn (s : State) : State :=
  if s.fig.faulted || !s.inTurn then s
  else
    let s1 := (s.modFig fun f => { f with faulted := true, stuck := f.stuck + 1 }).bump Fd.FGE_FAULT_TURN_FAULTS
    let s2 := (s1.bump Fd.FGE_FAULT_CONSEC).flag Fd.SYS_FLTSUM_TURN
    (s2.each (0 :: s2.runningBays.filter (· ≠ 0)) fun s b => s.countBay b 0).xtrSource 2 none

/-! ### Bank accesses of the figure (R63, R102, R103, R137) -/

/-- The carry region of bay `b` that holds address `a`, and the offset inside it. -/
def State.carryAt (s : State) (b a : Nat) : Option (Carry × Nat) :=
  (vget s.fig.carry b).findSome? fun c =>
    if c.base ≤ a ∧ a < c.base + c.len then some (c, a - c.base)
    else if c.shadow ≤ a ∧ a < c.shadow + c.len then some (c, a - c.shadow)
    else none

/-- A figure read for bay `b`; an uncorrectable granule faults the turn. A fresh previous copy is read and checked like any other, and
zero is returned (R103, R137). -/
def State.figGet (s : State) (b a : Nat) : Granule × State :=
  match s.carryAt b a with
  | some (c, o) =>
    let (g, s1) := s.figRead ((if c.curA then c.shadow else c.base) + o)
    (if c.fresh then {} else g, if g.poison then s1.faultTurn else s1)
  | none =>
    let (g, s1) := s.figRead a
    (g, if g.poison then s1.faultTurn else s1)

/-- A figure write for bay `b`. -/
def State.figPut (s : State) (b a : Nat) (g : Granule) : State :=
  match s.carryAt b a with
  | some (c, o) => s.figWrite ((if c.curA then c.base else c.shadow) + o) g
  | none => s.figWrite a g

/-- The carry copies swap at the end of a good turn (R63). -/
def State.swapCarry (s : State) : State :=
  s.modFig fun f => { f with carry := f.carry.map fun l => l.map fun c => { c with curA := !c.curA, fresh := false } }

/-! ### Endpoints in a turn (R92, R98, R487, R488) -/

/-- MAC receive DMA of a port has record streams and a journal for each bay (R421): their endpoint record stands beside those
of the resources. -/
def inKey (b ep : Nat) : Nat := if 0x1BC ≤ ep && ep ≤ 0x1BF then 0x1000 * (b + 1) + ep else ep

/-- The granule that an inbound MOVE finds: in the endpoint's FIFO, or in a MAC's stores and records. -/
def State.takeIn (s : State) (b ep a : Nat) : Option Granule × State :=
  if 0x1BC ≤ ep && ep ≤ 0x1BF then s.macTake b (ep - 0x1BC) a
  else match (s.endp ep).fifo with
    | [] => (none, s)
    | g :: t => (some g, s.modEnd ep fun e => { e with fifo := t })

/-- One granule of an inbound MOVE: from its source into the journal and the bank, or in a replay from the journal. -/
def State.moveIn (s : State) (b ep a : Nat) : State :=
  let k := inKey b ep
  let e := s.endp k
  if s.fig.replaying then
    match e.journal[e.jpos]? with
    | some g => (s.modEnd k fun e => { e with jpos := e.jpos + 1 }).figPut b a g
    | none => s.modEnd k fun e => { e with underrun := true }
  else
    match s.takeIn b ep a with
    | (none, s0) => s0.modEnd k fun e => { e with underrun := true }
    | (some g, s0) =>
      let room := e.journal.length < endSize ep
      let s1 := s0.modEnd k fun e => { e with journal := if room then e.journal ++ [g] else e.journal }
      let s2 := if room || s1.fig.unjournalled then s1
        else (((s1.modFig fun f => { f with unjournalled := true }).bump Fd.FGE_REPLAY_UNJOURNALLED).each
          (0 :: s1.runningBays.filter (· ≠ 0)) fun s b => s.countBay b 3)
      s2.figPut b a g

/-- Hold a granule of the turn `u` at an outbound endpoint until its release. -/
def holdAt (u : Nat) (g : Granule) : List (Nat × List Granule) → List (Nat × List Granule)
  | [] => [(u, [g])]
  | (v, l) :: t => if v = u then (v, l ++ [g]) :: t else (v, l) :: holdAt u g t

/-- One granule of an outbound MOVE: read in its step, it enters its endpoint at the start of the step but one after (R54, R92). -/
def State.moveOut (s : State) (b ep a : Nat) : State :=
  let (g, s1) := s.figGet b a
  match s.fig.geom with
  | some q => s1.modFig fun f => { f with jobs := f.jobs ++ [(s.clk.now + 2, .arrive ep (s.turnIndex q) { g with tag := b * 2 ^ 25 + a })] }
  | none => s1

/-- One granule of a MOVE in its step. -/
def State.moveOne (s : State) (b ep a : Nat) : State := if Load.inbound ep then s.moveIn b ep a else s.moveOut b ep a

/-! ### Work left for later steps -/

def State.addJobs (s : State) (l : List (Nat × Job)) : State := s.modFig fun f => { f with jobs := f.jobs ++ l }

/-- The bank and memory work of a stream descriptor that starts at step `n` (R124 to R128). -/
def seJobs (d : Se.Dsc) (run n : Nat) : List (Nat × Job) :=
  let starts := d.rowStarts
  let src := d.sources.zip (List.range d.sources.length)
  let reads := (List.range d.rows).flatMap fun r => src.flatMap fun (t, i) =>
    (List.range (t.n r d.cols)).map fun g =>
      (Se.stepOf n (starts.getD r 0 + g / d.q t), Job.seRead run i r g (t.granAddr r g))
  let z := (Se.tyOf d.d.ty).size
  let writes :=
    if d.hasRed then
      (d.redAccs starts).zip (List.range (d.redAccs starts).length) |>.map fun (x, g) =>
        (Se.stepOf n x.cycle, Job.seWrite run 0 g x.addr)
    else (List.range d.rows).flatMap fun r => (List.range d.slices).flatMap fun j =>
      let lo := j * d.c * z / 16
      let hi := cdiv (min ((j + 1) * d.c) d.cols * z) 16
      (List.range (hi - lo)).map fun g =>
        (Se.stepOf n (starts.getD r 0 + d.v r j + 6 + d.lat + 4), Job.seWrite run r (lo + g) (d.d.granAddr r (lo + g)))
  let last := writes.foldl (fun m x => max m x.1) n
  reads ++ writes ++ [(last, Job.seDone run)]

/-- The last read and last write of a list of jobs. -/
def lastSteps (n : Nat) (l : List (Nat × Job)) : Nat × Nat :=
  l.foldl (fun p x => match x.2 with
    | .seRead .. => (max p.1 x.1, p.2)
    | _ => (p.1, max p.2 x.1)) (n, n)

/-- A granule fetched for a descriptor. -/
def SeRun.fetched (r : SeRun) (i row g : Nat) : Granule :=
  ((r.got.find? fun p => p.1 = i && p.2.1 = row && p.2.2.1 = g).map (·.2.2.2)).getD {}

/-- Element `x` of row `row` of source stream `i`, in its own type, and whether its granule is poisoned. -/
def SeRun.elem (r : SeRun) (t : Se.Strm) (i row x : Nat) : Nat × Bool :=
  let g := r.fetched i row (t.gran row x)
  let z := (Se.tyOf t.ty).size
  (fieldAt g.bytes (t.addr row x % 16).toNat z, g.poison)

/-- The LUT table an engine holds for a bay (R116). -/
def State.lutOf (s : State) (engine bay i : Nat) : Word := sget (fun _ => (0 : Word)) s.fig.lut ((engine * 8 + bay) * 256 + i)

/-- Element `x` of row `row` after the chain: value, flags, poison. -/
def State.seElem (s : State) (r : SeRun) (row x : Nat) : Nat × Se.Flags × Bool :=
  let d := Se.dsc r.desc
  let ct := Se.tyOf d.ctype
  let (a, pa) := r.elem d.a 0 row x
  let (b, pb) := if d.useB then r.elem d.b 1 row x else (0, false)
  let a' := Se.widen (Se.tyOf d.a.ty) ct a
  let b' := if d.useB then Se.widen (Se.tyOf d.b.ty) ct b else 0
  let (v, _, f) := Se.chain d.sat d.rnd (s.lutOf r.engine r.bay) ⟨ct, a', b', d.s0, d.s1⟩ d.ents ct a' {}
  (v, f, pa || pb)

/-- The result of row `row` of a descriptor that ends in RED (R120). -/
def State.seRow (s : State) (r : SeRun) (row : Nat) : Nat × Se.Flags × Bool :=
  let d := Se.dsc r.desc
  let xs := (List.range d.cols).map (s.seElem r row)
  let t := d.types.getLast?.getD .i8
  let fn := (d.ents.getLast?.map (·.fn)).getD 0
  let (v, f) := Se.red d.sat d.rnd t fn d.c (xs.map (·.1))
  (v, xs.foldl (fun f x => f.or x.2.1) f, xs.any (·.2.2))

/-- Raise SAT, INV, OVF and UNF for the bay that owns the descriptor (R121). -/
def State.seFlags (s : State) (engine bay : Nat) (f : Se.Flags) : State :=
  (((s.when f.sat fun s => s.flag (Fd.SE_FLAGS_SAT engine bay)).when f.inv fun s => s.flag (Fd.SE_FLAGS_INV engine bay)).when
    f.ovf fun s => s.flag (Fd.SE_FLAGS_OVF engine bay)).when f.unf fun s => s.flag (Fd.SE_FLAGS_UNF engine bay)

/-- Write granule `g` of row `row` of D: the elements it holds, poisoned if any source granule of theirs is (R137). -/
def State.seWrite (s : State) (r : SeRun) (row g a : Nat) : State :=
  let d := Se.dsc r.desc
  let z := (Se.tyOf d.d.ty).size
  let per := 16 / z
  let vals := if d.hasRed
    then ((List.range per).map fun i => g * per + i).filter (· < d.rows) |>.map (s.seRow r)
    else ((List.range per).map fun i => g * per + i).filter (· < d.cols) |>.map (s.seElem r row)
  let data := leNat (fixLen 0 16 (vals.flatMap fun v => natLe z v.1))
  let s1 := s.seFlags r.engine r.bay (vals.foldl (fun f v => f.or v.2.1) {})
  s1.figPut r.bay a { data := BitVec.ofNat 128 data, poison := vals.any (·.2.2) }

/-- One 16-byte piece of LPDDR5X as a DDR_XFER reads it, word by word (R154). -/
def State.ddrPiece (s : State) (a : Nat) : Granule × State :=
  let (ok1, s1) := s.checkWord (a / 8)
  let (ok2, s2) := s1.checkWord (a / 8 + 1)
  let g : Granule := { data := BitVec.ofNat 128 (leNat (readBytes zeroByte s.ddr a 16)), poison := !(ok1 && ok2) }
  (g, if g.poison then s2.faultTurn else s2)

/-- One 16-byte piece written to LPDDR5X with fresh check data, or the poison mark (R137, R154). -/
def State.ddrStore (s : State) (a : Nat) (g : Granule) : State :=
  let e := if g.poison then Ecc.poison else Ecc.clean
  (({ s with ddr := writeBytes zeroByte g.bytes a s.ddr }).setDdrEcc (a / 8) e).setDdrEcc (a / 8 + 1) e
    |>.breakResv none (Place.key (.ddr a)) 16

/-- Do one job in its step. -/
def State.doJob (s : State) (j : Job) : State :=
  match j with
  | .moveIn b ep a => s.moveIn b ep a
  | .moveOut b ep a => s.moveOut b ep a
  | .arrive ep u g => s.modEnd ep fun e => { e with held := holdAt u g e.held }
  | .fromBank b a dest =>
    let (g, s1) := s.figGet b a
    s1.addJobs [(s.clk.now + Load.latWr (s.get Fd.DDR_CFG_RATE), .toDdr dest g)]
  | .toDdr dest g => s.ddrStore dest g
  | .fromDdr b a src =>
    let (v, s1) := s.ddrPiece src
    s1.addJobs [(s.clk.now + Load.latRd (s.get Fd.DDR_CFG_RATE), .toBank b a v)]
  | .toBank b a g => s.figPut b a g
  | .seRead run i row g a =>
    match s.fig.runs.find? (·.id = run) with
    | some r =>
      let (v, s1) := s.figGet r.bay a
      s1.modFig fun f => { f with runs := f.runs.map fun q => if q.id = run then { q with got := (i, row, g, v) :: q.got } else q }
    | none => s
  | .seWrite run row g a =>
    match s.fig.runs.find? (·.id = run) with
    | some r => s.seWrite r row g a
    | none => s
  | .seDone run =>
    match s.fig.runs.find? (·.id = run) with
    | some r => (s.bumpWrap (Fd.SE_DONE_COUNT r.engine r.bay)).modFig fun f => { f with runs := f.runs.filter (·.id ≠ run) }
    | none => s

/-- Do the work that falls in the present step. -/
def State.doJobs (s : State) : State :=
  let due := s.fig.jobs.filter (·.1 ≤ s.clk.now)
  if due.isEmpty then s
  else (s.modFig fun f => { f with jobs := f.jobs.filter (·.1 > s.clk.now) }).each due fun s j => s.doJob j.2

/-! ### The actions -/

/-- An action whose own word is uncorrectable faults the turn and is not made (R485). -/
def State.storeFault (s : State) : State := (s.bump Fd.FGE_FAULT_STORE_UE).faultTurn

/-- MOVE (R92): its first granule now, the others one a step. -/
def State.moveAct (s : State) (b : Nat) (a : Act) : State :=
  if s.badWord b a.ofs then s.storeFault
  else
    let job (i : Nat) : Nat × Job := (s.clk.now + i, if Load.inbound a.res
      then Job.moveIn b a.res (a.a1 % 2 ^ 25 + 16 * i) else Job.moveOut b a.res (a.a1 % 2 ^ 25 + 16 * i))
    (s.moveOne b a.res (a.a1 % 2 ^ 25)).addJobs ((List.range (a.arg0 % 16)).map fun i => job (i + 1))

/-- SE_START (R124). -/
def State.seStart (s : State) (b : Nat) (a : Act) : State :=
  match s.part b with
  | none => s
  | some p =>
    match p.descs[a.a1 % 65536]? with
    | none => s
    | some d =>
      if s.badWord b a.ofs || s.badWord b d.ofs then s.storeFault
      else
        let e := a.res - 0x100
        let id := s.clk.now * 4 + e
        let jobs := seJobs (Se.dsc d) id s.clk.now
        let (lr, lw) := lastSteps s.clk.now jobs
        (s.modFig fun f =>
          { f with runs := f.runs ++ [{ id := id, bay := b, engine := e, desc := d }]
                   seRead := vmod f.seRead e fun _ => lr
                   seTail := vmod f.seTail e fun n => max n (vget f.seWrite e)
                   seWrite := vmod f.seWrite e fun _ => lw
                   seBay := vmod f.seBay e fun _ => b }).addJobs jobs

/-- DDR_XFER (R93, R148): granules one a step; LPDDR5X is read LAT_RD before each granule's bank write, or written LAT_WR after its
bank read (R150). -/
def State.ddrXfer (s : State) (b : Nat) (a : Act) : State :=
  match s.fig.geom with
  | none => s
  | some g =>
    if s.badWord b a.ofs then s.storeFault
    else
      let pos := s.turnIndex g % max 1 (a.a3 / 65536)
      let ext := 64 * (a.a2 + pos * (a.a3 % 65536))
      let bank := a.a1 % 2 ^ 25
      let s0 := { s with ddrCtl := { s.ddrCtl with
        xfers := (a.res - 0x104, ext / 64 % 16, s.clk.now) :: s.ddrCtl.xfers.filter fun x => s.clk.now < x.2.2 + 128 } }
      if bitAt a.arg0 0 then
        (s0.doJob (.fromBank b bank ext)).addJobs
          ((List.range 3).map fun i => (s.clk.now + i + 1, Job.fromBank b (bank + 16 * (i + 1)) (ext + 16 * (i + 1))))
      else
        (s0.doJob (.fromDdr b bank ext)).addJobs
          ((List.range 3).map fun i => (s.clk.now + i + 1, Job.fromDdr b (bank + 16 * (i + 1)) (ext + 16 * (i + 1))))

/-- NOTIFY (R95): the event waits for the release of its turn. -/
def State.notifyAct (s : State) (b : Nat) (a : Act) : State :=
  if s.badWord b a.ofs then s.storeFault
  else s.modFig fun f => { f with notifies := f.notifies ++ [(b, a.a1 % 65536)] }

/-! ### Turn ends (R63, R64, R487 to R492) -/

/-- Outbound endpoints that the running parts serve. -/
def State.outEnds (s : State) : List Nat :=
  (s.runningBays.flatMap fun b => match s.part b with
    | some p => (p.acts.filter fun a => a.kind = 1 && !Load.inbound a.res).map (·.res)
    | none => []).eraseDups

/-- Empty the inbound journals. -/
def State.clearJournals (s : State) : State :=
  s.modFig fun f => { f with ends := f.ends.map fun p => (p.1, { p.2 with journal := [], jpos := 0 }) }

/-- Step at which the outputs of the turn in progress are released (R65, R95, R486). -/
def State.releaseAt (s : State) (g : Geom) : Nat :=
  s.fig.boundary + (s.fig.turn + 1 + g.replay) * g.turnLen + 16

/-- The turn in progress goes on to its release with the given cause (0: good). -/
def State.settle (s : State) (g : Geom) (cause at_ : Nat) : State :=
  let fate : TurnFate := { u := s.turnIndex g, measure := s.fig.measure, cause := cause, replayed := s.fig.replaying, at_ := at_
                           bays := s.runningBays, eps := s.outEnds, notifies := s.fig.notifies }
  s.clearJournals.modFig fun f => { f with fates := f.fates ++ [fate], notifies := [] }

/-- Go on to the next slot and turn, or to pad and tail after the last turn (R40, R43). -/
def State.nextTurn (s : State) (g : Geom) : State :=
  s.modFig fun f =>
    if f.turn + 1 ≥ g.turns then { f with resting := true, replaying := false, faulted := false, unjournalled := false }
    else { f with slot := f.slot + 1, turn := f.turn + 1, replaying := false, faulted := false, unjournalled := false }

/-- The present slot has ended. -/
def State.slotOver (s : State) : Bool :=
  match s.fig.geom with
  | some g => s.inTurn && s.slotEnd g ≤ s.clk.now
  | none => false

/-- A forced swap is due at the end of this faulted turn (R492). -/
def State.swapDue (s : State) : Bool := s.slotOver && s.fig.faulted && s.fig.stuck > 64

/-- The faulted turn is replayed in the next slot (R64, R487, R491). -/
def State.replayDue (s : State) (g : Geom) : Bool :=
  s.fig.faulted && g.replay = 1 && !s.fig.spent && !s.fig.replaying && !s.fig.unjournalled

/-- The cause for which a faulted turn is replaced (R489). -/
def State.replaceCause (s : State) (g : Geom) : Nat :=
  if s.fig.replaying then 3 else if g.replay = 0 then 1 else if s.fig.spent then 2 else 4

/-- TURN_END: the slot's turn completes, or is replaced. A due replay or forced swap comes by its own command. -/
def State.turnEnd (s : State) : State :=
  match s.fig.geom with
  | none => s
  | some g =>
    if !s.slotOver || s.swapDue || s.replayDue g then s
    else if s.fig.faulted then (s.settle g (s.replaceCause g) (s.releaseAt g)).nextTurn g
    else
      let s1 := (s.swapCarry.put Fd.FGE_FAULT_CONSEC 0).modFig fun f => { f with stuck := 0 }
      let s2 := s1.when s.fig.replaying fun s => s.bump Fd.FGE_REPLAY_REPLAYED
      (s2.settle g 0 (s.releaseAt g)).nextTurn g

/-- TURN_REPLAY: the faulted turn runs again in the next slot, from its journals, with the same turn index (R64, R93, R487);
what its first attempt held is dropped. -/
def State.turnReplay (s : State) : State :=
  match s.fig.geom with
  | none => s
  | some g =>
    if !s.slotOver || s.swapDue || !s.replayDue g then s
    else
      let u := s.turnIndex g
      s.modFig fun f =>
        { f with slot := f.slot + 1, replaying := true, spent := true, faulted := false, notifies := []
                 jobs := f.jobs.filter fun j => match j.2 with
                   | .arrive _ v _ => v ≠ u
                   | _ => true
                 ends := f.ends.map fun p => (p.1, { p.2 with jpos := 0, held := p.2.held.filter (·.1 ≠ u) }) }

/-- FORCED_CARRY_SWAP (R492). -/
def State.forcedSwap (s : State) : State :=
  if s.swapDue then
    let s1 := ((s.swapCarry.modFig fun f => { f with stuck := 0 }).bump Fd.FGE_REPLAY_FORCED_SWAP).flag Fd.SYS_FLTSUM_TURN_STUCK
    s1.each (0 :: s1.runningBays.filter (· ≠ 0)) fun s b => s.countBay b 11
  else s

/-- Release granules into an outbound endpoint's FIFO and keep them as the repeat buffer (R98, R488, R489); a seal input discards
those of a replaced turn (R463). -/
def State.releaseEnd (s : State) (u : Nat) (good : Bool) (ep : Nat) : State :=
  let e := s.endp ep
  let mine := ((e.held.find? (·.1 = u)).map (·.2)).getD []
  let isSeal := 0x1C4 ≤ ep && ep ≤ 0x1C7
  let out := if good then mine else if isSeal then [] else e.rep.getD []
  let full := endSize ep < (s.endp ep).fifo.length + out.length
  let s1 := s.each out fun s g => s.pushEnd ep g
  s1.modEnd ep fun e =>
    { e with held := e.held.filter (·.1 ≠ u)
             gap := e.gap || (isSeal && (!good || full))
             rep := if good then (if mine.length ≤ endSize ep then some mine else none) else e.rep }

/-- OUTPUT_RELEASE of the oldest turn whose release is due (R65, R95, R488, R489). -/
def State.release (s : State) : State :=
  match s.fig.fates with
  | [] => s
  | t :: rest =>
    if s.clk.now < t.at_ then s
    else
      let s0 := s.modFig fun f => { f with fates := rest }
      let who := 0 :: t.bays.filter (· ≠ 0)
      let cause := if t.cause ≠ 0 && t.cause ≠ 6 && t.eps.any (fun e => (s.endp e).rep.isNone) then 5 else t.cause
      let s1 := s0.each t.eps fun s e => s.releaseEnd t.u (t.cause = 0) e
      if t.cause = 0 then
        let s2 := s1.each t.notifies fun s n =>
          let s' := s.postRaw n.1 n.2 1 t.measure (natLe 8 t.u) false
          if n.1 = 0 then s'.postRaw 8 n.2 1 t.measure (natLe 8 t.u) false else s'
        if t.replayed then (s2.post 0 0x03C0 (natLe 8 t.u)).each who fun s b => s.countBay b 1 else s2
      else
        let s2 := (s1.flag Fd.SYS_FLTSUM_SKIPPED).each who fun s b => s.post b 0x0004 (natLe 8 t.u ++ natLe 1 cause)
        s2.each who fun s b => s.countBay b 2

/-- A report of a turn-level detector (R134, R485). -/
def State.turnFault (s : State) (d : Detector) : State :=
  if !s.inTurn then s
  else match d with
    | .endpoint => s.faultTurn
    | .store b o => (s.modFig fun f => { f with badWords := if f.badWords.contains (b.val, o) then f.badWords else f.badWords ++ [(b.val, o)] }).storeFault
    | .residue e b => (s.flag (Fd.SE_FLAGS_RESIDUE e.val b.val)).faultTurn

/-- STORE_WORD_REWRITE (R485): in the tail, firmware rewrites the word from its copy of the part. -/
def State.rewriteWord (s : State) (b o : Nat) : State :=
  if s.fig.resting then s.modFig fun f => { f with badWords := f.badWords.filter (· ≠ (b, o)) } else s

/-! ### Clock faults (R23, R493) -/

/-- Loss of lock: the turn in progress is faulted and nothing further of the measure runs. -/
def State.figStop (s : State) : State :=
  match s.fig.geom with
  | none => s
  | some _ => s.faultTurn.modFig fun f => { f with stopped := true, jobs := [], runs := [] }

/-- The divider chain restarts: the interrupted turn's outputs are replaced with cause 6. -/
def State.figResume (s : State) : State :=
  match s.fig.geom with
  | none => s
  | some g =>
    if !s.fig.stopped then s
    else
      let s1 := if s.fig.resting then s else s.settle g 6 s.clk.now
      s1.modFig fun f => { f with stopped := false, interrupted := true, resting := true, replaying := false, faulted := false, unjournalled := false }

/-- Geometry registers of the running figure (FGE_STATUS to FGE_PERIOD). -/
def State.showGeom (s : State) : State :=
  match s.fig.geom with
  | some g =>
    ((((((s.put Fd.FGE_GEOM_TAIL_NOM g.tail).put Fd.FGE_GEOM_TURN_LEN (g.turnLen / 64)).put Fd.FGE_TURNS_N g.turns).put
      Fd.FGE_PAD_PAD (Load.Geom.d g).toNat).put Fd.FGE_PERIOD_PERIOD_US g.period).put Fd.FGE_STATUS_RUNNING 1).put
      Fd.FGE_STATUS_REPLAY_SLOT g.replay
  | none =>
    ((((((s.put Fd.FGE_GEOM_TAIL_NOM 0).put Fd.FGE_GEOM_TURN_LEN 0).put Fd.FGE_TURNS_N 0).put Fd.FGE_PAD_PAD 0).put
      Fd.FGE_PERIOD_PERIOD_US 0).put Fd.FGE_STATUS_RUNNING 0).put Fd.FGE_STATUS_REPLAY_SLOT 0

/-- Drop bay `b`'s running part (R77, R468, R496). -/
def State.dropPart (s : State) (b : Nat) : State :=
  let s1 := (s.modFig fun f => { f with running := vmod f.running b fun _ => none, carry := vmod f.carry b fun _ => []
                                        badWords := f.badWords.filter (·.1 ≠ b) }).put (Fd.FGE_ACT_USED b) 0
  s1.put (Fd.FGE_DESC_USED b) 0

/-- The carry regions of a part that takes effect after part carries `old` (R74, R103, R104). -/
def carriesOf (p : Part) (old : List Carry) : List Carry :=
  p.carries.map fun c =>
    match old.find? fun q => c.inherit && q.id = c.id && q.len = c.len with
    | some q => q
    | none => { id := c.id, base := c.base, shadow := c.shadow, len := c.len }

/-- Bay `b`'s part takes effect; a part without actions removes the bay from the figure (R72, R74, R77, R108). -/
def State.installPart (s : State) (b : Nat) (p : Part) (old : List Carry) : State :=
  if p.acts.isEmpty then s.dropPart b
  else
    let s1 := s.modFig fun f =>
      { f with running := vmod f.running b fun _ => some p
               carry := vmod f.carry b fun _ => carriesOf p old
               geom := some p.geom
               badWords := f.badWords.filter (·.1 ≠ b) }
    (s1.put (Fd.FGE_ACT_USED b) (cdiv p.acts.length 64)).put (Fd.FGE_DESC_USED b) p.descs.length

/-- With no part left, no figure runs. -/
def State.settleGeom (s : State) : State :=
  if s.runningBays.isEmpty then s.modFig fun f => { f with geom := none, resting := true } else s

end Sys2Proof.Machine
end

