-- ==== Sys2Proof/Machine/Plumb.lean ====
section
/-! DEFINITION. Plumb and the time engine (17): references and gates, selection, states, the clean-up loop, holdover, steps of
device time, clock gaps and the clock outputs. -/

namespace Sys2Proof.Machine

def State.modPlb (s : State) (f : Plb → Plb) : State := { s with plb := f s.plb }
def State.modRef (s : State) (r : Nat) (f : RefMeas → RefMeas) : State := s.modPlb fun p => { p with refs := vmod p.refs r f }
def State.ref (s : State) (r : Nat) : RefMeas := vget s.plb.refs r

/-- 2π as a ratio with 30 decimals. -/
def twoPiN : Nat := 6283185307179586476925286766559
def twoPiD : Nat := 10 ^ 30

/-! ### Device time (R407) -/

/-- F = FI + FP, clamped to ±1,000 ppm. -/
def State.freqF (s : State) : Int := max (-1000000000) (min 1000000000 (s.plb.fi + s.plb.fp))

/-- The advance of device time in one step at offset `f` ppt: 2 ns × (1 + f × 10^-12). -/
def stepLen (f : Int) : Nat := (roundQ ((10 ^ 12 + f) * 2 ^ 49) (10 ^ 12)).toNat

/-- Device time has reached `t` in the present step: the stretches of even advance, as far back as a TDM frame can start (8 kHz, R347). -/
def State.pastWith (s : State) (t : Nat) : List (Nat × Nat × Nat) :=
  match s.tme.past with
  | (n, u, d) :: l =>
    if t = u + (s.clk.now - n) * d then s.tme.past
    else (s.clk.now, t, stepLen s.freqF) :: (n, u, d) :: l.take (((n, u, d) :: l).takeWhile fun g => s.clk.now < g.1 + 200000).length
  | [] => [(s.clk.now, t, stepLen s.freqF)]

/-- Device time in the step that lies `ago` steps back (R345). -/
def State.timeAgo (s : State) (ago : Nat) : Nat :=
  match s.tme.past.find? fun g => g.1 + ago ≤ s.clk.now with
  | some (n, u, d) => u + (s.clk.now - ago - n) * d
  | none => s.tme.t - ago * stepLen s.freqF

/-- One step of device time, of run time and of base-rate time. -/
def State.tickTime (s0 : State) : State :=
  let t := (s0.tme.t + stepLen s0.freqF) % (2 ^ 48 * 1000000000 * nsU)
  let s := { s0 with tme := { s0.tme with past := s0.pastWith t } }
  { s with tme := { s.tme with t := t }
           plb := { s.plb with run := s.plb.run + stepLen s.freqF
                               base := s.plb.base + stepLen (max (-1000000000) (min 1000000000 s.plb.fi)) } }

/-! ### What the registers show -/

def State.plbState (s : State) : Nat := s.get Fd.PLB_STATE_STATE
def sFREERUN : Nat := 0
def sLOCKED : Nat := 1
def sHOLDOVER : Nat := 2
def sACQUIRE : Nat := 3

def State.histBit (s : State) (i : Nat) : State := s.flag Fd.PLB_HIST_HIST (2 ^ i)

def State.qualified (s : State) (r : Nat) : Bool := s.bit (Fd.PLB_REFSTAT_QUALIFIED r)

/-- Mask of the qualified references. -/
def State.qualMask (s : State) : Nat := ((List.range 7).filter fun r => s.qualified r).foldl (fun n r => n + 2 ^ r) 0

/-- Bring PLB_STATE's flags, the alarm and TME_FREQ up to date (R403, R405). -/
def State.plbShow (s : State) : State :=
  let st := s.plbState
  let mv := s.plb.moveEnd.isSome
  let e := s.get Fd.PLB_ALMEN_ALMEN
  let alarm := (bitAt e 0 && st = sFREERUN) || (bitAt e 1 && st = sHOLDOVER) || (bitAt e 2 && st = sACQUIRE) ||
    (bitAt e 3 && mv) || (bitAt e 4 && s.qualMask = 0)
  (((s.putB Fd.PLB_STATE_ALARM alarm).putB Fd.PLB_STATE_SLOPE_ACTIVE mv).put Fd.PLB_STATE_QUALIFIED s.qualMask).putI
    Fd.TME_FREQ_F s.freqF

/-- End a move: FP returns to 0 (R405). -/
def State.endMove (s : State) : State := s.modPlb fun p => { p with moveEnd := none, fp := 0 }

/-- FI on entry to HOLDOVER: the mean of the 60 values that end 2 s before the entry, or of as many as exist; with none it is
kept (R406). -/
def State.heldFi (s : State) : Int :=
  let l := (s.plb.hist.filter fun x => x.1 + 2000000000 * nsU ≤ s.plb.run).take 60
  if l.isEmpty then s.plb.fi else roundQ (l.foldl (fun n x => n + x.2) 0) l.length

/-- Enter a plumb state (R402, R406). -/
def State.plbEnter (s : State) (st : Nat) : State :=
  let s1 := (s.put Fd.PLB_STATE_STATE st).histBit st
  let s2 := s1.modPlb fun p => { p with lockRun := 0 }
  let s3 := if st = sHOLDOVER then (s2.endMove).modPlb fun p => { p with fi := s2.heldFi, heldAt := s2.plb.run }
    else if st = sFREERUN then s2.endMove else s2
  (s3.modPlb fun p => { p with mayStep := if st = sACQUIRE then s.plbState = sFREERUN else false }).plbShow

/-! ### Selection (R398 to R400) -/

def State.priority (s : State) (r : Nat) : Nat := s.get (Fd.PLB_REFCFG_PRIORITY r)

/-- Of the qualified references that `ok` admits, the one of highest priority: the lowest PRIORITY, then the lowest number. -/
def State.bestOf (s : State) (ok : Nat → Bool) : Option Nat :=
  ((List.range 7).filter fun r => s.qualified r && s.priority r ≠ 0 && ok r).foldl (fun b r => match b with
    | none => some r
    | some q => if s.priority r < s.priority q then some r else some q) none

/-- The qualified reference of highest priority. -/
def State.bestRef (s : State) : Option Nat := s.bestOf fun _ => true

/-- Advance FI by the reference's last gate offset (R400). -/
def State.advanceFi (s : State) (r : Nat) : State :=
  (s.modPlb fun p => { p with fi := p.fi + s.getI (Fd.PLB_REFOFS_OFS r), advance := false }).plbShow

/-- Switch to reference `r` (R400). -/
def State.switchRef (s : State) (r : Nat) : State :=
  let s1 := ((s.put Fd.PLB_STATE_SELECTED r).histBit 4).modPlb fun p => { p with freq0 := none, advance := !s.qualified r }
  if s.qualified r then s1.advanceFi r else s1

/-- LOCKED or ACQUIRE without a qualified selected reference becomes HOLDOVER (R398, R402). -/
def State.loseLock (s : State) : State :=
  if s.plbState = sLOCKED || s.plbState = sACQUIRE then s.plbEnter sHOLDOVER else s.plbShow

/-- Select again after a qualification, a disqualification or a setting has changed (R398). -/
def State.reselect (s : State) : State :=
  let cur := s.get Fd.PLB_STATE_SELECTED
  if s.bit Fd.PLB_CTL_AUTO then
    if cur < 7 && s.qualified cur && s.priority cur ≠ 0 then s.plbShow
    else match s.bestRef with
      | some r => (s.switchRef r).plbShow
      | none => (s.put Fd.PLB_STATE_SELECTED 7).loseLock
  else
    let m := s.get Fd.PLB_CTL_MANUAL_REF
    let s1 := if cur = m then s else s.switchRef m
    if s1.qualified m then (if s1.plb.advance then s1.advanceFi m else s1.plbShow)
    else (s1.modPlb fun p => { p with advance := true }).loseLock

/-- Disqualify reference `r` if it is qualified (R397), and select again. -/
def State.disqualify (s : State) (r : Nat) : State :=
  let s1 := s.modRef r fun m => { m with good := 0 }
  if s1.qualified r then
    (((s1.put (Fd.PLB_REFSTAT_QUALIFIED r) 0).bump (Fd.PLB_REFSTAT_LOSS r)).histBit 5).reselect
  else s1

/-- Begin the measurement of reference `r` anew (R397). -/
def State.beginRef (s : State) (r : Nat) : State :=
  ((s.modRef r fun _ => { began := s.plb.run }).put (Fd.PLB_REFSTAT_LOS r) 0).put (Fd.PLB_REFSTAT_GOOD r) 0

/-- Reference `r` is enabled and measured (R396). -/
def State.measured (s : State) (r : Nat) : Bool := s.ready rPLB && s.priority r ≠ 0

/-! ### Samples and gates (R393 to R397) -/

/-- Reference `r` is a frequency reference: REF0 to REF3 above 1 Hz (R393). -/
def State.isFreqRef (s : State) (r : Nat) : Bool := r < 4 && s.get (Fd.PLB_REFFREQ_FREQ_HZ r) > 1

/-- A full-time reference: PTP-recovered or junction-recovered. -/
def fullTime (r : Nat) : Bool := r = 5 || r = 6

/-- One and a half nominal sample periods of reference `r`, in units of device time (R393, R397). -/
def State.losWindow (s : State) (r : Nat) : Nat :=
  let f := s.get (Fd.PLB_REFFREQ_FREQ_HZ r)
  let f' := if r < 4 && f > 1000 then 1000 else max 1 f
  1500000000 * nsU / f'

/-- One point of the interpolator's grid, 1/32 of a PCLK cycle of 2.5 ns, in units of device time (R381). -/
def gridU : Nat := 5 * 2 ^ 42

/-- The instant `ofs` units of root time after the start of the present step, from the start of the beats (R18, R22). -/
def State.rootAt (s : State) (ofs : Int) : Int := ((s.clk.now - s.clk.beat0) * 2 * nsU : Nat) + ofs

/-- The point of the 78.125 ps grid of root time nearest to that instant, the later one midway; 128 in a beat, counted like the edges of the
derived clocks (R381, R394, R411). -/
def State.gridPoint (s : State) (ofs : Int) : Nat := 128 * s.clk.beats + ((s.rootAt ofs + 5 * 2 ^ 41) / (gridU : Int)).toNat

/-- Units of root time from the start of the present step to that grid point. -/
def State.gridOfs (s : State) (ofs : Int) : Int := (s.rootAt ofs + 5 * 2 ^ 41) / (gridU : Int) * gridU - s.rootAt 0

/-- `d` units of root time as a clock that runs at offset `f` ppt counts them. -/
def atRate (f d : Int) : Int := roundQ (d * (10 ^ 12 + f)) (10 ^ 12)

/-- A gate of `cycles` cycles ends after base-rate time `el`: its offset in ppt (R396). -/
def State.gateOffset (s : State) (r cycles el : Nat) : Int :=
  let f := s.get (Fd.PLB_REFFREQ_FREQ_HZ r)
  if el = 0 || f = 0 then 0
  else roundQ (((cycles * 1000000000 * nsU : Int) - el * f) * 10 ^ 12) (el * f)

/-- The end of a gate of base-rate length `el` and root length `root` (R397): good or bad; qualified at the second consecutive
good one. The offsets of two gates are compared on one footing, against the root, whose rate no advance of FI changes (DEDUCED, log entry 36). -/
def State.gateEnd (s : State) (r cycles el root : Nat) : State :=
  let ofs := s.gateOffset r cycles el
  let abs_ := s.gateOffset r cycles root
  let tol : Int := s.get (Fd.PLB_REFTOL_TOL_PPB r) * 1000
  let good := !(s.ref r).gateLos && (match (s.ref r).prevOfs with
      | some p => (abs_ - p).natAbs ≤ tol.natAbs
      | none => true) && (s.plbState ≠ sLOCKED || ofs.natAbs ≤ tol.natAbs)
  let s1 := ((s.putI (Fd.PLB_REFOFS_OFS r) ofs).putB (Fd.PLB_REFSTAT_GOOD r) good).modRef r fun m =>
    { m with prevOfs := if m.gateLos then none else some abs_, gateLos := false, good := if good then m.good + 1 else 0 }
  if !good then s1.disqualify r
  else if (s1.ref r).good ≥ 2 && !s1.qualified r then
    ((s1.put (Fd.PLB_REFSTAT_QUALIFIED r) 1).modRef r fun m => { m with since := s.plb.run }).reselect
  else s1

/-- Count `cycles` into the gate, beginning or ending one at a sample `ofs` units of root time after the present instant (R396). -/
def State.gateSample (s : State) (r cycles : Nat) (ofs : Int) : State :=
  let base := (s.plb.base + atRate s.plb.fi ofs).toNat
  let root := (s.clk.now * 2 * nsU + ofs).toNat
  match (s.ref r).gate with
  | none => s.modRef r fun m => { m with gate := some (base, root, 0) }
  | some (b, t, n) =>
    if n + cycles ≥ s.get (Fd.PLB_REFQUAL_QUAL_CYCLES r) then
      (s.gateEnd r (n + cycles) (base - b) (root - t)).modRef r fun m => { m with gate := some (base, root, 0) }
    else s.modRef r fun m => { m with gate := some (b, t, n + cycles) }

/-- Wrap `x` to (−p/2, p/2], for the period p = n / d. -/
def wrapHalf (x : Int) (n d : Nat) : Int :=
  let m := (x * d) % n
  (if 2 * m ≤ n then m else m - n) / d

/-- The error e of a sample of the selected reference, in units of device time (R393, R394, R401). -/
def State.sampleError (s : State) (r stamp master : Nat) : Int :=
  if fullTime r then (stamp : Int) - master
  else if s.isFreqRef r then
    match s.plb.freq0 with
    | none => 0
    | some t0 => wrapHalf ((stamp : Int) - t0) (1000000000 * nsU) (s.get (Fd.PLB_REFFREQ_FREQ_HZ r))
  else wrapHalf stamp (1000000000 * nsU) 1

/-! ### Steps of device time (R408, R412) -/

def outFreq (n : Nat) : Fld := if n = 0 then Fd.PLB_OUT0_FREQ_HZ else Fd.PLB_OUT1_FREQ_HZ
def outEnable (n : Nat) : Fld := if n = 0 then Fd.PLB_OUT0_ENABLE else Fd.PLB_OUT1_ENABLE
def outSquelch (n : Nat) : Fld := if n = 0 then Fd.PLB_OUT0_SQUELCH else Fd.PLB_OUT1_SQUELCH

/-- Device time from now to the end of the half-period of a clock output of `f` Hz (R411). -/
def State.halfLeft (s : State) (f : Nat) : Nat :=
  let sec := 1000000000 * nsU
  if f = 0 then 0 else cdiv ((s.tme.t * 2 * f / sec + 1) * sec) (2 * f) - s.tme.t

/-- Device time takes the value `t` at once: STEP, TME_STEPS; clock outputs finish their half-period, one that a step before this one has them
finish too; PPS_OUT skips (R408, R412). -/
def State.setTime (s : State) (t : Nat) : State :=
  let hold (n : Nat) : Nat := if s.plb.run < vget s.plb.hold n then vget s.plb.hold n else s.plb.run + s.halfLeft (s.get (outFreq n))
  let s1 := ((s.histBit 7).bump Fd.TME_STEPS_STEPS)
  { s1 with tme := { s1.tme with t := t }
            plb := { s1.plb with hold := #v[hold 0, hold 1], stepRun := some s1.plb.run
                                 ppsSec := t / nsU / 1000000000 } }

/-- The step of an acquisition from FREERUN by error `e` (R408). -/
def State.stepTime (s : State) (r : Nat) (e : Int) : State :=
  let t := s.tme.t
  if fullTime r then (s.setTime ((t : Int) - e).toNat).put Fd.PLB_STATE_VALID 1
  else
    let sec := 1000000000 * nsU
    s.setTime (t / sec * sec + (((t % sec : Nat) - e) % (sec : Int)).toNat)

/-! ### The clean-up loop (R405) -/

/-- e in ps, saturating, for PLB_PHASE. -/
def ePs (e : Int) : Int := e * 1000 / (nsU : Int)

/-- Start a move against error `e` (R405). -/
def State.startMove (s : State) (e : Int) : State :=
  let slope := s.get Fd.PLB_SLOPE_SLOPE_PS
  let dur := (e.natAbs * 1000 * 1000000000) / slope
  (s.histBit 6).modPlb fun p => { p with fp := if e > 0 then -(slope : Int) else slope, moveEnd := some (s.plb.run + dur) }

/-- BW of PLB_LOOP is 1 / bwInv Hz. -/
def State.bwInv (s : State) : Nat := [100, 10, 1].getD (s.get Fd.PLB_LOOP_BW) 1

/-- The loop update for error `e` and `dt` since the previous sample, both in units of device time (R405). The value of 2π and
the rounding to whole ppt are the model's (log entry 6). -/
def State.loopUpdate (s : State) (e : Int) (dt : Nat) : State :=
  let b := s.bwInv
  let sec := 1000000000 * nsU
  -- 2π / b ≤ 1 / (4 Δt)
  let slow := 4 * twoPiN * dt ≤ b * twoPiD * sec
  let dFi := if slow then roundQ (e * 1000 * dt * twoPiN * twoPiN) (b * b * twoPiD * twoPiD * nsU * sec)
    else roundQ (e * 1000 * 1000000000) (16 * max 1 dt)
  let fp := if slow then roundQ (-2 * e * 1000 * twoPiN) (b * twoPiD * nsU)
    else roundQ (-(e * 1000 * 1000000000)) (2 * max 1 dt)
  let slope : Int := s.get Fd.PLB_SLOPE_SLOPE_PS
  s.modPlb fun p => { p with fi := p.fi - dFi, fp := max (-slope) (min slope fp), moveEnd := none }

/-- A sample of the selected, qualified reference acts (R400, R402, R405, R408). -/
def State.cleanUp (s : State) (r stamp master dt : Nat) : State :=
  let s0 := if s.plbState = sFREERUN || s.plbState = sHOLDOVER then s.plbEnter sACQUIRE else s
  let e := s0.sampleError r stamp master
  let s1 := (s0.putI Fd.PLB_PHASE_E (max (-(2 ^ 31)) (min (2 ^ 31 - 1) (ePs e)))).modPlb fun p =>
    { p with freq0 := if s0.isFreqRef r && p.freq0.isNone then some stamp else p.freq0 }
  if e.natAbs > s1.get Fd.PLB_LOCK_WIN_NS * nsU then
    let s2 := if s1.plbState = sLOCKED then s1.plbEnter sACQUIRE else s1.modPlb fun p => { p with lockRun := 0 }
    let s3 := if s2.plb.mayStep && s2.bit Fd.PLB_CTL_STEP_FREERUN && !s2.isFreqRef r then s2.stepTime r e else s2.startMove e
    (s3.modPlb fun p => { p with mayStep := false }).plbShow
  else
    let s2 := s1.loopUpdate e dt
    if s2.plbState = sACQUIRE then
      let s3 := s2.modPlb fun p => { p with lockRun := p.lockRun + 1 }
      if s3.plb.lockRun ≥ s3.get Fd.PLB_LOCK_LOCK_CYCLES then s3.plbEnter sLOCKED else s3.plbShow
    else s2.plbShow

/-- Every edge of reference `r` is a sample: no frequency above 1 kHz (R393). -/
def State.everyEdge (s : State) (r : Nat) : Bool := 4 ≤ r || s.get (Fd.PLB_REFFREQ_FREQ_HZ r) ≤ 1000

/-- REFERENCE_SAMPLE of reference `r`: an edge `sub` units of root time into the present step, stamped at the nearest grid point; for a
full-time reference `master` is the master's time. Above 1 kHz only the first edge of each ms is a sample, and `cycles` reference cycles have
passed since the edge before; else each sample counts as one cycle (R393, R394, R396). -/
def State.refSample (s : State) (r cycles sub master : Nat) : State :=
  if !s.measured r || !s.clocksRun then s
  else
    let ofs := s.gridOfs sub
    let on := atRate s.freqF ofs
    let stamp := (s.tme.t + on).toNat
    let ms := 1000000 * nsU
    let skip := !s.everyEdge r && ((s.ref r).last.isSome && (s.ref r).lastMs = stamp / ms)
    if skip then s.modRef r fun m => { m with gate := m.gate.map fun g => (g.1, g.2.1, g.2.2 + cycles) }
    else
      let dt := match (s.ref r).last with
        | some l => (s.plb.run + on).toNat - l
        | none => s.losWindow r * 2 / 3
      let s0 := s.when (r = 6) fun s => s.modPlb fun p => { p with lastE6 := (stamp : Int) - master }
      let s1 := ((s0.put (Fd.PLB_REFSTAT_LOS r) 0).modRef r fun m => { m with last := some (s.plb.run + on).toNat, lastMs := stamp / ms }).gateSample r
        (if s.everyEdge r then 1 else cycles) ofs
      if s1.get Fd.PLB_STATE_SELECTED = r && s1.qualified r then s1.cleanUp r stamp master dt else s1.plbShow

/-- REFERENCE_LOS of reference `r` (R397): no sample within 1.5 nominal periods. -/
def State.refLos (s : State) (r : Nat) : State :=
  let from_ := (s.ref r).last.getD (s.ref r).began
  if !s.measured r || s.bit (Fd.PLB_REFSTAT_LOS r) || s.plb.run ≤ max from_ (s.ref r).began + s.losWindow r then s
  else
    ((s.put (Fd.PLB_REFSTAT_LOS r) 1).modRef r fun m =>
      { m with gateLos := m.gate.isSome, prevOfs := none, good := 0 }).disqualify r |>.plbShow

/-- REVERTIVE_SWITCH (R398): a reference of higher priority than the selected one has stayed qualified for 10 s. -/
def State.revert (s : State) : State :=
  let cur := s.get Fd.PLB_STATE_SELECTED
  if !s.bit Fd.PLB_CTL_AUTO || !s.bit Fd.PLB_CTL_REVERTIVE || cur ≥ 7 then s
  else match s.bestOf fun r => (s.ref r).since + 10000000000 * nsU ≤ s.plb.run with
    | some r =>
      if r ≠ cur && (s.priority r < s.priority cur || (s.priority r = s.priority cur && r < cur)) then (s.switchRef r).plbShow else s
    | none => s

/-- MOVE_END (R405). -/
def State.moveEndAct (s : State) : State :=
  match s.plb.moveEnd with
  | some t => if t ≤ s.plb.run then s.endMove.plbShow else s
  | none => s

/-- HOLDOVER_LIMIT_EXPIRY (R406). -/
def State.holdLimit (s : State) : State :=
  let l := s.get Fd.PLB_CTL_HOLD_LIMIT_S
  if s.plbState = sHOLDOVER && l ≠ 0 && s.plb.heldAt + l * 1000000000 * nsU ≤ s.plb.run then (s.plbEnter sFREERUN).histBit 9 else s

/-- FI_HISTORY_RECORD (R406): once a second of device time while LOCKED. -/
def State.recordFi (s : State) : State :=
  let due := s.plb.hist.isEmpty || s.plb.histSec ≠ s.sec
  if s.plbState = sLOCKED && due then s.modPlb fun p => { p with hist := ((p.run, p.fi) :: p.hist).take 64, histSec := s.sec } else s

/-- SLOPE_PS has changed from `old`: the new value applies at once, and a move in progress goes on at the new rate (R405). -/
def State.slopeTaken (s : State) (old : Nat) : State :=
  let v := s.get Fd.PLB_SLOPE_SLOPE_PS
  match s.plb.moveEnd with
  | some t => s.modPlb fun p =>
      { p with moveEnd := some (p.run + (t - p.run) * old / max 1 v), fp := if p.fp < 0 then -(v : Int) else v }
  | none => s.modPlb fun p => { p with fp := max (-(v : Int)) (min v p.fp) }

/-- PLB_SLOPE writes SLOPE_PS (R405). -/
def State.setSlope (s : State) (v : Nat) : State :=
  ((s.put Fd.PLB_SLOPE_SLOPE_PS v).slopeTaken (s.get Fd.PLB_SLOPE_SLOPE_PS)).plbShow

/-! ### Settings (R397, R398) -/

/-- Settings of reference `r` have been written: it is disqualified and measured anew, unless disabled. -/
def State.refWritten (s : State) (r : Nat) : State :=
  let s1 := s.disqualify r
  if s1.measured r then (s1.beginRef r).plbShow else (s1.modRef r fun _ => {}).plbShow

/-- What a write of a plumb register does beyond its fields: references whose priority changed to or from 0 follow, a running move takes the new
slope, and the selection, the alarm and the shown state follow the settings (R397, R398, R403, R405). -/
def State.plbWritten (old s : State) : State :=
  let s0 := s.when (old.get Fd.PLB_SLOPE_SLOPE_PS ≠ s.get Fd.PLB_SLOPE_SLOPE_PS) fun s => s.slopeTaken (old.get Fd.PLB_SLOPE_SLOPE_PS)
  let s1 := s0.each (List.range 7) fun s r => if (old.priority r = 0) = (s.priority r = 0) then s else s.refWritten r
  if s1.ready rPLB then s1.reselect else s1.plbShow

/-- PLB_SET_TIME (R408). -/
def State.setTimeCmd (s : State) (sec ns frac : Nat) : State :=
  (s.setTime ((sec * 1000000000 + ns) * nsU + frac * 2 ^ 32)).put Fd.PLB_STATE_VALID 1

/-! ### Readiness and clock gaps (R396, R402, R410) -/

/-- PLB sets: every enabled reference begins its measurement, in FREERUN. -/
def State.plbStart (s : State) : State :=
  ((s.each (List.range 7) State.beginRef).histBit 0).plbShow

/-- The derived clocks are gated. -/
def State.plbGapStart (s : State) : State := s.modPlb fun p => { p with gapAt := some s.clk.ka }

/-- The divider chain restarts after a gap (R410). -/
def State.plbGapEnd (s : State) : State :=
  match s.plb.gapAt with
  | none => s
  | some t =>
    let s1 := ((s.put Fd.PLB_GAP_CYCLES (min (2 ^ 32 - 1) ((s.clk.ka - t) * 1000 / kaPeriod))).put Fd.PLB_STATE_VALID 0).histBit 8
    let s2 := s1.each (List.range 7) fun s r =>
      if s.qualified r then ((s.put (Fd.PLB_REFSTAT_QUALIFIED r) 0).bump (Fd.PLB_REFSTAT_LOSS r)).histBit 5 else s
    let s3 := (s2.each (List.range 7) State.beginRef).plbEnter sFREERUN
    ((if s3.bit Fd.PLB_CTL_AUTO then s3.put Fd.PLB_STATE_SELECTED 7 else s3.modPlb fun p => { p with advance := true }).modPlb fun p => { p with gapAt := none }).plbShow

/-! ### PLB_HIST service (R404) -/

/-- PLB_HIST_SERVICE: firmware reads the enabled bits, clears what it read and posts PLB_STATE. -/
def State.histService (s : State) : State :=
  let h := s.get Fd.PLB_HIST_HIST
  if !s.ready rMBX || h &&& s.get Fd.PLB_IEN_IEN = 0 then s
  else
    let sel := s.get Fd.PLB_STATE_SELECTED
    let arg := natLe 1 s.plbState ++ natLe 1 s.plb.reported ++ natLe 1 (if sel = 7 then 0xFF else sel) ++ natLe 2 h
    let s1 := (s.put Fd.PLB_HIST_HIST 0).modPlb fun p => { p with reported := s.plbState }
    s1.each ((List.range 8).filter fun b => b = 0 || s.bayState b ≠ bEMPTY) fun s b => s.post b 0x0390 arg

/-! ### Clock outputs (R411, R412) -/

/-- The grid point nearest to an instant of device or run time that lies `d` units before the present step's start (R411). -/
def State.pointBefore (s : State) (d : Nat) : Nat := s.gridPoint (-((d * 10 ^ 12 : Nat) / (10 ^ 12 + s.freqF)))

/-- CLOCK_OUTPUT_EDGE of CLKOUT0, CLKOUT1 (0, 1) or PPS_OUT (2): the edge that has fallen due lies at the grid point nearest to its device
time. After a step of device time CLKOUTn runs its half-period to its end, and a pulse of PPS_OUT lasts PW_US as it is counted (R411, R412). -/
def State.clockEdge (s : State) (n : Nat) : State :=
  let sec := 1000000000 * nsU
  if !s.clocksRun then s
  else if n < 2 then
    let f := s.get (outFreq n)
    let i := s.tme.t * 2 * f / sec
    let hold := vget s.plb.hold n
    if !s.bit (outEnable n) || (s.bit (outSquelch n) && s.plbState = sFREERUN) then s.drive (.level "CLKOUT" n false)
    else if s.plb.run < hold || i = vget s.plb.half n then s
    else
      let due := min (s.plb.run - hold) (s.tme.t - cdiv (i * sec) (2 * f))
      (s.modPlb fun p => { p with half := vmod p.half n fun _ => i }).when (i % 2 ≠ vget s.plb.half n % 2) fun t =>
        t.drive (.edge "CLKOUT" n (i % 2 = 0) (s.pointBefore due))
  else
    let ends := s.plb.ppsRose + s.get Fd.PLB_PPSOUT_PW_US * 1000 * nsU
    if !s.bit Fd.PLB_PPSOUT_ENABLE || (s.bit Fd.PLB_PPSOUT_SQUELCH && s.plbState = sFREERUN) then
      (s.modPlb fun p => { p with ppsHigh := false, ppsSec := s.sec }).drive (.level "PPS_OUT" 0 false)
    else if s.sec > s.plb.ppsSec then
      let ago := s.tme.t % sec
      (s.modPlb fun p => { p with ppsHigh := true, ppsSec := s.sec, ppsRose := s.plb.run - ago }).drive (.edge "PPS_OUT" 0 true (s.pointBefore ago))
    else if s.plb.ppsHigh && ends ≤ s.plb.run then
      (s.modPlb fun p => { p with ppsHigh := false }).drive (.edge "PPS_OUT" 0 false (s.pointBefore (s.plb.run - ends)))
    else s

end Sys2Proof.Machine
end

