-- ==== Sys2Proof/Machine/Audio.lean ====
section
/-! DEFINITION. Audio (14): channels, routes and sample times, TDM ports, sample clocks, DisplayPort audio, ST 2110-30 streams,
figure groups and the delay store. -/

namespace Sys2Proof.Machine

def State.modAud (s : State) (f : Aud → Aud) : State := { s with aud := f s.aud }
def State.tdm (s : State) (p : Nat) (rx : Bool) : TdmDir := if rx then vget s.aud.rx p else vget s.aud.tx p
def State.modTdm (s : State) (p : Nat) (rx : Bool) (f : TdmDir → TdmDir) : State :=
  s.modAud fun a => if rx then { a with rx := vmod a.rx p f } else { a with tx := vmod a.tx p f }
def State.osc (s : State) (d : Nat) : Osc := vget s.aud.osc d
def State.modOsc (s : State) (d : Nat) (f : Osc → Osc) : State := s.modAud fun a => { a with osc := vmod a.osc d f }
def State.audRoute (s : State) (c : Nat) : AudRoute := sget (fun _ => ({} : AudRoute)) s.aud.routes c
def State.modRoute (s : State) (c : Nat) (f : AudRoute → AudRoute) : State :=
  s.modAud fun a => { a with routes := sset (fun _ => ({} : AudRoute)) c (f (s.audRoute c)) a.routes }

/-! ### Channels (R342) -/

/-- Silence. -/
def chSilence : Nat := 0xFFFF

/-- An input channel: the input that holds its samples and its place in a frame of it. -/
def inSlot (c : Nat) : Option (Nat × Nat) :=
  if c < 0x80 then some (c / 32, c % 32)
  else if 0x100 ≤ c && c < 0x140 then some (4 + (c - 0x100) / 8, c % 8)
  else if 0x400 ≤ c && c < 0x440 then some (12 + (c - 0x400) / 8, c % 8)
  else if 0x500 ≤ c && c < 0x540 then some (12 + (c - 0x500) / 8, c % 8)
  else none

/-- The output domain of an output channel, as AUD_OCNTx numbers it. -/
def outDomain (c : Nat) : Option Nat :=
  if c < 0x80 then some (c / 32)
  else if 0x100 ≤ c && c < 0x140 then some (8 + (c - 0x100) / 8)
  else if 0x200 ≤ c && c < 0x220 then some (4 + (c - 0x200) / 8)
  else if 0x400 ≤ c && c < 0x440 then some (16 + (c - 0x400) / 8)
  else if 0x500 ≤ c && c < 0x540 then some (16 + (c - 0x500) / 8)
  else none

/-- Place of an output channel in a frame of its domain. -/
def outPlace (c : Nat) : Nat := if c < 0x80 then c % 32 else c % 8

/-- Output channels of a domain, lowest number first. -/
def domainChans (x : Nat) : List Nat :=
  if x < 4 then (List.range 32).map (32 * x + ·)
  else if x < 8 then (List.range 8).map (0x200 + 8 * (x - 4) + ·)
  else if x < 16 then (List.range 8).map (0x100 + 8 * (x - 8) + ·)
  else (List.range 8).map (0x400 + 8 * (x - 16) + ·) ++ (List.range 8).map (0x500 + 8 * (x - 16) + ·)

/-- Routed channels of a domain, lowest first. -/
def State.routed (s : State) (x : Nat) : List Nat := (domainChans x).filter fun c => (s.audRoute c).inp ≠ chSilence

/-- The lead of a domain (R351). -/
def State.leadOf (s : State) (x : Nat) : Option Nat := (s.routed x).head?

/-- Nominal rate of an input channel; 0 where none is configured. -/
def State.inRate (s : State) (c : Nat) : Nat :=
  if c < 0x80 then (if (s.tdm (c / 32) true).run then (s.tdm (c / 32) true).rate else 0)
  else if (inSlot c).isSome then 48000 else 0

/-- Oscillator of an output domain, if it has one: 0 to 3, and 8 to 11 for DisplayPort. -/
def domainOsc (x : Nat) : Option Nat := if x < 4 then some x else if x < 8 then some (x + 4) else none

/-- Rate of an output channel; 0 where the domain has none yet. -/
def State.outRate (s : State) (c : Nat) : Nat :=
  if c < 0x80 then (if (s.tdm (c / 32) false).run then (s.tdm (c / 32) false).rate else 0)
  else match outDomain c with
    | some x => if 4 ≤ x && x < 8 then (s.osc (x + 4)).rate else 48000
    | none => 0

/-- Frame length of a direction in bit clocks (R347). -/
def TdmDir.len (d : TdmDir) : Nat := d.slots * d.width

/-! ### Sample times (R345) -/

/-- Device time in thirds of a ns: the unit of this file's times, in which the 48 kHz grid is whole. -/
def State.now3 (s : State) : Nat := 3 * s.tme.t / nsU

/-- Point `k` of the 48 kHz grid of device time, k / 48,000 s. -/
def grid3 (k : Nat) : Nat := k * 62500

/-- MIN of an input, in ns. -/
def State.minDelay (s : State) (c : Nat) : Nat :=
  if c < 0x80 then
    let d := s.tdm (c / 32) true
    let bit := max 1 (d.rate * d.len)
    cdiv 1000000000 (max 1 d.rate) + cdiv (d.offset * 1000000000) bit + 2000
  else if c < 0x400 then 2000000 else 3000000

/-- Presentation delay of output channel `c` with its present input. -/
def State.presentDelay (s : State) (c : Nat) : Nat := 3 * max ((s.audRoute c).delay * 1000) (s.minDelay (s.audRoute c).inp)

/-- ⌊x × gain / 16,384⌋ to nearest, ties to even, saturated to 32 bits (R343). -/
def rneInt (n : Int) (d : Nat) : Int :=
  let q := n / d
  let r := 2 * (n % d)
  if r > d || (r = d && q % 2 = 1) then q + 1 else q
def sat (w : Nat) (z : Int) : Int := max (-(2 ^ (w - 1))) (min (2 ^ (w - 1) - 1) z)
def gained (x gain : Int) : Int := sat 32 (rneInt (x * gain) 16384)

/-- A `w`-bit sample enters at the top of the word; a word leaves as its top `w` bits (R344). -/
def enter (w : Nat) (v : Nat) : Int := signed w v * 2 ^ (32 - w)
def leave (w : Nat) (z : Int) : Int := sat w (rneInt z (2 ^ (32 - w)))

/-- The input of a channel can deliver: its direction runs with a clock, or its stream's encoding is the channel's (R346, R354). -/
def State.inLive (s : State) (c : Nat) : Bool :=
  if c < 0x80 then (s.tdm (c / 32) true).run && !s.bit ⟨Reg.TDM_STAT (c / 32), 6, 6⟩
  else if 0x400 ≤ c then vget s.aud.l16 (c % 0x100 / 8) = (0x500 ≤ c : Bool)
  else true

/-- Frames of an input that have arrived, newest first, with `new` among those at hand: they take the place of frames of the same times. What
lies 600 ms or more from them is no longer needed (R357). -/
def mergeFrames (new old : List (Nat × List Int)) : List (Nat × List Int) :=
  match new.head?, new.getLast? with
  | some a, some b =>
    (old.filter fun f => a.1 < f.1 && f.1 < a.1 + 1800000000) ++ new ++ (old.filter fun f => f.1 < b.1 && b.1 < f.1 + 1800000000)
  | _, _ => old

/-- The capture time of the sample after `f` of input list `l`: that of the one at hand, else as far on as `f` is from the one before it, a
period of the rate where that is not known (DEDUCED, log entry 39). -/
def nextCapture (l : List (Nat × List Int)) (f rate : Nat) : Nat :=
  match (l.filter fun q => f < q.1).getLast?, l.find? fun q => q.1 < f with
  | some q, _ => q.1
  | none, some p => if (f - p.1) * rate ≤ 4500000000 then 2 * f - p.1 else f + 3000000000 / max 1 rate
  | none, none => f + 3000000000 / max 1 rate

/-- What a channel takes in an output frame at `out` of rate `rate`: the sample, its capture time, and flags 1 SLIP, 2 LATE, 4 LOST
(R346). -/
def State.takeSample (s : State) (c out rate : Nat) : Int × Option Nat × Nat :=
  let r := s.audRoute c
  let half (n p : Nat) : Bool := 2 * p * rate ≤ 2 * out * rate + n
  match inSlot r.inp with
  | none => (0, none, 0)
  | some (k, i) =>
    let l := vget s.aud.ins k
    let dl := s.presentDelay c
    match l.head?, l.find? fun f => half 3000000000 (f.1 + dl) with
    | some n, some f =>
      if !s.inLive r.inp || (n.1 + dl) * rate + 6000000000 < out * rate then (0, none, 4)
      else if n.1 = f.1 && half 3000000000 (nextCapture l f.1 rate + dl) then (0, r.prev, 2)
      else
        let moved := match r.prev with
          | some p => (l.filter fun q => p < q.1 && q.1 ≤ f.1).length
          | none => 1
        (gained (f.2.getD i 0) r.gain, some f.1, if moved = 1 then 0 else 1)
    | _, _ => (0, none, 4)

/-! ### Oscillators (R350 to R352) -/

/-- The nominal frequency word of a bit clock in Hz. -/
def nomWord (hz : Nat) : Nat := (hz * 2 ^ 32 + 50000000) / 100000000

/-- The word of oscillator `d` with its present offset. -/
def State.oscWord (s : State) (d : Nat) : Nat :=
  let o := s.osc d
  (roundQ ((nomWord (o.rate * o.bits) : Int) * (10 ^ 12 + o.fi + o.fp)) (10 ^ 12)).toNat

def State.showOsc (s : State) (d : Nat) : State := s.put (Fd.AUD_NCO_WORD d) (s.oscWord d)

/-- Root-clock time in units of 2^-32 ns. -/
def State.rootTime (s : State) : Nat := s.clk.now * 2 * 2 ^ 32

/-- One ACLK cycle in those units. -/
def aclkU : Nat := 10 * 2 ^ 32

/-- Where the accumulator of oscillator `d` starts its next frame. -/
def State.oscNext (s : State) (d : Nat) : Nat :=
  let o := s.osc d
  if o.ran then o.last + (o.bits * 2 ^ 32 - o.acc) * aclkU / max 1 (s.oscWord d) else s.rootTime

/-- The accumulator of oscillator `d` has added the present word at every ACLK edge until now: another word acts from here on (R350). -/
def State.oscHold (s : State) (d : Nat) : State :=
  let o := s.osc d
  let n := (s.rootTime - o.last) / aclkU
  s.modOsc d fun o => { o with last := o.last + n * aclkU, acc := o.acc + n * s.oscWord d }

/-- The first point of the 2.5 ns PCLK grid at or after a root-clock time: where an edge is placed (R350; DEDUCED, log entry 39). -/
def State.pclkUp (s : State) (n : Nat) : Nat :=
  let b := s.clk.beat0 * 2 ^ 33
  b + cdiv (n - b) (5 * 2 ^ 31) * (5 * 2 ^ 31)

/-- Half bit clocks of oscillator `d`'s present frame whose edges have been placed by now. -/
def State.oscHalves (s : State) (d : Nat) : Nat :=
  let o := s.osc d
  let b := s.clk.beat0 * 2 ^ 33
  let t := b + (s.rootTime - b) / (5 * 2 ^ 31) * (5 * 2 ^ 31)
  2 * (o.acc * aclkU + (t - o.last) * s.oscWord d) / (2 ^ 32 * aclkU)

/-- Levels of bit clock and FS that a master direction of port `p` drives: FS changes on falling edges, and is active at the first WIDTH
rising edges of a frame (R347, R350). -/
def State.tdmLevels (s : State) (p : Nat) (rx : Bool) : Bool × Bool :=
  let k := if rx then 4 + p else p
  let d := s.tdm p rx
  let h := s.oscHalves k
  if !(s.osc k).ran || (s.osc k).gap.isSome then (false, d.falling) else (h % 2 = 0, ((h + 1) / 2 % max 1 d.len < d.width) != d.falling)

/-- Index of the first frame of device time at or after `t` for a rate, as (second, index). -/
def framePos (rate t : Nat) : Nat × Nat :=
  let k := cdiv (t % 3000000000 * rate) 3000000000
  if k ≥ rate then (t / 3000000000 + 1, 0) else (t / 3000000000, k)

/-- Device time of frame `k` of second `sec`. -/
def frameAt (rate sec k : Nat) : Nat := sec * 3000000000 + cdiv (k * 3000000000) (max 1 rate)

/-- The slave receive direction by which oscillator `d` is steered, with the lead channel (R351). -/
def State.steeredBy (s : State) (d : Nat) : Option Nat :=
  if 4 ≤ d && d < 8 then none
  else
    let x := if d < 4 then d else d - 4
    match s.leadOf x with
    | some c =>
      let i := (s.audRoute c).inp
      if i < 0x80 && !(s.tdm (i / 32) true).master then some c else none
    | none => none

/-- Start oscillator `d` at a rate. -/
def State.oscStart (s : State) (d rate bits : Nat) : State :=
  ((s.modOsc d fun _ => { on := true, rate := rate, bits := bits }).put (Fd.AUD_NSTAT_LOCK d) 0).showOsc d

/-- The capture time of the first sample of lead `c` that is due at or after `t0` (R351). -/
def State.leadFrom (s : State) (c t0 : Nat) : Option Nat :=
  ((vget s.aud.ins ((s.audRoute c).inp / 32)).reverse.find? fun f => t0 ≤ f.1 + s.presentDelay c).map (·.1)

/-- Device time at which oscillator `d` restarts on its target phase after a re-phase at `t0` (R352); none: not known yet. -/
def State.rephaseAt (s : State) (d t0 : Nat) : Option Nat :=
  match s.steeredBy d with
  | some c => (s.leadFrom c t0).map (· + s.presentDelay c)
  | none => let p := framePos (s.osc d).rate t0; some (frameAt (s.osc d).rate p.1 p.2)

/-- The frame of oscillator `d` that is due now: where its accumulator starts it, and the device time of its edge. -/
def State.oscDue (s : State) (d : Nat) : Option (Nat × Nat) :=
  let o := s.osc d
  if !o.on then none
  else match o.gap with
    | some t0 => match s.rephaseAt d t0 with
      | some r => if r ≤ s.now3 then some (s.rootTime - (s.now3 - r) * 2 ^ 32 / 3, r) else none
      | none => none
    | none =>
      let e := s.pclkUp (s.oscNext d)
      if e ≤ s.rootTime then some (s.oscNext d, s.now3 - 3 * (s.rootTime - e) / 2 ^ 32) else none

/-- Oscillator `d` starts a frame if it is due: its target moves on by one frame. -/
def State.oscFrame (s : State) (d : Nat) : Bool × State :=
  match s.oscDue d with
  | none => (false, s)
  | some (n, out) =>
    let o := s.osc d
    let p := if o.ran && o.gap.isNone then (if o.tK + 1 ≥ o.rate then (o.tSec + 1, 0) else (o.tSec, o.tK + 1)) else framePos o.rate out
    let next (c : Nat) : Option Nat :=
      let l := vget s.aud.ins ((s.audRoute c).inp / 32)
      match o.gap, o.leadC with
      | some t0, _ => s.leadFrom c t0
      | none, some t => ((l.reverse.find? fun f => f.1 > t).map (·.1)).orElse fun _ => some t
      | none, none => (l.find? fun f => f.1 + s.presentDelay c ≤ out).map (·.1)
    (true, s.modOsc d fun o => { o with last := n, acc := 0, out := out, ran := true, tSec := p.1, tK := p.2, gap := none
                                        leadC := (s.steeredBy d).bind next })

/-- The phase error of oscillator `d`'s present frame: positive where the frame is ahead of its target, as plumb's e is where device time is
ahead (R352, R394; DEDUCED, log entry 39). -/
def State.oscError (s : State) (d : Nat) : Int :=
  let o := s.osc d
  match s.steeredBy d, o.leadC with
  | some c, some t => (t + s.presentDelay c : Nat) - (o.out : Int)
  | _, _ => (frameAt o.rate o.tSec o.tK : Int) - o.out

/-- A re-phase of oscillator `d` ends its current frame and sends 0 until it restarts (R352). -/
def State.cutFrame (s : State) (d : Nat) : State :=
  if d < 8 then (s.drive (.tdm (d % 4) (4 ≤ d) [] [])).modTdm (d % 4) (4 ≤ d) fun t => { t with tail := List.replicate t.offset false }
  else s.emit (.dpAudio (d - 8) (s.osc d).rate 0 0 [])

/-- NCO_LOOP_UPDATE of oscillator `d`, once a millisecond of device time (R352). -/
def State.oscLoop (s : State) (d : Nat) : State :=
  let o := s.osc d
  match (s.crossed (s.ns / 1000000 * 1000000)).filter fun r => vget s.aud.loopAt d < r with
  | none => s
  | some run =>
    if !o.on || !o.ran then s
    else
      let e := s.oscError d
      let s0 := ((s.oscHold d).modAud fun a => { a with loopAt := vmod a.loopAt d fun _ => run }).putB (Fd.AUD_NSTAT_DEVICE d) (s.steeredBy d).isNone
      if e.natAbs > 3000000 then
        (((s0.bump (Fd.AUD_NSTAT_REPHASE d)).put (Fd.AUD_NSTAT_LOCK d) 0).modOsc d fun o => { o with gap := some s.now3, good := 0 }).cutFrame d
      else
        let b := [1, 10, 100].getD (s.get Fd.AUD_LOOP_BW) 10
        let dFi := roundQ (e * 1000 * b * b * twoPiN * twoPiN) (3 * 100 * 1000 * twoPiD * twoPiD)
        let fp := roundQ (-2 * e * 1000 * b * twoPiN) (3 * 10 * twoPiD)
        let span : Int := s.get Fd.AUD_LOOP_SPAN * 1000000
        let fi := o.fi - dFi
        let sum := max (-span) (min span (fi + fp))
        let good := if e.natAbs < 3000 then o.good + 1 else 0
        let s1 := (s0.modOsc d fun o => { o with fi := fi, fp := sum - fi, good := good }).showOsc d
        if e.natAbs > 30000 then s1.put (Fd.AUD_NSTAT_LOCK d) 0
        else if good ≥ 100 then s1.put (Fd.AUD_NSTAT_LOCK d) 1 else s1

/-! ### Output frames (R346) -/

/-- Routes of a domain that wait and whose boundary the frame at `out` has reached take effect (R270, R343). -/
def State.applyRoutes (s : State) (x out : Nat) : State :=
  s.each (domainChans x) fun s c =>
    match (s.audRoute c).pend with
    | some (i, g, b, o) =>
      if b ≤ out then (s.modRoute c fun r => { r with inp := i, gain := g, pend := none, prev := none }).finish o 0 else s
    | none => s

/-- Encoding of a transmit stream: the plane of its lowest routed channel (R354). -/
def State.txL16 (s : State) (g : Nat) : Bool := (s.leadOf (16 + g)).any fun c => 0x500 ≤ c

/-- Form the frame of domain `x` at `out` with a frame rate. -/
def State.formFrame (s : State) (x out rate : Nat) : AudFrame × State :=
  let s0 := s.applyRoutes x out
  let chans := s0.routed x
  let wrong (c : Nat) : Bool := x ≥ 16 && ((0x500 ≤ c : Bool) ≠ s0.txL16 (x - 16))
  let got := chans.map fun c => (c, if wrong c then (0, none, 4) else s0.takeSample c out rate)
  let place (i : Nat) : Int := ((got.find? fun q => outPlace q.1 = i && !wrong q.1).map fun q => q.2.1).getD 0
  let flags := got.foldl (fun f q => f ||| q.2.2.2) 0
  let s1 := s0.each got fun s q => s.modRoute q.1 fun r => { r with prev := q.2.2.1 }
  let count (f : Nat) : Nat := (got.filter fun q => bitAt q.2.2.2 f).length
  let s2 := ((s1.bump (Fd.AUD_OCNT_SLIP x) (count 0)).bump (Fd.AUD_OCNT_LATE x) (count 1)).bump (Fd.AUD_OCNT_LOST x) (if count 2 > 0 then 1 else 0)
  ({ out := out, samples := (List.range (if x < 4 then 32 else 8)).map place, flags := flags }, s2)

/-- Keep a formed frame for its domain. -/
def State.keepFrame (s : State) (x : Nat) (f : AudFrame) : State :=
  s.modAud fun a => { a with frames := vmod a.frames x fun l => if x < 8 then [f] else l ++ [f] }

/-- Channels a DisplayPort domain or a stream carries (R353, R354). -/
def State.channelCount (s : State) (x : Nat) : Nat :=
  let top := (s.routed x).foldl (fun m c => max m (c % 8 + 1)) 0
  if x < 8 then max 2 top else top

/-- Link symbol clock in Hz of a DisplayPort rate code, and the Maud that says the sample rate against it with Naud 32,768: 512 × rate =
Maud / Naud × symbol clock (R353; PRESUMED, DisplayPort 1.4a, log entry 60). -/
def dpSymbol (r : Nat) : Nat := [162000000, 270000000, 540000000, 810000000].getD r 1
def dpMaud (rate r : Nat) : Nat := (512 * rate * 32768 + dpSymbol r / 2) / dpSymbol r

/-- AUDIO_OUTPUT_FRAME of domain `x` (R346): of a TDM transmit port the frame that its next frame sync starts, of a DisplayPort
domain the frame its oscillator starts, of the others the next point of the 48 kHz grid. -/
def State.outputFrame (s : State) (x : Nat) : State :=
  if !s.ready rAUD then s
  else if x < 4 then
    let d := s.tdm x false
    if !d.run then s
    else
      let due := if d.master then (s.oscDue x).map (·.2) else some s.now3
      match (if (vget s.aud.frames x).isEmpty then due else none) with
      | none => s
      | some out =>
        let (f, s1) := s.formFrame x out d.rate
        s1.keepFrame x f
  else if x < 8 then
    let (go, s1) := s.oscFrame (x + 4)
    if !go then s
    else
      let o := s1.osc (x + 4)
      let (f, s2) := s1.formFrame x o.out o.rate
      let s3 := s2.keepFrame x f
      let rate := s.get (Fd.DPO_STAT_RATE (x - 4))
      if s.bit (Fd.DPO_STAT_TRAINED (x - 4)) then
        s3.emit (.dpAudio (x - 4) o.rate (dpMaud o.rate rate) 32768 ((f.samples.take (s3.channelCount x)).map (leave 24)))
      else s3
  else
    let k := s.now3 / 62500
    match (s.crossed (cdiv (grid3 k) 3)).filter fun r => vget s.aud.grid x < r with
    | none => s
    | some run =>
      let s1 := s.modAud fun a => { a with grid := vmod a.grid x fun _ => run }
      let s2 := s1.applyRoutes x (grid3 k)
      if (s2.routed x).isEmpty then s2
      else
        let (f, s3) := s2.formFrame x (grid3 k) 48000
        s3.keepFrame x f

/-! ### TDM ports (R347 to R349) -/

/-- The bits of a `w`-bit value, MSB first. -/
def msbBits (w n : Nat) : List Bool := (List.range w).map fun i => bitAt n (w - 1 - i)

/-- FS over the bit clocks of a master's frame: active for the first WIDTH of them, inverted by FLAGS bit 1 (R347). -/
def TdmDir.fsBits (d : TdmDir) : List Bool := if d.master then (List.range d.len).map fun b => decide (b < d.width) != d.falling else []

/-- TDM_TX_FRAME of port `p`: the frame starts, with the tail of the last frame in its first OFFSET bit clocks and its slots from there on. -/
def State.tdmTx (s : State) (p : Nat) : State :=
  let d := s.tdm p false
  if !d.run then s
  else
    let (go, s1) := if d.master then s.oscFrame p else (true, s.put ⟨Reg.TDM_STAT p, 2, 2⟩ 0)
    if !go then s
    else
      let f := (vget s.aud.frames p).head?
      let value (i : Nat) : Int := if d.first then 0 else leave d.width ((f.map fun f => f.samples.getD i 0).getD 0)
      let bits := (List.range d.slots).flatMap fun i => msbBits d.width (unsigned d.width (value i))
      let head := d.len - d.offset
      let data := if s.ready rAUD then d.tail ++ bits.take head else List.replicate d.len false
      let next := if s.ready rAUD then bits.drop head else List.replicate d.offset false
      ((s1.modTdm p false fun d => { d with first := false, tail := next }).modAud fun a =>
        { a with frames := vmod a.frames p fun _ => [] }).drive (.tdm p false d.fsBits data)

/-- TDM_RX_FRAME of port `p`: a frame of `clocks` bit clocks that started `ago` steps ago has delivered its slots. -/
def State.tdmRx (s : State) (p clocks ago : Nat) (slots : List Nat) : State :=
  let d := s.tdm p true
  if !d.run || !s.ready rAUD then s
  else
    let bad := clocks ≠ d.len
    let v := (List.range d.slots).map fun i => if bad then (0 : Int) else enter d.width (slots.getD i 0)
    let c := 3 * s.timeAgo ago / nsU
    let s1 := (s.when bad fun s => s.bump ⟨Reg.TDM_STAT p, 31, 24⟩).put ⟨Reg.TDM_STAT p, 6, 6⟩ 0
    s1.modAud fun a => { a with ins := vmod a.ins p fun l => mergeFrames [(c, v)] (l.filter (·.1 < c)) }

/-- TDM_CLOCK_LOST of a slave direction: transmit data is held at 0 (R348). -/
def State.tdmLost (s : State) (p : Nat) (rx : Bool) : State :=
  if (s.tdm p rx).run && !(s.tdm p rx).master then
    (s.put ⟨Reg.TDM_STAT p, if rx then 6 else 2, if rx then 6 else 2⟩ 1).when (!rx) fun s =>
      (s.modTdm p false fun d => { d with tail := List.replicate d.offset false }).drive (.tdm p false [] [])
  else s

/-- TDM_RATE_CHECK: the frame rate measured over the last 1 ms, in mHz (R348). -/
def State.tdmRate (s : State) (p : Nat) (rx : Bool) (mhz : Nat) : State :=
  let d := s.tdm p rx
  if !d.run || d.master then s
  else
    let nom := d.rate * 1000
    let off := if mhz < nom then nom - mhz else mhz - nom
    s.putB ⟨Reg.TDM_STAT p, if rx then 7 else 3, if rx then 7 else 3⟩ (off * 1000 > nom)

/-- Frames of master receive directions start by their oscillators (R350). -/
def State.audTick (s : State) : State :=
  s.each (List.range 4) fun s p =>
    if !(s.osc (4 + p)).on then s
    else
      let (go, s1) := s.oscFrame (4 + p)
      if go then s1.drive (.tdm p true (s1.tdm p true).fsBits []) else s

/-! ### Records and streams (R354 to R356) -/

/-- AUDIO_CAPTURE_EMIT of domain `x` (8 to 23): the record of the millisecond that is due; samples before the first route of the
millisecond took effect are 0. -/
def State.captureEmit (s : State) (x : Nat) : State :=
  let wait := 1000000 + 2000 + (x - 8) * 50000
  let ms := (s.ns - wait) / 1000000
  match (s.crossed (wait + ms * 1000000)).filter fun r => vget s.aud.sent x < r with
  | none => s
  | some run =>
    if x < 8 || s.ns < wait || !s.ready rAUD then s
    else
      let first := ms * 1000000
      let t0 := 3 * first
      let mine := ((vget s.aud.frames x).filter fun f => t0 ≤ f.out && f.out < t0 + 3000000).reverse
      let s1 := s.modAud fun a => { a with sent := vmod a.sent x fun _ => run
                                           frames := vmod a.frames x fun l => l.filter fun f => t0 + 3000000 ≤ f.out && f.out ≤ s.now3 }
      if mine.isEmpty || (s.routed x).isEmpty then s1
      else
        let at_ (i : Nat) : AudFrame := (mine.find? fun f => f.out = t0 + grid3 i).getD { out := 0, samples := [], flags := 0 }
        let fs := (List.range 48).map at_
        let flags := mine.foldl (fun f q => f ||| q.flags) 0
        let head (len kind : Nat) : List Byte :=
          natLe 2 len ++ natLe 1 kind ++ natLe 1 (x % 8) ++ natLe 2 flags ++ natLe 6 (first / 1000000000) ++ natLe 4 (first % 1000000000)
        let push (s : State) (l : List Byte) : State :=
          s.each (granules (l.length / 16 + 1) l) fun s g => s.pushEnd 0x1C1 g
        if x < 16 then
          push s1 (head 1536 1 ++ fs.flatMap fun f => (List.range 8).flatMap fun k => natLe 4 (unsigned 32 (f.samples.getD k 0)))
        else
          let g := x - 16
          let w := if s.txL16 g then 16 else 24
          let n := s.channelCount x
          let ssrc := s.get Fd.JNC_NODE_NODE_ID * 256 + 0x30 + g
          let ts := first * 48000 / 1000000000 % 2 ^ 32
          let rtp := natBe 1 0x80 ++ natBe 1 97 ++ natBe 2 (vget s.aud.seq g) ++ natBe 4 ts ++ natBe 4 ssrc ++
            fs.flatMap fun f => (List.range n).flatMap fun k => natBe (w / 8) (unsigned w (leave w (f.samples.getD k 0)))
          let rec_ := head rtp.length 2 ++ rtp
          push (s1.modAud fun a => { a with seq := vmod a.seq g fun q => (q + 1) % 65536 })
            (rec_ ++ List.replicate ((16 - rec_.length % 16) % 16) 0)

/-- AUDIO_RECORD_IN: the first record of audio router out (R355, R356). -/
def State.recordIn (s : State) : State :=
  let e := s.endp 0x1C0
  let bytes := s.aud.part ++ e.fifo.flatMap (·.bytes)
  let len := fieldAt bytes 0 2
  let kind := fieldAt bytes 2 1
  let g := fieldAt bytes 3 1
  let whole := 16 + (len + 15) / 16 * 16
  let s0 := s.modEnd 0x1C0 fun e => { e with fifo := [] }
  if !s.ready rAUD || bytes.length < 16 || bytes.length < whole then s0.modAud fun a => { a with part := bytes }
  else
    let data := (bytes.drop 16).take len
    let s1 := s0.modAud fun a => { a with part := bytes.drop whole }
    if g > 7 || !((kind = 1 && len = 1536) || (kind = 2 && 12 ≤ len)) then s1.bump Fd.AUD_STAT_BAD_REC
    else if kind = 2 then s1.modAud fun a => { a with rtp := a.rtp ++ [(g, data)] }
    else
      let t := fieldAt bytes 6 6 * 1000000000 + fieldAt bytes 12 4
      let frame (i : Nat) : Nat × List Int :=
        (3 * t + grid3 i, (List.range 8).map fun k => signed 32 (fieldAt data (4 * (8 * i + k)) 4))
      let new := (List.range 48).map frame
      s1.modAud fun a => { a with ins := vmod a.ins (4 + g) fun l => mergeFrames new.reverse l }

/-- Encoding by which receive stream `g` is read: the plane of the lowest-numbered channel routed from it (R354). -/
def State.rxPlane (s : State) (g : Nat) : Bool :=
  let uses (base : Nat) : Bool := s.aud.routes.any fun r => base + 8 * g ≤ r.2.inp && r.2.inp < base + 8 * g + 8
  !uses 0x400 && uses 0x500

/-- ST2110_30_PACKET_IN: the oldest RTP packet taken (R354). -/
def State.packetIn (s : State) : State :=
  match s.aud.rtp with
  | [] => s
  | (g, p) :: rest =>
    let s0 := s.modAud fun a => { a with rtp := rest }
    let pt := fieldAt p 1 1 % 128
    let l16 := s.rxPlane g
    let w := if l16 then 2 else 3
    let n := (p.length - 12) / (48 * w)
    if pt < 96 then s0.bump Fd.AUD_STAT_BAD_REC
    else if n = 0 || n > 8 || (p.length - 12) ≠ n * 48 * w then s0.bump Fd.AUD_STAT_BAD_REC
    else
      let ts := beNat ((p.drop 4).take 4)
      let now48 := s.now3 / 62500
      let frame (i : Nat) : Nat × List Int :=
        let d := signed 32 ((ts + i + 2 ^ 32 - now48 % 2 ^ 32) % 2 ^ 32)
        let k := ((now48 : Int) + d).toNat
        (grid3 k,
          (List.range n).map fun c => enter (8 * w) (beNat ((p.drop (12 + (i * n + c) * w)).take w)))
      let new := ((List.range 48).map frame).reverse
      s0.modAud fun a => { a with l16 := vmod a.l16 g fun _ => l16
                                  ins := vmod a.ins (12 + g) fun l => mergeFrames new l }
/-! ### Commands (R343, R351, R357) -/

/-- Store that output channel `c` uses with input `i` and delay `us` (R357). -/
def State.storeUse (s : State) (c i us : Nat) : Nat :=
  if i = chSilence then 0
  else cdiv ((max (us * 1000) (s.minDelay i) + 2000000) * (if s.outRate c = 0 then s.inRate i else s.outRate c)) 1000000000

/-- The input of a route once the change that waits for its boundary has taken place. -/
def AudRoute.next (r : AudRoute) : Nat := match r.pend with | some p => p.1 | none => r.inp

/-- Store that every route in force or waiting uses. -/
def State.storeAll (s : State) : Nat := s.aud.routes.foldl (fun n r => n + s.storeUse r.1 r.2.next r.2.delay) 0

/-- AUD_STAT.DELAY_USED follows the routes, delays and rates (R357). -/
def State.showStore (s : State) : State := s.put Fd.AUD_STAT_DELAY_USED (min 524288 s.storeAll)

/-- A valid AUD_TDM_CFG: the direction restarts and keeps its routes (R347, R349). -/
def State.tdmCfg (s : State) (p : Nat) (rx : Bool) (d : TdmDir) : State :=
  let k := if rx then 4 + p else p
  let b (i : Nat) : Fld := ⟨Reg.TDM_STAT p, if rx then i + 4 else i, if rx then i + 4 else i⟩
  let s1 := (((s.modTdm p rx fun _ => { d with run := true, tail := List.replicate d.offset false }).put (b 0) 1).putB (b 1) d.master).put (b 2) 0
  let s2 := (s1.put (b 3) 0).modAud fun a => if rx then { a with ins := vmod a.ins p fun _ => [] } else { a with frames := vmod a.frames p fun _ => [] }
  (if d.master then s2.oscStart k d.rate d.len else (s2.modOsc k fun _ => {}).put (Fd.AUD_NCO_WORD k) 0).showStore

/-- The audio routes, and the rates of the DisplayPort domains, as they will stand after the AUD_ROUTEs among the effects `l` (R271). -/
def State.audAfter (s : State) (l : List Sched) : State :=
  l.foldl (fun s e => match e.eff with
    | .audRoute out inp _ =>
      let s1 := s.modRoute out fun r => { r with inp := inp, pend := none }
      match outDomain out with
      | some x => if 4 ≤ x && x < 8 && inp ≠ chSilence && (s.osc (x + 4)).rate = 0 then s1.modOsc (x + 4) fun o => { o with rate := s.inRate inp } else s1
      | none => s1
    | _ => s) s

/-- The store suffices now and after each of the effects `l` in turn (R357). -/
def State.audFits (s : State) : List Sched → Bool
  | [] => s.storeAll ≤ 524288
  | e :: l => s.storeAll ≤ 524288 && (s.audAfter [e]).audFits l

/-- AUD_ROUTE's input and output may be joined, under the rates that every route accepted so far gives the DisplayPort domains (R343, R351). -/
def State.audRouteOk (s : State) (out inp : Nat) : Bool :=
  (outDomain out).isSome && (inp = chSilence ||
    ((inSlot inp).isSome && s.inRate inp ≠ 0 &&
      (s.inRate inp = s.outRate out ||
        (0x200 ≤ out && out < 0x220 && s.outRate out = 0 && [32000, 44100, 48000, 88200, 96000, 176400, 192000].contains (s.inRate inp)))))

/-- The measure boundary of a route has come: it takes effect at the first output frame from here on. One that still waits for its frame has
been overtaken (R270, R271, R343). A DisplayPort domain without a clock has no frame to wait for. -/
def State.audRouteAt (s : State) (out inp : Nat) (gain : Int) (by_ : Option Origin) : State :=
  let s0 := match (s.audRoute out).pend with
    | some (_, _, _, o) => s.finish o 0
    | none => s
  let s1 := s0.modRoute out fun r => { r with pend := some (inp, gain, s.now3, by_) }
  let s2 := match outDomain out with
    | some x => if 4 ≤ x && x < 8 && inp ≠ chSilence && (s.osc (x + 4)).rate = 0 then s1.oscStart (x + 4) (s.inRate inp) 1 else s1
    | none => s1
  let s3 := s2.showStore
  match outDomain out with
  | some x => if 4 ≤ x && x < 8 && !(s3.osc (x + 4)).on then s3.applyRoutes x s.now3 else s3
  | none => s3

/-- AUD_DELAY (R357). -/
def State.audDelay (s : State) (out us : Nat) : State :=
  (s.modRoute out fun r => { r with delay := us }).showStore

end Sys2Proof.Machine
end

