-- ==== Sys2Proof/Machine/Measures.lean ====
section
/-! DEFINITION. What the effects already accepted will make of the figure at a measure (02): their order, the parts that will run and the
geometry. -/

namespace Sys2Proof.Machine

/-! ### What will hold at a measure (R71, R271) -/

/-- The place of an effect in the order of R271. -/
def Effect.rank : Effect → Nat
  | .grantPhase .. | .grantPorts .. | .grantNet .. | .grantKeys .. | .shareMake .. | .shareRevoke .. => 0
  | .bayPark _ | .bayWake _ | .bayResume _ | .partRemove _ | .bayDelete .. => 1
  | .commit _ => 2
  | .routeSet .. => 3
  | .layerCommit .. | .audRoute .. | .sealStart .. | .sealStop _ => 4

/-- An effect that is due by measure `k` of period `p`. -/
def Sched.by (e : Sched) (p k : Nat) : Bool :=
  if e.period = p then e.measure ≤ k else timePoint e.period e.measure ≤ timePoint p k

/-- Put a scheduled effect behind every one that takes place no later (by time point, then R271's order). -/
def insertSched (e : Sched) : List Sched → List Sched
  | [] => [e]
  | x :: t =>
    let tx := timePoint x.period x.measure
    let te := timePoint e.period e.measure
    if te < tx || (te = tx && e.eff.rank < x.eff.rank) then e :: x :: t else x :: insertSched e t

/-- The effects due by measure `k`, in the order in which they take place. -/
def State.dueBy (s : State) (p k : Nat) : List Sched := (s.fw.sched.filter (·.by p k)).foldl (fun l e => insertSched e l) []

/-- The part that bay `b` runs after its commits for measure `m`: of several, the one taken last (R71, R271). -/
def State.committed (s : State) (b m : Nat) : Option Part := (s.fig.commits.reverse.find? fun c => c.1 = b && c.2.1 = m).map (·.2.2)

/-- Bay `b`'s part, with the carry regions it starts from, after one scheduled effect, given what ran before. -/
def State.partAfter (s : State) (b : Nat) (q : Option Load.Mate) (e : Sched) : Option Load.Mate :=
  match e.eff with
  | .commit x =>
    if x = b then ((s.committed b e.measure).filter fun p => !p.acts.isEmpty).map fun p => Load.mateOf p ((q.map (·.2)).getD []) else q
  | .bayPark x | .partRemove x | .bayDelete x _ => if x = b then none else q
  | .bayWake x => if x = b then (s.bayRec b).parked.map fun p => Load.mateOf p.1 p.2 else q
  | _ => q

/-- The part that bay `b` runs now, with its carry regions. -/
def State.mate (s : State) (b : Nat) : Option Load.Mate := (s.part b).map fun p => (p, vget s.fig.carry b)

/-- Bay `b`'s part at measure `k` of period `p` (R71). -/
def State.mateAt (s : State) (p k b : Nat) : Option Load.Mate := (s.dueBy p k).foldl (s.partAfter b) (s.mate b)

/-- The parts of the bays other than `b` that will run at measure `k` (R71). -/
def State.partsAt (s : State) (p k b : Nat) : List Load.Mate := ((List.range 8).filter (· ≠ b)).filterMap (s.mateAt p k)

/-- The geometry in force at measure `k` after the commits already accepted (R75). -/
def State.geomAt (s : State) (p k : Nat) : Option Geom :=
  if (List.range 8).all fun b => (s.mateAt p k b).isNone then none
  else
    let last := (s.dueBy p k).reverse.findSome? fun e => match e.eff with
      | .commit b => ((s.committed b e.measure).filter fun q => !q.acts.isEmpty).map (·.geom)
      | _ => none
    if last.isSome then last else s.fig.geom

/-- A scheduled effect is due at the boundary that starts now: by its number, or where the period has changed or no figure runs by its
time point. With no figure running a ROUTE_SET waits for the first boundary after a commit (R278). -/
def State.effectDue (s : State) (e : Sched) : Bool :=
  match s.fig.geom with
  | some g => if e.period = g.period then e.measure ≤ s.fig.measure else timePoint e.period e.measure ≤ s.tme.t
  | none => timePoint e.period e.measure ≤ s.tme.t && (match e.eff with
    | .routeSet _ _ => s.fw.sched.any fun x => x.eff.rank = 2 && timePoint x.period x.measure ≤ s.tme.t
    | _ => true)

/-- The parts that run beside bay `b`'s once every effect of the boundary that starts now has taken place (R71, R210). -/
def State.partsDue (s : State) (b : Nat) : List Load.Mate :=
  let due := (s.fw.sched.filter s.effectDue).foldl (fun l e => insertSched e l) []
  ((List.range 8).filter (· ≠ b)).filterMap fun x => due.foldl (s.partAfter x) (s.mate x)

/-- The parts that run from the next boundary on, with their geometry, as the effects accepted until now will leave them (R72, R155). -/
def State.nextParts (s : State) (g : Geom) : List Part × Option Geom :=
  let k := s.fig.measure + 1
  (((List.range 8).filterMap (s.mateAt g.period k)).map (·.1), s.geomAt g.period k)

end Sys2Proof.Machine
end

