-- ==== Sys2Proof/Machine/Background.lean ====
section
/-! DEFINITION. Work outside the figure (05): open steps, patrol scrub, write-back, the bank port, the DDR port, refresh, ZQ and PHY
calibration, and the bus matrix. -/

namespace Sys2Proof.Machine

def State.modField (s : State) (f : BankField → BankField) : State := { s with field := f s.field }
def State.modDdr (s : State) (f : DdrCtl → DdrCtl) : State := { s with ddrCtl := f s.ddrCtl }
def State.modBxm (s : State) (f : Bxm → Bxm) : State := { s with bxm := f s.bxm }

/-! ### Open steps (R43, R60) -/

/-- The bank byte address that an access of bay `b` really uses now (R63, R102). -/
def State.realAddr (s : State) (b a : Nat) (write : Bool) : Nat :=
  match s.carryAt b a with
  | some (c, o) => (if c.curA = write then c.base else c.shadow) + o
  | none => a

/-- Some running part accesses bank `k` in the present step. -/
def State.bankBusy (s : State) (k : Nat) : Bool :=
  match s.fig.geom with
  | none => false
  | some g =>
    s.inTurn && s.slotStart g ≤ s.clk.now && s.clk.now < s.slotEnd g &&
    s.runningBays.any fun b =>
      match s.part b with
      | none => false
      | some p => p.acts.any fun a => (Load.actAccs (s.get Fd.DDR_CFG_RATE) p a).any fun x =>
          s.slotStart g + x.step = s.clk.now && bankOf (s.realAddr b x.addr x.write) = k

/-- A scrub, a write-back or the bank port has taken bank `k` in the present step. -/
def State.bankTaken (s : State) (k : Nat) : Bool := s.field.usedAt = s.clk.now && s.field.used.contains k

def State.takeBank (s : State) (k : Nat) : State :=
  s.modField fun f =>
    if f.usedAt = s.clk.now then { f with used := k :: f.used } else { f with usedAt := s.clk.now, used := [k] }

/-- The bank-field address at which the head request goes on. -/
def BankHead.addr (h : BankHead) : Nat := h.req.addr + h.done

/-- The present step of bank `k` is open and free. -/
def State.bankFree (s : State) (k : Nat) : Bool := !s.bankBusy k && !s.bankTaken k

/-- The next open step of bank `k` is reserved for the head request (R142). -/
def State.bankReserved (s : State) (k : Nat) : Bool :=
  s.field.head.any fun h => bankOf h.addr = k && h.yielded

/-- A scrub of bank `k` is due (R139). -/
def State.scrubDue (s : State) (k : Nat) : Bool := sget (fun _ => 0) s.field.due k ≤ s.clk.now

/-- A scrub or a write-back of bank `k` goes before the head request, which has not yielded to one yet (R139, R140, R142). -/
def State.bankYields (s : State) (k : Nat) : Bool :=
  (s.scrubDue k || s.field.wb.any fun g => bankOf (16 * g) = k) && !s.bankReserved k

/-- A scrub or write-back of bank `k`: the head request has now yielded (R142). -/
def State.yieldHead (s : State) (k : Nat) : State :=
  (s.takeBank k).modField fun f =>
    { f with head := f.head.map fun h => if bankOf h.addr = k then { h with yielded := true } else h }

/-! ### Patrol scrub and write-back (R139, R140) -/

/-- PATROL_SCRUB of bank `k`. ROW and PASSES show the bank furthest behind (DEDUCED, log entry 20). -/
def State.scrub (s : State) (k : Nat) : State :=
  if !s.scrubDue k || !s.bankFree k || s.bankReserved k then s
  else
    let n := sget (fun _ => 0) s.field.row k
    let s1 := (s.checkGranule (granuleAt k (n % 8192)) false).2
    let s2 := (s1.yieldHead k).modField fun f =>
      { f with row := sset (fun _ => 0) k (n + 1) f.row
               due := sset (fun _ => 0) k (s.clk.now + 16384 * 2 ^ s.get Fd.BKF_SCRUB_RATE) f.due }
    let least := (List.range 256).foldl (fun m b => min m (sget (fun _ => 0) s2.field.row b)) (n + 1)
    (s2.put Fd.BKF_SCRUB_PASSES (least / 8192)).put Fd.BKF_SCRUB_ROW (least % 8192)

/-- ECC_WRITE_BACK: a queued granule of bank `k` is written back corrected. Of several, the oldest goes first (DESIGN CHOICE, log entry
20). A scrub that is due goes before it (R139). -/
def State.writeBack (s : State) (k : Nat) : State :=
  match s.field.wb.find? fun g => bankOf (16 * g) = k with
  | none => s
  | some g =>
    if !s.bankFree k || s.bankReserved k || s.scrubDue k then s
    else
      let s1 := (s.yieldHead k).modField fun f => { f with wb := f.wb.filter (· ≠ g) }
      if s1.eccOf g = .single then s1.setEcc g .clean else s1

/-! ### Requests and their answers (R141, R156, R157, R171, R176) -/

/-- The bus target of a place (R156). An access to an unmapped address goes to T0 (DESIGN CHOICE, log entry 16); no address of R33 leads to
T7, over which the chip's own messages leave. -/
def Place.target : Place → Nat
  | .rom _ => 0
  | .sram _ => 1
  | .bkf _ => 2
  | .ddr _ => 3
  | .reg a => if staticBlocks.contains (a / 65536) then 5 else if dynBlocks.contains (a / 65536) then 6 else 4
  | .hole => 0

/-- Bytes that a request is about. -/
def BusReq.len (r : BusReq) : Nat := if r.read = 0 then r.data.length else r.read

/-- A request comes to the bus matrix with a number of its own. -/
def State.busPost (s : State) (r : BusReq) : State :=
  s.modBxm fun b => { b with reqs := b.reqs ++ [{ r with id := b.next }], next := b.next + 1 }

/-- An error response to a posted store is kept for its core as a STORE_ASYNC report (R176). -/
def State.asyncError (s : State) (r : BusReq) : State :=
  s.modCore r.core fun c => { c with async := c.async ++ [(r.level, BitVec.ofNat 32 r.addr)] }

/-- The answer to request `id`, if `w` awaits it. -/
def Wait.answer (w : Wait) (id : Nat) (res : Option (List Byte)) : Wait := if w.id = id then { w with ans := some res } else w

/-- The answer `res` to a request, none for an error response, reaches who awaits it (R141, R176). -/
def State.busAnswer (s : State) (r : BusReq) (res : Option (List Byte)) : State :=
  match r.ask with
  | .store => if res.isSome then s else s.asyncError r
  | .fetch => s.modCore r.core fun k => { k with fetched := k.fetched.map (·.answer r.id res) }
  | .load | .put => s.modCore r.core fun k => { k with loaded := k.loaded.map (·.answer r.id res) }
  | .sc => s.modCore r.core fun k => { k with loaded := k.loaded.map (·.answer r.id res) }
  | .host => s.modBxm fun b => { b with answers := b.answers ++ [(r.id, res)] }
  | .job => s.modBxm fun b => { b with answers := b.answers ++ [(r.id, res)] }
  | .row | .tap | .peg => s

/-- The answer to a request of the bank port arrives `n` steps on, which is when the port can take another (R141). -/
def State.landIn (s : State) (n : Nat) (r : BusReq) (res : Option (List Byte)) : State :=
  (s.modField fun f => { f with head := none, freeAt := s.clk.now + n }).modBxm fun b => { b with lands := b.lands ++ [(s.clk.now + n, r, res)] }

/-- Answers whose step has come arrive (R141). -/
def State.busLand (s : State) : State :=
  (s.modBxm fun b => { b with lands := b.lands.filter (·.1 > s.clk.now) }).each (s.bxm.lands.filter (·.1 ≤ s.clk.now)) fun s e => s.busAnswer e.2.1 e.2.2

/-- The longest wait of the head request, in steps; a write that clears it in the same cycle leaves it (R8). -/
def State.noteWait (s : State) (f : Fld) (since : Nat) : State :=
  let w := min 65535 (s.clk.now - since)
  if s.get f < w then (s.put f w).mark f.addr (BitVec.ofNat 32 (65535 * 2 ^ f.lo)) else s

/-- An access of the head request in the present step. -/
def State.portUse (s : State) (h : BankHead) : State :=
  (s.noteWait Fd.BKF_DYN_WAIT_MAX h.since).modField fun f => { f with portAt := some s.clk.now }

/-- The head request's write goes on by `n` bytes, or completes at the start of the next step (R141). Its next access is a head of its own
(R142). -/
def State.headDone (s : State) (h : BankHead) (n : Nat) : State :=
  let s1 := s.portUse h
  if h.done + n ≥ h.req.data.length then s1.landIn 1 { h.req with addr := 0x10000000 + h.req.addr } (some [])
  else s1.modField fun f => { f with head := some { h with done := h.done + n, since := s.clk.now, yielded := false, merge := none, stale := false } }

/-- The head request reads the `n` bytes at which it goes on, and completes two steps later, with its data or at the first granule that is
uncorrectable (R137, R141, R562). -/
def State.headRead (s : State) (h : BankHead) (n : Nat) : State :=
  let (ok, s0) := s.checkGranule (h.addr / 16) true
  let s1 := s0.portUse h
  let got := h.got ++ readBytes zeroByte s.bkf h.addr n
  if !ok then s1.landIn 2 h.req none
  else if h.done + n ≥ h.req.read then s1.landIn 2 h.req (some got)
  else s1.modField fun f => { f with head := some { h with done := h.done + n, got := got, since := s.clk.now, yielded := false } }

/-- BANK_PORT_ACCESS: one access of the head request in an open step of its bank (R141 to R143, R562). Request addresses are
bank-field offsets. -/
def State.bankPort (s : State) : State :=
  match s.field.head with
  | none => s
  | some h =>
    let a := h.addr
    let k := bankOf a
    if !s.bankFree k || s.bankYields k || s.field.portAt = some s.clk.now then s
    else
      let n := min (h.req.len - h.done) (16 - a % 16)
      let piece := (h.req.data.drop h.done).take n
      let own := (s.takeBank k).breakResv (some h.req.core) (Place.key (.bkf a)) n
      if h.req.read ≠ 0 then (s.takeBank k).headRead h n
      else if n = 16 then ((own.storeGranule a piece false)).headDone h 16
      else
        match h.merge, h.stale with
        | some _, false => (own.storeGranule a piece false).headDone h n
        | m, _ =>
          let s0 := (s.takeBank k).when m.isSome fun s => s.bump Fd.BKF_RMW_RETRY
          let (ok, s1) := s0.checkGranule (a / 16) true
          let s2 := s1.portUse h
          if ok then
            s2.modField fun f =>
              { f with head := some { h with merge := some (a / 16, readBytes zeroByte s.bkf (a / 16 * 16) 16), stale := false
                                             since := s.clk.now, yielded := false } }
          else s2.landIn 2 { h.req with addr := 0x10000000 + h.req.addr } none

/-- The step after the pad of the measure in progress (R40). -/
def State.padEnd (s : State) (g : Geom) : Nat := s.fig.boundary + (g.turns + g.replay) * g.turnLen + (Load.Geom.d g).toNat

/-- The next boundary step as device time now foretells it: at the next time point, but not before the pad ends, nor after 4,095 steps
of tail (R42, R47). -/
def State.nextBoundary (s : State) (g : Geom) : Nat :=
  let at_ := s.clk.now + cdiv (timePoint g.period (s.fig.measure + 1) - s.tme.t) (2 ^ 49)
  if s.fig.interrupted then at_ else min (s.padEnd g + 4095) (max (s.padEnd g) at_)

/-- The DDR_XFERs of turn `u` of the parts `ps`, from step `start` on, as (channel, DRAM bank, step) (R93, R149). -/
def turnXfers (ps : List Part) (u start : Nat) : List (Nat × Nat × Nat) :=
  ps.flatMap fun p => (p.acts.filter fun a => a.kind = 3).map fun a =>
    (a.res - 0x104, (a.a2 + (u % max 1 (a.a3 / 65536)) * (a.a3 % 65536)) % 16, start + a.step)

/-- DDR_XFERs just made and near ahead, as (channel, DRAM bank, step) (R149, R155): of the slot in progress, of the next one, which may hold
the replay of this turn or the next turn, and of the first turn of the next measure, with the parts that take effect there. A replay that
may still come is spared as if it came (DESIGN CHOICE, log entry 20). -/
def State.ddrNear (s : State) : List (Nat × Nat × Nat) :=
  match s.fig.geom with
  | none => []
  | some g =>
    let now := s.runningBays.filterMap s.part
    let turn := turnXfers now
    let (ps, h) := s.nextParts g
    let first := turnXfers ps ((s.fig.measure + 1) * ((h.map (·.turns)).getD g.turns)) (s.nextBoundary g)
    if !s.inTurn then s.ddrCtl.xfers ++ first
    else
      s.ddrCtl.xfers ++ turn (s.turnIndex g) (s.slotStart g) ++
        (if g.replay = 1 && !s.fig.spent && !s.fig.replaying then turn (s.turnIndex g) (s.slotEnd g) else []) ++
        (if s.fig.turn + 1 < g.turns then turn (s.turnIndex g + 1) (s.slotEnd g) else first)

/-- Steps between two step numbers. -/
def stepGap (a b : Nat) : Nat := if a ≤ b then b - a else a - b

/-- A refresh of channel `ch` fills its slot of 150 steps (R151, R152). -/
def State.refreshing (s : State) (ch : Nat) : Bool :=
  if ch = 0 then s.ddrCtl.refresh0 ≠ 0 && s.clk.now < s.ddrCtl.refreshAt0 + 150
  else s.ddrCtl.refresh1 ≠ 0 && s.clk.now < s.ddrCtl.refreshAt1 + 150

/-- The controller may issue a dynamic access to `a` now (R155). -/
def State.ddrFree (s : State) (a : Nat) : Bool :=
  let w := Load.ddrW (s.get Fd.DDR_CFG_RATE)
  let ch := a / s.ddrChan
  let bank := a / 64 % 16
  (if ch = 0 then s.ddrCtl.busy0 else s.ddrCtl.busy1) ≤ s.clk.now && !s.refreshing ch &&
  s.ddrNear.all fun x => x.1 ≠ ch || (stepGap x.2.2 s.clk.now ≥ w && (x.2.1 ≠ bank || stepGap x.2.2 s.clk.now > 30))

/-- LPDDR5X address at which a request to the DDR port goes on. -/
def BankHead.ddrAt (h : BankHead) : Nat := h.req.key - 0x100000000 + h.done

/-- Bytes of the next access of a request to the DDR port: of one 64-byte block at most, and of a write the part of a 64-bit word that it
does not fill, or whole words (R154, R155, R562). -/
def BankHead.ddrLen (h : BankHead) : Nat :=
  let o := h.ddrAt
  let left := h.req.len - h.done
  if h.req.read ≠ 0 then min left (64 - o % 64)
  else if o % 8 ≠ 0 || left < 8 then min left (8 - o % 8)
  else min (left / 8 * 8) (64 - o % 64)

/-- The next access of the head is the read that comes before a write of part of a 64-bit word (R154). -/
def BankHead.readsFirst (h : BankHead) : Bool := h.req.read = 0 && h.ddrLen < 8 && h.merge.isNone

/-- The head request of the DDR port is now `h`, or the next one. -/
def State.setHead (s : State) (h : Option BankHead) : State := s.modDdr fun d => { d with heads := h.toList ++ d.heads.tail }

/-- DDR_PORT_ACCESS: the head request's next access is issued; a read completes LAT_RD + 3 steps later, a write LAT_WR. One that writes part
of a word reads the word first, and the write of the merged word is issued once that has delivered (R154, R155, R562). The port takes its
requests in the order of their grants, and DYN_WAIT measures from the step in which an access became the head's next (DESIGN CHOICE, log
entry 20). -/
def State.ddrPort (s : State) : State :=
  match s.ddrCtl.heads.head? with
  | none => s
  | some h =>
    let r := h.req
    let o := h.ddrAt
    let n := h.ddrLen
    let rate := s.get Fd.DDR_CFG_RATE
    if !s.bit Fd.DDR_STAT_TRAINED then ((s.setHead none).modDdr fun d => { d with readAt := none }).busAnswer r none
    else if !s.ddrFree o || s.ddrCtl.readAt.isSome then s
    else
      let s1 := (s.noteWait Fd.DDR_STAT_DYN_WAIT h.since).modDdr fun d =>
        if o / s.ddrChan = 0 then { d with busy0 := s.clk.now + Load.ddrW rate } else { d with busy1 := s.clk.now + Load.ddrW rate }
      if h.readsFirst then s1.modDdr fun d => { d with readAt := some (s.clk.now + Load.latRd rate + 3) }
      else
        let fly : DdrFly :=
          { at_ := s.clk.now + (if r.read ≠ 0 then Load.latRd rate + 3 else Load.latWr rate), req := r, ofs := h.done, n := n
            key := if h.merge.isSome then (r.key + h.done) / 8 * 8 else r.key + h.done
            data := (h.merge.map (·.2)).getD ((r.data.drop h.done).take n) }
        (s1.modDdr fun d => { d with flight := d.flight ++ [fly] }).setHead
          (if h.done + n ≥ r.len then none else some { h with done := h.done + n, since := s.clk.now, merge := none })

/-- A request to LPDDR5X ends with the answer `res`; what it has left to do is dropped (R562). -/
def State.ddrEnd (s : State) (r : BusReq) (res : Option (List Byte)) : State :=
  (s.modDdr fun d => { d with heads := d.heads.filter (·.req.id ≠ r.id), flight := d.flight.filter (·.req.id ≠ r.id)
                              got := d.got.filter (·.1 ≠ r.id) }).busAnswer r res

/-- The word read for a write of part of it has been delivered: it is checked, and the bytes are merged into it, or the write is abandoned
(R143, R154). -/
def State.ddrMerge (s : State) : State :=
  match s.ddrCtl.heads.head?, s.ddrCtl.readAt with
  | some h, some t =>
    if s.clk.now < t then s
    else
      let w := h.ddrAt / 8
      let (ok, s1) := if s.ddrOk h.ddrAt then s.checkWord w else (false, s)
      let s2 := s1.modDdr fun d => { d with readAt := none }
      if ok then
        let old := readBytes zeroByte s.ddr (8 * w) 8
        let new := old.take (h.ddrAt % 8) ++ (h.req.data.drop h.done).take h.ddrLen ++ old.drop (h.ddrAt % 8 + h.ddrLen)
        s2.setHead (some { h with merge := some (w, new), since := s.clk.now })
      else s2.ddrEnd h.req none
  | _, _ => s

/-- SC's write of `l` at the place of key `key`, for request `r`: it is made only while its core's reservation of the line stands, which it
ends. The answer is 1 or 0, or an error (R173). -/
def State.scMake (s : State) (r : BusReq) (key : Nat) (l : List Byte) : Option (List Byte) × State :=
  if (s.core r.core).resv ≠ some (r.key / 32) then (some [0], s)
  else
    let (ok, s1) := s.writePlace (some r.core) (keyPlace key) l
    (if ok then some [1] else none, s1.modCore r.core fun k => { k with resv := none })

/-- An SC's write to LPDDR5X completes (R155, R173). -/
def State.scLand (s : State) (f : DdrFly) : State :=
  let (res, s1) := s.scMake f.req f.key f.data
  s1.ddrEnd f.req res

/-- A dynamic access to LPDDR5X completes (R154, R155). -/
def State.ddrLand (s : State) (f : DdrFly) : State :=
  let r := f.req
  let last := f.ofs + f.n ≥ r.len
  if r.read ≠ 0 then
    match s.readPlace (keyPlace (r.key + f.ofs)) f.n with
    | (none, s1) => s1.ddrEnd r none
    | (some l, s1) =>
      let got := sget (fun _ => []) s1.ddrCtl.got r.id ++ l
      if last then s1.ddrEnd r (some got) else s1.modDdr fun d => { d with got := (r.id, got) :: d.got.filter (·.1 ≠ r.id) }
  else if r.ask = .sc then s.scLand f
  else
    match s.writePlace (some r.core) (keyPlace f.key) f.data with
    | (false, s1) => s1.ddrEnd r none
    | (true, s1) => if last then s1.ddrEnd r (some []) else s1

/-- Dynamic accesses to LPDDR5X whose step has come complete, in order of issue. -/
def State.ddrFlight (s : State) : State :=
  s.ddrMerge.each (s.ddrCtl.flight.filter (·.at_ ≤ s.clk.now)) fun s f =>
    if s.ddrCtl.flight.contains f then (s.modDdr fun d => { d with flight := d.flight.filter (· ≠ f) }).ddrLand f else s

/-! ### Refresh and calibration (R68, R151 to R153) -/

/-- No DDR_XFER occupies channel `ch` in the `n` steps from now, as far as this turn and the next show. -/
def State.chanFree (s : State) (ch n : Nat) : Bool :=
  let w := Load.ddrW (s.get Fd.DDR_CFG_RATE)
  s.ddrNear.all fun x => x.1 ≠ ch || x.2.2 + w ≤ s.clk.now || s.clk.now + n ≤ x.2.2

/-- A DDR_XFER on channel `ch` has just ended: a run of free steps begins (R151). -/
def State.runStarts (s : State) (ch : Nat) : Bool := s.ddrNear.any fun x => x.1 = ch && x.2.2 + Load.ddrW (s.get Fd.DDR_CFG_RATE) = s.clk.now

/-- LPDDR5X_REFRESH on channel `ch`: one all-bank refresh at the start of a refresh slot, or on the controller's own schedule while no
figure runs. The first slot of a run of free steps starts with the run; a long run is cut into slots of at least 150 and at most 976
steps (R151, R152; DEDUCED, log entry 20), with one refresh each. It does not meet a ZQ calibration latch (R153). -/
def State.refresh (s : State) (ch : Nat) : State :=
  let last := if ch = 0 then s.ddrCtl.refreshAt0 else s.ddrCtl.refreshAt1
  let none_ := (if ch = 0 then s.ddrCtl.refresh0 else s.ddrCtl.refresh1) = 0
  let slot := s.chanFree ch 150 && (none_ || (s.runStarts ch && last < s.clk.now) || last + 150 ≤ s.clk.now) &&
    (s.ddrCtl.zqAt = 0 || s.ddrCtl.zqAt + 32 ≤ s.clk.now)
  if !s.bit Fd.DDR_STAT_TRAINED || (s.fig.geom.isSome && !slot) then s
  else s.modDdr fun d =>
    if ch = 0 then { d with refresh0 := d.refresh0 + 1, refreshAt0 := s.clk.now }
    else { d with refresh1 := d.refresh1 + 1, refreshAt1 := s.clk.now }

/-- The present step lies in the elastic tail, and `n` steps of it are left (R45). -/
def State.tailLeft (s : State) (n : Nat) : Option Bool :=
  match s.fig.geom with
  | none => none
  | some g =>
    if s.fig.resting && s.padEnd g ≤ s.clk.now then some (s.clk.now + n ≤ s.nextBoundary g) else none

/-- ZQ_CALIBRATION (R153): 32 ms after the last latch, in a tail with 32 steps left that are free of refresh, or deferred and counted. -/
def State.zqCal (s : State) : State :=
  if !s.bit Fd.DDR_STAT_TRAINED || s.clk.now < s.ddrCtl.zqAt + 16000000 then s
  else if s.fig.geom.isNone then s.modDdr fun d => { d with zqAt := s.clk.now }
  else match s.tailLeft 32 with
    | none => s
    | some true => if s.refreshing 0 || s.refreshing 1 then s else s.modDdr fun d => { d with zqAt := s.clk.now }
    | some false =>
      if s.ddrCtl.zqDeferAt > s.fig.boundary then s
      else (s.bump Fd.DDR_STAT_ZQ_DEFER).modDdr fun d => { d with zqDeferAt := s.clk.now }

/-- PHY_RECALIBRATION of a unit, pending and in need of `n` steps (R68): made in a tail that holds it, or deferred to a later one, which
the owning block's telemetry counts once a tail. -/
def State.phyCal (s : State) (unit n : Nat) : State :=
  let at_ (l : List (Nat × Nat)) : Nat := sget (fun _ => 0) l unit
  match s.tailLeft n with
  | none => s
  | some true => s.modFig fun f => { f with phyAt := sset (fun _ => 0) unit s.clk.now f.phyAt }
  | some false =>
    if s.fig.boundary < at_ s.fig.phyDeferAt then s
    else s.modFig fun f => { f with phyDefer := sset (fun _ => 0) unit (at_ f.phyDefer + 1) f.phyDefer
                                    phyDeferAt := sset (fun _ => 0) unit s.clk.now f.phyDeferAt }

/-! ### The bus matrix (R156 to R158) -/

/-- Each master's first request to target `t`. -/
def State.busHeads (s : State) (t : Nat) : List BusReq :=
  (List.range 8).filterMap fun m => s.bxm.reqs.find? fun r => r.target = t && r.master = m

/-- Priority of master `m` at target `t`. -/
def State.busPri (s : State) (t m : Nat) : Nat := bitsOf (s.reg (Reg.BXM_PRI t)).toNat (4 * m + 3) (4 * m)

/-- CCLK cycles that fit in `n` steps (8 in 5 steps; R18). -/
def cclks (n : Nat) : Nat := n * 8 / 5

/-- The request that target `t` grants (R157): a master that has waited LIMIT cycles, lowest number first; else the highest
priority, the first after the round-robin pointer. -/
def State.busPick (s : State) (t : Nat) : Option BusReq :=
  let hs := s.busHeads t
  let lim := s.get Fd.BXM_AGE_LIMIT
  match (if lim = 0 then none else hs.find? fun r => cclks (s.clk.now - r.since) ≥ lim) with
  | some r => some r
  | none =>
    let top := hs.foldl (fun m r => max m (s.busPri t r.master)) 0
    let best := hs.filter fun r => s.busPri t r.master = top
    let p := vget s.bxm.ptr t
    match best.find? fun r => r.master > p with
    | some r => some r
    | none => best.head?

/-- Remove the first request equal to `r`. -/
def dropReq (r : BusReq) : List BusReq → List BusReq
  | [] => []
  | q :: t => if q = r then t else q :: dropReq r t

/-- The first request of master `m` at target `t` waits from step `n` on (R157). -/
def headSince (m t n : Nat) : List BusReq → List BusReq
  | [] => []
  | q :: l => if q.master = m && q.target = t then { q with since := n } :: l else q :: headSince m t n l

/-- The CCLK cycle in which target `t` can grant next, if it lies in the present step (R157). -/
def State.grantCycle (s : State) (t : Nat) : Option Nat :=
  let c := max (vget s.bxm.grantFrom t) (s.cycles 8)
  if c < 8 * s.clk.beats + (s.clk.now + 1 - s.clk.beat0) * 8 / 5 then some c else none

/-- Target `t` can take a request: T2 once the head before has completed (R141, R157). -/
def State.canTake (s : State) (t : Nat) : Bool := !(t = 2 && (s.field.head.isSome || s.clk.now < s.field.freeAt))

/-! ### A core's outstanding accesses (R171) -/

/-- Every request that waits or is on its way: at the bus matrix, at the ports, and those whose answers are due. -/
def State.allReqs (s : State) : List BusReq :=
  s.bxm.reqs ++ (s.field.head.map (·.req)).toList ++ s.ddrCtl.heads.map (·.req) ++ s.ddrCtl.flight.map (·.req) ++ s.bxm.lands.map (·.2.1)

/-- Requests of core `c` that have had no answer yet. -/
def State.outstanding (s : State) (c : Nat) : List BusReq := s.allReqs.filter (·.core = c)

/-- Core `c` has accesses under way. -/
def State.busy (s : State) (c : Nat) : Bool := !(s.outstanding c).isEmpty

end Sys2Proof.Machine
end

