-- ==== Sys2Proof/Machine/Odometry.lean ====
section
/-! DEFINITION. Odometry (15): tooth marks, the predictor, interpolation, axle qualification and selection, stall, and the 64
event slots. Times are PCLK cycles: 4 in 5 steps (R18). -/

namespace Sys2Proof.Machine

def State.modOdo (s : State) (f : Odo → Odo) : State := { s with odo := f s.odo }
def State.axle (s : State) (a : Nat) : Axle := vget s.odo.axles a
def State.modAxle (s : State) (a : Nat) (f : Axle → Axle) : State := s.modOdo fun o => { o with axles := vmod o.axles a f }
def State.slot (s : State) (i : Nat) : Slot := vget s.odo.slots i
def State.modSlot (s : State) (i : Nat) (f : Slot → Slot) : State := s.modOdo fun o => { o with slots := vmod o.slots i f }

/-- PCLK cycles so far. -/
def State.cyc (s : State) : Nat := s.cycles 4

/-- The 48-bit two's complement value of `z` (R365). -/
def wrap48 (z : Int) : Int := signed 48 (unsigned 48 z)

/-- Axle states of R367. -/
def xDISABLED : Nat := 0
def xIDLE : Nat := 1
def xQUALIFYING : Nat := 2
def xQUALIFIED : Nat := 3
def xUNRELIABLE : Nat := 4

def State.axState (s : State) (a : Nat) : Nat := s.get (Fd.ODO_AXSTAT_STATE a)

/-- ODO_STALL_T in cycles of 2.5 ns, the most that a predicted period may be (R361). -/
def State.stallCycles (s : State) : Nat := s.get Fd.ODO_STALL_T_MS * 400000

/-! ### The predictor (R361, R364) -/

/-- The predicted period, if any. -/
def State.pp (s : State) (a : Nat) : Option Nat :=
  let clamp (n : Int) : Nat := max 2000 (min s.stallCycles n.toNat)
  match (s.axle a).periods with
  | [] => none
  | [t1, t2, t3, t4] => some (clamp ((7 * ((t1 : Int) + t2) - 3 * ((t3 : Int) + t4)) / 8))
  | t1 :: _ => some (clamp t1)

/-- The interpolated position of axle `a` now (R364). -/
def State.axPos (s : State) (a : Nat) : Int :=
  let x := s.axle a
  let m := x.j * 256
  match x.frozen with
  | some p => p
  | none =>
    if x.synth then m
    else match s.pp a with
      | none => m
      | some pp =>
        let k : Int := min (256 * (s.cyc - x.markAt) / max 1 pp) 255
        if x.rev then m - k else m + k

/-- The unit position (R365). -/
def State.unitPos (s : State) : Int := wrap48 (s.axPos s.odo.sel + s.odo.offset)

/-- Flags of the unit position (R365). -/
def State.odoRev (s : State) : Bool := (s.axle s.odo.sel).rev
def State.odoPredicted (s : State) : Bool := (s.axle s.odo.sel).synth
def State.odoUnreliable (s : State) : Bool := s.axState s.odo.sel ≠ xQUALIFIED
def State.odoValid (s : State) : Bool := s.ready rODO && s.axState s.odo.sel ≠ xDISABLED

/-- Show the selection, its flags and each axle's Pp in their registers. -/
def State.odoShow (s : State) : State :=
  let s1 := (((((s.put Fd.ODO_SEL_AXLE s.odo.sel).putB Fd.ODO_SEL_VALID s.odoValid).putB Fd.ODO_SEL_STALLED s.odo.stalled).putB
    Fd.ODO_SEL_PREDICTED s.odoPredicted).putB Fd.ODO_SEL_DIR s.odoRev).putB Fd.ODO_SEL_UNRELIABLE s.odoUnreliable
  s1.each (List.range 4) fun s a => s.put (Fd.ODO_AXPER_PP a) ((s.pp a).getD 0)

/-! ### Firings (R374) -/

def State.slotState (s : State) (i : Nat) : Nat := s.get (Fd.ODO_EVSTAT_STATE i)
def eOFF : Nat := 0
def eARMED : Nat := 1
def eOPEN : Nat := 2
def eHELD : Nat := 3
def eDONE : Nat := 4

/-- Pulse width of a slot in cycles. -/
def Slot.pw (x : Slot) : Nat := [20, 80, 400, 2000].getD (bitsOf x.flags 6 5) 20
def Slot.each (x : Slot) : Bool := bitAt x.flags 0
def Slot.endMode (x : Slot) : Nat := bitsOf x.flags 2 1
def Slot.skips (x : Slot) : Bool := bitAt x.flags 3
def Slot.suppress (x : Slot) : Bool := bitAt x.flags 4

/-- Any open or held window that names ball `o` (R374: each ball is the OR of its slots). -/
def State.evtHeld (s : State) (o : Nat) : Bool :=
  (List.range 64).any fun i => (s.slot i).output = o && (s.slot i).kind = 2 && (s.slotState i = eOPEN || s.slotState i = eHELD)

/-- A window or the pulse of an event slot holds POS_EVTn high (R374, R376). -/
def State.evtHigh (s : State) (n : Nat) : Bool := s.evtHeld n || s.cyc < vget s.odo.evtUntil n

/-- The outputs of one firing of slot `i`: its ball, its strobe channel and every channel in event mode for it, and the camera
triggers and line pairings that follow it (R299, R374, R379, R385). -/
def State.fireOut (s : State) (i : Nat) (f : Firing) : State :=
  let x := s.slot i
  let s1 :=
    if x.output > 7 then s
    else if x.kind = 2 then s.drive (.level "POS_EVT" x.output true)
    else (s.modOdo fun o => { o with evtUntil := vmod o.evtUntil x.output fun t => max t (s.cyc + x.pw) }).drive
      (.pulse "POS_EVT" x.output s.clk.now (s.clk.now + x.pw * 5 / 4))
  let s2 := s1.each (List.range 12) fun s c =>
    if (s.pwmNow c).sync = 1 && (s.pwmNow c).en && ((s.pwmNow c).arg = i || x.strobe = c) then
      { s with pwm := { s.pwm with ch := vmod s.pwm.ch c fun p => { p with due := if p.due.getLast? = some s.cycleUnit then p.due else p.due ++ [s.cycleUnit] } } }
    else s
  { s2 with vid := { s2.vid with
      conf := s2.vid.conf.map fun (c : Conf) =>
        if c.cfg.trigMode = 2 && c.cfg.trigArg = i then
          { c with trigDue := c.trigDue + 1, firings := (c.firings ++ [({ slot := i, rev := f.rev, predicted := f.predicted, late := f.late } : PairFiring)]).drop ((c.firings.length + 1) - 16) }
        else c } }

/-- Slot `i` fires: at once, from its queue later, or skipped when the queue is full (R374). -/
def State.fire (s : State) (i : Nat) (f : Firing) : State :=
  let x := s.slot i
  let count (s : State) : State :=
    ((s.bumpWrap (Fd.ODO_EVSTAT_FIRED i)).when f.late fun s => s.flag (Fd.ODO_EVSTAT_LATE i)).when f.predicted fun s =>
      s.flag (Fd.ODO_EVSTAT_PREDICTED i)
  if x.kind = 2 then (count s).fireOut i f
  else
    let free := x.queue.isEmpty && (match x.lastPulse with
      | some t => decide (t + 2 * x.pw ≤ s.cyc)
      | none => true)
    if free then ((count s).modSlot i fun q => { q with lastPulse := some s.cyc }).fireOut i f
    else if x.queue.length < 16 then (count s).modSlot i fun q => { q with queue := q.queue ++ [f] }
    else s.bump (Fd.ODO_EVSTAT_SKIPPED i)

/-- EVENT_QUEUED_PULSE of slot `i` (R374). -/
def State.queuedPulse (s : State) (i : Nat) : State :=
  let x := s.slot i
  match x.queue with
  | [] => s
  | f :: t =>
    let free := match x.lastPulse with
      | some p => decide (p + 2 * x.pw ≤ s.cyc)
      | none => true
    if free then
      (s.modSlot i fun q => { q with queue := t, lastPulse := some s.cyc }).fireOut i f
    else s

/-- Slot `i` ends or closes (R376, R377): DONE, or ARMED again under EACH; a window's ball follows the other slots' windows and pulses. -/
def State.endSlot (s : State) (i : Nat) (reversed : Bool) : State :=
  let x := s.slot i
  let s1 := (s.put (Fd.ODO_EVSTAT_STATE i) (if x.each then eARMED else eDONE)).modSlot i fun q => { q with timeAt := none, next := 0 }
  let s2 := if reversed then (s1.flag (Fd.ODO_EVSTAT_REVERSED i)).post 0 0x0372 (natLe 1 i) else s1
  if x.kind = 2 && x.output < 8 && !s2.evtHigh x.output then s2.drive (.level "POS_EVT" x.output false) else s2

/-! ### Crossings (R372, R373, R375) -/

/-- ⌊a / b⌋ and ⌈a / b⌉ for b > 0. -/
def ceilDiv (a : Int) (b : Nat) : Int := -((-a) / (b : Int))

/-- The next position that matters to slot `i` when moving from `p` in the direction `rev`: forward the least X > p, in
reverse the greatest X ≤ p. For a TRAIN line the index comes with it. -/
def State.nextCross (s : State) (i : Nat) (p : Int) (rev : Bool) : Option (Int × Nat) :=
  let x := s.slot i
  let pick (xs : List Int) : Option (Int × Nat) :=
    (xs.filter fun q => if rev then q ≤ p else q > p).foldl (fun b q => match b with
      | none => some (q, 0)
      | some (w, _) => if (if rev then q > w else q < w) then some (q, 0) else b) none
  if s.slotState i = eARMED then
    (if x.kind ≠ 0 && (x.dir = 2 || x.dir = (if rev then 1 else 0)) then pick [x.position] else none)
  else if s.slotState i = eOPEN then
    if x.kind = 2 then
      let far := if x.openRev then x.position - x.length else x.position + x.length
      pick (if rev = x.openRev then [far] else [x.position])
    else if x.kind = 3 then
      let l := max 1 x.length
      -- lines lie at POSITION + i·L when it opened forward, POSITION − i·L otherwise
      let k : Int :=
        if !x.openRev then (if rev then (p - x.position) / (l : Int) else (p - x.position) / (l : Int) + 1)
        else (if rev then ceilDiv (x.position - p) l else ceilDiv (x.position - p) l - 1)
      let k := if rev = x.openRev then max k 0 else (if x.count = 0 then k else min k (x.count - 1))
      if k < 0 || (x.count ≠ 0 && k ≥ x.count) then none
      else some (if x.openRev then x.position - k * l else x.position + k * l, k.toNat)
    else none
  else none

/-- One crossing of slot `i` at `q` (line `k` of a TRAIN), in direction `rev`; `late` holds the distance still to go when the
crossing is late (R373, R375). -/
def State.crossOne (s : State) (i : Nat) (q : Int) (k : Nat) (rev : Bool) (late : Option Nat) : State :=
  let x := s.slot i
  let f : Firing := ⟨rev, late.isSome, s.odoPredicted⟩
  let fireIt (s : State) : State :=
    match late with
    | none => s.fire i f
    | some d => if x.skips then s.bump (Fd.ODO_EVSTAT_SKIPPED i) else (s.putI (Fd.ODO_EVERR_ERR i) d).fire i f
  let _ := q
  if s.slotState i = eARMED then
    match x.kind with
    | 1 => (fireIt s).endSlot i false
    | 2 =>
      if late.isSome && x.skips then (fireIt s).endSlot i false
      else fireIt (((s.put (Fd.ODO_EVSTAT_STATE i) eOPEN)).modSlot i fun y => { y with openRev := rev })
    | 3 =>
      let s1 := fireIt ((s.put (Fd.ODO_EVSTAT_STATE i) eOPEN).modSlot i fun y => { y with openRev := rev, next := 1 })
      if x.count = 1 then s1.endSlot i false else s1
    | _ => s
  else if x.kind = 2 then s.endSlot i (rev ≠ x.openRev)
  else
    if rev ≠ x.openRev then
      (if k = 0 then s.endSlot i true else if x.suppress then s else fireIt s)
    else
      let s1 := (fireIt s).modSlot i fun y => { y with next := k + 1 }
      if x.count ≠ 0 && k + 1 ≥ x.count then s1.endSlot i false else s1

/-- Act on every crossing of slot `i` between `p` and `goal` in direction `rev`. Where `mark` is given the position jumped from
`p` to it, so crossings strictly between are late (R375). -/
def State.crossings (fuel : Nat) (s : State) (i : Nat) (p goal : Int) (rev : Bool) (mark : Option Int) : State :=
  match fuel with
  | 0 => s
  | n + 1 =>
    match s.nextCross i p rev with
    | none => s
    | some (q, k) =>
      if (if rev then q ≤ goal else q > goal) then s
      else
        let late := match mark with
          | some from_ => if q ≠ goal && (if rev then q < from_ else q > from_) then some (q - goal).natAbs else none
          | none => none
        State.crossings n (s.crossOne i q k rev late) i (if rev then q - 1 else q) goal rev mark

/-- Bring slot `i` up to unit position `goal` in the direction of travel `rev`, by interpolation or by a jump from the position reached
(R372, R375). The position moves back with real reverse travel alone: where it lies against the direction of travel (the axle has lost its
history, or a switch corrected it), the slot crosses nothing until it has passed again what it had passed (R375). Positions wrap at 48 bits. -/
def State.advanceSlot (s : State) (i : Nat) (goal : Int) (jump rev : Bool) : State :=
  let x := s.slot i
  let d := wrap48 (goal - x.seen)
  if d = 0 || (d < 0) ≠ rev then s
  else
  let rel (z : Int) : Int := x.seen + wrap48 (z - x.seen)
  let s0 := s.modSlot i fun y => { y with position := rel y.position }
  let s1 := State.crossings (d.natAbs + 2) s0 i x.seen (x.seen + d) rev (if jump then some x.seen else none)
  s1.modSlot i fun y => { y with seen := wrap48 goal, position := wrap48 y.position }

/-- Slots that can still act. -/
def State.liveSlots (s : State) : List Nat := (List.range 64).filter fun i => s.slotState i = eARMED || s.slotState i = eOPEN

/-- Every live slot has acted on the crossings of interpolation so far (R372). -/
def State.catchUp (s : State) : State := s.each s.liveSlots fun s i => s.advanceSlot i s.unitPos false s.odoRev

/-- The unit position has jumped at a real mark or an axle switch: the crossings in between are late, all slots in position order of their
own crossings (R375). -/
def State.jumpTo (s : State) (goal : Int) : State :=
  s.each (List.range 64) fun s i =>
    if s.slotState i = eARMED || s.slotState i = eOPEN then s.advanceSlot i goal true s.odoRev
    else s.modSlot i fun y => { y with seen := wrap48 goal }

/-- POSITION_CROSSING of slot `i`: crossings that interpolation has made since the last one (R372). -/
def State.posCross (s : State) (i : Nat) : State :=
  if s.ready rODO && (s.slotState i = eARMED || s.slotState i = eOPEN) then s.advanceSlot i s.unitPos false s.odoRev else s

/-! ### Stall (R370, R376) -/

/-- Every axle's position freezes where it stands and every history clears (R361, R364). -/
def State.freezeAxles (s : State) : State :=
  s.modOdo fun o => { o with axles := Vector.ofFn fun (i : Fin 4) =>
    let x := vget o.axles i.val
    { x with frozen := some (s.axPos i.val), periods := [] } }

/-- STALL: no real mark of the selected axle for ODO_STALL_T. -/
def State.stall (s : State) : State :=
  let a := s.odo.sel
  if !s.ready rODO || s.odo.stalled || s.axState a = xDISABLED || s.plb.run < (s.axle a).realRun + s.get Fd.ODO_STALL_T_MS * 1000000 * nsU then s
  else
    let s1 := s.catchUp.freezeAxles.modOdo fun o => { o with stalled := true }
    let s2 := s1.post 0 0x0371 (natLe 1 1)
    let s3 := s2.each (List.range 64) fun s i =>
      if s.slotState i ≠ eOPEN then s
      else match (s.slot i).endMode with
        | 0 => s.put (Fd.ODO_EVSTAT_STATE i) eHELD
        | 1 => s.endSlot i false
        | _ => s.modSlot i fun y => { y with timeAt := some (s.plb.run + y.timeNs * nsU) }
    s3.odoShow

/-- STALLED clears at the next real mark: slots that have not ended are OPEN again (R370, R376). -/
def State.unstall (s : State) : State :=
  if !s.odo.stalled then s
  else
    let s1 := (s.modOdo fun o => { o with stalled := false }).post 0 0x0371 (natLe 1 0)
    s1.each (List.range 64) fun s i =>
      let s' := s.modSlot i fun y => { y with timeAt := none }
      if s.slotState i = eHELD then s'.put (Fd.ODO_EVSTAT_STATE i) eOPEN else s'

/-- EVENT_TIME_EXPIRY of slot `i` (R376): a window closes; a train fires its next line. -/
def State.timeExpiry (s : State) (i : Nat) : State :=
  let x := s.slot i
  match x.timeAt with
  | none => s
  | some t =>
    if s.plb.run < t || s.slotState i ≠ eOPEN then s
    else if x.kind = 2 then s.endSlot i false
    else
      let s1 := (s.fire i ⟨x.openRev, false, s.odoPredicted⟩).modSlot i fun y =>
        { y with next := y.next + 1, timeAt := some (t + y.timeNs * nsU) }
      if x.count ≠ 0 && x.next + 1 ≥ x.count then s1.endSlot i false else s1

/-! ### Selection (R368, R369) -/

/-- The enabled axle of highest priority among those that `ok` holds of. -/
def State.bestAxle (s : State) (ok : Nat → Bool) : Option Nat :=
  ((List.range 4).filter fun a => s.get (Fd.ODO_AXCFG_PRIORITY a) ≠ 0 && ok a).foldl (fun b a => match b with
    | none => some a
    | some q => if s.get (Fd.ODO_AXCFG_PRIORITY a) < s.get (Fd.ODO_AXCFG_PRIORITY q) then some a else some q) none

/-- Move the selection to axle `b`, from the unit position `now` (R369): by its latch the unit position of the old axle's last real mark is
kept and travel is restored as a correction, without one the position is continuous. While STALLED is set the position that the switch gives
stays frozen until the new axle's next real mark (R370; DEDUCED, log entry 40). Without a cause of R380 the event's cause byte is free. -/
def State.switchAxle (s : State) (b : Nat) (now : Int) (cause : Option Nat) : State :=
  let a := s.odo.sel
  if a = b then s
  else
    let (c, s) := match cause with
      | some c => (c, s)
      | none => s.draw
    let ofs := match (s.axle b).latch with
      | some l => wrap48 (s.odo.realPos - l)
      | none => wrap48 (now - s.axPos b)
    let s1 := (s.modOdo fun o => { o with sel := b, offset := ofs }).bump Fd.ODO_SEL_SWITCHES
    let s2 := (s1.when s.odo.stalled fun s => s.modAxle b fun x => { x with frozen := some (s.axPos b) }).jumpTo s1.unitPos
    (s2.modOdo fun o => { o with realPos := wrap48 ((s2.axle b).j * 256 + ofs) }).post 0 0x0370 (natLe 1 a ++ natLe 1 b ++ natLe 1 c)

/-- Select again after an axle's state has changed (R368); `now` is the unit position before the change. -/
def State.axSelect (s : State) (now : Int) (cause : Option Nat) : State :=
  let cur := s.odo.sel
  let s1 :=
    if s.axState cur = xQUALIFIED then s
    else match s.bestAxle fun a => s.axState a = xQUALIFIED with
      | some b => s.switchAxle b now cause
      | none =>
        if s.axState cur ≠ xDISABLED then s
        else match s.bestAxle fun _ => true with
          | some b => s.switchAxle b now cause
          | none => s
  s1.odoShow

/-- Enter UNRELIABLE: the history clears (R361, R367). -/
def State.toUnreliable (s : State) (a : Nat) : State :=
  ((s.put (Fd.ODO_AXSTAT_STATE a) xUNRELIABLE).put (Fd.ODO_AXSTAT_RUN a) 0).modAxle a fun x => { x with periods := [] }

/-! ### Marks (R358 to R363) -/

/-- A noise mark (R362, R367): counted; the fourth between two accepted marks makes the axle UNRELIABLE. -/
def State.noiseMark (s : State) (a : Nat) : State :=
  let s1 := ((s.bump (Fd.ODO_AXCNT_NOISE a)).put (Fd.ODO_AXSTAT_RUN a) 0).modAxle a fun x =>
    { x with noise := x.noise + 1, noiseOpen := true, dirty := true }
  if (s1.axle a).noise ≥ 4 && (s.axState a = xQUALIFYING || s.axState a = xQUALIFIED) then (s1.catchUp.toUnreliable a).axSelect s.unitPos (some 2) else s1

/-- An accepted mark of axle `a` (R359, R361, R367, R369, R375). -/
def State.acceptMark (s : State) (a : Nat) (rev : Bool) : State :=
  let x := s.axle a
  let sel := s.odo.sel = a
  let j := if rev = x.rev then (if rev then x.j - 1 else x.j + 1) else x.j
  let same := x.marked && rev = x.rev
  let periods := if same then ((s.cyc - x.markAt) :: x.periods).take 4 else []
  let clean := !x.dirty
  let others := (List.range 4).map s.axPos
  let s1 := (s.when (s.odo.sel = a) State.catchUp).modAxle a fun y =>
    { y with j := j, rev := rev, markAt := s.cyc, realAt := s.cyc, realRun := s.plb.run, marked := true, synth := false, periods := periods
             noise := 0, noiseOpen := false, dirty := false, frozen := none }
  let s2 := if clean then s1.bump (Fd.ODO_AXSTAT_RUN a) else s1
  let run := s2.get (Fd.ODO_AXSTAT_RUN a)
  let st := s.axState a
  let s3 :=
    if st = xIDLE then s2.put (Fd.ODO_AXSTAT_STATE a) xQUALIFYING
    else if (st = xQUALIFYING && run ≥ 16) || (st = xUNRELIABLE && run ≥ 64) then s2.put (Fd.ODO_AXSTAT_STATE a) xQUALIFIED
    else s2
  if sel then
    let s4 := (s3.modOdo fun o =>
      { o with axles := Vector.ofFn fun (i : Fin 4) => if i.val = a then vget o.axles i.val
                 else { vget o.axles i.val with latch := some (others.getD i.val 0) } }).unstall
    let goal := s4.unitPos
    ((s4.modOdo fun o => { o with realPos := goal }).jumpTo goal).axSelect goal none
  else s3.axSelect s3.unitPos none

/-- TOOTH_MARK: the filtered levels of balls AXLa_A and AXLa_B become `pa` and `pb`, sampled and filtered as R358 says before the command
(R358, R359, R362; log entry 40). -/
def State.toothMark (s : State) (a : Nat) (pa pb : Bool) : State :=
  let x := s.axle a
  let s0 := s.modAxle a fun y => { y with levA := pa, levB := pb }
  if !s.ready rODO || !s.clocksRun then s0
  else
    let swap := s.bit (Fd.ODO_AXCFG_SWAP a)
    let dA := if swap then pb ≠ x.levB else pa ≠ x.levA
    let dB := if swap then pa ≠ x.levA else pb ≠ x.levB
    let nA := if swap then pb else pa
    let nB := if swap then pa else pb
    if dA && dB then
      (s0.bump (Fd.ODO_AXCNT_QERR a)).put (Fd.ODO_AXSTAT_RUN a) 0 |>.modAxle a fun y => { y with dirty := true }
    else if !dA || nB || s.axState a = xDISABLED then s0
    else
      let rev := !nA
      let e := s.cyc - x.markAt
      if x.noiseOpen && rev ≠ x.rev then s0.modAxle a fun y => { y with noiseOpen := false }
      else if x.marked && rev ≠ x.rev then s0.acceptMark a rev
      else if x.marked && e < 2000 then s0.noiseMark a
      else if x.periods.length = 4 && e < s.get (Fd.ODO_AXFAC_LOW a) * (s.pp a).getD 0 / 256 then s0.noiseMark a
      else s0.acceptMark a rev

/-- AXLE_MISS of axle `a`: no mark by ⌈HIGH × Pp / 256⌉, with corroboration (R362, R363). -/
def State.axleMiss (s : State) (a : Nat) : State :=
  let x := s.axle a
  match s.pp a with
  | none => s
  | some pp =>
    let st := s.axState a
    let corroborated := (List.range 4).any fun b =>
      b ≠ a && (s.axState b = xQUALIFYING || s.axState b = xQUALIFIED) && (s.axle b).marked && (s.axle b).realAt > x.markAt
    let judged := st = xIDLE || st = xQUALIFYING || st = xQUALIFIED || st = xUNRELIABLE
    if !s.ready rODO || !judged || x.periods.length ≠ 4 || s.cyc < x.markAt + cdiv (s.get (Fd.ODO_AXFAC_HIGH a) * pp) 256 || !corroborated then s
    else if x.synth then
      (if st = xUNRELIABLE then s else (s.catchUp.toUnreliable a).axSelect s.unitPos (some 1))
    else
      let s1 := (((s.when (s.odo.sel = a) State.catchUp).bump (Fd.ODO_AXCNT_SYNTH a)).put (Fd.ODO_AXSTAT_RUN a) 0).modAxle a fun y =>
        { y with j := if y.rev then y.j - 1 else y.j + 1, markAt := y.markAt + pp, synth := true, dirty := true
                 periods := (pp :: y.periods).take 4 }
      (s1.when (s.odo.sel = a) State.catchUp).odoShow

/-! ### Commands and clock gaps (R360, R366, R368, R378) -/

/-- The decoders start at 0.5 ms (R360). -/
def State.odoStart (s : State) : State := s.odoShow

/-- End a slot as under CLOSE and discard its queued firings; the spacing of its pulses outlives it (R374, R378). -/
def State.clearSlot (s : State) (i : Nat) : State :=
  let s1 := if s.slotState i = eOPEN || s.slotState i = eHELD then s.endSlot i false else s
  (s1.modSlot i fun y => { lastPulse := y.lastPulse }).put (Fd.ODO_EVSTAT_STATE i) eOFF

/-- ODO_EVENT_ARM with its 32-byte payload (R371, R378). -/
def State.armSlot (s : State) (p : List Byte) : State :=
  let i := fieldAt p 0 1
  let s1 := s.clearSlot i
  let s2 := s1.each (List.range 8) fun s k => s.setReg (Reg.ODO_EVARM i k) (BitVec.ofNat 32 (fieldAt p (4 * k) 4))
  let x : Slot := { kind := fieldAt p 1 1, dir := fieldAt p 2 1, flags := fieldAt p 3 1, position := signed 64 (fieldAt p 4 8)
                    length := fieldAt p 12 8, count := fieldAt p 20 4, timeNs := fieldAt p 24 4, output := fieldAt p 28 1
                    strobe := fieldAt p 29 1, seen := s.unitPos, lastPulse := (s.slot i).lastPulse }
  if x.kind = 0 then s2 else (s2.modSlot i fun _ => x).put (Fd.ODO_EVSTAT_STATE i) eARMED

/-- ODO_SET_POS (R366). -/
def State.setPos (s : State) (p : Int) : State :=
  let s1 := s.each (List.range 64) fun s i => if s.slotState i = eOPEN || s.slotState i = eHELD then s.endSlot i false else s
  let s2 := s1.modOdo fun o => { o with offset := wrap48 (p - s.axPos o.sel), realPos := wrap48 (o.realPos + p - s.unitPos) }
  (s2.modOdo fun o => { o with slots := o.slots.map fun x => { x with seen := wrap48 p } }).odoShow

/-- The PRIORITY of axle `a` has been set (R367): 0 disables it, and it forgets its marks, so that IDLE holds no Pp (DEDUCED, log entry 40). -/
def State.axEnable (s : State) (a : Nat) : State :=
  if s.get (Fd.ODO_AXCFG_PRIORITY a) = 0 then
    ((s.put (Fd.ODO_AXSTAT_STATE a) xDISABLED).put (Fd.ODO_AXSTAT_RUN a) 0).modAxle a fun x =>
      { x with periods := [], marked := false, synth := false, noise := 0, noiseOpen := false, dirty := false }
  else if s.axState a = xDISABLED then s.put (Fd.ODO_AXSTAT_STATE a) xIDLE else s

/-- What platform firmware's write of an odometry register does beyond its fields: PRIORITY disables or enables the axle, which may move the
selection (R367, R368). -/
def State.odoWritten (old s : State) (a : Nat) : State :=
  match (List.range 4).find? fun i => a = Reg.ODO_AXCFG i with
  | some i => (s.catchUp.axEnable i).axSelect old.unitPos (some 3)
  | none => s

/-- ODO_AXLE_CFG (R362, R367, R368): the axle's settings, its state, and a fresh selection by priority alone, the QUALIFIED axles first
(DEDUCED, log entry 40). -/
def State.axleCfg (s : State) (a pri low high ms : Nat) (swap : Bool) : State :=
  let s1 := (((s.catchUp.put (Fd.ODO_AXCFG_PRIORITY a) pri).putB (Fd.ODO_AXCFG_SWAP a) swap).put (Fd.ODO_AXFAC_LOW a) low).put
    (Fd.ODO_AXFAC_HIGH a) high |>.put Fd.ODO_STALL_T_MS ms
  let s2 := s1.axEnable a
  let want := match s2.bestAxle fun x => s2.axState x = xQUALIFIED with
    | some b => some b
    | none => s2.bestAxle fun _ => true
  ((match want with
    | some b => s2.switchAxle b s.unitPos (some 3)
    | none => s2)).odoShow

/-- The derived clocks stop or start again (R364; edge case of 15): axles with a Pp keep their frozen position and lose their
history. -/
def State.odoGap (s : State) : State :=
  (s.modOdo fun o => { o with axles := Vector.ofFn fun (i : Fin 4) =>
      let x := vget o.axles i.val
      if x.periods.isEmpty then x else { x with frozen := some (s.axPos i.val), periods := [] } }).odoShow

end Sys2Proof.Machine
end

