-- ==== Sys2Proof/Machine/Pixels.lean ====
section
/-! DEFINITION. Pixel arithmetic of the sensor front end (R294), of the conversion stages (R307 to R309), of memory records
(R310) and of the DisplayPort formats (R323): pure functions. Components are 12 bits wide; 10-bit values stand in bits
11:2 (R303). -/

namespace Sys2Proof.Machine.Pix

/-- Colour spaces of a pipe (R303). -/
def RGB : Nat := 0
def YCC : Nat := 1
def RAW : Nat := 2

/-- Clamp to `0 … m`. -/
def clamp (m : Nat) (z : Int) : Nat := (max 0 (min (m : Int) z)).toNat

/-- Round to nearest, ties to even (R308). -/
def rne (n d : Nat) : Nat :=
  let q := n / d
  let r := 2 * (n % d)
  if r > d || (r = d && q % 2 = 1) then q + 1 else q

/-- Element `i` of a line whose edges mirror: −1 is 1, and `n` is `n` − 2 (R294, R308). -/
def mirror (n : Nat) (i : Int) : Nat :=
  let m : Int := n - 1
  (max 0 (min m (if i < 0 then -i else if i > m then 2 * m - i else i))).toNat

/-- Black of a colour space (R292). -/
def black (space : Nat) : Px := if space = YCC then ⟨256, 2048, 2048⟩ else ⟨0, 0, 0⟩

/-! ### Data types of CSI-2 (R282) -/

/-- RAW8, RAW10, RAW12. -/
def isRaw (dt : Nat) : Bool := dt = 0x2A || dt = 0x2B || dt = 0x2C
def isYuv (dt : Nat) : Bool := dt = 0x1E || dt = 0x1F
def supported (dt : Nat) : Bool := isRaw dt || isYuv dt || dt = 0x24

/-- Bits per pixel on the lanes. -/
def bpp (dt : Nat) : Nat :=
  if dt = 0x2A then 8 else if dt = 0x2B then 10 else if dt = 0x2C then 12 else if dt = 0x1E then 16 else if dt = 0x1F then 20 else 24

/-- The space in which a conformer delivers a data type (R294). -/
def spaceOf (dt : Nat) (frontEnd : Bool) : Nat := if isRaw dt then (if frontEnd then RGB else RAW) else if isYuv dt then YCC else RGB

/-- Pixels in a packet of `n` samples: one sample a pixel for RAW, Cb Y Cr Y for YUV422, B G R for RGB888 (PRESUMED, CSI-2,
log entry 21). -/
def pixels (dt n : Nat) : Nat := if isRaw dt then n else if isYuv dt then n / 2 else n / 3

/-- Pixel `p` of a packet's samples, widened (R294). -/
def widen (dt : Nat) (l : List Nat) (p : Nat) : Px :=
  if isRaw dt then
    let k := if dt = 0x2A then 16 else if dt = 0x2B then 4 else 1
    ⟨l.getD p 0 * k, 0, 0⟩
  else if isYuv dt then
    let k := if dt = 0x1E then 16 else 4
    ⟨l.getD (2 * p + 1) 0 * k, l.getD (4 * (p / 2)) 0 * k, l.getD (4 * (p / 2) + 2) 0 * k⟩
  else ⟨l.getD (3 * p + 2) 0 * 16, l.getD (3 * p + 1) 0 * 16, l.getD (3 * p) 0 * 16⟩

/-! ### Sensor front end (R294) -/

/-- Colour of the filter at (x, y) under BAYER: 0 R, 1 G, 2 B. -/
def bayerAt (bayer x y : Nat) : Nat :=
  let i := y % 2 * 2 + x % 2
  (if bayer = 0 then [0, 1, 1, 2] else if bayer = 1 then [1, 0, 2, 1] else if bayer = 2 then [1, 2, 0, 1] else [2, 1, 1, 0]).getD i 1

/-- Mean of the window's samples of colour `c` around (x, y), over those neighbours that bilinear interpolation takes: the
sample itself, else the neighbours of that colour. Rows above and below come mirrored. -/
def demosaicAt (bayer c x y : Nat) (w : Nat) (rows : List (List Nat)) : Nat :=
  if bayerAt bayer x y = c then (rows.getD 1 []).getD x 0
  else
    let cells := (List.range 9).filterMap fun k =>
      let dx := k % 3
      let dy := k / 3
      if bayerAt bayer (x + dx + 1) (y + dy + 1) = c then some ((rows.getD dy []).getD (mirror w ((x : Int) + dx - 1)) 0) else none
    (roundQ (cells.foldl (· + ·) 0 : Nat) (max 1 cells.length)).toNat

/-- The 3 × 3 colour matrix M in s3.12 with offsets O. -/
def matrix (m o : List Int) (p : Px) : Px :=
  let row (i : Nat) : Nat :=
    clamp 4095 (roundQ (m.getD (3 * i) 0 * p.c0 + m.getD (3 * i + 1) 0 * p.c1 + m.getD (3 * i + 2) 0 * p.c2) 4096 + o.getD i 0)
  ⟨row 0, row 1, row 2⟩

/-- Gamma: 33 knots, linear between them, a 10-bit result in bits 11:2. -/
def gamma (knots : List Nat) (x : Nat) : Nat :=
  let k := x / 128
  let a := knots.getD k 0
  let b := knots.getD (k + 1) 0
  4 * clamp 1023 (a + roundQ (((b : Int) - a) * (x % 128)) 128)

/-- One output pixel of the front end for RAW rows (above, this, below), already widened. -/
def front (c : CnfCfg) (w y : Nat) (rows : List (List Nat)) (x : Nat) : Px :=
  let bl := rows.map fun r => r.map fun v => v - c.black
  let d := matrix c.m c.o ⟨demosaicAt c.bayer 0 x y w bl, demosaicAt c.bayer 1 x y w bl, demosaicAt c.bayer 2 x y w bl⟩
  ⟨gamma c.knots d.c0, gamma c.knots d.c1, gamma c.knots d.c2⟩

/-! ### Scaling (R308) -/

/-- Whole part and phase of output sample `x`: (x + 0.5) × wIn / wOut − 0.5 in 64ths. -/
def phaseOf (x wIn wOut : Nat) : Int × Nat :=
  let n : Int := ((2 * x + 1) * wIn : Nat) - (wOut : Int)
  let f : Int := n * 64 / (2 * max 1 wOut : Nat)
  (f / 64, (f % 64).toNat)

/-- One scaled component from its eight taps (the sample before the position is the fourth). Sets 0 and 1 have coefficients the
spec does not give. -/
def tap (set phase : Nat) (t : List Nat) : Nat :=
  if set = 3 then t.getD (if phase < 32 then 3 else 4) 0
  else if set = 2 then rne ((64 - phase) * t.getD 3 0 + phase * t.getD 4 0) 64
  else min 4095 (Config.scaleTaps set phase t)

/-- Combine eight pixels component by component. -/
def tapPx (set phase : Nat) (t : List Px) : Px :=
  ⟨tap set phase (t.map (·.c0)), tap set phase (t.map (·.c1)), tap set phase (t.map (·.c2))⟩

/-- Scale a line to `wOut` pixels. -/
def hscale (set wOut : Nat) (l : List Px) : List Px :=
  let v := l.toArray
  (List.range wOut).map fun x =>
    let (i, ph) := phaseOf x v.size wOut
    tapPx set ph ((List.range 8).map fun (k : Nat) => v.getD (mirror v.size (i + (k : Int) - 3)) default)

/-- Output line `y` of `hOut` from the `hIn` lines of a frame, all `w` pixels wide; a line not there counts as the last one. -/
def vscale (set y hIn hOut w : Nat) (ls : List (List Px)) : List Px :=
  let (i, ph) := phaseOf y hIn hOut
  let rows := (List.range 8).map fun (k : Nat) => (ls.getD (min (ls.length - 1) (mirror hIn (i + (k : Int) - 3))) []).toArray
  (List.range w).map fun x => tapPx set ph (rows.map fun r => r.getD x default)

/-- Index of the last input line that output line `y` needs. -/
def vneeds (y hIn hOut : Nat) : Nat := mirror hIn (min ((phaseOf y hIn hOut).1 + 4) ((hIn : Int) - 1))

/-! ### Colour conversion (R309; the matrices of BT.709, BT.601 and BT.2020 are PRESUMED, log entry 22) -/

/-- Kr and Kb in ten-thousandths of a standard: 0 BT.709, 1 BT.601, 2 BT.2020. -/
def kr (k : Nat) : Int := if k = 0 then 2126 else if k = 1 then 2990 else 2627
def kb (k : Nat) : Int := if k = 0 then 722 else if k = 1 then 1140 else 593

/-- Full-range R'G'B' to limited-range Y'CbCr, in 12-bit components. -/
def toYcc (k : Nat) (p : Px) : Px :=
  let r : Int := p.c0
  let g : Int := p.c1
  let b : Int := p.c2
  let y := kr k * r + (10000 - kr k - kb k) * g + kb k * b
  ⟨clamp 4095 (256 + roundQ (3504 * y) 40920000),
   clamp 4095 (2048 + roundQ (3584 * (10000 * b - y)) (2 * (10000 - kb k) * 4092).toNat),
   clamp 4095 (2048 + roundQ (3584 * (10000 * r - y)) (2 * (10000 - kr k) * 4092).toNat)⟩

/-- Limited-range Y'CbCr to full-range R'G'B', in 12-bit components. -/
def toRgb (k : Nat) (p : Px) : Px :=
  let y : Int := p.c0 - 256
  let cb : Int := p.c1 - 2048
  let cr : Int := p.c2 - 2048
  let kg := 10000 - kr k - kb k
  let d : Int := 3504 * 3584
  let e : Int := 3584 * 4092 * y
  let fr : Int := 2 * (10000 - kr k) * 3504 * 4092
  let fb : Int := 2 * (10000 - kb k) * 3504 * 4092
  ⟨clamp 4095 (roundQ (e * 10000 + fr * cr) (d * 10000).toNat),
   clamp 4095 (roundQ (e * 10000 * kg - kb k * fb * cb - kr k * fr * cr) (d * 10000 * kg).toNat),
   clamp 4095 (roundQ (e * 10000 + fb * cb) (d * 10000).toNat)⟩

/-- Limited-range RGB (64 to 940 in 10 bits) to full range, and back. -/
def toFull (v : Nat) : Nat := clamp 4095 (roundQ (4092 * ((v : Int) - 256)) 3504)
def toLimited (v : Nat) : Nat := clamp 4095 (256 + roundQ (3504 * (v : Int)) 4092)

/-- A preset of R309 applied to a pixel. -/
def csc (n : Nat) (p : Px) : Px :=
  if n = 1 then toYcc 0 p else if n = 2 then toRgb 0 p
  else if n = 3 then toYcc 1 p else if n = 4 then toRgb 1 p
  else if n = 5 then toYcc 2 p else if n = 6 then toRgb 2 p
  else if n = 7 then ⟨toFull p.c0, toFull p.c1, toFull p.c2⟩
  else if n = 8 then ⟨toLimited p.c0, toLimited p.c1, toLimited p.c2⟩
  else p

/-- The space a preset needs and gives; `none` for preset 0. -/
def cscSpaces (n : Nat) : Option (Nat × Nat) :=
  if n = 1 || n = 3 || n = 5 then some (RGB, YCC)
  else if n = 2 || n = 4 || n = 6 then some (YCC, RGB)
  else if n = 7 || n = 8 then some (RGB, RGB)
  else none

/-- Subsample to 4:2:2: chroma [1 2 1] / 4 on even pixels, both pixels of a pair carrying it. -/
def subsample (l : List Px) : List Px :=
  let v := l.toArray
  (List.range v.size).map fun (x : Nat) =>
    let e : Nat := x / 2 * 2
    let at_ (i : Int) : Px := v.getD (mirror v.size i) default
    let a := at_ ((e : Int) - 1)
    let b := at_ e
    let c := at_ ((e : Int) + 1)
    ⟨(v.getD x default).c0, (roundQ (a.c1 + 2 * b.c1 + c.c1 : Nat) 4).toNat, (roundQ (a.c2 + 2 * b.c2 + c.c2 : Nat) 4).toNat⟩

/-! ### Tags and records (R295, R310) -/

/-- The 32 bytes of a tag. -/
def tagBytes (t : Tag) : List Byte :=
  natLe 6 t.sec ++ natLe 4 t.ns ++ natLe 2 t.frac ++ natLe 6 (unsigned 48 t.pos) ++ natLe 2 t.line ++ natLe 4 t.frame ++
    natLe 2 t.flags ++ natLe 1 t.axle ++ natLe 1 t.event ++ natLe 4 0

/-- The tag that 32 bytes spell. -/
def tagOf (l : List Byte) : Tag :=
  { sec := fieldAt l 0 6, ns := fieldAt l 6 4, frac := fieldAt l 10 2, pos := signed 48 (fieldAt l 12 6), line := fieldAt l 18 2
    frame := fieldAt l 20 4, flags := fieldAt l 24 2, axle := fieldAt l 26 1, event := fieldAt l 27 1 }

/-- A frame tag (R297). -/
def isTag (t : Tag) : Bool := t.line = 0xFFFF

/-- Pad with zeros to whole granules. -/
def pad16 (l : List Byte) : List Byte := l ++ List.replicate ((16 - l.length % 16) % 16) 0

/-- The record a memory writer writes for a line or a frame tag. -/
def recordOf (l : VLine) : List Byte :=
  let px (x : Nat) (p : Px) : List Byte :=
    if l.space = RAW then natLe 2 p.c0
    else if l.sub then natLe 4 (p.c0 / 4 + (if x % 2 = 0 then p.c1 else p.c2) / 4 * 1024)
    else natLe 4 (p.c0 / 4 + p.c1 / 4 * 1024 + p.c2 / 4 * 1048576)
  pad16 (tagBytes l.tag ++ if isTag l.tag then [] else (l.px.zip (List.range l.px.length)).flatMap fun q => px q.2 q.1)

/-- Space and subsampling of a source block's SRC_FMT (R305); 6 stands for the RGBA words of a layer reader (R331). -/
def fmtSpace (f : Nat) : Nat × Bool := if f ≤ 1 then (YCC, true) else if f = 4 then (YCC, false) else if f = 5 then (RAW, false) else (RGB, false)

/-- Bytes of a record of a line `w` pixels wide. -/
def recordLen (f w : Nat) : Nat := (32 + w * (if f = 5 then 2 else 4) + 15) / 16 * 16

/-- The line a record spells (R310). -/
def lineOf (f w : Nat) (l : List Byte) : VLine :=
  let (sp, sub) := fmtSpace f
  let word (x : Nat) : Nat := fieldAt l (32 + 4 * x) 4
  let px (x : Nat) : Px :=
    if sp = RAW then ⟨fieldAt l (32 + 2 * x) 2 % 4096, 0, 0⟩
    else if sub then ⟨word x % 1024 * 4, word (x / 2 * 2) / 1024 % 1024 * 4, word (x / 2 * 2 + 1) / 1024 % 1024 * 4⟩
    else ⟨word x % 1024 * 4, word x / 1024 % 1024 * 4, word x / 1048576 % (if f = 6 then 4096 else 1024) * 4⟩
  { tag := tagOf l, space := sp, sub := sub, px := (List.range w).map px }

/-- The first record of a byte stream, of a line `w` pixels wide or a frame tag, and what follows it; none until it is whole. -/
def record (f w : Nat) (l : List Byte) : Option (VLine × List Byte) :=
  if l.length < 32 then none
  else if isTag (tagOf l) then some ({ tag := tagOf l }, l.drop 32)
  else if l.length < recordLen f w then none
  else some (lineOf f w l, l.drop (recordLen f w))

/-! ### DisplayPort formats (R323, R324) -/

/-- Round a quotient to nearest, ties to even. -/
def rneZ (n : Int) (d : Nat) : Int := if n < 0 then -(rne (-n).toNat d : Nat) else (rne n.toNat d : Nat)

/-- Y', Cb or Cr (`k` = 0, 1, 2) of a 10-bit RGB pixel in limited range, over its divisor `dpDiv`, with `bits` bits and without the
offset of the component. -/
def dpPart (std bits k : Nat) (q : Nat × Nat × Nat) : Int :=
  let y : Int := kr std * q.1 + (10000 - kr std - kb std) * q.2.1 + kb std * q.2.2
  if k = 0 then 219 * 2 ^ (bits - 8) * y else 224 * 2 ^ (bits - 8) * (10000 * ((if k = 1 then q.2.2 else q.1 : Nat) : Int) - y)
def dpDiv (std k : Nat) : Nat := if k = 0 then 10230000 else (2046 * (10000 - (if k = 1 then kb std else kr std))).toNat

/-- A line of 10-bit RGB pixels as the components sent, by FORMAT of R324: converted once, rounding to nearest, ties to even (R323). In
4:2:2 each pixel has Y' and one of Cb (even pixels) and Cr, filtered as R309 filters them (DEDUCED, log entry 22). -/
def dpLine (format : Nat) (l : List (Nat × Nat × Nat)) : List Nat :=
  let kind := bitsOf format 1 0
  let std := bitsOf format 5 4
  let bits := 6 + 2 * bitsOf format 3 2
  let v := l.toArray
  let narrow (x : Nat) : Nat := min (2 ^ bits - 1) (rne x (2 ^ (10 - bits)))
  let out (k w : Nat) (n : Int) : Nat := clamp (2 ^ bits - 1) ((if k = 0 then 16 else 128) * 2 ^ (bits - 8) + rneZ n (w * dpDiv std k))
  let part (k : Nat) (i : Int) : Int := dpPart std bits k (v.getD (mirror v.size i) default)
  (List.range v.size).flatMap fun (x : Nat) =>
    let q := v.getD x default
    let e : Int := (x / 2 * 2 : Nat)
    if kind = 0 then [narrow q.1, narrow q.2.1, narrow q.2.2]
    else if kind = 1 then [out 0 1 (part 0 x), out 1 1 (part 1 x), out 2 1 (part 2 x)]
    else
      let k := 1 + x % 2
      [out 0 1 (part 0 x), out k 4 (part k (e - 1) + 2 * part k e + part k (e + 1))]

end Sys2Proof.Machine.Pix
end

