-- ==== Sys2Proof/Machine/Video.lean ====
section
/-! DEFINITION. Camera inputs and conformers (11), the video matrix with its pipes, memory readers and writers, network encoders
and decoders, and scarfs (12). -/

namespace Sys2Proof.Machine

def State.modVid (s : State) (f : Vid → Vid) : State := { s with vid := f s.vid }
def State.conf (s : State) (i : Nat) : Conf := vget s.vid.conf i
def State.modConf (s : State) (i : Nat) (f : Conf → Conf) : State := s.modVid fun v => { v with conf := vmod v.conf i f }
def State.dest (s : State) (d : Nat) : Dest := vget s.vid.dests d
def State.modDest (s : State) (d : Nat) (f : Dest → Dest) : State := s.modVid fun v => { v with dests := vmod v.dests d f }
def State.reader (s : State) (r : Nat) : Reader := vget s.vid.readers r
def State.modReader (s : State) (r : Nat) (f : Reader → Reader) : State := s.modVid fun v => { v with readers := vmod v.readers r f }
def State.dec (s : State) (i : Nat) : Dec := vget s.vid.decs i
def State.modDec (s : State) (i : Nat) (f : Dec → Dec) : State := s.modVid fun v => { v with decs := vmod v.decs i f }

/-! ### Flags of R295 -/

def fSHORT_FRAME : Nat := 1
def fLONG_FRAME : Nat := 2
def fSHORT_LINE : Nat := 4
def fLONG_LINE : Nat := 8
def fLOST : Nat := 16
def fREPEAT : Nat := 32
def fFAULT : Nat := 64
def fCRC : Nat := 128
def fLATE : Nat := 4096

/-- Set a flag if `b` holds. -/
def flagIf (b : Bool) (f : Nat) : Nat := if b then f else 0

/-- The first beat start at or before the present step: the device time (ns) then, and the step (R287). -/
def State.beatStep (s : State) : Nat := s.clk.now - (s.clk.now - s.clk.beat0) % 5
def State.beatNs (s : State) : Nat := (s.tme.t - (s.clk.now - s.clk.beat0) % 5 * 2 * nsU) / nsU

/-- Time points S + phase + ⌈j × 10^9 / fps⌉ (R287, R326): the latest at or before `t` ns, and the first after it. -/
def framePoint (fps phase t : Nat) : Option Nat :=
  if t < phase then none
  else
    let r := (t - phase) % 1000000000
    some (t - r + cdiv (r * fps / 1000000000 * 1000000000) fps)

def nextPoint (fps phase t : Nat) : Nat :=
  if t < phase then phase
  else
    let r := (t - phase) % 1000000000
    let j := r * fps / 1000000000 + 1
    t - r + (if j ≥ fps then 1000000000 else cdiv (j * 1000000000) fps)

/-- The beat start at or after the point `p` ns, counted from the present beat: its device time (ns), and its step (R287, R326). -/
def State.beatPoint (s : State) (p : Nat) : Nat :=
  if s.beatNs < p then s.beatNs + cdiv (p - s.beatNs) 10 * 10 else s.beatNs - (s.beatNs - p) / 10 * 10
def State.pointStep (s : State) (p : Nat) : Nat := (s.beatStep + (s.beatPoint p - s.beatNs) / 2) - (s.beatNs - s.beatPoint p) / 2

/-- The stamp of the present step: device time with plumb state, position with the odometry flags (R28, R29, R296). -/
def State.stampTag (s : State) : Tag :=
  { sec := s.sec, ns := s.nsInSec, pos := s.unitPos, axle := s.odo.sel
    flags := flagIf s.odo.stalled 256 + flagIf s.odoPredicted 512 + flagIf s.odoRev 1024 + flagIf s.odoUnreliable 2048 +
      s.plbState % 4 * 8192 }

/-- A tag with further flags. -/
def Tag.with (t : Tag) (f : Nat) : Tag := { t with flags := t.flags ||| f }

/-! ### Profiles and routes (R304 to R309) -/

/-- The profile `i` of bay `b`; one never written is all zeros (R305). -/
def State.profile (s : State) (b i : Nat) : List Byte := sget (fun _ => List.replicate 40 (0 : Byte)) s.vid.profs (b * 64 + i)

namespace Prof
def cropX (p : List Byte) : Nat := fieldAt p 0 2
def cropY (p : List Byte) : Nat := fieldAt p 2 2
def cropW (p : List Byte) : Nat := fieldAt p 4 2
def cropH (p : List Byte) : Nat := fieldAt p 6 2
def outW (p : List Byte) : Nat := fieldAt p 8 2
def outH (p : List Byte) : Nat := fieldAt p 10 2
def set (p : List Byte) : Nat := fieldAt p 12 1
def csc (p : List Byte) : Nat := fieldAt p 13 1
def outFmt (p : List Byte) : Nat := fieldAt p 14 1
def frc (p : List Byte) : Nat := fieldAt p 15 1
def frcDelay (p : List Byte) : Nat := fieldAt p 16 2
def outFps (p : List Byte) : Nat := fieldAt p 18 1
def outPhase (p : List Byte) : Nat := fieldAt p 20 4
def encKind (p : List Byte) : Nat := fieldAt p 24 1
def encPt (p : List Byte) : Nat := fieldAt p 25 1
def encBpp (p : List Byte) : Nat := fieldAt p 26 2
def encSsrc (p : List Byte) : Nat := fieldAt p 28 4
def srcKind (p : List Byte) : Nat := fieldAt p 32 1
def srcFmt (p : List Byte) : Nat := fieldAt p 33 1
def srcW (p : List Byte) : Nat := fieldAt p 34 2
def srcH (p : List Byte) : Nat := fieldAt p 36 2
def playout (p : List Byte) : Nat := fieldAt p 38 2
/-- The source block (R306). -/
def srcBlock (p : List Byte) : List Byte := p.drop 32

/-- The space and subsampling in which a pipe delivers a line of this space; `none` where FORMAT is set (R308, R309). -/
def space (p : List Byte) (width space : Nat) (sub : Bool) : Option (Nat × Bool) :=
  let wIn := if cropW p = 0 then width else cropW p
  if space = Pix.RAW then
    if (outW p ≠ 0 && outW p ≠ wIn) || csc p ≠ 0 || outFmt p = 1 then none else some (space, sub)
  else
    let r := match Pix.cscSpaces (csc p) with
      | none => some (space, sub)
      | some (a, b) => if a = space then some (b, false) else none
    match r with
    | none => none
    | some (sp, sb) => if outFmt p = 1 then (if sp = Pix.YCC then some (sp, true) else none) else some (sp, sb)

/-- The geometry that a network encoder or decoder of kind 1 (ST 2110-20) or 2 (JPEG XS) supports (R319, R322); a height of 0 is one
not known yet. -/
def netSize (kind w h : Nat) : Bool :=
  if kind = 2 then 64 ≤ w && w ≤ 3840 && w % 2 = 0 && (h = 0 || (16 ≤ h && h ≤ 2160)) else w ≤ 1920 && h ≤ 1080

/-- The lines a destination takes: space and subsampling, width, height (R302, R319). -/
def accepts (p : List Byte) (d space : Nat) (sub : Bool) (w h : Nat) : Bool :=
  if d < 16 then space = Pix.RGB
  else if d < 24 then
    ((space = Pix.YCC && sub) || (space = Pix.RGB && encKind p = 1)) && (encKind p = 0 || netSize (encKind p) w h)
  else true

/-- Colour conversion and 4:2:2 subsampling of a line. -/
def finish (p : List Byte) (sub : Bool) (l : List Px) : List Px :=
  let c := if csc p = 0 then l else l.map (Pix.csc (csc p))
  if outFmt p = 1 && !sub then Pix.subsample c else c
end Prof

/-- A profile uses the JPEG XS codec. -/
def usesCodec (p : List Byte) : Bool := Prof.encKind p = 2 || Prof.srcKind p = 2

/-- Route `r` of destination `d` uses the JPEG XS codec cluster (R477). -/
def State.routeCodec (s : State) (d : Nat) (r : Route) : Bool :=
  ((24 ≤ r.source && r.source < 32) || (16 ≤ d && d < 24)) && usesCodec (s.profile r.bay r.profile)

/-- The codec cluster is powered for a route that uses it (R481). -/
def State.wakeCodec (s : State) (d : Nat) (r : Route) : State := s.when (r.source ≠ 0xFF && s.routeCodec d r) fun s => s.powerUp 12

/-- The profile that a route names, as it stands: the route uses it from its next frame boundary on (R278). -/
def State.profOf (s : State) (d : Nat) : List Byte := s.profile (s.dest d).route.bay (s.dest d).route.profile

/-- The earliest of the routes that read `src`: the one that gives a decoder or reader its source block (R306). -/
def State.firstRoute (s : State) (src : Nat) : Option Nat :=
  ((List.range 48).filter fun d => (s.dest d).route.source = src).foldl (fun best d =>
    match best with
    | some e => if (s.dest d).since < (s.dest e).since then some d else best
    | none => some d) none

/-- The profile of an armed route to `src`. A decoder or reader that no route in force reads works by it: else the frame start at which the
route takes effect would never come (R306, R312; DEDUCED, log entry 59). -/
def State.pendProf (s : State) (src : Nat) : Option (List Byte) :=
  (List.range 48).findSome? fun d => match (s.dest d).pend with
    | some (r, _, some _, _) => if r.source = src then some (s.profile r.bay r.profile) else none
    | _ => none

/-- The profile by whose source block decoder or reader `src` works. -/
def State.sourceProf (s : State) (src : Nat) : Option (List Byte) := ((s.firstRoute src).map fun d => (s.dest d).prof) <|> s.pendProf src

/-- A later route to a decoder or memory reader whose source block differs from that of the earliest one (R306). -/
def State.clashes (s : State) (d : Nat) : Bool :=
  let src := (s.dest d).route.source
  ((24 ≤ src && src < 32) || (40 ≤ src && src < 48)) &&
    (s.sourceProf src).any fun p => Prof.srcBlock p ≠ Prof.srcBlock (s.dest d).prof

/-- The running part of some bay of `bs` moves data into endpoint `ep`. -/
def State.drives (s : State) (bs : List Nat) (ep : Nat) : Bool :=
  bs.any fun b => (s.part b).any fun p => p.acts.any fun a => a.kind = 1 && a.res = ep

/-- A lent source whose owner sleeps, has faulted, or whose owner's part does not drive it (R205). -/
def State.undriven (s : State) (b src : Nat) : Bool :=
  let o := s.sourceOwner src
  o ≠ b && (s.bayState o = bASLEEP || s.bayState o = bFAULTED ||
    (40 ≤ src && !s.drives [o] (0x190 + (src - 40))) || (24 ≤ src && src < 32 && !s.drives [o] (0x1B0 + (src - 24))))

/-- The frame-rate conversion in force at `d` (R311). -/
def State.frcOf (s : State) (d : Nat) : Nat :=
  let x := s.dest d
  if x.route.source < 40 || x.route.source = 0xFF then 0
  else if d ≥ 16 && Prof.outFps x.prof = 0 then 0
  else Prof.frc x.prof

/-- Under frame-rate conversion, the format that the source block declares does not suit the pipe or the destination (R304, R309). -/
def State.frcBad (s : State) (d : Nat) : Bool :=
  let p := (s.dest d).prof
  let f := Pix.fmtSpace (Prof.srcFmt p)
  s.frcOf d ≠ 0 && match Prof.space p (Prof.srcW p) f.1 f.2 with
    | some (sp, sub) => !Prof.accepts p d sp sub (if Prof.outW p = 0 then Prof.srcW p else Prof.outW p) 0
    | none => true

/-- The bay of a route has gone from the figure: asleep, faulted, or being deleted (R77, R206, R209). -/
def State.bayGone (s : State) (b : Nat) : Bool := s.bayState b = bASLEEP || s.bayState b = bFAULTED || s.bayState b = bDRAINING

/-- The route of destination `d` has no feed, whatever the format of its lines (R205, R209, R286, R304, R306). -/
def State.cutOff (s : State) (d : Nat) : Bool :=
  let x := s.dest d
  x.route.source = 0xFF || s.destOwner d ≠ x.route.bay || s.bayGone x.route.bay || !s.maySource x.route.bay x.route.source || s.undriven x.route.bay x.route.source ||
    (x.route.source < 24 && !s.bit (Fd.CNF_STAT_CONFIGURED x.route.source)) || s.clashes d || s.frcBad d

/-- The route of destination `d` has no feed (R304). -/
def State.noFeed (s : State) (d : Nat) : Bool := (s.dest d).badFormat || s.cutOff d

/-- The route of `d` runs as replayable (R316). -/
def State.replayRoute (s : State) (d : Nat) : Bool :=
  (s.dest d).route.replay && (match s.fig.geom with
    | some g => g.replay = 1 && g.turnLen ≤ 6528
    | none => false)

/-- A route change of destination `d` is pending: armed, or scheduled for a measure. -/
def State.routePending (s : State) (d : Nat) : Bool :=
  (s.dest d).pend.isSome || s.fw.sched.any fun e => match e.eff with
    | .routeSet x _ => x = d
    | _ => false

/-- Show a destination's route (VXM_DSTATd). -/
def State.showDest (s : State) (d : Nat) : State :=
  let x := s.dest d
  (((((s.put (Fd.VXM_DSTAT_SOURCE d) x.route.source).put (Fd.VXM_DSTAT_PROFILE d) x.route.profile).putB
    (Fd.VXM_DSTAT_REPLAY d) (s.replayRoute d)).putB (Fd.VXM_DSTAT_PENDING d) (s.routePending d)).putB
    (Fd.VXM_DSTAT_OVERRIDE d) x.override.isSome).putB (Fd.VXM_DSTAT_NOFEED d) (s.noFeed d)

/-! ### Delivery at a destination (R303, R310, R320) -/

/-- Push bytes into an endpoint FIFO; what a full FIFO drops sets OVERRUN of the destination (R98). -/
def State.pushBytes (s : State) (d ep : Nat) (l : List Byte) : State :=
  let g := granules (l.length / 16 + 1) l
  let full := (s.endp ep).fifo.length + g.length > endSize ep
  (s.each g fun s x => s.pushEnd ep x).when full fun s => s.flag (Fd.VXM_DFLAG_OVERRUN d)

/-- One RTP packet's record at encoder `d`'s output (R320). -/
def State.encPacket (s : State) (d : Nat) (p : List Byte) (frame : Nat) (fault last : Bool) (payload : List Byte) : State :=
  let x := s.dest d
  let rtp := natBe 1 0x80 ++ natBe 1 ((if last then 128 else 0) + Prof.encPt p % 128) ++ natBe 2 x.seq ++ natBe 4 x.encTs ++
    natBe 4 (Prof.encSsrc p) ++ payload.take 1448
  let head := natLe 2 rtp.length ++ natLe 2 (flagIf x.encFirst 1 + flagIf last 2 + flagIf fault 4) ++ natLe 4 frame ++ natLe 8 0
  (s.modDest d fun x => { x with seq := (x.seq + 1) % 65536, encFirst := false }).pushBytes d (0x1A8 + (d - 16)) (Pix.pad16 (head ++ rtp))

/-- The payloads of a group of lines. A JPEG XS slice has a constant size, ENC_BPP16 / 16 bits per pixel (R319): its packets carry a 4-byte
payload header each (PRESUMED, RFC 9134, log entry 7) and share out the coded bytes. -/
def encPayloads (p : List Byte) (ls : List VLine) : List (List Byte) :=
  match ls with
  | [] => []
  | l :: _ =>
    let pay := Config.videoPayloads (Prof.encKind p) (l.space = Pix.RGB) (Prof.encBpp p) l.tag.line (ls.map fun v => v.px.flatMap fun q => [q.c0, q.c1, q.c2])
    if Prof.encKind p = 2 then
      let size := cdiv ((ls.foldl (fun n v => n + v.px.length) 0) * Prof.encBpp p) 128
      let coded := fixLen (0 : Byte) size (pay.flatMap fun q => q.drop 4)
      (List.range (cdiv size 1444)).map fun i => fixLen (0 : Byte) 4 (pay.getD i []) ++ (coded.drop (1444 * i)).take 1444
    else pay

/-- Send the lines waiting at encoder `d`; `last` ends the frame. -/
def State.encFlush (s : State) (d : Nat) (last : Bool) : State :=
  let x := s.dest d
  match x.slice with
  | [] => s
  | l :: _ =>
    let pay := encPayloads x.prof x.slice
    let fault := x.slice.any fun v => bitAt v.tag.flags 6
    (s.each (pay.zip (List.range pay.length)) fun s q =>
      s.encPacket d x.prof l.tag.frame fault (last && q.2 + 1 = pay.length) q.1).modDest d fun x => { x with slice := [] }

/-- Take a line or frame tag into encoder `d`: ST 2110-20 goes line by line, JPEG XS slice by slice. -/
def State.encode (s : State) (d : Nat) (l : VLine) : State :=
  let x := s.dest d
  let kind := Prof.encKind x.prof
  if kind = 0 then s
  else if Pix.isTag l.tag then (s.encFlush d true).modDest d fun x => { x with encFirst := true }
  else
    let size := if kind = 2 then 16 else 1
    let s1 := s.when (x.slice.length ≥ size) fun s => s.encFlush d false
    s1.modDest d fun x =>
      { x with slice := x.slice ++ [l]
               encTs := if l.tag.line = 0 then (l.tag.sec * 1000000000 + l.tag.ns) * 9 / 100000 % 2 ^ 32 else x.encTs }

/-- Lines of destination `d`'s FIFO that are still ahead (R303): of a layer feed those not yet due at the compositor, of junction transmit
those not yet sent, else all that wait. -/
def State.fifoAhead (s : State) (d : Nat) : Nat :=
  if d < 16 then
    let o := vget s.vid.dps (d / 4)
    let period := 500000000 / max 1 (fieldAt o.timing 20 1)
    let y0 := signed 16 (fieldAt ((vget (vget s.vid.comps (d / 4)).active (d % 4))) 10 2)
    let total := (List.range 4).foldl (fun n i => n + fieldAt o.timing (12 + 2 * i) 2) 0
    ((s.dest d).fifo.filter fun e =>
      o.frameNs.isNone || e.2.fs + 280 > o.startAt ||
        (s.clk.now : Int) + 280 < o.startAt + (y0 + e.2.tag.line) * period / (max 1 total : Nat)).length
  else if 24 ≤ d && d < 32 then (s.vid.jtx.filter fun e => e.1 = d && !Pix.isTag e.2.tag).length
  else ((s.dest d).fifo.filter fun e => !Pix.isTag e.2.tag).length

/-- A line or frame tag leaves the pipe of destination `d` for its FIFO; a fifth line ahead is dropped (R303). -/
def State.deliverLine (s : State) (d : Nat) (l : VLine) : State :=
  let s1 := s.modDest d fun x => if Pix.isTag l.tag then { x with tagAt := s.clk.now } else { x with lastOut := some l }
  if Pix.isTag l.tag && d < 16 then s1
  else if !Pix.isTag l.tag && s1.fifoAhead d ≥ 4 then s1.flag (Fd.VXM_DFLAG_OVERRUN d)
  else if 24 ≤ d && d < 32 then s1.modVid fun v => { v with jtx := v.jtx ++ [(d, l)] }
  else s1.modDest d fun x => { x with fifo := x.fifo ++ [(s.clk.now, l)] }

/-- Encoder `d` takes what waits in its FIFO: JPEG XS at 250 Mpixel/s, which is two steps a pixel (R319). -/
def State.encPull (s : State) (d : Nat) : State :=
  let x := s.dest d
  match x.fifo with
  | (_, l) :: rest =>
    if s.clk.now < x.encAt then s
    else (s.modDest d fun x => { x with fifo := rest, encAt := if Prof.encKind x.prof = 2 then s.clk.now + 2 * l.px.length else x.encAt }).encode d l
  | [] => s

/-- Memory writer `d` moves the records of its FIFO into its endpoint while that has room (R303, R310). -/
def State.writerPush (s : State) (d : Nat) : State :=
  let x := s.dest d
  match x.fifo with
  | (_, l) :: rest =>
    let r := Pix.recordOf l
    let g := (granules (r.length / 16 + 1) r).drop x.sent
    let ep := 0x180 + (d - 32)
    let now := g.take (endSize ep - (s.endp ep).fifo.length)
    (s.each now fun s q => s.pushEnd ep q).modDest d fun x =>
      if now.length = g.length then { x with fifo := rest, sent := 0 } else { x with sent := x.sent + now.length }
  | [] => s

/-- Step at which a line whose last pixel leaves the conversion in step `at_` is released: at the end of the slot after its own; for the last
slot (0) and for pad and tail (1), at the end of slot 0 of the next measure (R317). -/
def State.heldUntil (s : State) (at_ : Nat) : Nat :=
  match s.fig.geom with
  | some g =>
    let i := (at_ - s.fig.boundary) / max 1 g.turnLen
    let n := g.turns + g.replay
    if i + 1 < n then s.fig.boundary + (i + 2) * g.turnLen else if i < n then 0 else 1
  | none => at_

/-- The fault that a line leaving pipe `d`'s conversion meets: the one given with it, or one that waits for the pipe's next line (R318). -/
def State.meetFault (s : State) (d : Nat) (l : VLine) (fault again : Bool) : Bool × Bool × State :=
  if Pix.isTag l.tag || !s.vid.faults.getLsbD d then (fault, again, s)
  else
    let off := ~~~ (1#48 <<< d)
    (true, again || s.vid.again.getLsbD d, s.modVid fun v => { v with faults := v.faults &&& off, again := v.again &&& off })

/-- A converted line enters the route: delivered at once on a cut-through route, held on a replayable one; a pipe fault acts
by mode (R317, R318). -/
def State.routeLine (s : State) (d : Nat) (l : VLine) (fault0 again0 : Bool) : State :=
  let (fault, again, s0) := s.meetFault d l fault0 again0
  let s1 := s0.when fault fun s => s.flag (Fd.VXM_DFLAG_FAULT d)
  if s.replayRoute d then
    let at_ := max (s.clk.now + cdiv (l.px.length * 5) 8) (((s.dest d).held.getLast?.map (·.2.2.arr)).getD 0)
    let k := s.heldUntil at_
    let bad := fault && again
    s1.modDest d fun x =>
      let bad' := bad || x.held.any fun h => h.1 = k && h.2.1
      { x with held := (x.held.map fun h => if h.1 = k then (h.1, h.2.1 || bad, h.2.2) else h) ++ [(k, bad', { l with arr := at_ })] }
  else
    let flags := (s1.dest d).pipeFlags ||| flagIf fault fFAULT
    (s1.modDest d fun x => { x with pipeFlags := flagIf (!Pix.isTag l.tag) flags }).deliverLine d
      { l with tag := l.tag.with (flagIf fault fFAULT ||| flagIf (Pix.isTag l.tag) flags) }

/-- Release the held lines of `d` that are due (R317, R318). -/
def State.releaseHeld (s : State) (d : Nat) : State :=
  let due := (s.dest d).held.filter fun h => 2 ≤ h.1 && h.1 ≤ s.clk.now
  if due.isEmpty then s
  else
    (s.modDest d fun x => { x with held := x.held.filter fun h => h.1 < 2 || h.1 > s.clk.now }).each due fun s h =>
      if h.2.1 && !Pix.isTag h.2.2.tag then
        (s.flag (Fd.VXM_DFLAG_REPEAT d)).deliverLine d
          { h.2.2 with tag := h.2.2.tag.with (fREPEAT ||| fFAULT)
                       px := ((s.dest d).lastOut.map (·.px)).getD (h.2.2.px.map fun _ => Pix.black h.2.2.space) }
      else s.deliverLine d h.2.2

/-- A new measure has begun: lines that wait for it leave at the end of its slot 0, those whose last pixel it still sees at the end of its
slot 1 (R317). -/
def State.heldBoundary (s : State) : State :=
  match s.fig.geom with
  | some g => s.modVid fun v =>
      { v with dests := v.dests.map fun x =>
          { x with held := x.held.map fun h => if h.1 < 2 then (s.fig.boundary + (if h.2.2.arr < s.fig.boundary then 1 else 2) * g.turnLen, h.2) else h } }
  | none => s

/-! ### Pipes (R307, R308) -/

/-- Height of source `src`'s frames: as its configuration or source block gives it, else that of its last whole frame (DESIGN CHOICE, log
entry 59). -/
def State.srcHeight (s : State) (src : Nat) (p : List Byte) : Option Nat :=
  let seen := (vget s.vid.heights src).2
  if src < 24 then some (s.conf src).cfg.height
  else if !(32 ≤ src && src < 40) && Prof.srcH p ≠ 0 then some (Prof.srcH p)
  else if seen = 0 then none else some seen

/-- A line or frame tag leaves the conversion of `d` behind what is still to leave it; scaled pixels leave two per PCLK cycle (R303, R307,
R308). -/
def State.queueOut (s : State) (d : Nat) (l : VLine) (cost : Nat) (fault again : Bool) : State :=
  let x := s.dest d
  let t := max s.clk.now x.outFree
  if x.outq.isEmpty && t = s.clk.now then (s.modDest d fun x => { x with outFree := t + cost }).routeLine d l fault again
  else s.modDest d fun x => { x with outq := x.outq ++ [(t, l, fault, again)], outFree := t + cost }

/-- What is due to leave the conversion of `d` by now. -/
def State.outDue (s : State) (d : Nat) : State :=
  let due := (s.dest d).outq.takeWhile (·.1 ≤ s.clk.now)
  (s.modDest d fun x => { x with outq := x.outq.drop due.length }).each due fun s e => s.routeLine d e.2.1 e.2.2.1 e.2.2.2

/-- Emit the output lines of `d` that its lines so far allow; at the frame's end all that remain. -/
def State.vscaleOut (s : State) (d : Nat) (t : VLine) (ended : Bool) (fault again : Bool) : Nat → State
  | 0 => s
  | n + 1 =>
    let x := s.dest d
    let p := x.prof
    let hIn := if Prof.cropH p ≠ 0 then some (Prof.cropH p) else (s.srcHeight x.route.source p).map (· - Prof.cropY p)
    let h := if ended then hIn.getD x.lines.length else hIn.getD 0
    let hOut := if Prof.outH p = 0 then h else Prof.outH p
    if x.lines.isEmpty || h = 0 || x.outN ≥ hOut then s
    else
      let need := Pix.vneeds x.outN h hOut
      if !ended && need ≥ x.lines.length then s
      else
        let w := (x.lines.getLast?.map (·.px.length)).getD 0
        let near := x.lines.getD (min (x.lines.length - 1) (Pix.phaseOf x.outN h hOut).1.toNat) t
        let px := Pix.vscale (Prof.set p) x.outN h hOut w (x.lines.map (·.px))
        let sp := (Prof.space p w near.space near.sub).getD (near.space, near.sub)
        let l : VLine := { tag := { near.tag with line := x.outN }, space := sp.1, sub := sp.2, px := Prof.finish p near.sub px, fs := near.fs }
        ((s.modDest d fun x => { x with outN := x.outN + 1 }).queueOut d l (cdiv (w * 5) 8) fault again).vscaleOut d t ended fault again n

/-- Height of the frames that enter the pipe of `d`, after the crop, where it is known. -/
def State.pipeHeight (s : State) (d : Nat) : Option Nat :=
  let p := (s.dest d).prof
  if Prof.cropH p ≠ 0 then some (Prof.cropH p) else (s.srcHeight (s.dest d).route.source p).map (· - Prof.cropY p)

/-- The profile that the route names comes into force at a frame boundary of `d` (R278, R305); a source block that clashes, or under
frame-rate conversion an unsuitable format, sets FORMAT (R304, R306). Conversion that it turns on starts at the next time point. -/
def State.takeProf (s : State) (d : Nat) : State :=
  let s0 := s.modDest d fun x => { x with prof := s.profOf d, badFormat := false }
  let s1 := s0.when (s.frcOf d = 0 && s0.frcOf d ≠ 0) fun s => s.modDest d fun x => { x with frcNs := none, frcRun := s.plb.run }
  s1.when (s1.clashes d || s1.frcBad d) fun s => s.flag (Fd.VXM_DFLAG_FORMAT d)

/-- A frame begins in the pipe of `d`. -/
def State.pipeStart (s : State) (d fs : Nat) : State :=
  s.modDest d fun x => { x with curFs := fs, inFrame := true, lines := [], outN := 0, pipeFlags := flagIf (!x.inFrame) x.pipeFlags }

/-- The format of a line does not suit the pipe or the destination (R304, R308, R309). -/
def State.refuseFormat (s : State) (d : Nat) : State :=
  ((s.modDest d fun x => { x with badFormat := true }).flag (Fd.VXM_DFLAG_FORMAT d)).put (Fd.VXM_DSTAT_NOFEED d) 1

/-- The frame tag leaves the pipe of `d` after the lines that are still to come out of it. -/
def State.pipeEnd (s : State) (d : Nat) (l : VLine) : State :=
  let s1 := if (s.dest d).badFormat then s else (s.vscaleOut d l true false false 8192).queueOut d l 0 false false
  s1.modDest d fun x => { x with inFrame := false, tagAt := s.clk.now }

/-- The scaler of `d` has finished line `v` (R308). -/
def State.scaleLine (s : State) (d : Nat) (v : VLine) (fault again : Bool) : State :=
  let p := (s.dest d).prof
  let wOut := if Prof.outW p = 0 then v.px.length else Prof.outW p
  let px := if wOut = v.px.length then v.px else Pix.hscale (Prof.set p) wOut v.px
  if v.space ≠ Pix.RAW && Prof.outH p ≠ 0 && s.pipeHeight d ≠ some (Prof.outH p) then
    (s.modDest d fun x => { x with lines := x.lines ++ [{ v with px := px }] }).vscaleOut d v false fault again 8192
  else
    let sp := (Prof.space p v.px.length v.space v.sub).getD (v.space, v.sub)
    s.queueOut d { v with space := sp.1, sub := sp.2, px := Prof.finish p v.sub px } 0 fault again

/-- What the scaler of `d` has finished by now leaves it: a line, then a frame tag behind it. -/
def State.scaleDue (s : State) (d : Nat) : State :=
  (s.outDue d).each (List.range 2) fun s _ =>
    match (s.dest d).scal with
    | (f, v, fault, again) :: rest =>
      if s.clk.now < f then s
      else
        let s1 := s.modDest d fun x => { x with scal := rest }
        if Pix.isTag v.tag then s1.pipeEnd d v else s1.scaleLine d v fault again
    | [] => s

/-- A new frame reaches the pipe of `d`: a line that the scaler still works on is dropped, a frame tag behind it goes out (R308). -/
def State.scaleClear (s : State) (d : Nat) : State :=
  let q := (s.dest d).scal
  let s1 := s.when (q.any fun e => !Pix.isTag e.2.1.tag) fun s => s.flag (Fd.VXM_DFLAG_OVERRUN d)
  (s1.modDest d fun x => { x with scal := [] }).each (q.filter fun e => Pix.isTag e.2.1.tag) fun s e => s.pipeEnd d e.2.1

/-- Source line or frame tag `l` enters the pipe of destination `d`. A line that the scaler has not finished when the next one arrives is
dropped (R308). -/
def State.pipeLine (s : State) (d : Nat) (l : VLine) (fault again : Bool) : State :=
  let sd := s.scaleDue d
  let s0 := if l.fs = (s.dest d).curFs && (s.dest d).inFrame then sd else (sd.scaleClear d).pipeStart d l.fs
  let p := (s0.dest d).prof
  let hIn := s0.pipeHeight d
  if Pix.isTag l.tag then
    if (s0.dest d).scal.isEmpty then s0.pipeEnd d l else s0.modDest d fun x => { x with scal := x.scal ++ [(0, l, false, false)] }
  else
    let wIn := if Prof.cropW p = 0 then l.px.length else Prof.cropW p
    let wOut := if Prof.outW p = 0 then wIn else Prof.outW p
    let hOut := if Prof.outH p = 0 then hIn.getD 0 else Prof.outH p
    match Prof.space p l.px.length l.space l.sub with
    | none => s0.refuseFormat d
    | some (sp, sub) =>
      if !Prof.accepts p d sp sub wOut hOut then s0.refuseFormat d
      else if l.tag.line < Prof.cropY p || (Prof.cropH p ≠ 0 && l.tag.line ≥ Prof.cropY p + Prof.cropH p) then s0
      else
        let v : VLine := { l with tag := { l.tag with line := l.tag.line - Prof.cropY p }, px := (l.px.drop (Prof.cropX p)).take wIn }
        let tall := l.space ≠ Pix.RAW && Prof.outH p ≠ 0 && hIn ≠ some (Prof.outH p)
        if wOut = wIn && !tall then s0.queueOut d { v with space := sp, sub := sub, px := Prof.finish p l.sub v.px } 0 fault again
        else
          let h := if tall then hIn.getD 1 else 1
          let cost := cdiv (max (wIn * h) (wOut * (if tall && hIn.isSome then Prof.outH p else 1)) * 5) (8 * max 1 h)
          let s1 := s0.when (!(s0.dest d).scal.isEmpty) fun s => s.flag (Fd.VXM_DFLAG_OVERRUN d)
          s1.modDest d fun x => { x with scal := [(s.clk.now + cost, v, fault, again)] }

/-- Source `src` emits a line or frame tag to every destination it feeds (R303); bits of `fault` and `again` name pipes. A source frame's
first line is the frame boundary at which a changed profile comes into force. -/
def State.feedAll (s : State) (src : Nat) (l : VLine) (fault again : Nat) : State :=
  let seen (h : Nat × Nat) : Nat × Nat := if Pix.isTag l.tag then (0, h.1) else (l.tag.line + 1, h.2)
  (s.modVid fun v => { v with heights := vmod v.heights src seen }).each (List.range 48) fun s d =>
    if (s.dest d).route.source ≠ src || s.frcOf d ≠ 0 then s
    else
      let s1 := if l.fs = (s.dest d).curFs && (s.dest d).inFrame then s else ((s.scaleDue d).scaleClear d).takeProf d
      if s1.frcOf d ≠ 0 || s1.noFeed d then s1 else s1.pipeLine d l (bitAt fault d) (bitAt again d)

/-- A frame boundary of source `src` between its frames: the profiles that its routes name come into force. -/
def State.takeProfs (s : State) (src : Nat) : State :=
  s.each (List.range 48) fun s d => if (s.dest d).route.source = src && s.frcOf d = 0 && !(s.dest d).inFrame then s.takeProf d else s

/-! ### Scarfs (R312 to R314) -/

/-- A following destination: not a layer feed (R302). -/
def following (d : Nat) : Bool := d ≥ 16

/-- The present frame boundary of compositor `c`, 560 ns before DPc's frame start: that start (ns), and the run time of the boundary (R302). -/
def State.compBound (s : State) (c : Nat) : Option (Nat × Nat) :=
  let o := vget s.vid.dps c
  if s.bit (Fd.DPO_STAT_ENABLED c) then
    (framePoint (fieldAt o.timing 20 1) (fieldAt o.timing 24 4) (s.beatNs + 560)).bind fun t => (s.crossed (t - 560)).map fun r => (t, r)
  else none

/-- OUT_FPS and OUT_PHASE_NS of route `r` to a following destination `d`, if frame-rate conversion times its source (R311). -/
def State.routeTimed (s : State) (d : Nat) (r : Route) : Option (Nat × Nat) :=
  let p := s.profile r.bay r.profile
  if d < 16 || r.source < 40 || 48 ≤ r.source || Prof.frc p = 0 || Prof.outFps p = 0 then none else some (Prof.outFps p, Prof.outPhase p)

/-- The latest frame start of destination `d`'s timing under route `r`, as a step, if it has one. -/
def State.destStart (s : State) (d : Nat) (r : Route) : Option Nat :=
  if d < 16 then (s.compBound (d / 4)).map fun q => s.pointStep q.1 - 280
  else if r.source = 0xFF then some s.clk.now
  else match s.routeTimed d r with
    | some (f, ph) => (framePoint f ph s.beatNs).bind fun t => (s.crossed t).map fun _ => s.pointStep t
    | none => vget s.vid.srcAt r.source

/-- The route `r` takes effect at `d`. Nothing of the old source comes after it (R313); a converted reader's frame starts at this very
point (R311). -/
def State.takeRoute (s : State) (d : Nat) (r : Route) : State :=
  let s0 := if 16 ≤ d && d < 24 then (s.dest d).fifo.foldl (fun s e => s.encode d e.2) s else s
  let s1 := s0.modDest d fun x =>
    { x with route := r, since := s.clk.now, pend := none, lines := [], outN := 0, inFrame := false, scal := [], outq := [], held := []
             frcSlot := none
             fifo := if d < 24 then x.fifo.filter fun e => d < 16 && e.2.fs > s.clk.now else x.fifo, slice := [], seq := 0, encFirst := true, frcNs := none, pipeFlags := 0 }
  ((s1.takeProf d).modDest d fun x => { x with frcRun := s.plb.run - 10 * nsU - 1 }).showDest d

/-- SCARF_SWITCH of destination `d`: at its own frame start, or for a following destination at the first frame start of the new source
that follows the guard and the frame tag of the old source's frame in progress (R312). -/
def State.scarf (s : State) (d : Nat) : State :=
  let x := s.dest d
  match x.pend with
  | some (r, _, some a, o) =>
    match s.destStart d r with
    | some t =>
      let done := !x.inFrame && x.scal.isEmpty && x.outq.isEmpty && x.held.isEmpty && x.tagAt ≤ t
      if t ≥ a + 500 && t ≤ s.clk.now && (d < 16 || s.noFeed d || done) then (s.takeRoute d r).finish o 0 else s
    | none => s
  | _ => s

/-- Source `src` starts a frame in step `at_`: the following destinations that wait for it switch before its first line (R312). -/
def State.startSrc (s : State) (src at_ : Nat) : State :=
  (s.modVid fun v => { v with srcAt := vmod v.srcAt src fun _ => some at_ }).each ((List.range 48).drop 16) fun s d =>
    match (s.dest d).pend with
    | some (r, _) => if r.source = src then s.scarf d else s
    | none => s

/-! ### Receivers (R282 to R285, R289 to R291) -/

/-- The settings by which a conformer works: those in force, or before its first frame those that wait. -/
def State.confCfg (s : State) (i : Nat) : CnfCfg :=
  let c := s.conf i
  if s.bit (Fd.CNF_STAT_CONFIGURED i) then c.cfg else c.shadow.getD c.cfg

/-- The conformer that binds virtual channel `vc` of receiver `r`. -/
def State.boundConf (s : State) (r vc : Nat) : Option Nat :=
  (List.range 24).find? fun i => (s.conf i).bound && (s.confCfg i).rx = r && (s.confCfg i).vc = vc

/-- CAM_TRIGr goes low: a pulse that it still drives ends (R299). -/
def State.trigLow (s : State) (r : Nat) : State :=
  s.when (4 * s.clk.now < vget s.vid.trigEnd r) fun s =>
    (s.modVid fun v => { v with trigEnd := vmod v.trigEnd r fun _ => 0 }).drive (.level "CAM_TRIG" r false)

/-- Apply what waits in a conformer's shadow (R300). Its trigger instants up to run time `past` are over, and a trigger output that it no
longer enables is held low (R299). -/
def State.applyShadow (s : State) (i past : Nat) : State :=
  let g := (s.conf i).cfg
  match (s.conf i).shadow with
  | some c =>
    let s1 := s.modConf i fun x =>
      { x with cfg := c, shadow := none, trigRun := past, trigDue := if c.trigMode = 2 then x.trigDue else 0 }
    ((s1.put (Fd.CNF_STAT_CONFIGURED i) 1).put (Fd.CSI_STAT_LANES c.rx) (c.lanes - 1)).when
      (g.trigMode ≠ 0 && (c.trigMode = 0 || c.rx ≠ g.rx)) fun s => s.trigLow g.rx
  | none => s

/-- A frame start packet for conformer `i` (R289): the next time point is the first whose beat start Tf(j) lies ahead. -/
def State.frameStart (s : State) (i : Nat) : State :=
  let c := s.conf i
  let g := s.confCfg i
  let fresh (x : Conf) : Conf := { x with fids := x.fids + 1, inFid := some (x.fids + 1), inNum := 0, hdrAt := none, inTag := s.stampTag, longIn := false }
  if g.linescan then s.modConf i fresh
  else
    let t := nextPoint g.fps g.phase s.beatNs
    if s.beatPoint t ≤ s.ns + g.window && (c.nextFid.all fun n => n.2 ≠ t) then
      s.modConf i fun x => { fresh x with nextFid := some (x.fids + 1, t) }
    else (s.modConf i fun x => { x with inFid := none }).bump (Fd.CNF_CNT_MISALIGNED i)

/-- CSI_FRAME_START on a receiver and virtual channel: a packet, which shows that the lanes have left ULPS (R282). -/
def State.csiFrameStart (s : State) (r vc : Nat) : State :=
  if !s.ready rVID then s
  else
    let s1 := s.put (Fd.CSI_STAT_ULPS r) 0
    match s1.boundConf r vc with
    | some i => s1.frameStart i
    | none => s1.bump (Fd.CSI_DISC_UNBOUND r)

/-- Pair a line with the oldest unpaired firing of its conformer's slot (R379). -/
def State.pairTag (s : State) (i : Nat) (t : Tag) : Tag × State :=
  let g := s.confCfg i
  if g.trigMode ≠ 2 then (t, s)
  else match (s.conf i).firings.filter (·.slot = g.trigArg) with
    | [] => (t, s)
    | f :: rest =>
      let base := t.flags &&& (65535 - 1536)
      ({ t with event := f.slot, flags := base + flagIf f.predicted 512 + flagIf f.rev 1024 + flagIf (g.linescan && f.late) fLATE },
       s.modConf i fun c => { c with firings := rest })

/-- A line's long packet reaches conformer `i` (R283, R291, R296, R298). A line of a frame whose output is over, or whose own output line has
begun, is dropped (R290). -/
def State.lineIn (s : State) (i : Nat) (crc : Bool) (samples : List Nat) : State :=
  let g := s.confCfg i
  let c := s.conf i
  match (if g.linescan then some (c.inFid.getD 0) else c.inFid) with
  | none => s
  | some fid =>
    let n := c.inNum
    let before := c.hdrAt
    let (t, s0) := (s.modConf i fun c => { c with inNum := n + 1 }).pairTag i s.stampTag
    let next (l : InLine) : InLine :=
      if l.nextAt.isNone && (g.linescan || (l.fid = fid && l.num + 1 = n)) then { l with nextAt := some s.clk.now } else l
    let s1 := s0.modConf i fun c => { c with hdrAt := some s.clk.now, fifo := c.fifo.map next }
    if g.linescan && g.suppressRev && bitAt t.flags 10 then s0.bump (Fd.CNF_CNT_SUPPRESSED i)
    else if !g.linescan && n ≥ g.height then
      let s2 := s1.flag (Fd.CNF_STAT_LONG_FRAME i)
      if c.curFid = some fid then s2.modConf i fun c => { c with flags := c.flags ||| fLONG_FRAME }
      else s2.modConf i fun c => { c with longIn := true }
    else
      let live := g.linescan || c.nextFid.any (fun q => q.1 = fid) || (c.curFid = some fid && c.outN ≤ n)
      let ahead := (c.fifo.filter fun l => g.linescan || some l.fid ≠ c.curFid || l.num ≥ c.outN).length
      if !live then s1
      else if ahead ≥ 4 then s1.flag (Fd.CNF_STAT_OVERRUN i)
      else s1.modConf i fun c =>
        { c with fifo := c.fifo ++ [⟨fid, n, { t with flags := t.flags ||| flagIf crc fCRC }, crc, s.clk.now, samples, before, none⟩] }

/-- CSI_PACKET on receiver `r`: header state (0 good, 1 corrected, 2 uncorrectable, 3 no packet: every lane enters ULPS, R282), extended
virtual channel bits, virtual channel, data type, payload CRC failed, samples. A packet shows that the lanes have left ULPS. -/
def State.csiPacket (s : State) (r hdr vcx vc dt : Nat) (crc : Bool) (samples : List Nat) : State :=
  if !s.ready rVID then s
  else if hdr = 3 then s.put (Fd.CSI_STAT_ULPS r) 1
  else if hdr = 2 then (s.put (Fd.CSI_STAT_ULPS r) 0).bump (Fd.CSI_STAT_HDR_DROP r)
  else
    let s1 := (s.put (Fd.CSI_STAT_ULPS r) 0).when (hdr = 1) fun s => s.bump (Fd.CSI_STAT_ECC_CE r)
    if !(Pix.supported dt || dt ≤ 3) then s1.bump (Fd.CSI_DISC_BAD_DT r)
    else match (if vcx = 0 then s1.boundConf r vc else none) with
      | none => s1.bump (Fd.CSI_DISC_UNBOUND r)
      | some i =>
        if dt = 0 then s1.frameStart i
        else if dt = 1 then s1.modConf i fun c => { c with inFid := none }
        else if dt ≤ 3 then s1
        else
          let s2 := s1.when crc fun s => s.bump (Fd.CSI_STAT_CRC_ERR r)
          s2.lineIn i crc samples

/-! ### Conformers (R286 to R298) -/

/-- The Tf that is due at the present beat (R287). -/
def State.dueTf (s : State) (i : Nat) : Option Nat :=
  let g := s.confCfg i
  (framePoint g.fps g.phase s.beatNs).filter fun t => (s.crossed t).any fun r => (s.conf i).tfRun < r

/-- Conformer `i` has lines of its output frame still to emit. -/
def Conf.inOutput (c : Conf) : Bool := c.tf.isSome && c.outN < c.cfg.height

/-- CONFORMER_FRAME_START of conformer `i`. Settings with LINESCAN that wait apply here, and no frame starts any more (R298, R300). A frame
in progress has all its lines before the next one starts (R288; DESIGN CHOICE, log entry 59). -/
def State.confFrame (s : State) (i : Nat) : State :=
  if !(s.conf i).bound || (s.confCfg i).linescan || (s.conf i).inOutput then s
  else match s.dueTf i with
    | none => s
    | some t =>
      let at_ := s.pointStep t
      let ns := s.beatPoint t
      let run := (s.crossed t).getD s.plb.run
      let s1 := s.applyShadow i (run - nsU)
      let c := s1.conf i
      if c.cfg.linescan then s1.modConf i fun c => { c with tf := none, outN := 0, curFid := none, nextFid := none, fifo := [], prev := none }
      else
        let fid := (c.nextFid.filter fun n => n.2 = t).map (·.1)
        let next := c.nextFid.filter fun n => t < n.2
        let hold := fid.isNone && c.cfg.holdSrc ≠ 0xFF && s1.get (Fd.CNF_STAT_LOST_RUN i) < c.cfg.hold
        let s2 := s1.modConf i fun c =>
          { c with tf := some t, tfRun := run, startAt := at_, outN := 0, curFid := fid, nextFid := next
                   curTag := if fid.isSome then c.inTag else { s.stampTag with sec := ns / 1000000000, ns := ns % 1000000000 }
                   flags := flagIf fid.isNone fLOST ||| flagIf hold fREPEAT ||| flagIf (fid.isSome && c.longIn) fLONG_FRAME
                   all := 0, holding := hold
                   fifo := c.fifo.filter fun l => some l.fid = fid || next.any fun n => n.1 = l.fid }
        let s3 := ((s2.bumpWrap (Fd.CNF_FRAME_FRAME i)).putB (Fd.CNF_STAT_BOUND i) fid.isSome).startSrc i at_
        if fid.isSome then s3.put (Fd.CNF_STAT_LOST_RUN i) 0
        else ((s3.bump (Fd.CNF_STAT_LOST_RUN i)).bump (Fd.CNF_CNT_LOST i)).flag (Fd.CNF_STAT_LOST i)

/-- Step at which pixel `p` of an input line becomes eligible; `period` is the input line period that demosaic adds (R290). -/
def eligibleAt (g : CnfCfg) (l : InLine) (period p : Nat) : Nat :=
  l.at_ + cdiv ((p + 1) * Pix.bpp g.dt * 500) (max 1 (g.lanes * g.rate)) + 20 + period

/-- The pixels of input line `l` with the front end as configured (R294). `near` finds a line of the same frame. -/
def linePixels (g : CnfCfg) (near : Int → List Nat) (l : InLine) : List Px :=
  let n := Pix.pixels g.dt l.samples.length
  if Pix.isRaw g.dt && g.frontEnd then
    let w (r : List Nat) : List Nat := (List.range n).map fun p => (Pix.widen g.dt r p).c0
    let rows := [w (near (-1)), w l.samples, w (near 1)]
    (List.range n).map (Pix.front g n l.num rows)
  else (List.range n).map (Pix.widen g.dt l.samples)

/-- Line `n` of the frame that memory reader `r` presents: of the one in delivery, else of the latest; none where no running part drives the
reader (R293). -/
def State.holdLine (s : State) (r n : Nat) : Option VLine :=
  let q := s.reader r
  if !s.drives (List.range 8) (0x190 + r) then none
  else (q.lines ++ q.frames.headD []).find? fun l => l.tag.line = n

/-- The pixels, line flags and tag of output line `n` of conformer `i`, which starts at step `at_` (R290, R292, R296). The input line period
runs to the header of the next line received, be it kept or dropped; the last line of an input frame has none, and its demosaic waits the
period before it. -/
def State.confPixels (s : State) (i n at_ : Nat) : List Px × Nat × Tag :=
  let c := s.conf i
  let g := c.cfg
  let blk := Pix.black (Pix.spaceOf g.dt g.frontEnd)
  let own := { s.stampTag with event := 0xFF }
  if c.curFid.isNone then
    if c.holding then
      match s.holdLine g.holdSrc n with
      | some l => (fixLen blk g.width l.px, 0, own)
      | none => (List.replicate g.width blk, 0, own)
    else (List.replicate g.width blk, 0, own)
  else
    let mine := c.fifo.filter fun l => some l.fid = c.curFid
    let find (k : Int) : Option InLine := mine.find? fun l => (l.num : Int) = k
    let demosaic := Pix.isRaw g.dt && g.frontEnd
    match find n with
    | none => (if g.padLast then (c.last.map fun l => fixLen blk g.width l.px).getD (List.replicate g.width blk) else List.replicate g.width blk,
        fSHORT_FRAME, own)
    | some l =>
      let last := n + 1 ≥ g.height || c.inFid ≠ c.curFid
      let period : Option Nat := if !demosaic then some 0
        else match l.nextAt, l.before with
          | some b, _ => some (b - l.at_)
          | none, some a => if last then some (l.at_ - a) else none
          | none, none => if last then some (Config.lonePeriod l.fid) else none
      let outAt (p : Nat) : Nat := at_ + cdiv (p / 2 * 5) 4
      let ok (p : Nat) : Bool := match period with
        | some q => eligibleAt g l q p ≤ outAt p
        | none => false
      if !ok 0 then
        (if g.padLast then (c.last.map fun l => fixLen blk g.width l.px).getD (List.replicate g.width blk) else List.replicate g.width blk,
          fSHORT_FRAME, own)
      else
        let near (k : Int) : List Nat := ((find ((n : Int) + k)).orElse fun _ => find ((n : Int) - k)).elim l.samples (·.samples)
        let px := linePixels g near l
        let v := px.toArray
        let late := (List.range (min g.width v.size)).any fun p => !ok p
        ((List.range g.width).map fun p => if p < v.size && ok p then v.getD p blk else blk,
          flagIf (v.size < g.width) fSHORT_LINE ||| flagIf (v.size > g.width) fLONG_LINE ||| flagIf late (fSHORT_LINE ||| fLATE), l.tag)

/-- Sticky status bits for the flags of a line (CNF_STATi). -/
def State.confStat (s : State) (i f : Nat) : State :=
  ((((s.when (bitAt f 0) fun s => s.flag (Fd.CNF_STAT_SHORT_FRAME i)).when (bitAt f 2) fun s => s.flag (Fd.CNF_STAT_SHORT_LINE i)).when
    (bitAt f 3) fun s => s.flag (Fd.CNF_STAT_LONG_LINE i)).when (bitAt f 1) fun s => s.flag (Fd.CNF_STAT_LONG_FRAME i)).when
    (bitAt f 12 && bitAt f 2) fun s => s.flag (Fd.CNF_STAT_LATE i)

/-- The conformer's line `n` and, after the last, its frame tag (R297). The frame tag has every flag of its lines; its plumb state is a code
and no flag, and is that of its own stamp (R28, DEDUCED, log entry 52). -/
def State.emitConf (s : State) (i n : Nat) (px : List Px) (t : Tag) (fl fault again : Nat) : State :=
  let c := s.conf i
  let g := c.cfg
  let sticky := c.flags ||| (fl &&& (fSHORT_FRAME ||| fLONG_FRAME))
  let fr := s.get (Fd.CNF_FRAME_FRAME i)
  let tag : Tag := { t with line := n, frame := fr, flags := t.flags ||| fl ||| sticky }
  let l : VLine := { tag := tag, space := Pix.spaceOf g.dt g.frontEnd, sub := Pix.isYuv g.dt, px := px, fs := c.startAt }
  let s1 := (s.modConf i fun c => { c with outN := n + 1, flags := sticky, all := c.all ||| (tag.flags &&& 40959), last := some l
                                           fifo := c.fifo.filter fun q => some q.fid ≠ c.curFid || q.num ≥ n }).confStat i (fl ||| sticky)
  let s2 := s1.feedAll i l fault again
  if n + 1 < g.height then s2
  else
    let c2 := s2.conf i
    s2.feedAll i { tag := { c2.curTag with line := 0xFFFF, frame := fr, flags := (c2.curTag.flags ||| c2.all ||| c2.flags) }, fs := c2.startAt } 0 0

/-- CONFORMER_LINE of a conformer in line-scan mode (R298); waiting settings apply at this line (R300). -/
def State.scanLine (s : State) (i fault again : Nat) : State :=
  let c := s.conf i
  let g := c.shadow.getD c.cfg
  match c.fifo with
  | [] => s
  | l :: rest =>
    let n := Pix.pixels g.dt l.samples.length
    let wait := if Pix.isRaw g.dt && g.frontEnd then (l.nextAt.map fun q => q - l.at_) else some 0
    let ready := eligibleAt g l (wait.getD 0) (n - 1) + cdiv (g.outDelay * 5) 4
    let due := max ready (c.lastLineAt + cdiv (g.linePeriod * 5) 4)
    if g.linescan && (wait.isNone || s.clk.now < due) then s
    else
      let s1 := s.applyShadow i s.plb.run
      if !g.linescan then s1.modConf i fun c =>
        { c with fifo := [], prev := none, inFid := none, curFid := none, nextFid := none, tf := none, tfRun := s.plb.run }
      else
        let s2 := if c.outN = 0 || c.outN ≥ g.height then
            ((s1.modConf i fun c => { c with outN := 0, startAt := s.clk.now, flags := 0, all := 0, curTag := c.inTag }).bumpWrap
              (Fd.CNF_FRAME_FRAME i)).startSrc i s.clk.now
          else s1
        let blk := Pix.black (Pix.spaceOf g.dt g.frontEnd)
        let above := c.prev.map (·.samples)
        let below := rest.head?.map (·.samples)
        let near (k : Int) : List Nat := ((if k < 0 then above <|> below else below <|> above).getD l.samples)
        let px := linePixels g near l
        let fl := flagIf (px.length < g.width) fSHORT_LINE ||| flagIf (px.length > g.width) fLONG_LINE
        let s3 := s2.modConf i fun c => { c with fifo := rest, prev := some l, lastLineAt := s.clk.now, curFid := none }
        s3.emitConf i (s2.conf i).outN (fixLen blk g.width px) l.tag fl fault again

/-- Marks of CONFORMER_LINE for pipes that this conformer does not feed wait for those pipes' next line (R318, DESIGN CHOICE, log entry
52). -/
def State.markFaults (s : State) (i fault again : Nat) : State :=
  let others := (List.range 48).foldl (fun n d => if (s.dest d).route.source ≠ i && bitAt fault d then n + 2 ^ d else n) 0
  s.modVid fun v => { v with faults := v.faults ||| BitVec.ofNat 48 others, again := v.again ||| BitVec.ofNat 48 (others &&& again) }

/-- CONFORMER_LINE of conformer `i`. -/
def State.confLine (s : State) (i fault again : Nat) : State :=
  let c := s.conf i
  let s1 := s.markFaults i fault again
  if !c.bound then s1
  else if (s.confCfg i).linescan then s1.scanLine i fault again
  else
    let at_ := c.startAt + cdiv ((c.cfg.outDelay + c.outN * c.cfg.linePeriod) * 5) 4
    if c.tf.isNone || c.outN ≥ c.cfg.height || s.clk.now < at_ then s1
    else
      let (px, fl, t) := s1.confPixels i c.outN at_
      s1.emitConf i c.outN px t fl fault again

/-- Device time in half nanoseconds, and the length in them by which a mode 1 trigger precedes Tf(j): the lead, short of what rounding the
edge up to the 2.5 ns grid takes (R299). -/
def State.halfNs (s : State) : Nat := 2 * s.beatNs + 4 * ((s.clk.now - s.clk.beat0) % 5)
def CnfCfg.leadHalf (g : CnfCfg) : Nat := g.trigLead * 2 / 5 * 5

/-- The time point whose trigger edge lies at or before the end of the present step, the latest one; none in line-scan mode, which has none
(R298, R299, R385). -/
def State.trigPoint (s : State) (g : CnfCfg) : Option Nat :=
  if g.linescan then none else
  let x := (s.halfNs + 3 + g.leadHalf) / 2
  framePoint g.fps g.phase (x - (x - s.beatNs) % 10)

/-- Half nanoseconds from now to the trigger edge of time point `t`. -/
def State.trigOfs (s : State) (g : CnfCfg) (t : Nat) : Int := 2 * s.beatPoint t - g.leadHalf - s.halfNs

/-- The PCLK cycle of that edge. -/
def State.trigCycle (s : State) (g : CnfCfg) (t : Nat) : Nat :=
  ((20 * s.clk.beats + 4 * (s.clk.now - s.clk.beat0) : Nat) + s.trigOfs g t).toNat / 5

/-- CAM_TRIGGER of receiver `r` (R299). -/
def State.camTrigger (s : State) (r : Nat) : State :=
  match (List.range 24).find? fun i => (s.conf i).bound && (s.conf i).cfg.rx = r && (s.conf i).cfg.trigMode ≠ 0 with
  | none => s
  | some i =>
    let c := s.conf i
    let g := c.cfg
    let fire (s : State) (start : Nat) : State :=
      let stop := max (vget s.vid.trigEnd r) (start + g.trigPw * 20)
      (s.modVid fun v => { v with trigEnd := vmod v.trigEnd r fun _ => stop }).drive (.pulse "CAM_TRIG" r start stop)
    if !s.ready rVID || !s.bit (Fd.CNF_STAT_CONFIGURED i) then s
    else if g.trigMode = 1 then
      match s.trigPoint g with
      | some t =>
        let ofs := s.trigOfs g t
        let run := ((s.plb.run : Int) + ofs * 2 ^ 47).toNat
        if c.trigRun < run && s.counted ((-ofs).toNat * 2 ^ 47) then fire (s.modConf i fun c => { c with trigRun := run }) (4 * s.clk.now + ofs.toNat)
        else s
      | none => s
    else if c.trigDue > 0 then fire (s.modConf i fun c => { c with trigDue := c.trigDue - 1 }) (4 * s.clk.now)
    else s

/-! ### Memory and layer readers (R310, R311, R331) -/

/-- Resource of reader `r`: MR0 to MR7, then the layer readers. -/
def readerEnd (r : Nat) : Nat := if r < 8 then 0x190 + r else 0x198 + (r - 8)

/-- Format and width of the lines that a conformer takes from its hold source: those of its own output (R293, R294, DEDUCED, log entry 52). -/
def State.holdFmt (s : State) (r : Nat) : Option (Nat × Nat) :=
  ((List.range 24).find? fun i => (s.conf i).bound && (s.conf i).cfg.holdSrc = r).map fun i =>
    let g := (s.conf i).cfg
    let sp := Pix.spaceOf g.dt g.frontEnd
    (if sp = Pix.RAW then 5 else if sp = Pix.YCC then 0 else 3, g.width)

/-- Format and width by which reader `r` parses its records: a memory reader's are those of its source block, or without a route those of
the conformer that holds its frames (R293, R310, R331). -/
def State.readerFmt (s : State) (r : Nat) : Option (Nat × Nat) :=
  if r < 8 then ((s.sourceProf (40 + r)).map fun p => (Prof.srcFmt p, Prof.srcW p)) <|> s.holdFmt r
  else
    let a := vget (vget s.vid.comps ((r - 8) / 4)).active (4 + (r - 8) % 4)
    if fieldAt a 16 2 = 0 then none else some (if fieldAt a 3 1 = 1 then 6 else 3, fieldAt a 16 2)

/-- The static top is taken from the cache: its readers discard what arrives (R339). -/
def State.readerIdle (s : State) (r : Nat) : Bool :=
  r ≥ 8 && s.bit (Fd.CMP_STAT_CACHED ((r - 8) / 4)) && bitAt (s.get (Fd.CMP_STATIC_TOP ((r - 8) / 4))) (4 + (r - 8) % 4)

/-- The time of a frame: that in the tag of its line 0. -/
def frameTime (f : List VLine) : Nat := (f.find? fun l => l.tag.line = 0).elim 0 fun l => l.tag.sec * 1000000000 + l.tag.ns

/-- The frames that frame-rate conversion can still need at time `now` (ns), newest first: FRC_DELAY reaches back 655.35 ms, an output frame
lasts at most 1 s (R305, R311). -/
def keepFrames (now : Nat) (l : List (List VLine)) : List (List VLine) := l.take ((l.takeWhile fun f => now < frameTime f + 1655350000).length + 1)

/-- Reader `r` hands a delivered line or frame tag on. -/
def State.readerLine (s : State) (r : Nat) (l : VLine) : State :=
  let q := s.reader r
  if r ≥ 8 then
    if q.skip then s.modReader r fun q => { q with skip := !Pix.isTag l.tag }
    else s.modReader r fun q => { q with lines := q.lines ++ [{ l with arr := s.clk.now }] }
  else
    let new := q.lines.isEmpty
    let fs := if new then s.clk.now else q.fs
    let s1 := if new && !Pix.isTag l.tag then s.startSrc (40 + r) s.clk.now else s
    let s2 := s1.modReader r fun q =>
      if Pix.isTag l.tag then { q with frames := keepFrames s.ns (q.lines :: q.frames), lines := [], fs := fs }
      else { q with lines := q.lines ++ [{ l with fs := fs, arr := s.clk.now }], fs := fs }
    s2.feedAll (40 + r) { l with fs := fs } 0 0

/-- Reader `r` parses the records among the bytes at hand, one by one: between two frames the profiles of its routes may change. -/
def State.readRecords (s : State) (r : Nat) : Nat → State
  | 0 => s
  | n + 1 =>
    let s0 := if r < 8 && (s.reader r).lines.isEmpty then s.takeProfs (40 + r) else s
    match s0.readerFmt r with
    | none => s0.modReader r fun q => { q with part := [] }
    | some (f, w) =>
      match Pix.record f w (s0.reader r).part with
      | some (l, rest) => ((s0.modReader r fun q => { q with part := rest }).readerLine r l).readRecords r n
      | none => s0

/-- Readers take what their FIFOs hold and parse the records in it. -/
def State.readersPull (s : State) : State :=
  s.each (List.range 24) fun s r =>
    let e := s.endp (readerEnd r)
    if e.fifo.isEmpty then s
    else
      let s1 := s.modEnd (readerEnd r) fun e => { e with fifo := [] }
      if s.readerIdle r then s1.modReader r fun q => { q with part := [] }
      else (s1.modReader r fun q => { q with part := q.part ++ e.fifo.flatMap (·.bytes) }).readRecords r ((s.reader r).part.length + e.fifo.length)

/-- Mix two lines with weight w / 16 of the second. -/
def blendPx (w : Nat) (a b : Px) : Px :=
  let m (x y : Nat) : Nat := (roundQ ((16 - w) * x + w * y : Nat) 16).toNat
  ⟨m a.c0 b.c0, m a.c1 b.c1, m a.c2 b.c2⟩

/-- Source line `n` for the output frame that starts at `t` ns under frame-rate conversion, from what has been delivered by step `due`
(R311). -/
def State.frcLine (s : State) (r : Nat) (p : List Byte) (t n due : Nat) : VLine :=
  let q := s.reader r
  let all := ((q.lines :: q.frames).map fun f => f.filter fun l => l.arr ≤ due).filter fun f => f.any fun l => l.tag.line = 0
  let ts := t - Prof.frcDelay p * 10000
  let pick (best : Option (List VLine)) (f : List VLine) : Option (List VLine) :=
    if frameTime f ≤ ts && (best.all fun b => frameTime b < frameTime f) then some f else best
  let f0 := all.foldl pick none
  let next (t0 : Nat) (best : Option (List VLine)) (f : List VLine) : Option (List VLine) :=
    if frameTime f > t0 && (best.all fun b => frameTime f < frameTime b) then some f else best
  let line (f : Option (List VLine)) : Option VLine := f.bind fun f => f.find? fun l => l.tag.line = n
  let (sp, sub) := Pix.fmtSpace (Prof.srcFmt p)
  let blk : VLine := { tag := { line := n, flags := fLATE }, space := sp, sub := sub, px := List.replicate (Prof.srcW p) (Pix.black sp) }
  if Prof.frc p = 2 then
    let t0 := f0.elim 0 frameTime
    let f1 := all.foldl (next t0) none
    match line f0, line f1 with
    | some a, some b =>
      let num := 16 * (ts - t0)
      let den := max 1 (frameTime (f1.getD []) - t0)
      let up := 2 * (num % den) > den || (2 * (num % den) = den && Config.roundsUp num den)
      let w16 := min 16 (if up then num / den + 1 else num / den)
      { a with px := (a.px.zip b.px).map fun z => blendPx w16 z.1 z.2 }
    | some a, none => { a with tag := a.tag.with fREPEAT }
    | none, some b => { b with tag := b.tag.with fREPEAT }
    | none, none => blk
  else (line f0).getD blk

/-- The time point that is due at `d` under frame-rate conversion, and the run time at which device time reached it. -/
def State.frcPoint (s : State) (d : Nat) : Option (Nat × Nat) :=
  let p := (s.dest d).prof
  ((framePoint (Prof.outFps p) (Prof.outPhase p) s.beatNs).bind fun t => (s.crossed t).map fun r => (t, r)).filter fun q =>
    (s.dest d).frcRun < q.2

/-- MEMORY_READER_FRAME_START towards following destination `d` (R311): a frame boundary of the route, with or without a feed. -/
def State.readerFrame (s : State) (d : Nat) : State :=
  if d < 16 || s.frcOf d = 0 then s
  else match s.frcPoint d with
    | none => s
    | some (t, r) =>
      let s1 := ((s.scaleDue d).scaleClear d).takeProf d
      s1.modDest d fun x =>
        if s1.frcOf d = 0 then { x with frcNs := none } else { x with frcNs := some (s.beatPoint t), frcRun := r, frcAt := s.pointStep t, frcN := 0 }

/-- The lines of a frame-rate-converted output frame that are due: spread evenly over the frame period, and after them its frame tag, which
carries the output frame's device time, and the plumb state and the position of the moment in which it is made (R28; DESIGN CHOICE, log entry
23). -/
def State.frcDue (s : State) (d : Nat) : State :=
  let x := s.dest d
  let p := x.prof
  match x.frcNs with
  | none => s
  | some t =>
    let h := Prof.srcH p
    if s.frcOf d = 0 || x.frcN > h || h = 0 then s
    else if s.clk.now < x.frcAt + 500000000 / max 1 (Prof.outFps p) * x.frcN / (h + 1) then s
    else
      let s1 := s.modDest d fun x => { x with frcN := x.frcN + 1 }
      if s.noFeed d then s1
      else if x.frcN = h then s1.pipeLine d { tag := { s.stampTag with line := 0xFFFF, sec := t / 1000000000, ns := t % 1000000000 }, fs := x.frcAt } false false
      else
        let l := s.frcLine (x.route.source - 40) p t x.frcN s.clk.now
        let s2 := (s1.when (bitAt l.tag.flags 5) fun s => s.flag (Fd.VXM_DFLAG_REPEAT d)).when (bitAt l.tag.flags 12) fun s =>
          s.flag (Fd.VXM_DFLAG_LATE d)
        s2.pipeLine d { l with fs := x.frcAt } false false

/-! ### Network decoders (R320 to R322) -/

/-- Split a byte stream into the RTP packets of R320's records; what is left of it. -/
def rtpRecords : Nat → List Byte → List (List Byte) × List Byte
  | 0, l => ([], l)
  | n + 1, l =>
    let len := fieldAt l 0 2
    let whole := 16 + (len + 15) / 16 * 16
    if l.length < 16 || l.length < whole then ([], l)
    else
      let (a, r) := rtpRecords n (l.drop whole)
      (((l.drop 16).take len) :: a, r)

/-- RTP time `a` lies after `b`, by serial number arithmetic. -/
def rtpAfter (a b : Nat) : Bool := let d := (a + 2 ^ 32 - b) % 2 ^ 32; 0 < d && d < 2 ^ 31

/-- Decoders take the records their input endpoints hold, in the order the figure delivered them. Packets of a frame that has been emitted
come too late. -/
def State.decodersPull (s : State) : State :=
  s.each (List.range 8) fun s i =>
    let e := s.endp (0x1B0 + i)
    if e.fifo.isEmpty then s
    else
      let (ps, rest) := rtpRecords e.fifo.length ((s.dec i).part ++ e.fifo.flatMap (·.bytes))
      (s.modEnd (0x1B0 + i) fun e => { e with fifo := [] }).modDec i fun d =>
        { d with part := rest, packets := d.packets ++ (ps.map fun p => (beNat ((p.drop 4).take 4), p.drop 12)).filter fun p =>
          d.ns.isNone || rtpAfter p.1 d.ts || (d.on && p.1 = d.ts) }

/-- A decoder's frame starts: `ts` its RTP time, `t` that time in ns. -/
def State.decBegin (s : State) (i ts t : Nat) (lost : Bool) (p : List Byte) : State :=
  let d := s.dec i
  let (v, s1) := s.draw
  let period := match d.ns with
    | some b => if b < t && t - b ≤ 1000000000 then t - b else v % 1000000000 + 1
    | none => v % 1000000000 + 1
  let s2 := if d.ns.isSome then s else s1
  (((s2.takeProfs (24 + i)).modDec i fun d =>
    { d with ts := ts, on := true, startAt := s.clk.now, pace := max 1 (period / (2 * (Prof.srcH p + 1))), line := 0
             flags := flagIf lost fLOST, badSlice := false, frame := d.frame + 1, ns := some t, before := d.ns }).startSrc (24 + i) s.clk.now).when lost fun s =>
    s.bump (Fd.XSC_DEC_LOST i)

/-- The time (ns) at which the frame after decoder `i`'s last two is expected, one period on. -/
def Dec.expected (d : Dec) : Option Nat :=
  match d.ns, d.before with
  | some a, some b => if b < a then some (a + (a - b)) else none
  | _, _ => none

/-- DECODER_FRAME_START of decoder `i` (R321): the oldest frame that waits starts at its RTP time plus PLAYOUT. Where the expected frame has
no packets and the next ones lie more than half a period beyond it, it is LOST. -/
def State.decFrame (s : State) (i : Nat) : State :=
  match ((s.firstRoute (24 + i)).map s.profOf) <|> s.pendProf (24 + i) with
  | none => s.modDec i fun d => { d with on := false }
  | some p =>
    let d := s.dec i
    if Prof.srcKind p = 0 || d.on then s
    else
      let base := s.ns - Prof.playout p * 10000
      let now90 := base * 9 / 100000
      let lost (t : Nat) : State := s.decBegin i (t * 9 / 100000 % 2 ^ 32) t true p
      let due := d.expected.filter (· ≤ base)
      match d.packets.foldl (fun (m : Option Nat) q => match m with
        | some a => if rtpAfter a q.1 then some q.1 else m
        | none => some q.1) none with
      | some ts =>
        let late := (now90 + 2 ^ 32 - ts) % 2 ^ 32
        let at_ := (now90 - late) * 100000 / 9
        match due with
        | some t =>
          let half := (t - d.ns.getD t) / 2
          if late < 2 ^ 31 && at_ < t + half then s.decBegin i ts at_ false p else lost t
        | none => if late < 2 ^ 31 then s.decBegin i ts at_ false p else s
      | none => match due with
        | some t => lost t
        | none => s

/-- The line of a decoder's frame that is due (R319, R321, R322). Its tag has the frame's RTP time, position 0, AXLE 0 and plumb state and
odometry flags 0: the spec does not say what stamps a decoder's lines (DESIGN CHOICE, log entry 23). -/
def State.decDue (s : State) (i : Nat) : State :=
  let d := s.dec i
  match s.sourceProf (24 + i) with
  | none => s
  | some p =>
    if !d.on || s.clk.now < d.startAt + d.line * d.pace then s
    else
      let t := (d.ns.getD 0)
      let tag : Tag := { sec := t / 1000000000, ns := t % 1000000000, line := d.line, frame := d.frame }
      let kind := Prof.srcKind p
      let fmt := if kind = 2 then 0 else Prof.srcFmt p
      if d.line ≥ Prof.srcH p then
        (s.modDec i fun d => { d with on := false, packets := d.packets.filter (·.1 ≠ d.ts) }).feedAll (24 + i)
          { tag := { tag with line := 0xFFFF, flags := d.flags }, fs := d.startAt } 0 0
      else
        let (sp, sub) := Pix.fmtSpace fmt
        let mine := (d.packets.filter (·.1 = d.ts)).map (·.2)
        let lost := bitAt d.flags 4
        let (code, v) := if mine.isEmpty || lost then (0, [])
          else if !Prof.netSize kind (Prof.srcW p) (Prof.srcH p) || fmt > 3 then (1, [])
          else Config.videoLine kind fmt (Prof.srcW p) (Prof.srcH p) d.line mine
        let f := if lost then fLOST else if code = 0 then fLATE else if code = 1 then fCRC else 0
        let px := (List.range (Prof.srcW p)).map fun x =>
          if code ≥ 2 then ⟨v.getD (3 * x) 0 % 4096, v.getD (3 * x + 1) 0 % 4096, v.getD (3 * x + 2) 0 % 4096⟩ else Pix.black sp
        let counted := d.badSlice && d.line % 16 ≠ 0
        let s1 := s.modDec i fun d => { d with line := d.line + 1, flags := d.flags ||| f, badSlice := counted || code = 1 }
        let s2 := (s1.when (code = 0 && !lost) fun s => s.bump (Fd.XSC_DEC_LATE i)).when (code = 1 && !counted) fun s =>
          s.bump (Fd.XSC_DEC_BAD_SLICE i)
        s2.feedAll (24 + i) { tag := { tag with flags := f ||| d.flags }, space := sp, sub := sub, px := px, fs := d.startAt } 0 0

/-- What the video matrix does in every step: held releases, decoder lines, converted frames, scalers, encoders and memory writers. -/
def State.videoTick (s : State) : State :=
  let s1 := ((s.each (List.range 48) State.releaseHeld).each (List.range 8) State.decDue).each ((List.range 48).drop 16) State.frcDue
  ((s1.each (List.range 48) State.scaleDue).each ((List.range 24).drop 16) State.encPull).each ((List.range 48).drop 32) State.writerPush

/-! ### Configuration (R285, R300, R301, R306) -/

/-- The settings that a VIN_CFG payload makes of the present ones; `none` where a code or range of its page fails. -/
def vinPage (c : CnfCfg) (l : List Byte) : Option CnfCfg :=
  let page := fieldAt l 0 1
  if page = 0 then
    let fl := fieldAt l 5 1
    let n : CnfCfg :=
      { c with rx := fieldAt l 1 1, vc := fieldAt l 2 1, dt := fieldAt l 3 1, lanes := fieldAt l 4 1
               padLast := bitAt fl 0, frontEnd := bitAt fl 1, linescan := bitAt fl 2, suppressRev := bitAt fl 3, bayer := bitsOf fl 7 6
               rate := fieldAt l 6 2, width := fieldAt l 8 2, height := fieldAt l 10 2, fps := fieldAt l 12 2
               linePeriod := fieldAt l 14 2, phase := fieldAt l 16 4, window := fieldAt l 20 4, outDelay := fieldAt l 24 2
               black := fieldAt l 26 2, hold := fieldAt l 28 1, holdSrc := fieldAt l 29 1
               trigMode := fieldAt l 30 1, trigArg := fieldAt l 31 1, trigLead := fieldAt l 32 4, trigPw := fieldAt l 36 2 }
    let ok := n.rx ≤ 11 && n.vc ≤ 3 && Pix.supported n.dt && 1 ≤ n.lanes && n.lanes ≤ 4 && bitsOf fl 5 4 = 0 &&
      80 ≤ n.rate && n.rate ≤ 2500 && 16 ≤ n.width && n.width ≤ 4096 && n.width % 2 = 0 && 1 ≤ n.height && n.height ≤ 2176 &&
      (n.linescan || (1 ≤ n.fps && n.fps ≤ 240)) && n.black ≤ 4095 && (n.holdSrc ≤ 7 || n.holdSrc = 0xFF) && n.trigMode ≤ 2 && n.trigArg ≤ 63 &&
      1 ≤ n.trigPw && fieldAt l 38 2 = 0
    let timing := n.linescan || (n.width ≤ 2 * n.linePeriod && (n.outDelay + n.height * n.linePeriod) * n.fps ≤ 400000000 &&
      n.phase * n.fps < 1000000000 && 1000 ≤ n.window && n.window * n.fps ≤ 1000000000)
    if ok && timing then some n else none
  else if page = 1 then
    some { c with m := (List.range 9).map fun k => signed 16 (fieldAt l (4 + 2 * k) 2)
                  o := (List.range 3).map fun k => signed 13 (fieldAt l (22 + 2 * k) 2) }
  else if page = 2 then
    some { c with knots := (List.range 18).map (fun k => fieldAt l (4 + 2 * k) 2 % 1024) ++ c.knots.drop 18 }
  else if page = 3 then
    some { c with knots := c.knots.take 18 ++ (List.range 15).map (fun k => fieldAt l (4 + 2 * k) 2 % 1024) }
  else none

/-- R285: the stream or trigger is taken by another conformer, under the settings it has in force or those that wait. -/
def State.vinClash (s : State) (i : Nat) (n : CnfCfg) : Bool :=
  (List.range 24).any fun k =>
    let c := s.conf k
    let sets := (if s.bit (Fd.CNF_STAT_CONFIGURED k) then [c.cfg] else []) ++ c.shadow.toList
    k ≠ i && c.bound && sets.any fun o => o.rx = n.rx &&
      (o.vc = n.vc || o.lanes ≠ n.lanes || o.rate ≠ n.rate || (o.trigMode ≠ 0 && n.trigMode ≠ 0))

/-- A valid VIN_CFG for conformer `i`: its settings wait in the shadow (R300). -/
def State.vinCfg (s : State) (i : Nat) (n : CnfCfg) (page : Nat) : State :=
  s.modConf i fun c =>
    let first := !c.bound && page = 0
    { c with shadow := some n, bound := c.bound || page = 0
             tfRun := if first then s.plb.run else c.tfRun }

/-- A scaling ratio lies within 1/8 to 8. -/
def ratioOk (a b : Nat) : Bool := a ≤ 8 * b && b ≤ 8 * a

/-- A profile that ROUTE_PROFILE accepts (R305, R306). -/
def profileOk (p : List Byte) : Bool :=
  let w := if Prof.cropW p ≠ 0 then Prof.cropW p else Prof.srcW p
  let h := if Prof.cropH p ≠ 0 then Prof.cropH p else Prof.srcH p
  p.length = 40 && Prof.set p ≤ 3 && Prof.csc p ≤ 8 && Prof.outFmt p ≤ 1 && Prof.frc p ≤ 3 && Prof.outFps p ≤ 240 && fieldAt p 19 1 = 0 &&
    Prof.encKind p ≤ 2 && Prof.srcKind p ≤ 2 && Prof.srcFmt p ≤ 5 && Prof.outW p ≤ 4096 && Prof.outH p ≤ 4096 &&
    (Prof.srcW p = 0 || Prof.cropX p + w ≤ Prof.srcW p) && (Prof.srcH p = 0 || Prof.cropY p + h ≤ Prof.srcH p) &&
    (Prof.outW p = 0 || w = 0 || ratioOk (Prof.outW p) w) && (Prof.outH p = 0 || h = 0 || ratioOk (Prof.outH p) h) &&
    (Prof.encKind p = 0 || (96 ≤ Prof.encPt p && Prof.encPt p ≤ 127)) &&
    (Prof.encKind p ≠ 2 || (16 ≤ Prof.encBpp p && Prof.encBpp p ≤ 128))

end Sys2Proof.Machine
end

