-- ==== Sys2Proof/Machine/Composition.lean ====
section
/-! DEFINITION. DisplayPort outputs (R323 to R327), the layer compositors (13) and their flattening cache. -/

namespace Sys2Proof.Machine

def State.dp (s : State) (c : Nat) : DpOut := vget s.vid.dps c
def State.modDp (s : State) (c : Nat) (f : DpOut → DpOut) : State := s.modVid fun v => { v with dps := vmod v.dps c f }
def State.comp (s : State) (c : Nat) : Comp := vget s.vid.comps c
def State.modComp (s : State) (c : Nat) (f : Comp → Comp) : State := s.modVid fun v => { v with comps := vmod v.comps c f }

/-! ### Layer parameters (R334) -/

namespace Lay
def enable (p : List Byte) : Bool := bitAt (fieldAt p 0 1) 0
def static (p : List Byte) : Bool := bitAt (fieldAt p 0 1) 1
def keyEn (p : List Byte) : Bool := bitAt (fieldAt p 0 1) 2
def noFeedClear (p : List Byte) : Bool := bitAt (fieldAt p 0 1) 3
def z (p : List Byte) : Nat := fieldAt p 1 1
def blend (p : List Byte) : Nat := fieldAt p 2 1
def fmt (p : List Byte) : Nat := fieldAt p 3 1
def alpha (p : List Byte) : Nat := fieldAt p 4 2
def set (p : List Byte) : Nat := fieldAt p 6 1
def dstX (p : List Byte) : Int := signed 16 (fieldAt p 8 2)
def dstY (p : List Byte) : Int := signed 16 (fieldAt p 10 2)
def dstW (p : List Byte) : Nat := fieldAt p 12 2
def dstH (p : List Byte) : Nat := fieldAt p 14 2
def srcW (p : List Byte) : Nat := fieldAt p 16 2
def srcH (p : List Byte) : Nat := fieldAt p 18 2
def keyLo (p : List Byte) : Nat := fieldAt p 20 4
def keyHi (p : List Byte) : Nat := fieldAt p 24 4
def bg (p : List Byte) : Nat := fieldAt p 28 4

/-- Component `k` of a colour word. -/
def comp (w k : Nat) : Nat := w / 1024 ^ k % 1024

/-- PARAM that LAYER_SET accepts for layer `l` (R334). -/
def ok (l : Nat) (p : List Byte) : Bool :=
  let live := l < 4
  p.length = 40 && bitsOf (fieldAt p 0 1) 7 4 = 0 && z p ≤ 7 && blend p ≤ 2 && fmt p ≤ (if live then 0 else 1) && alpha p ≤ 1023 &&
    set p ≤ (if live then 0 else 3) && fieldAt p 7 1 = 0 && fieldAt p 32 8 = 0 && (!live || !static p) &&
    bitsOf (keyLo p) 31 30 = 0 && bitsOf (keyHi p) 31 30 = 0 && bitsOf (bg p) 31 30 = 0 && (l = 0 || bg p = 0) &&
    (if live then dstW p = 0 && dstH p = 0 && srcW p = 0 && srcH p = 0
     else 1 ≤ dstW p && dstW p ≤ 4096 && 1 ≤ dstH p && dstH p ≤ 4096 && 1 ≤ srcW p && srcW p ≤ 4096 && 1 ≤ srcH p && srcH p ≤ 4096 &&
       ratioOk (dstW p) (srcW p) && ratioOk (dstH p) (srcH p))
end Lay

/-- Layer `l`'s active parameters. -/
def Comp.lay (m : Comp) (l : Nat) : List Byte := vget m.active l

/-- Enabled layers in increasing Z (R329). -/
def zOrder (sets : Vector (List Byte) 8) : List Nat :=
  let ls := (List.range 8).filter fun l => Lay.enable (vget sets l)
  (List.range 8).flatMap fun z => ls.filter fun l => Lay.z (vget sets l) = z

/-- The static top (R338): the enabled static layers above every enabled layer that is not static. -/
def staticTop (sets : Vector (List Byte) 8) : List Nat :=
  ((zOrder sets).reverse.takeWhile fun l => Lay.static (vget sets l)).reverse

/-- A set of layers as a mask. -/
def layMask (l : List Nat) : Nat := l.foldl (fun m i => m + 2 ^ i) 0

/-! ### Blending (R333, R338) -/

/-- ⌊(x + 511) / 1,023⌋. -/
def div1023 (x : Nat) : Nat := (x + 511) / 1023

/-- Effective alpha of a layer pixel. -/
def effAlpha (p : List Byte) (pa : Nat) : Nat := div1023 (pa * Lay.alpha p)

/-- One component of layer pixel `sv` with pixel alpha `pa` over `d`. -/
def blendOne (p : List Byte) (pa sv d : Nat) : Nat :=
  let a := effAlpha p pa
  if Lay.blend p = 0 then (if pa > 0 then sv else d)
  else if Lay.blend p = 1 then div1023 (a * sv + (1023 - a) * d)
  else min 1023 (div1023 (Lay.alpha p * sv + (1023 - a) * d))

/-- A layer pixel over another pixel. -/
def blendOver (p : List Byte) (x : CPx) (d : CPx) : CPx :=
  ⟨blendOne p x.a x.c0 d.c0, blendOne p x.a x.c1 d.c1, blendOne p x.a x.c2 d.c2, 1023⟩

/-- A layer pixel over a pixel of the cache (R338). -/
def cacheOver (p : List Byte) (x : CPx) (d : CPx) : CPx :=
  let a := if Lay.blend p = 0 then (if x.a > 0 then 1023 else 0) else effAlpha p x.a
  let pre (v : Nat) : Nat :=
    if Lay.blend p = 0 then (if x.a > 0 then v else 0) else if Lay.blend p = 1 then div1023 (a * v) else div1023 (Lay.alpha p * v)
  let c (v w : Nat) : Nat := min 1023 (pre v + div1023 ((1023 - a) * w))
  ⟨c x.c0 d.c0, c x.c1 d.c1, c x.c2 d.c2, min 1023 (a + div1023 ((1023 - a) * d.a))⟩

/-- The cache over the live composition (R338). -/
def cachedOver (x d : CPx) : CPx :=
  let c (v w : Nat) : Nat := min 1023 (v + div1023 ((1023 - x.a) * w))
  ⟨c x.c0 d.c0, c x.c1 d.c1, c x.c2 d.c2, 1023⟩

/-- A keyed pixel takes pixel alpha 0 (R333). -/
def keyPx (p : List Byte) (x : CPx) : CPx :=
  let in_ (k v : Nat) : Bool := Lay.comp (Lay.keyLo p) k ≤ v && v ≤ Lay.comp (Lay.keyHi p) k
  if Lay.keyEn p && in_ 0 x.c0 && in_ 1 x.c1 && in_ 2 x.c2 then { x with a := 0 } else x

/-! ### Timing (R324 to R326) -/

namespace Tim
def lanes (p : List Byte) : Nat := fieldAt p 0 1
def rate (p : List Byte) : Nat := fieldAt p 1 1
def enable (p : List Byte) : Bool := bitAt (fieldAt p 2 1) 0
def format (p : List Byte) : Nat := fieldAt p 3 1
def h (p : List Byte) (k : Nat) : Nat := fieldAt p (4 + 2 * k) 2
def v (p : List Byte) (k : Nat) : Nat := fieldAt p (12 + 2 * k) 2
def fps (p : List Byte) : Nat := fieldAt p 20 1
def phase (p : List Byte) : Nat := fieldAt p 24 4
def hTotal (p : List Byte) : Nat := h p 0 + h p 1 + h p 2 + h p 3
def vTotal (p : List Byte) : Nat := v p 0 + v p 1 + v p 2 + v p 3

/-- Link rate in bits per second per lane. -/
def bps (r : Nat) : Nat := [1620000000, 2700000000, 5400000000, 8100000000].getD r 0

/-- Bits per pixel of a FORMAT. -/
def bitsPerPixel (f : Nat) : Nat := (6 + 2 * bitsOf f 3 2) * (if bitsOf f 1 0 = 2 then 2 else 3)

/-- The link at rate `r` carries the timing (R325). -/
def fits (p : List Byte) (r : Nat) : Bool :=
  hTotal p * vTotal p * fps p * bitsPerPixel (format p) * 10 ≤ lanes p * bps r * 8

/-- A TIMING payload that VOUT_CFG accepts (R324, R325). -/
def ok (p : List Byte) : Bool :=
  let f := format p
  p.length = 40 && (lanes p = 1 || lanes p = 2 || lanes p = 4) && rate p ≤ 3 && fieldAt p 2 1 ≤ 7 && bitsOf f 1 0 ≤ 2 && bitsOf f 3 2 ≤ 2 &&
    bitsOf f 5 4 ≤ 2 && bitsOf f 7 6 = 0 && fieldAt p 21 3 = 0 && fieldAt p 28 12 = 0 &&
    h p 0 % 2 = 0 && 64 ≤ h p 0 && h p 0 ≤ 3840 && 64 ≤ v p 0 && v p 0 ≤ 2160 &&
    ((List.range 3).all fun k => 1 ≤ h p (k + 1) && 1 ≤ v p (k + 1)) && hTotal p ≤ 8192 && vTotal p ≤ 4096 &&
    1 ≤ fps p && fps p ≤ 240 && hTotal p * vTotal p * fps p ≤ 600000000 && fits p (rate p) &&
    (bitsOf f 3 2 ≠ 0 || bitsOf f 1 0 = 0) && phase p * fps p < 1000000000
end Tim

/-- Step at which output line `y` of the frame of DP `c` leaves (R326): y line periods after the frame start. -/
def State.dpLineAt (s : State) (c y : Nat) : Nat :=
  let o := s.dp c
  o.startAt + cdiv (y * 500000000) (max 1 (Tim.vTotal o.timing * Tim.fps o.timing))

/-! ### Lines of layers (R330 to R332) -/

/-- A 12-bit pixel as the compositor takes it. -/
def compPx (p : Px) (a : Nat) : CPx := ⟨p.c0 / 4, p.c1 / 4, p.c2 / 4, a⟩

/-- A pixel of a layer reader's record (R331), kept as the components of a parsed line. -/
def readerPx (fmt : Nat) (p : Px) : CPx :=
  if fmt = 0 then compPx p 1023
  else
    let w := p.c0 / 4 + p.c1 / 4 * 1024 + p.c2 / 4 * 1048576
    let x (v : Nat) : Nat := 4 * v + v / 64
    ⟨x (w % 256), x (w / 256 % 256), x (w / 65536 % 256), x (w / 16777216 % 256)⟩

/-- Destination `d` has switched to a source of which no frame that started since then qualifies for the destination frame that starts at step
`td` and lasts `pd` steps: its late lines are the scarf's (R313, R332). -/
def State.scarfGap (s : State) (d td pd : Nat) : Bool :=
  let x := s.dest d
  s.frcOf d = 0 && match (if x.route.source < 48 then vget s.vid.srcAt x.route.source else none) with
    | some a => a < x.since || (td < a && td < x.since + pd)
    | none => true

/-- Height of the frames that leave the pipe of `d`, and the width of their lines, where they are known (R330). -/
def State.feedHeight (s : State) (d : Nat) : Option Nat :=
  let p := (s.dest d).prof
  if Prof.outH p ≠ 0 then some (Prof.outH p) else s.pipeHeight d
def State.feedWidth (s : State) (d : Nat) : Option Nat :=
  let x := s.dest d
  let w := if Prof.outW x.prof ≠ 0 then Prof.outW x.prof
    else if Prof.cropW x.prof ≠ 0 then Prof.cropW x.prof
    else if x.route.source < 24 then (s.conf x.route.source).cfg.width
    else if !(32 ≤ x.route.source && x.route.source < 40) && Prof.srcW x.prof ≠ 0 then Prof.srcW x.prof
    else x.lastOut.elim 0 (·.px.length)
  if w = 0 then none else some w

/-- What layer `l` shows on output line `y`: pixels from column DST_X on, whether they came late; `none` is transparent. Below the last line of
the feed's frames there is nothing. -/
def State.feedLine (s : State) (c l y : Nat) : Option (List CPx) × Bool :=
  let d := 4 * c + l
  let p := (s.comp c).lay l
  let o := s.dp c
  let n := (y : Int) - Lay.dstY p
  if n < 0 then (none, false)
  else if s.noFeed d then
    (if Lay.noFeedClear p then none else some (List.replicate (Tim.h o.timing 0) (keyPx p ⟨0, 0, 0, 1023⟩)), false)
  else if (s.feedHeight d).any fun h => h ≤ n.toNat then (none, false)
  else
    let k := n.toNat
    let td := o.startAt - 280
    let pd := 500000000 / max 1 (Tim.fps o.timing)
    let due := s.dpLineAt c y
    let line : Option VLine :=
      if s.frcOf d ≠ 0 then none
      else ((s.dest d).fifo.find? fun e => e.2.tag.line = k && e.2.fs ≤ td && td < e.2.fs + pd && e.1 + 280 ≤ due).map (·.2)
    match line with
    | some v => (some (v.px.map fun q => keyPx p (compPx q 1023)), false)
    | none =>
      (if Lay.noFeedClear p && s.scarfGap d td pd then none
       else some (List.replicate ((s.feedWidth d).getD (Tim.h o.timing 0)) (keyPx p ⟨0, 0, 0, 1023⟩)), true)

/-- Height of a frame-rate-converted feed's frames before and after vertical scaling. -/
def Prof.frcHeights (p : List Byte) : Nat × Nat :=
  let h := if Prof.cropH p ≠ 0 then Prof.cropH p else Prof.srcH p - Prof.cropY p
  (h, if Prof.outH p = 0 then h else Prof.outH p)

/-- Line `k` of a frame-rate-converted layer feed, through its pipe, from what had been delivered by step `due` (R311, R307). -/
def State.frcPipe (s : State) (c l k due : Nat) : VLine :=
  let d := 4 * c + l
  let p := (s.dest d).prof
  let r := (s.dest d).route.source - 40
  let t := ((s.dp c).frameNs.getD 560) - 560
  let cut (v : VLine) : List Px := (v.px.drop (Prof.cropX p)).take (if Prof.cropW p = 0 then v.px.length else Prof.cropW p)
  let scaled (v : VLine) : List Px :=
    let q := cut v
    if Prof.outW p = 0 || Prof.outW p = q.length then q else Pix.hscale (Prof.set p) (Prof.outW p) q
  let (hIn, hOut) := Prof.frcHeights p
  let line (n : Nat) : VLine := s.frcLine r p t (Prof.cropY p + n) due
  if hOut = hIn then
    let v := line k
    { v with px := Prof.finish p v.sub (scaled v) }
  else
    let v := line (min (hIn - 1) (Pix.phaseOf k hIn hOut).1.toNat)
    let rows := (List.range hIn).map fun n => scaled (line n)
    { v with px := Prof.finish p v.sub (Pix.vscale (Prof.set p) k hIn hOut (scaled v).length rows) }

/-- That line as it is shown on output line `y`, 280 steps after it is due: on a replayable route every line of a slot whose re-conversion
failed repeats the last line (R318). -/
def State.frcFeed (s : State) (c l k y : Nat) : VLine :=
  let d := 4 * c + l
  let v := s.frcPipe c l k (s.dpLineAt c y - 280)
  if (s.dest d).frcSlot.any (·.2) && s.replayRoute d then
    { v with tag := v.tag.with (fREPEAT ||| fFAULT), px := ((s.dest d).lastOut.map (·.px)).getD (v.px.map fun _ => Pix.black v.space) }
  else v

/-- Layer feed `d` shows the line of output line `y` as line `n` of a frame-rate-converted frame. -/
def State.frcShows (s : State) (c l y : Nat) : Option Nat :=
  let d := 4 * c + l
  let n := (y : Int) - Lay.dstY ((s.comp c).lay l)
  if s.frcOf d = 0 || s.noFeed d || n < 0 || (Prof.frcHeights (s.dest d).prof).2 ≤ n.toNat then none else some n.toNat

/-- A fault that waits for the pipe of such a feed is met by the next line on a cut-through route; on a replayable one by the lines of a slot,
with that slot's first line. The pipe reads ahead by as much as the hold takes (R317, R318; DESIGN CHOICE, log entry 59). -/
def State.frcMark (s : State) (c l y : Nat) : State :=
  let d := 4 * c + l
  if (s.frcShows c l y).isNone || !Lay.enable ((s.comp c).lay l) then s
  else
    let k := s.heldUntil s.clk.now
    if s.replayRoute d && (s.dest d).frcSlot.any (·.1 = k) then s
    else
      let (fault, again, s1) := s.meetFault d {} false false
      (s1.when fault fun s => s.flag (Fd.VXM_DFLAG_FAULT d)).modDest d fun x => { x with frcSlot := some (k, fault && again) }

/-- Layer reader line `k`, if it was delivered for the frame in progress by step `due`. -/
def State.layerLine (s : State) (c j k due : Nat) : Option VLine :=
  let ls := (s.reader (8 + 4 * c + j)).lines
  let frame := ls.takeWhile fun l => !Pix.isTag l.tag
  frame.find? fun l => l.tag.line = k && l.arr ≤ due

/-- What layer 4 + `j` shows on output line `y` (R330, R331). Between the scaler's two stages the components have their 12 bits (R308). -/
def State.scaledLine (s : State) (c j y : Nat) : Option (List CPx) × Bool :=
  let p := (s.comp c).lay (4 + j)
  let n := (y : Int) - Lay.dstY p
  if n < 0 || n ≥ Lay.dstH p then (none, false)
  else
    let h := Lay.srcH p
    let w := Lay.srcW p
    let (i, ph) := Pix.phaseOf n.toNat h (Lay.dstH p)
    let idx (t : Nat) : Nat := Pix.mirror h (i + t - 3)
    let needed := if h = Lay.dstH p then [n.toNat] else (List.range 8).map idx
    let wide (q : CPx) : CPx := ⟨q.c0 * 4, q.c1 * 4, q.c2 * 4, q.a * 4⟩
    let narrow (q : CPx) : CPx := ⟨q.c0 / 4, q.c1 / 4, q.c2 / 4, q.a / 4⟩
    let row (k : Nat) : Option (List CPx) :=
      (s.layerLine c j k (s.dpLineAt c y - 280)).map fun v => v.px.map fun q => wide (keyPx p (readerPx (Lay.fmt p) q))
    if needed.any fun k => (row k).isNone then (none, true)
    else
      let tapC (st phase : Nat) (t : List CPx) : CPx :=
        let f (g : CPx → Nat) : Nat := Pix.tap st phase (t.map g)
        ⟨f (·.c0), f (·.c1), f (·.c2), f (·.a)⟩
      let at_ (r : List CPx) (x : Nat) : CPx := r.getD x ⟨0, 0, 0, 0⟩
      let hs (r : List CPx) : List CPx :=
        if w = Lay.dstW p then r
        else (List.range (Lay.dstW p)).map fun x =>
          let (a, b) := Pix.phaseOf x w (Lay.dstW p)
          tapC (Lay.set p) b ((List.range 8).map fun (t : Nat) => at_ r (Pix.mirror w (a + (t : Int) - 3)))
      let rows := (List.range 8).map fun t => hs ((row (idx t)).getD [])
      if h = Lay.dstH p then (some ((hs ((row n.toNat).getD [])).map narrow), false)
      else (some ((List.range (Lay.dstW p)).map fun x => narrow (tapC (Lay.set p) ph (rows.map fun r => at_ r x))), false)

/-- What layer `l` shows on output line `y`, and whether it was late. -/
def State.layerAt (s : State) (c l y : Nat) : Option (List CPx) × Bool :=
  let p := (s.comp c).lay l
  if l < 4 then
    match s.frcShows c l y with
    | some n =>
      let v := s.frcFeed c l n y
      (some (v.px.map fun q => keyPx p (compPx q 1023)), bitAt v.tag.flags 12)
    | none => if s.frcOf (4 * c + l) ≠ 0 && !s.noFeed (4 * c + l) then (none, false) else s.feedLine c l y
  else s.scaledLine c (l - 4) y

/-- Lay a layer's pixels over a line with `f`, clipped to the active area (R330). -/
def layOver (f : CPx → CPx → CPx) (x0 : Int) (l : List CPx) (line : List CPx) : List CPx :=
  let v := l.toArray
  (line.zip (List.range line.length)).map fun q =>
    let i := (q.2 : Int) - x0
    if 0 ≤ i && i < v.size then f (v.getD i.toNat default) q.1 else q.1

/-- The composed line `y` of compositor `c`, its cache row when the static top is composed live, and the late layers. -/
def State.compose (s : State) (c y : Nat) : List CPx × List CPx × List Nat :=
  let m := s.comp c
  let w := Tim.h (s.dp c).timing 0
  let bg := Lay.bg (m.lay 0)
  let top := staticTop m.active
  let cached := s.bit (Fd.CMP_STAT_CACHED c)
  let base := List.replicate w ⟨Lay.comp bg 0, Lay.comp bg 1, Lay.comp bg 2, 1023⟩
  let put (line : List CPx × List Nat) (l : Nat) : List CPx × List Nat :=
    match s.layerAt c l y with
    | (some px, late) => (layOver (blendOver (m.lay l)) (Lay.dstX (m.lay l)) px line.1, if late then line.2 ++ [l] else line.2)
    | (none, late) => (line.1, if late then line.2 ++ [l] else line.2)
  let live := ((zOrder m.active).filter fun l => !top.contains l).foldl put (base, [])
  if cached then
    let row := ((m.cache.find? (·.1 = y)).map (·.2)).getD (List.replicate w ⟨0, 0, 0, 0⟩)
    (((live.1.zip row).zip (List.range w)).map fun q =>
        if m.badTiles.contains (y / 16 * cdiv w 64 + q.2 / 64) then q.1.1 else cachedOver q.1.2 q.1.1, [], live.2)
  else
    let all := top.foldl put live
    let row := top.foldl (fun r l => match s.layerAt c l y with
      | (some px, _) => layOver (cacheOver (m.lay l)) (Lay.dstX (m.lay l)) px r
      | (none, _) => r) (List.replicate w ⟨0, 0, 0, 0⟩)
    let shown := (all.1.zip live.1).zip (List.range w) |>.map fun q =>
      if m.badTiles.contains (y / 16 * cdiv w 64 + q.2 / 64) then q.1.2 else q.1.1
    (shown, row, all.2)

/-- The tile of 64 × 16 pixels in row `t` and column `x` of tiles holds some coverage (R338). -/
def tileUsed (cache : List (Nat × List CPx)) (t x : Nat) : Bool :=
  cache.any fun r => r.1 / 16 = t && ((r.2.drop (64 * x)).take 64).any fun q => q.a > 0

/-- Tiles that hold some coverage. -/
def tilesOf (w : Nat) (cache : List (Nat × List CPx)) : Nat :=
  let rows := (cache.map fun r => r.1 / 16).eraseDups
  rows.foldl (fun n t => n + ((List.range (cdiv w 64)).filter (tileUsed cache t)).length) 0

/-- What the cache keeps: no tile without coverage is stored. -/
def keptTiles (w : Nat) (cache : List (Nat × List CPx)) : List (Nat × List CPx) :=
  cache.map fun r => (r.1, (List.range (cdiv w 64)).flatMap fun x =>
    let l := (r.2.drop (64 * x)).take 64
    if tileUsed cache (r.1 / 16) x then l else l.map fun _ => ⟨0, 0, 0, 0⟩)

/-- A frame-rate-converted layer feed has given a line: what it repeats is flagged (R311, R318). -/
def State.frcShown (s : State) (c l y : Nat) : State :=
  let d := 4 * c + l
  match (if Lay.enable ((s.comp c).lay l) then s.frcShows c l y else none) with
  | none => s
  | some n =>
    let v := s.frcFeed c l n y
    (s.when (bitAt v.tag.flags 5) fun s => s.flag (Fd.VXM_DFLAG_REPEAT d)).modDest d fun x => { x with lastOut := some v }

/-- A step of device time moves the frame start after the running frame of DP `c` by more than half a line: the output ends the frame after
its current line, blanks until the next frame start and counts RESYNC (R326). -/
def State.dpStepped (s : State) (c : Nat) : State :=
  let o := s.dp c
  if s.plb.stepRun = o.stepSeen then s
  else
    let f := Tim.fps o.timing
    let due := o.startAt + 500000000 / max 1 f
    let next := s.pointStep (nextPoint f (Tim.phase o.timing) s.beatNs)
    let far := max due next - min due next
    let off := o.frameNs.isSome && !o.newTiming && !o.blank && far * 2 * Tim.vTotal o.timing * f > 500000000
    (s.modDp c fun o => { o with stepSeen := s.plb.stepRun, blank := o.blank || off }).when off fun s => s.bump (Fd.DPO_STAT_RESYNC c)

/-- Compose and send the line that is due on DP `c` (R326, R329). -/
def State.dpDue (s0 : State) (c : Nat) : State :=
  let s := s0.dpStepped c
  let o := s.dp c
  if o.frameNs.isNone || o.newTiming || o.blank || !s.bit (Fd.DPO_STAT_ENABLED c) || o.line ≥ Tim.v o.timing 0 || s.clk.now < s.dpLineAt c o.line then s
  else
    let y := o.line
    let sm := s.each (List.range 4) fun s l => s.frcMark c l y
    let (px, row, late) := sm.compose c y
    let top := staticTop (s.comp c).active
    let s0 := sm.each late fun s l =>
      (s.flag (Fd.CMP_LFLAG_LATE c) (2 ^ l)).when (l < 4) fun s => s.flag (Fd.VXM_DFLAG_LATE (4 * c + l))
    let s1 := s0.each (List.range 4) fun s l => s.frcShown c l y
    let rebuilding := s.bit (Fd.CMP_STAT_REBUILDING c)
    let done := y + 1 ≥ Tim.v o.timing 0
    let s2 := s1.modComp c fun m =>
      { m with cache := if rebuilding then m.cache ++ [(y, row)] else m.cache
               lateTop := m.lateTop || late.any fun l => top.contains l
               ended := m.ended || done }
    let s3 := s2.modDp c fun o => { o with line := y + 1 }
    let s4 := s3.modVid fun v =>
      { v with readers := (List.range 4).foldl (fun rs j => if done then vmod rs (8 + 4 * c + j) fun q =>
          let rest := (q.lines.dropWhile fun l => !Pix.isTag l.tag)
          { q with lines := rest.drop 1, skip := rest.isEmpty && !q.lines.isEmpty } else rs) v.readers }
    let s5 := s4.each (List.range 4) fun s l => s.modDest (4 * c + l) fun x =>
      { x with fifo := x.fifo.filter fun e => e.2.fs + 280 > o.startAt || (y : Int) < Lay.dstY ((s.comp c).lay l) + e.2.tag.line }
    if s.bit (Fd.DPO_STAT_TRAINED c) then
      s5.emit (.line "DP" c y (Pix.dpLine (Tim.format o.timing) (px.map fun q => (q.c0, q.c1, q.c2))) 0)
    else s5

/-! ### DP frames, links and hot plug (R326, R327) -/

/-- Bring a compositor's registers up to date (CMP_STATc to CMP_STATICc). -/
def State.showComp (s : State) (c : Nat) : State :=
  let m := s.comp c
  let top := staticTop m.active
  let stat := (List.range 8).filter fun l => Lay.static (m.lay l)
  let z := (List.range 8).foldl (fun n l => n + 16 ^ l * ((if Lay.enable (m.lay l) then 8 else 0) + Lay.z (m.lay l) % 8)) 0
  ((((s.put (Fd.CMP_ZORDER_LAYERS c) z).put (Fd.CMP_STATIC_TOP c) (layMask top)).put (Fd.CMP_STATIC_STATIC c) (layMask stat)).putB
    (Fd.CMP_STAT_PENDING c) !m.commits.isEmpty).putB (Fd.CMP_STAT_STATIC_LIVE c)
      (stat.any fun l => Lay.enable (m.lay l) && !top.contains l)

/-- A frame boundary of compositor `c` invalidates its cache: the frame that follows is a rebuild frame, where there is a static top
(R340). One that has just begun is not counted again. -/
def State.invalidate (s : State) (c : Nat) : State :=
  let top := !(staticTop (s.comp c).active).isEmpty
  let fresh := s.bit (Fd.CMP_STAT_REBUILDING c) && (s.comp c).cache.isEmpty
  let s1 := s.modComp c fun m => { m with invalid := none, cache := [], ended := false, lateTop := false }
  ((((s1.put (Fd.CMP_STAT_CACHED c) 0).put (Fd.CMP_STAT_CACHE_FULL c) 0).put (Fd.CMP_STAT_TILES c) 0).putB (Fd.CMP_STAT_REBUILDING c) top).when
    (top && !fresh) fun s => s.bump (Fd.CMP_STAT_REBUILDS c)

/-- A frame boundary of compositor `c` that has come: profiles of its frame-rate-converted feeds come into force, a lost cache is invalidated
(R278, R311, R340). -/
def State.compFrame (s : State) (c : Nat) : State :=
  match s.compBound c with
  | none => s
  | some (_, r) =>
    if r ≤ (s.comp c).boundRun then s
    else
      let s1 := (s.modComp c fun m => { m with boundRun := r }).each (List.range 4) fun s l =>
        s.when (s.frcOf (4 * c + l) ≠ 0) fun s => s.takeProf (4 * c + l)
      s1.when (s.comp c).invalid.isSome fun s => s.invalidate c

/-- The frame point of DP `c` that is due, and the run time at which device time reached it. -/
def State.dpPoint (s : State) (c : Nat) : Option (Nat × Nat) :=
  let o := s.dp c
  ((framePoint (Tim.fps o.timing) (Tim.phase o.timing) s.beatNs).bind fun t => (s.crossed t).map fun r => (t, r)).filter fun q => o.frameRun < q.2

/-- DP_FRAME_START of DP `c`. -/
def State.dpFrame (s : State) (c : Nat) : State :=
  let o := s.dp c
  if !s.bit (Fd.DPO_STAT_ENABLED c) then s
  else match s.dpPoint c with
    | none => s
    | some (t, r) =>
      let at_ := s.pointStep t
      let period := 500000000 / max 1 (Tim.fps o.timing)
      let due := o.startAt + period
      let off := max at_ due - min at_ due
      let resync := !o.newTiming && !o.blank && o.frameNs.isSome && off * 2 * Tim.vTotal o.timing * Tim.fps o.timing > 500000000
      let s1 := (s.modDp c fun o =>
        { o with frameNs := some (s.beatPoint t), frameRun := r, startAt := at_, line := 0, newTiming := false, blank := false
                 stepSeen := s.plb.stepRun }).bumpWrap (Fd.DPO_FRAME_FRAME c)
      let s2 := (s1.when resync fun s => s.bump (Fd.DPO_STAT_RESYNC c)).bumpWrap (Fd.CMP_FRAME_FRAME c)
      let s3 := s2.each (List.range 4) fun s l =>
        s.modDest (4 * c + l) fun x => { x with fifo := x.fifo.filter fun e => at_ < e.2.fs + period + 280 }
      let s4 := s3.modComp c fun m => { m with badTiles := [], ended := false, lateTop := false }
      s4.when (o.newTiming && (s.comp c).invalid.isSome) fun s => s.invalidate c

/-- Train DP `c`: the configured rate, then each lower one that still meets R325; `sink` names the rates that succeed. -/
def State.train (s : State) (c : Nat) (sink : BitVec 4) : State :=
  let o := s.dp c
  let s0 := s.modDp c fun o => { o with sink := sink }
  if !s.bit (Fd.DPO_STAT_ENABLED c) || !s.bit (Fd.DPO_STAT_HPD c) then s0
  else match (List.range (Tim.rate o.timing + 1)).reverse.find? fun r => Tim.fits o.timing r && sink.getLsbD r with
    | some r => (((s0.put (Fd.DPO_STAT_TRAINED c) 1).put (Fd.DPO_STAT_RATE c) r).put (Fd.DPO_STAT_LANES c) (Tim.lanes o.timing)).modDp c
        fun o => { o with failAt := none }
    | none => ((s0.put (Fd.DPO_STAT_TRAINED c) 0).bump (Fd.DPO_STAT_TRAIN_FAIL c)).modDp c fun o => { o with failAt := some s.clk.now }

/-- DP_HPD_HIGH, DP_HPD_LOW, DP_IRQ_HPD and DP_TRAIN_RETRY of DP `c`; HPD is ignored until VID (R474). -/
def State.hpdHigh (s : State) (c : Nat) (sink : BitVec 4) : State :=
  if !s.ready rVID then s else (s.put (Fd.DPO_STAT_HPD c) 1).train c sink

def State.hpdLow (s : State) (c : Nat) : State :=
  if !s.ready rVID then s
  else (((s.put (Fd.DPO_STAT_HPD c) 0).put (Fd.DPO_STAT_TRAINED c) 0).modDp c fun o => { o with failAt := none })

def State.irqHpd (s : State) (c : Nat) (lost : Bool) (sink : BitVec 4) : State :=
  if s.ready rVID && s.bit (Fd.DPO_STAT_HPD c) && lost then (s.put (Fd.DPO_STAT_TRAINED c) 0).train c sink else s

def State.trainRetry (s : State) (c : Nat) (sink : BitVec 4) : State :=
  match (s.dp c).failAt with
  | some t => if s.bit (Fd.DPO_STAT_HPD c) && t + 500000000 ≤ s.clk.now then s.train c sink else s
  | none => s

/-- Bays that own a layer of a mask: layers 0 to 3 by their destination, 4 to 7 by the compositor's readers (R278, R84). -/
def State.layerOwners (s : State) (c mask : Nat) : List Nat :=
  ((List.range 8).filter fun l => bitAt mask l).flatMap (fun l =>
    if l < 4 then [s.destOwner (4 * c + l)]
    else (List.range 8).filter fun b => ((s.bayRec b).phase.any fun e => e.1 = 0x198 + 4 * c + (l - 4) && e.2 ≠ 0)) |>.eraseDups

/-- The cache is lost by a timing change (1) or a fault (2), valid or not: CACHE_LOST to every bay with a layer of the static top (R341). -/
def State.cacheLost (s : State) (c cause : Nat) : State :=
  let mask := s.get (Fd.CMP_STATIC_TOP c)
  (s.modComp c fun m => { m with invalid := some cause }).each ((s.layerOwners c mask).filter (· < 8)) fun s b =>
    s.post b 0x0351 (natLe 1 c ++ natLe 1 mask ++ natLe 1 cause)

/-- A valid VOUT_CFG: the frame in progress is abandoned, the link retrained, the new timing starts at its next frame start. -/
def State.voutCfg (s : State) (c : Nat) (p : List Byte) : State :=
  let lost := s.cacheLost c 1
  let s1 := (lost.modDp c fun o =>
    { o with timing := p, frameNs := none, frameRun := s.plb.run, line := 0, newTiming := true, blank := false }).putB (Fd.DPO_STAT_ENABLED c) (Tim.enable p)
  let s2 := ((s1.modComp c fun m => { m with boundRun := s.plb.run }).putB (Fd.CMP_STAT_RUNNING c) (Tim.enable p)).put (Fd.DPO_STAT_TRAINED c) 0
  s2.train c (s2.dp c).sink

/-! ### Commits and the cache (R335 to R341) -/

/-- Commits in the order in which they apply: by measure, those of one measure in the order taken (R271, R337). -/
def commitOrder (l : List LayCommit) : List LayCommit :=
  l.foldl (fun r q => r.filter (·.measure ≤ q.measure) ++ q :: r.filter fun p => q.measure < p.measure) []

/-- Parameter sets with those of some commits laid over them. -/
def applySets (v : Vector (List Byte) 8) (l : List LayCommit) : Vector (List Byte) 8 :=
  l.foldl (fun v q => q.sets.foldl (fun v z => vmod v z.1 fun _ => z.2) v) v

/-- The frame start of DP `c` (ns of device time) at whose frame boundary commits for measure `k` of `p` µs apply (R336). -/
def State.landing (s : State) (c p k : Nat) : Nat :=
  let t := (s.dp c).timing
  nextPoint (Tim.fps t) (Tim.phase t) (k * p * 1000 + 1559)

/-- Parameter sets at the frame in which a commit of `sets` for measure `k` of `p` µs applies, with every accepted commit that applies by then
(R337). -/
def State.layersAfter (s : State) (c p k : Nat) (sets : List (Nat × List Byte)) : Vector (List Byte) 8 :=
  let m := s.comp c
  applySets m.active (commitOrder ((m.commits ++ [(⟨k, none, sets, none⟩ : LayCommit)]).filter fun q => s.landing c p q.measure ≤ s.landing c p k))

/-- Two enabled layers share a Z value. -/
def zClash (v : Vector (List Byte) 8) : Bool :=
  let ls := (List.range 8).filter fun l => Lay.enable (vget v l)
  ls.any fun a => ls.any fun b => a < b && Lay.z (vget v a) = Lay.z (vget v b)

/-- LAYER_COMMIT_APPLY of compositor `c`: every armed commit whose guard has passed, in order (R336, R340). -/
def State.layersApply (s : State) (c : Nat) : State :=
  match s.destStart (4 * c) {} with
  | none => s
  | some t =>
    let m := s.comp c
    let due := commitOrder (m.commits.filter fun q => q.armed.any fun a => t ≥ a + 500 && t ≤ s.clk.now)
    if due.isEmpty then s
    else
      let after := applySets m.active due
      let static := due.any fun q => q.sets.any fun z => Lay.static (m.lay z.1) || Lay.static z.2
      let moved := staticTop after ≠ staticTop m.active
      let s1 := s.modComp c fun m => { m with active := after, commits := m.commits.filter fun q => !(due.contains q) }
      ((due.foldl (fun s q => s.finish q.origin 0) s1).showComp c).when (static || moved) fun s => s.invalidate c

/-- CACHE_REBUILD_END of compositor `c` (R340). -/
def State.rebuildEnd (s : State) (c : Nat) : State :=
  let m := s.comp c
  if !s.bit (Fd.CMP_STAT_REBUILDING c) || !m.ended then s
  else
    let tiles := tilesOf (Tim.h (s.dp c).timing 0) m.cache
    let s1 := s.modComp c fun m => { m with ended := false }
    if m.lateTop then s1.invalidate c
    else if tiles > 512 then
      ((s1.modComp c fun m => { m with cache := [] }).put (Fd.CMP_STAT_REBUILDING c) 0).put (Fd.CMP_STAT_CACHE_FULL c) 1
    else
      let mask := s.get (Fd.CMP_STATIC_TOP c)
      let s2 := (((s1.modComp c fun m => { m with cache := keptTiles (Tim.h (s.dp c).timing 0) m.cache }).put
        (Fd.CMP_STAT_REBUILDING c) 0).put (Fd.CMP_STAT_CACHED c) 1).put (Fd.CMP_STAT_TILES c) tiles
      s2.each ((s.layerOwners c mask).filter (· < 8)) fun s b =>
        s.post b 0x0350 (natLe 1 c ++ natLe 1 mask ++ natLe 1 (tiles / 2))

/-- CACHE_ERROR in a tile of compositor `c`'s cache (R341). -/
def State.cacheError (s : State) (c tile : Nat) : State :=
  if s.bit (Fd.CMP_STAT_CACHED c) then
    ((s.flag (Fd.CMP_LFLAG_CACHE_FAULT c)).cacheLost c 2).modComp c fun m => { m with badTiles := tile :: m.badTiles }
  else s

/-- What the outputs do in every step: frame boundaries of the compositors, lines that are due. -/
def State.dpTick (s : State) : State := (s.each (List.range 4) State.compFrame).each (List.range 4) State.dpDue

end Sys2Proof.Machine
end

