-- ==== Sys2Proof/Machine/Drivers.lean ====
section
/-! DEFINITION. Illuminator and heater drivers (16): the two switch edges of a period, strobes, bootstrap refresh, freezes, fault
inputs and the limiter. -/

namespace Sys2Proof.Machine

/-- The frame instant of SYNC 2, the latest at or before now: its time point and the unit at which its PCLK cycle starts (R299, R385). -/
def State.frameInstant (s : State) (k : Nat) : Option (Nat × Nat) :=
  if (s.conf k).bound && s.bit (Fd.CNF_STAT_CONFIGURED k) then (s.trigPoint (s.conf k).cfg).map fun t => (t, 32 * s.trigCycle (s.conf k).cfg t)
  else none

/-- The unit at which the period of the strobe that is due on channel `c` starts: a firing's cycle, or a frame instant not yet used that
device time has reached by counting, since the configuration applied (R385). -/
def State.strobeAt (s : State) (c : Nat) : Option Nat :=
  let g := s.pwmNow c
  let p := s.pch c
  if g.sync = 1 then p.due.head?
  else if g.sync = 2 then
    match s.frameInstant g.arg with
    | some (t, u) => if p.frameAt ≠ some t && p.from_ ≤ u && s.counted ((s.unit - u) * gridU) then some u else none
    | none => none
  else none

/-- A strobe is due on channel `c`. -/
def State.strobeDue (s : State) (c : Nat) : Bool := (s.strobeAt c).isSome

/-- The due strobe has been used. -/
def State.useStrobe (s : State) (c : Nat) : State :=
  let g := s.pwmNow c
  s.modPch c fun p => if g.sync = 1 then { p with due := p.due.drop 1 } else { p with frameAt := (s.frameInstant g.arg).map (·.1) }

/-- A period of channel `c` starts at unit `u` under the configuration its registers hold (R381, R383). `joined` says that it
follows the period before it without a gap; a refresh in progress goes on in it (R387). -/
def State.beginPeriod (s : State) (c u : Nat) (joined : Bool) : State :=
  let p := s.pch c
  let g := s.pwmRegs c
  let last := p.cfg.period - 1
  let wasH := joined && p.h0 ≤ last && last < p.h1
  let wasL := joined && (p.levels last).2
  let keepH := wasH && g.duty > 0
  let keepL := wasL && g.duty = 0
  let open_ := p.refresh.filter fun r => (p.cfg.period : Int) < r.end_
  let hOff := if wasH && !keepH then (match open_ with | some r => (p.start + r.at_).toNat | none => u) else p.hOff
  let lOff := if wasL && !keepL then u else p.lOff
  let h0 := if keepH then 0 else lOff + g.dead - u
  let h1 := if h0 < g.duty then g.duty else h0
  let hOff2 := if h0 < g.duty then u + g.duty else hOff
  let l0 := if keepL then 0 else max g.duty (hOff2 + g.dead - u)
  let l1 := if l0 < g.period then g.period else l0
  let kaOn := s.clk.ka - unitNs (s.unit - u)
  let hf := p.highFrom last
  let s1 := s.modPch c fun p =>
    { p with cfg := g, run := true, start := u, startKa := kaOn, h0 := h0, h1 := h1, l0 := l0, l1 := l1, hOff := hOff2
             lOff := if l0 < g.period then u + g.period else lOff
             hCarry := if keepH && open_.isNone then (p.cfg.period - hf).toNat + (if hf = 0 then p.hCarry else 0) else 0
             hSince := if keepH && open_.isNone then some (0, p.since p.hSince hf) else none
             lSince := if keepL then some (0, p.since p.lSince (p.lowFrom last)) else none
             refresh := if keepH then open_.map fun r => { r with at_ := r.at_ - p.cfg.period } else none }
  if keepH && open_.isSome then s1.driveRest c
  else
    let s2 := s1.when (h0 < h1) fun s => s.drive (.pulse "PWM_H" c (u + h0) (u + h1))
    s2.when (l0 < l1) fun s => s.drive (.pulse "PWM_L" c (u + l0) (u + l1))

/-- PWM_PERIOD_START of channel `c` (R385, R386). A strobe that fell due in the period just over starts the next one at its end. -/
def State.periodStart (s : State) (c : Nat) : State :=
  let p := s.pch c
  let g := s.pwmRegs c
  if !s.ready rPWM || p.frozen.isSome || s.pwmForced c then s
  else if p.run && s.pwmPos c < p.cfg.period then s
  else
    let next := p.start + p.cfg.period
    if !g.en then (s.modPch c fun p => { p with run := false, cfg := g, due := [] }).put (Fd.PWM_STAT_QUEUED c) 0
    else if g.sync = 0 then
      if !s.pwmIdle c then (s.put (Fd.PWM_STAT_QUEUED c) 0).beginPeriod c next true
      else if s.unit < p.from_ then s
      else s.beginPeriod c (max p.from_ s.cycleUnit) false
    else if p.run && s.bit (Fd.PWM_STAT_QUEUED c) then (s.put (Fd.PWM_STAT_QUEUED c) 0).beginPeriod c next true
    else
      let s1 := s.modPch c fun p => { p with run := false, from_ := if p.run && p.cfg ≠ g then max p.from_ next else p.from_ }
      match s1.strobeAt c with
      | none => s1
      | some u =>
        if p.run && u < next then ((s1.useStrobe c).bump (Fd.PWM_STAT_DELAYED c)).beginPeriod c next true
        else (s1.useStrobe c).beginPeriod c u false

/-- PWM_STROBE of channel `c`: a strobe that cannot start a period now (R386). -/
def State.strobe (s : State) (c : Nat) : State :=
  let p := s.pch c
  if !s.strobeDue c || p.frozen.isSome then s
  else if s.pwmForced c then (s.useStrobe c).bump (Fd.PWM_STAT_DROPPED c)
  else if p.run && s.pwmPos c < p.cfg.period then
    if s.bit (Fd.PWM_STAT_QUEUED c) then (s.useStrobe c).bump (Fd.PWM_STAT_DROPPED c)
    else ((s.useStrobe c).put (Fd.PWM_STAT_QUEUED c) 1).bump (Fd.PWM_STAT_DELAYED c)
  else s

/-- PWM_BOOTSTRAP_REFRESH of channel `c` (R387). -/
def State.bootRefresh (s : State) (c : Nat) : State :=
  let p := s.pch c
  let x := s.pwmPos c
  let on := x - p.highFrom x + (if p.highFrom x = 0 then p.hCarry else 0)
  if p.frozen.isNone && (s.pwmOn c).1 && p.cfg.bootHold ≠ 0 && on ≥ p.cfg.bootHold * 12800 then
    let r : Refresh := { at_ := x, dead := p.cfg.dead, pw := p.cfg.bootPw * 32 }
    let s1 := s.modPch c fun p =>
      { p with refresh := some r, hSince := none, hOff := if (p.h1 : Int) ≤ r.end_ then p.start + x else p.hOff
               lOff := max p.lOff (p.start + x + r.dead + r.pw) }
    (s1.driveNow c).driveRest c
  else s

/-- The level at which a ball of channel `c` is off (R382). -/
def State.pwmOffLevel (s : State) (c : Nat) : Bool := (s.pwmNow c).inv

/-- Force channel `c` off, latching `f` and the bit of the fault summary, with the cause for PWM_TRIP if it was not forced off before. Its queued
strobe goes (R386, R389, R390, R392, R498; DESIGN CHOICE, log entry 40). -/
def State.forceOff (s : State) (c : Nat) (f : Fld) (cause : Nat) : State :=
  let p := s.pch c
  let u := s.unit
  let g := s.pwmNow c
  let s0 := (s.flag f).flag Fd.SYS_FLTSUM_PWM
  if s.pwmForced c then s0
  else
  let s1 := (s0.put (Fd.PWM_STAT_QUEUED c) 0).modPch c fun p =>
    { p with cfg := g, run := false, hOff := min p.hOff u, lOff := min p.lOff u, refresh := none, hSince := none, lSince := none
             frozen := p.frozen.map fun z => (p.cfg.period, z.2) }
  let s2 := s1.modPwm fun q => { q with tripMask := q.tripMask ||| 2 ^ c, tripCause := q.tripCause ||| cause }
  (s2.drive (.level "PWM_H" c g.inv)).drive (.level "PWM_L" c g.inv)

/-- The balls are driven from the boundary register (R500, R537). -/
def State.scanDriven (s : State) : Bool := s.dbg.ir = .extest || s.dbg.ir = .clamp

/-- The inputs that are low, a bit each. -/
def State.faultsLow (s : State) : Nat := s.get Fd.PWM_FLTSTAT_FLT0_LOW + 2 * s.get Fd.PWM_FLTSTAT_FLT1_LOW

/-- Force off every enabled channel, for the inputs of the mask `k` (R389). -/
def State.faultAll (s : State) (k : Nat) : State :=
  s.each (List.range 12) fun s c =>
    if s.bit (Fd.PWM_CTL_ENABLE c) || ((s.pch c).run && (s.pch c).cfg.en) then s.forceOff c (Fd.PWM_STAT_FAULT c) k else s

/-- What a write of channel settings does beyond the fields: a channel enabled while a fault input is low is forced off (R389). -/
def State.pwmWritten (s : State) : State := s.when (s.faultsLow ≠ 0) fun s => s.faultAll s.faultsLow

/-- PWM_FAULT_INPUT: input 0 or 1 goes low for 5 ns, or high again (R389). -/
def State.faultInput (s : State) (k : Nat) (low : Bool) : State :=
  let live := if k = 0 then Fd.PWM_FLTSTAT_FLT0_LOW else Fd.PWM_FLTSTAT_FLT1_LOW
  let seen := if k = 0 then Fd.PWM_FLTSTAT_FLT0_SEEN else Fd.PWM_FLTSTAT_FLT1_SEEN
  if !low then s.put live 0
  else
    let s1 := ((s.put live 1).flag seen).bump Fd.PWM_FLTSTAT_TRIPS
    let s2 := s1.faultAll (2 ^ k)
    s2.when s.scanDriven fun s => s.each (List.range 12) fun s c =>
      (s.emit (.level "PWM_H" c (s.pwmOffLevel c))).emit (.level "PWM_L" c (s.pwmOffLevel c))

/-- Keep-alive ns for which the named switch of channel `c` has been on (R390). -/
def State.onFor (s : State) (c : Nat) (high : Bool) : Option Nat :=
  let p := s.pch c
  let x := s.pwmPos c
  if high then
    if (s.pwmOn c).1 then some (s.clk.ka - p.since p.hSince (p.highFrom x)) else none
  else if (s.pwmOn c).2 then some (s.clk.ka - p.since p.lSince (p.lowFrom x))
  else none

/-- PWM_LIMITER_TRIP of a switch of channel `c` (R390). -/
def State.limiterTrip (s : State) (c : Nat) (high : Bool) : State :=
  if s.bit (Fd.PWM_LIM_ENABLE c) then
    match s.onFor c high with
    | some t => if t > s.get (Fd.PWM_LIM_MAX_ON_US c) * 1000 then s.forceOff c (Fd.PWM_STAT_LIMIT c) 4 else s
    | none => s
  else s

/-- Clear the channels of a mask; the channels held because a fault input is low. A channel that a fault or the limiter forces off in the
same cycle stays forced off; a cleared one may start a period from its next PCLK cycle on (R391). -/
def State.pwmClear (s : State) (mask : Nat) : Nat × State :=
  let held := s.bit Fd.PWM_FLTSTAT_FLT0_LOW || s.bit Fd.PWM_FLTSTAT_FLT1_LOW
  let mine := (List.range 12).filter fun c => bitAt mask c && s.pwmForced c && (s.marked (Reg.PWM_STAT c)) = 0
  if held then (mine.foldl (fun n c => n + 2 ^ c) 0, s)
  else (0, s.each mine fun s c =>
    ((s.put (Fd.PWM_STAT_FAULT c) 0).put (Fd.PWM_STAT_LIMIT c) 0).modPch c fun p =>
      { p with run := false, refresh := none, from_ := s.cycleUnit + 32 })

/-- PWM_TRIP_REPORT (R392). -/
def State.tripReport (s : State) : State :=
  if s.pwm.tripMask = 0 then s
  else (s.post 0 0x0380 (natLe 2 s.pwm.tripMask ++ natLe 1 s.pwm.tripCause)).modPwm fun p => { p with tripMask := 0, tripCause := 0 }

end Sys2Proof.Machine
end

