-- ==== Sys2Proof/Machine/KeyStore.lean ====
section
/-! DEFINITION. Keys, crypto engines and evidential sealing (19): root secrets, slots, derivation, blobs, the key area of the flash,
crypto jobs, hash chains and seals. The cryptographic functions themselves are opaque (log entry 7). -/

namespace Sys2Proof.Machine

def State.modKeys (s : State) (f : Keys → Keys) : State := { s with keys := f s.keys }
def State.slotRec (s : State) (n : Nat) : KeySlot := vget s.keys.slots n
def State.keyType (s : State) (n : Nat) : Nat := s.get (Fd.KEY_SLOT_TYPE n)
def State.keyUsage (s : State) (n : Nat) : Nat := s.get (Fd.KEY_SLOT_USAGE n)
def State.keyOwner (s : State) (n : Nat) : Nat := s.get (Fd.KEY_SLOT_OWNER n)
def State.keyBad (s : State) (n : Nat) : Bool := s.bit (Fd.KEY_SLOT_BAD n)

/-- A P-384 key takes two slots (R446). -/
def wideType (t : Nat) : Bool := t = 2 || t = 3

/-- Usage flags (R451). -/
def uENCRYPT : Nat := 0
def uDECRYPT : Nat := 1
def uSIGN : Nat := 2
def uVERIFY : Nat := 3
def uDERIVE : Nat := 4
def uMACSEC : Nat := 5
def uSEAL : Nat := 6
def uFIGURE : Nat := 7
def uDEBUG : Nat := 8
def uEXPORTABLE : Nat := 9
def uPERSIST : Nat := 10

/-- The types that a usage flag suits (R451). -/
def flagTypes (u : Nat) : List Nat :=
  if u ≤ 1 then [0] else if u = 2 then [1, 2] else if u = 3 then [1, 2, 3] else if u ≤ 5 then [0] else if u = 6 then [1]
  else if u ≤ 8 then [3] else [0, 1, 2, 3]

/-- USAGE that a key of TYPE `t` may carry (R451). -/
def usageOk (t u : Nat) : Bool :=
  u < 2048 && ((List.range 11).all fun i => !bitAt u i || (flagTypes i).contains t) && !(bitAt u uSEAL && bitAt u uEXPORTABLE)

/-! ### Roots and derivation (R443 to R445, R452) -/

/-- Curve orders of P-256 and P-384 (PRESUMED, FIPS 186, log entry 25). -/
def order256 : Nat := 0xFFFFFFFF00000000FFFFFFFFFFFFFFFFBCE6FAADA7179E84F3B9CAC2FC632551
def order384 : Nat := 0xFFFFFFFFFFFFFFFFFFFFFFFFFFFFFFFFFFFFFFFFFFFFFFFFC7634D81F4372DDF581A0DB248B0A77AECEC196ACCC52973

/-- DRK, once a region of OTP holds it (R443, R444). -/
def State.drk (s : State) : Option Nat :=
  match s.otp.drkA, s.otp.drkB with
  | .good a b, _ => some (a ^^^ b)
  | _, .good a b => some (a ^^^ b)
  | _, _ => none

/-- Exactly `n` bytes of an opaque function's answer. -/
def bytesN (n : Nat) (l : List Byte) : List Byte := fixLen 0 n l

/-- Output bits of a derivation for a TYPE (R452). -/
def kdfBits (t : Nat) : Nat := if t = 1 then 320 else if t = 2 then 448 else 256

/-- SP 800-108 in counter mode (R452): `l` bits, as bytes, from a source key. -/
def kdf (key : List Byte) (label : List Byte) (bay ty usage src : Nat) (ctx : List Byte) (l : Nat) : List Byte :=
  let block (i : Nat) : List Byte := bytesN 16 (Config.aesCmac key (natBe 4 i ++ label ++ [0] ++ natLe 1 bay ++ natLe 1 ty ++ natLe 2 usage ++
    natLe 1 src ++ [0, 0, 0] ++ bytesN 32 ctx ++ natBe 4 l))
  ((List.range (cdiv l 128)).flatMap fun i => block (i + 1)).take (l / 8)

/-- Labels in ASCII. -/
def lblCKDF : List Byte := [0x43, 0x4B, 0x44, 0x46]
def lblCKWR : List Byte := [0x43, 0x4B, 0x57, 0x52]
def lblIDNT : List Byte := [0x49, 0x44, 0x4E, 0x54]
def lblSTAG : List Byte := [0x53, 0x54, 0x41, 0x47]

/-- A key value from derived bytes: an AES key as it stands, a scalar reduced into 1 … n − 1 (R452). -/
def keyValue (ty : Nat) (l : List Byte) : Nat :=
  if ty = 1 then beNat l % (order256 - 1) + 1 else if ty = 2 then beNat l % (order384 - 1) + 1 else beNat l

/-- The identity key (R445). -/
def identityKey : Nat :=
  keyValue 2 (kdf ((bytesN 48 (Config.sha384 Config.puf)).take 32) lblIDNT 0 2 0 0xFF [] 448)

/-- The identity key can be used: the PUF's correction held (R445). -/
def State.hasIdentity (s : State) : Bool := !s.bit Fd.KEY_STAT_PUF_FAIL

/-- The tag key (R447). -/
def State.tagKey (s : State) : List Byte := kdf (natBe 32 (s.drk.getD 0)) lblSTAG 0 0 0 0xFF [] 256

/-- The tag of a slot's contents (R447). -/
def State.tagOf (s : State) (n ty usage owner key : Nat) : List Byte :=
  (bytesN 16 (Config.aesCmac s.tagKey (natLe 1 n ++ natLe 1 ty ++ natLe 2 usage ++ natLe 1 owner ++ natBe 64 key))).take 8

/-! ### Slots (R446 to R448) -/

/-- Put a key into slot `n` with fresh shares and tag; a P-384 key marks slot n + 1 with it. -/
def State.putKey (s : State) (n ty usage owner key : Nat) : State :=
  let (m, s1) := s.draw
  let mask := m % 2 ^ 512
  let mark (s : State) (n : Nat) : State :=
    (((s.put (Fd.KEY_SLOT_TYPE n) ty).put (Fd.KEY_SLOT_USAGE n) usage).put (Fd.KEY_SLOT_OWNER n) owner).put (Fd.KEY_SLOT_BAD n) 0
  let s2 := (mark s1 n).modKeys fun k => { k with slots := vmod k.slots n fun _ =>
    { share := key ^^^ mask, mask := mask, tag := s1.tagOf n ty usage owner key } }
  if wideType ty then mark s2 (n + 1) else s2

/-- Empty slot `n` (and its partner). -/
def State.clearKey (s : State) (n : Nat) : State :=
  let wide := wideType (s.keyType n)
  let one (s : State) (n : Nat) : State :=
    let s1 := s.when (s.keyBad n) fun s => s.put Fd.KEY_STAT_BAD (s.get Fd.KEY_STAT_BAD - 1)
    (((s1.put (Fd.KEY_SLOT_TYPE n) 0xF).put (Fd.KEY_SLOT_USAGE n) 0).put (Fd.KEY_SLOT_BAD n) 0).modKeys fun k =>
      { k with slots := vmod k.slots n fun _ => {} }
  if wide then one (one s n) (n + 1) else one s n

/-- Slot `n` goes bad (R447). -/
def State.spoilKey (s : State) (n : Nat) : State :=
  if s.keyBad n then s else (s.put (Fd.KEY_SLOT_BAD n) 1).bump Fd.KEY_STAT_BAD

/-- Recombine the key of slot `n`, which holds one, for one operation: none if the slot is or goes bad. The mask is redrawn after the
use (R447, R448). -/
def State.takeKey (s : State) (n : Nat) : Option Nat × State :=
  let r := s.slotRec n
  let key := r.share ^^^ r.mask
  if s.keyBad n then (none, s)
  else if r.tag ≠ s.tagOf n (s.keyType n) (s.keyUsage n) (s.keyOwner n) key then (none, s.spoilKey n)
  else
    let (m, s1) := s.draw
    let mask := m % 2 ^ 512
    (some key, s1.modKeys fun k => { k with slots := vmod k.slots n fun q => { q with share := key ^^^ mask, mask := mask } })

/-- Use of slot `n` by an operation that flag `u` allows: the key value, or an error that tells whether the slot is bad (true) or its
usage does not allow the operation (false) (R447, R451). -/
def State.useKey (s : State) (n u : Nat) : Except Bool Nat × State :=
  let ty := s.keyType n
  if s.keyBad n then (.error true, s)
  else if ty = 0xF || !bitAt (s.keyUsage n) u || !(flagTypes u).contains ty || (wideType ty && n % 2 = 1) then (.error false, s)
  else match s.takeKey n with
    | (some key, s1) => (.ok key, s1)
    | (none, s1) => (.error true, s1)

/-- Public key of a slot's value: of a private key its point, of a public key the point it names (R446). -/
def publicOf (ty key : Nat) : List Byte :=
  if ty = 3 then Config.ecPoint (natBe 48 (key % 2 ^ 384)) (bitAt key 384)
  else if ty = 2 then bytesN 96 (Config.ecPublic true key) else bytesN 64 (Config.ecPublic false key)

/-- ECDSA over P-384 or P-256 with the key of a slot value. -/
def verifyWith (ty key : Nat) (digest sig : List Byte) : Bool := Config.ecVerify (ty ≠ 1) (publicOf ty key) digest sig

/-- The entropy source has failed a health test (R454). -/
def State.noEntropy (s : State) : Bool := s.bit Fd.KEY_STAT_ENTROPY_FAIL

/-! ### Blobs (R453) -/

/-- Wrap key of a blob (R453). -/
def State.wrapKey (s : State) (bay ty usage : Nat) : List Byte := kdf (natBe 32 (s.drk.getD 0)) lblCKWR bay ty usage 0xFF [] 256

def magicCKB1 : List Byte := [0x43, 0x4B, 0x42, 0x31]
def magicCKP1 : List Byte := [0x43, 0x4B, 0x50, 0x31]

/-- The blob of a key: wrapped for TYPE 0 to 2, public for TYPE 3. `iv` is the CTR_DRBG's. -/
def State.blobOf (s : State) (bay ty usage key : Nat) (iv : List Byte) : List Byte :=
  if ty = 3 then
    let p := bytesN 96 (publicOf 3 key)
    magicCKP1 ++ natLe 1 3 ++ natLe 1 bay ++ natLe 2 usage ++ natLe 12 0 ++ natLe 12 0 ++ p.take 48 ++ natLe 16 0 ++ p.drop 48
  else
    let head := magicCKB1 ++ natLe 1 ty ++ natLe 1 bay ++ natLe 2 usage ++ bytesN 12 iv ++ natLe 12 0
    head ++ bytesN 80 (Config.gcmSeal (s.wrapKey bay ty usage) (bytesN 12 iv) head (natBe 64 key))

/-- A blob that opens for bay `bay`: its TYPE, USAGE and key (R453). -/
def State.openBlob (s : State) (bay : Nat) (l : List Byte) : Option (Nat × Nat × Nat) :=
  let ty := fieldAt l 4 1
  let usage := fieldAt l 6 2
  if fieldAt l 5 1 ≠ bay then none
  else if l.take 4 = magicCKB1 then
    if ty > 2 then none
    else (Config.gcmOpen (s.wrapKey bay ty usage) ((l.drop 8).take 12) (l.take 32) ((l.drop 32).take 80)).map fun k => (ty, usage, beNat (bytesN 64 k))
  else if l.take 4 = magicCKP1 then
    let p := (l.drop 0x20).take 48 ++ (l.drop 0x60).take 48
    if ty = 3 && Config.ecOnCurve p then some (3, usage, beNat (p.take 48) + (if (p.getLast?.getD 0).getLsbD 0 then 2 ^ 384 else 0)) else none
  else none

/-! ### The key area of the flash (R449, R450) -/

/-- Bytes of the flash; beyond its writes it is erased. -/
def State.flashBytes (s : State) (a n : Nat) : List Byte := readBytes erasedByte s.flash a n
def State.flashWrite (s : State) (a : Nat) (l : List Byte) : State := { s with flash := writeBytes erasedByte l a s.flash }

def magicCHKA : List Byte := [0x43, 0x48, 0x4B, 0x41]
def keyCopy (c : Nat) : Nat := 0x40000 + 0x20000 * c

/-- Entries of a key-area copy whose MAGIC, CRC and CMAC hold, with its GENERATION. -/
def State.keyArea (s : State) (c : Nat) : Option (Nat × List (List Byte)) :=
  let h := s.flashBytes (keyCopy c) 32
  let n := fieldAt h 8 4
  if h.take 4 ≠ magicCHKA || n > 64 then none
  else
    let body := s.flashBytes (keyCopy c + 32) (160 * n)
    if fieldAt h 12 4 = (crc32 body).toNat && h.drop 16 = bytesN 16 (Config.aesCmac s.tagKey (h.take 16 ++ body)) then
      some (fieldAt h 4 4, (List.range n).map fun i => (body.drop (160 * i)).take 160)
    else none

/-- The copy in force: that with the highest GENERATION. -/
def State.keyAreaBest (s : State) : Option (Nat × Nat × List (List Byte)) :=
  match s.keyArea 0, s.keyArea 1 with
  | some a, some b => if a.1 < b.1 then some (1, b) else some (0, a)
  | some a, none => some (0, a)
  | none, some b => some (1, b)
  | none, none => none

/-- Save every PERSIST slot to the copy that is not in force (R449, R450). -/
def State.saveKeys (s : State) : State :=
  let best := s.keyAreaBest
  let c := match best with
    | some (c, _) => 1 - c
    | none => 0
  let gen := match best with
    | some (_, g, _) => g + 1
    | none => 1
  let mine := (List.range 64).filter fun n =>
    s.keyType n ≠ 0xF && bitAt (s.keyUsage n) uPERSIST && !s.keyBad n && !(wideType (s.keyType n) && n % 2 = 1)
  let (entries, s1) := mine.foldl (fun (acc : List Byte × State) n =>
    let (iv, s1) := acc.2.drawBytes 12
    let r := s.slotRec n
    (acc.1 ++ natLe 1 n ++ natLe 15 0 ++ bytesN 144 (s.blobOf (s.keyOwner n) (s.keyType n) (s.keyUsage n) (r.share ^^^ r.mask) iv), s1)) ([], s)
  let head := magicCHKA ++ natLe 4 gen ++ natLe 4 mine.length ++ natLe 4 (crc32 entries).toNat
  s1.flashWrite (keyCopy c) (head ++ bytesN 16 (Config.aesCmac s.tagKey (head ++ entries)) ++ entries)

/-- A change of slots is saved when a PERSIST slot is concerned. -/
def State.savePersist (s : State) (b : Bool) : State := s.when b State.saveKeys

/-- One entry of the key area comes back to its slot; a blob that fails leaves it bad. -/
def State.restoreEntry (s : State) (e : List Byte) : State :=
  let n := fieldAt e 0 1
  let blob := e.drop 16
  if 64 ≤ n then s
  else match s.openBlob (fieldAt blob 5 1) blob with
    | some (ty, usage, key) => s.putKey n ty usage (fieldAt blob 5 1) key
    | none =>
      let ty := fieldAt blob 4 1 % 16
      let mark (s : State) (n : Nat) : State := (s.put (Fd.KEY_SLOT_OWNER n) (fieldAt blob 5 1)).put (Fd.KEY_SLOT_TYPE n) ty
      (if wideType ty && n % 2 = 0 then mark (mark s n) (n + 1) else mark s n).spoilKey n

/-- KEY_STORE_RESTORE (R449, R450): the PERSIST slots come back. -/
def State.restoreKeys (s : State) : State :=
  let s0 := s.put Fd.KEY_STAT_RESTORED 1
  match s.keyAreaBest with
  | none => s0
  | some (_, _, es) => s0.each es State.restoreEntry

/-! ### Crypto jobs (R454) -/

/-- A byte range of a bay at a platform address, as its own cores reach it. -/
def State.bayPlace (s : State) (b a : Nat) : Place := s.placeOn false ((unitCores (s.bayRec b).coreUnit).headD 0) a

/-- Word `i` of CRY_JOBb. -/
def State.jobWord (s : State) (b i : Nat) : Nat := (s.reg (Reg.CRY_JOB b i)).toNat

/-- STATUS of a job: 0 OK, 1 SLOT_BAD, 2 KEY_USAGE, 3 ADDRESS, 4 VERIFY_FAILED, 0xFF busy. -/
def State.jobStatus (s : State) (b st : Nat) : State := s.put (Fd.CRY_STATUS_STATUS b) st

/-- CRY_GO of bay `b`: the job starts. -/
def State.cryGo (s : State) (b : Nat) : State :=
  if s.keys.jobs.getLsbD b then s
  else if b ≠ 0 && s.bayState b ≠ bRUNNING then s.jobStatus b 3
  else (s.jobStatus b 0xFF).modKeys fun k => { k with jobs := k.jobs ||| (1#8 <<< b) }

/-- A slot that a job of bay `b` may use. -/
def State.jobKey (s : State) (b n u : Nat) : Except Nat Nat × State :=
  if n > 63 || s.keyOwner n ≠ b then (.error 2, s)
  else match s.useKey n u with
    | (.ok k, s1) => (.ok k, s1)
    | (.error bad, s1) => (.error (if bad then 1 else 2), s1)

/-- The byte range that the job of bay `b` reads next, after those it has got: SRC, then AUX and the AAD behind it, or the signature (R454).
It reads no more with a key that it may not use. -/
def State.jobNeeds (s : State) (b : Nat) (got : List (List Byte)) : Option (Nat × Nat) :=
  let w := s.jobWord b
  let op := w 0
  let n := w 1 % 256
  let key (u : Nat) : Bool := match (s.jobKey b n u).1 with
    | .ok _ => true
    | .error _ => false
  let gcm := (op = 1 && key uENCRYPT) || (op = 2 && key uDECRYPT)
  match got.length with
  | 0 => some (w 2, w 3)
  | 1 => if gcm then some (w 5, 12) else if op = 6 && key uVERIFY then some (w 5, if s.keyType n = 1 then 64 else 96) else none
  | 2 => if gcm then some (w 5 + 16, w 6) else none
  | _ => none

/-- The job of bay `b` does its work on what it has read: its STATUS, and the bytes it writes at DST (R454). -/
def State.runJob (s : State) (b : Nat) (got : List (List Byte)) : (Nat × Option (List Byte)) × State :=
  let op := s.jobWord b 0
  let n := s.jobWord b 1 % 256
  let src := got.getD 0 []
  let aux := got.getD 1 []
  let aad := got.getD 2 []
  let fails (st : Nat) (s : State) : (Nat × Option (List Byte)) × State := ((st, none), s)
  let gives (l : List Byte) (s : State) : (Nat × Option (List Byte)) × State := ((0, some l), s)
  if op = 3 then gives (bytesN 32 (Config.sha256 src)) s
  else if op = 4 then gives (bytesN 48 (Config.sha384 src)) s
  else if op = 1 || op = 2 then
    match s.jobKey b n (if op = 1 then uENCRYPT else uDECRYPT) with
    | (.error e, s1) => fails e s1
    | (.ok key, s1) =>
      if op = 1 then gives (bytesN (src.length + 16) (Config.gcmSeal (natBe 32 key) aux aad src)) s1
      else match Config.gcmOpen (natBe 32 key) aux aad src with
        | some p => gives (bytesN (src.length - 16) p) s1
        | none => fails 4 s1
  else if op = 5 then
    let ty := s.keyType n
    if s.noEntropy then fails 1 s
    else match s.jobKey b n uSIGN with
      | (.error e, s1) => fails e s1
      | (.ok key, s1) =>
        if (ty = 1 && src.length ≠ 32) || (ty = 2 && src.length ≠ 48) then fails 3 s1
        else
          let (k, s2) := s1.draw
          gives (bytesN (if ty = 1 then 64 else 96) (Config.ecSign (ty = 2) key src k)) s2
  else if op = 6 then
    match s.jobKey b n uVERIFY with
    | (.error e, s1) => fails e s1
    | (.ok key, s1) => fails (if verifyWith (s.keyType n) key src aux then 0 else 4) s1
  else fails 2 s

/-- A bay's job is abandoned with status ADDRESS (R454, R484). -/
def State.dropJob (s : State) (b : Nat) : State :=
  if s.keys.jobs.getLsbD b then (s.jobStatus b 3).modKeys fun k =>
    { k with jobs := k.jobs &&& ~~~ (1#8 <<< b), run := k.run.filter (·.bay ≠ b) } else s

/-! ### Sealing (R459 to R464) -/

def State.seal_ (s : State) (i : Nat) : SealIn := vget s.seals i
def State.modSeal (s : State) (i : Nat) (f : SealIn → SealIn) : State := { s with seals := vmod s.seals i f }

/-- Write 128-byte entries to an input's ring; an entry that overwrites another counts LOST. Answers the first entry. -/
def State.ringPut (s : State) (i : Nat) (l : List Byte) : Nat × State :=
  let e := s.get (Fd.SEAL_STAT_WP i)
  let n := cdiv l.length 128
  let excess := (s.seal_ i).filled + n - 64
  let s1 := s.each (List.range (n * 32)) fun s k =>
    s.setReg (Reg.SEAL_RING i ((e + k / 32) % 64) (k % 32)) (BitVec.ofNat 32 (fieldAt l (4 * k) 4))
  (e, ((s1.put (Fd.SEAL_STAT_WP i) ((e + n) % 64)).bump (Fd.SEAL_STAT_LOST i) excess).modSeal i fun q => { q with filled := min 64 (q.filled + n) })

/-- SEAL_EMITTED to the owning bay. -/
def State.sealEmitted (s : State) (i entry seq : Nat) : State :=
  s.post (s.seal_ i).bay 0x03B0 (natLe 1 i ++ natLe 1 entry ++ [0, 0] ++ natLe 4 seq)

/-- Mailbox statuses used here (R256). -/
def stGRANT_IN_USE : Nat := 0x204
def stSLOT_BAD : Nat := 0x300
def stKEY_USAGE : Nat := 0x301

/-- SEAL_START at its boundary: the status it ends with; the attestation's signature needs randomness (R454, R460). -/
def State.sealBegin (s : State) (bay i slot frames chainId : Nat) : Nat × State :=
  if (s.seal_ i).active then (stGRANT_IN_USE, s)
  else if !s.hasIdentity || s.noEntropy then (stSLOT_BAD, s)
  else if s.keyType slot ≠ 1 || s.keyOwner slot ≠ bay then (stKEY_USAGE, s)
  else match s.useKey slot uSEAL with
    | (.error true, s1) => (stSLOT_BAD, s1)
    | (.error false, s1) => (stKEY_USAGE, s1)
    | (.ok key, s1) =>
      let body := [0x43, 0x53, 0x41, 0x31] ++ natLe 1 i ++ natLe 1 bay ++ natLe 2 0 ++ natLe 8 chainId ++ natLe 6 s.sec ++ natLe 4 s.nsInSec ++ natLe 2 0 ++
        natLe 4 (s.reg Reg.SYS_CHIP_ID).toNat ++ bytesN 64 (Config.ecPublic false key) ++
        bytesN 48 (Config.sha384 (bytesN 96 (Config.ecPublic true identityKey))) ++ natLe 16 0
      let (k, s2) := s1.draw
      let att := body ++ bytesN 96 (Config.ecSign true identityKey (bytesN 48 (Config.sha384 body)) k)
      let s3 := s2.modSeal i fun q => { filled := q.filled, lastMeasure := q.lastMeasure, part := q.part
                                        active := true, bay := bay, slot := slot, frames := frames, chainId := chainId
                                        c := bytesN 32 (Config.sha256 body) }
      let (e, s4) := s3.ringPut i att
      (0, ((s4.put (Fd.SEAL_STAT_ACTIVE i) 1).put (Fd.SEAL_STAT_GAP i) 0).sealEmitted i e 0xFFFFFFFF)

/-- SEAL_STOP at its boundary (R461): it completes with the closing seal; with nothing to stop, at once. -/
def State.sealStop (s : State) (i : Nat) (o : Option Origin) : State :=
  if (s.seal_ i).active then s.modSeal i fun q => { q with stopping := true, stopBy := o } else s.finish o 0

/-- Odometry flags of a seal (R462, R365). -/
def State.sealOdo (s : State) : Nat :=
  b2n s.odoValid + 2 * b2n s.odo.stalled + 4 * b2n s.odoPredicted + 8 * b2n s.odoRev + 16 * b2n s.odoUnreliable + 32 * (s.odo.sel % 4)

/-- The first 64 bytes of the seal that closes a run now (R462). -/
def State.sealBody (s : State) (i : Nat) (closing : Bool) : List Byte :=
  let q := s.seal_ i
  natLe 2 (q.count % 4096 + 4096 * b2n closing + 8192 * b2n q.fault + 16384 * b2n q.gap) ++
    natLe 1 (s.get Fd.PLB_STATE_STATE + 4 * s.get Fd.PLB_STATE_VALID) ++
    natLe 1 s.sealOdo ++ natLe 4 q.seq ++ natLe 8 q.chainId ++ natLe 6 s.sec ++ natLe 4 s.nsInSec ++
    natLe 6 (unsigned 48 s.unitPos) ++ q.c

/-- A seal falls due with the present time and position (R461, R462). -/
def State.sealDue (s : State) (i : Nat) (closing : Bool) : State :=
  let d : SealDue := { body := s.sealBody i closing, seq := (s.seal_ i).seq, measure := s.fig.measure, closing := closing }
  let s1 := s.when (s.seal_ i).gap fun s => s.countBay (s.seal_ i).bay 9
  (s1.modSeal i fun q => { q with count := 0, fault := false, gap := false, seq := (q.seq + 1) % 2 ^ 32, due := q.due ++ [d], closed := closing }).put
    (Fd.SEAL_STAT_GAP i) 0

/-- Whole records at the front of a byte stream: header of R320, LEN bytes, padding to 16; and what is left. -/
def sealRecords : Nat → List Byte → List (List Byte) × List Byte
  | 0, l => ([], l)
  | n + 1, l =>
    let len := 16 + fieldAt l 0 2
    if l.length < 16 || l.length < (len + 15) / 16 * 16 then ([], l)
    else
      let (r, rest) := sealRecords n (l.drop ((len + 15) / 16 * 16))
      (l.take len :: r, rest)

/-- The seal inputs take what their endpoints have released (R459, R463); without a chain it is discarded. -/
def State.sealsPull (s : State) : State :=
  s.each (List.range 4) fun s i =>
    let e := s.endp (0x1C4 + i)
    if e.fifo.isEmpty && !e.gap then s
    else
      let l := (s.seal_ i).part ++ e.fifo.flatMap Granule.bytes
      let (r, rest) := sealRecords l.length l
      let s1 := s.modEnd (0x1C4 + i) fun e => { e with fifo := [], gap := false }
      s1.modSeal i fun q =>
        { q with part := if e.gap then [] else rest
                 recs := if q.active && !q.closed then q.recs ++ r.map some ++ (if e.gap then [none] else []) else [] }

/-- One record, or a discard, goes through the chain: the state, and whether a frame ended. -/
def State.sealRecord (s : State) (i : Nat) (r : Option (List Byte)) : Bool × State :=
  match r with
  | none => (false, (s.modSeal i fun q => { q with hashing := false, df := [], gap := true }).put (Fd.SEAL_STAT_GAP i) 1)
  | some l =>
    let fl := fieldAt l 2 2
    if !(s.seal_ i).hashing && !bitAt fl 0 then (false, s)
    else
      let s1 := s.modSeal i fun q => { q with hashing := true, df := q.df ++ l, fault := q.fault || bitAt fl 2 }
      if !bitAt fl 1 then (false, s1)
      else (true, s1.modSeal i fun q =>
        { q with df := [], count := q.count + 1, c := bytesN 32 (Config.sha256 (q.c ++ bytesN 32 (Config.sha256 q.df))) })

/-- Hash waiting records up to the first frame end: whether one came. -/
def State.sealHash (s : State) (i : Nat) : List (Option (List Byte)) → Bool × State
  | [] => (false, s.modSeal i fun q => { q with recs := [] })
  | r :: t =>
    match s.sealRecord i r with
    | (true, s1) => (true, s1.modSeal i fun q => { q with recs := t })
    | (false, s1) => s1.sealHash i t

/-- SEAL_FRAME_END of input `i` (R461): its digest extends the chain; a seal falls due after FRAMES frames, and a closing one at a
stop. -/
def State.sealFrameEnd (s : State) (i : Nat) : State :=
  if !(s.seal_ i).active || (s.seal_ i).closed then s
  else match s.sealHash i (s.seal_ i).recs with
    | (false, s1) => s1
    | (true, s1) =>
      let s2 := s1.when ((s1.seal_ i).count = (s1.seal_ i).frames) fun s => s.sealDue i false
      s2.when (s2.seal_ i).stopping fun s => s.sealDue i true

/-- The chain of input `i` ends (R464). -/
def State.sealEnd (s : State) (i : Nat) : State :=
  ((s.modSeal i fun q =>
    { q with active := false, stopping := false, stopBy := none, closed := false, hashing := false, df := [], due := [], recs := [] }).put
    (Fd.SEAL_STAT_ACTIVE i) 0).finish (s.seal_ i).stopBy 0

/-- A chain ends without a closing seal, with SEAL_ABORT (R464). -/
def State.sealFail (s : State) (i : Nat) : State :=
  let q := s.seal_ i
  (s.sealEnd i).post q.bay 0x03B1 (natLe 1 i ++ [0, 0, 0] ++ natLe 4 ((q.seq + 2 ^ 32 - 1 - q.due.length) % 2 ^ 32))

/-- SEAL_SIGN of input `i` (R464): the oldest due seal is signed and written once the signer is free. -/
def State.sealSign (s : State) (i : Nat) : State :=
  let q := s.seal_ i
  match q.due with
  | [] => s
  | d :: rest =>
    if s.runNs < s.signerBusy then s
    else match s.useKey q.slot uSEAL with
      | (.error _, s1) => s1.sealFail i
      | (.ok key, s1) =>
        let (k, s2) := s1.draw
        let sig := bytesN 64 (Config.ecSign false key (bytesN 32 (Config.sha256 d.body)) k)
        let (e, s3) := s2.ringPut i (d.body ++ sig)
        let s4 := ({ s3 with signerBusy := s3.runNs + 1000000 }.modSeal i fun q =>
          { q with due := rest, emitted := q.emitted + 1, lastMeasure := d.measure }).put (Fd.SEAL_SEQ_SEQ i) d.seq
        let s5 := s4.sealEmitted i e d.seq
        s5.when d.closing fun s => s.sealEnd i

/-- SEAL_ABORT of input `i` (R464): its slot has gone bad. -/
def State.sealAbort (s : State) (i : Nat) : State :=
  if (s.seal_ i).active && s.keyBad (s.seal_ i).slot then s.sealFail i else s

/-- ENTROPY_HEALTH_FAIL (R454). -/
def State.entropyFail (s : State) : State := s.put Fd.KEY_STAT_ENTROPY_FAIL 1

end Sys2Proof.Machine
end

