-- ==== Sys2Proof/Machine/Network.lean ====
section
/-! DEFINITION. Ethernet MAC ports (18): gates and shaping, transmit records and selection, reception and classification, TRDP, PRP
and MACsec. -/

namespace Sys2Proof.Machine

/-! ### Ports, pairs and rates (R414, R430) -/

/-- Rate of a port in kb/s, by its SPEED code. -/
def State.macRate (s : State) (p : Nat) : Nat := [10000000, 5000000, 2500000, 1000000, 100000].getD (s.get (Fd.MAC_STAT_SPEED p)) 10000000

/-- PRP is active on the pair of port `p`: NET_PORT_CFG has set it on both ports. -/
def State.prpOn (s : State) (p : Nat) : Bool := (s.macPort (p / 2 * 2)).prp && (s.macPort (p / 2 * 2 + 1)).prp

/-- Port `p` is the higher port of an active pair: actions and records on its resources are discarded and counted. -/
def State.prpHigh (s : State) (p : Nat) : Bool := p % 2 = 1 && s.prpOn p

/-- The port whose queues and tables serve frames of port `p`. -/
def State.macHome (s : State) (p : Nat) : Nat := if s.prpOn p then p / 2 * 2 else p

def State.txBad (s : State) (p : Nat) : State := s.bump (Fd.MAC_TXERR_BAD p)

/-! ### Gates (R423 to R425) -/

/-- The GATE actions of a part on port `p`, as (step of effect within the turn, state). -/
def gateActs (q : Part) (p : Nat) : List (Nat × Nat) := (q.acts.filter fun a => a.kind = 4 && a.res = 0x1D0 + p).map fun a => (a.step + 1, a.arg0)

/-- Class `c` of port `p` is open (R423). -/
def State.gateOpen (s : State) (p c : Nat) : Bool :=
  match s.classOwner p c with
  | none => true
  | some b =>
    if s.bayState b ≠ bRUNNING then false
    else match s.part b with
      | none => true
      | some q => if (gateActs q p).isEmpty then true else (s.netClass p c).gate

/-- STATE of TSN_GATEp. -/
def State.gateState (s : State) (p : Nat) : Nat := ((List.range 8).filter fun c => s.gateOpen p c).foldl (fun n c => n + 2 ^ c) 0

/-- Steps by which the elastic tail may be shorter than T (R52, R97). -/
def State.tailAllowance (s : State) (q : Part) : Nat := Load.longTail q (s.get Fd.PLB_SLOPE_SLOPE_PS) - q.geom.tail

/-- Steps from one boundary of the figure to the next as bay `b`'s part reckons them, with the tail at T less the allowance; a bay without a
part takes the largest allowance of the running ones. -/
def State.shortMeasure (s : State) (b : Nat) (g : Geom) : Nat :=
  Load.Geom.m g - match s.part b with
    | some q => s.tailAllowance q
    | none => (s.runningBays.filterMap s.part).foldl (fun n q => max n (s.tailAllowance q)) 0

/-- The first step of a turn after step `n` at which a GATE action of part `q` closes class `c` of port `p`. -/
def firstClose (q : Part) (p c n : Nat) : Option Nat := ((gateActs q p).find? fun a => n < a.1 && !bitAt a.2 c).map (·.1)

/-- The next boundary at which bay `b`'s part can change, as its step and measure: that of the running figure, or with none the one for which
the bay has a commit (R70, R424). -/
def State.nextChange (s : State) (b : Nat) : Option (Nat × Nat) :=
  match s.fig.geom with
  | some g => some (max s.clk.now (s.fig.boundary + s.shortMeasure b g), s.fig.measure + 1)
  | none => (s.fw.sched.find? fun e => e.eff = .commit b).map fun e =>
      (s.clk.now + cdiv (timePoint e.period e.measure - s.tme.t) (2 * nsU), e.measure)

/-- The step at which a class of bay `b` on port `p` next closes in the figure that will be running after the next change: at the boundary
itself where the bay leaves RUNNING there (R423, R424). -/
def State.closeAfter (s : State) (b p c : Nat) : Option Nat :=
  match s.nextChange b with
  | none => none
  | some (n, m) =>
    let at_ (e : Effect) : Bool := s.fw.sched.any fun x => x.measure = m && x.eff = e
    if at_ (.bayPark b) || at_ (.bayDelete b true) || at_ (.bayDelete b false) then some n
    else if at_ (.partRemove b) then none
    else (((s.fig.commits.find? fun x => x.1 = b && x.2.1 = m).map fun x => x.2.2) <|> s.part b).bind fun q => (firstClose q p c 0).map (n + ·)

/-- The step at which the gate of class `c` next closes, if it does (R424): within the slot, in the next slot of the measure, or in the figure
that runs after the next boundary. Slot N, which only a replay reaches, issues no GATE (R65). -/
def State.nextClose (s : State) (p c : Nat) : Option Nat :=
  match s.classOwner p c with
  | none => none
  | some b =>
    match s.fig.geom, s.part b with
    | some g, some q =>
      let here := if s.inTurn && s.fig.slot < g.turns then (firstClose q p c (s.clk.now - s.slotStart g)).map (s.slotStart g + ·) else none
      let next := if s.inTurn && s.fig.slot + 1 < g.turns then (firstClose q p c 0).map (s.slotEnd g + ·) else none
      here <|> next <|> s.closeAfter b p c
    | _, _ => s.closeAfter b p c

/-- The longest run in steps in which class `c` is open, over turns of `l` steps whose last may be followed by `rest` further steps;
none: it never closes. -/
def longestOpen (acts : List (Nat × Nat)) (c l rest : Nat) : Option Nat :=
  let two := (acts.map fun a => (a.1, bitAt a.2 c)) ++ acts.map fun a => (a.1 + l + rest, bitAt a.2 c)
  if two.all fun a => a.2 then none
  else
    -- the present run's start, if open, and the longest run so far
    let r := two.foldl (fun (acc : Option Nat × Nat) a =>
      match acc.1, a.2 with
      | some st, false => (none, max acc.2 (a.1 - st))
      | some st, true => (some st, acc.2)
      | none, true => (some a.1, acc.2)
      | none, false => acc) ((none : Option Nat), 0)
    some r.2

/-- Time in ns from the start of the selecting step to the end of a frame of `f` bytes with overhead `x` (R424). -/
def wireNs (f x rate : Nat) : Nat := 16 + cdiv ((f + 12 + x) * 8 * 1000000) rate

/-- Bytes of a frame on the wire before overheads: padded to 60 (R420). -/
def NetFrame.size (f : NetFrame) : Nat := max 60 f.bytes.length

/-- EtherTypes that pass unprotected (R431). -/
def plainType (l : List Byte) : Bool := (etherType l).1 = 0x888E || (etherType l).1 = 0x88F7

/-- The overhead X of a frame (R424). -/
def State.overhead (s : State) (p : Nat) (f : NetFrame) : Nat :=
  (if f.sa ≠ 0xFF && !plainType f.bytes then 32 else 0) + if s.prpOn p then 6 else 0

/-- The frame fits into an interval of `n` ns. -/
def State.fitsIn (s : State) (p : Nat) (f : NetFrame) (n : Option Nat) : Bool :=
  match n with
  | none => true
  | some n => wireNs f.size (s.overhead p f) (s.macRate p) ≤ n

/-- Drop the frames of class `c` that cannot fit in its longest open interval. -/
def State.dropOversize (s : State) (p c : Nat) : State :=
  let q := s.netClass p c
  let (keep, gone) := q.tx.partition fun f => s.fitsIn p f q.longest
  (s.modClass p c fun q => { q with tx := keep }).bump (Fd.TSN_DROP_GATE_OVERSIZE p) gone.length

/-- Every port's longest open intervals, after a commit (R425). -/
def State.gateIntervals (s : State) : State :=
  s.each (List.range 32) fun s i =>
    let p := i / 8
    let c := i % 8
    let longest : Option Nat :=
      match s.classOwner p c with
      | none => none
      | some b => match s.part b with
        | none => none
        | some q =>
          let a := gateActs q p
          if a.isEmpty then none
          else
            let l := q.geom.turnLen
            let rest := s.shortMeasure b q.geom - q.geom.turns * l
            let one := longestOpen a c l 0
            let last := longestOpen a c l rest
            (if q.geom.turns > 1 then (match one, last with | some x, some y => some (max x y) | _, _ => none) else last).map (2 * ·)
    (s.modClass p c fun q => { q with longest := longest }).dropOversize p c

/-- Before a commit of bay `b` its classes keep their state (R423). -/
def State.keepGates (s : State) (b : Nat) : State :=
  s.each (List.range 32) fun s i =>
    if s.ownsClass b (i / 8) (i % 8) then
      let o := s.gateOpen (i / 8) (i % 8)
      s.modClass (i / 8) (i % 8) fun q => { q with gate := o }
    else s

/-- GATE (R423): effective at the next step. -/
def State.gateAct (s : State) (b p value : Nat) : State :=
  if s.prpHigh p then s.txBad p
  else
    let mask := ((List.range 8).filter fun c => s.ownsClass b p c).foldl (fun n c => n + 2 ^ c) 0
    s.modNet fun n => { n with jobs := n.jobs ++ [(s.clk.now + 1, .gate p mask value)] }

/-! ### Transmit queues (R416, R419) -/

def bytesQueued (l : List NetFrame) : Nat := l.foldl (fun n f => n + f.bytes.length + 16) 0

/-- A frame enters the transmit queue of its class (R416, R425). -/
def State.enqueue (s : State) (p c : Nat) (f : NetFrame) : State :=
  let q := s.netClass p c
  if bytesQueued q.tx + f.bytes.length + 16 > q.txLimit then s.bump (Fd.TSN_DROP_TX_FULL p)
  else if !s.fitsIn p f q.longest then s.bump (Fd.TSN_DROP_GATE_OVERSIZE p)
  else s.modClass p c fun q => { q with tx := q.tx ++ [f] }

/-- A frame of `n` bytes without FCS is longer than port `p` supports (R414). -/
def State.tooLong (s : State) (p n : Nat) : Bool := n > (s.macPort p).mtu + 18

/-- A frame of platform firmware; one that is too long is dropped and counted (R414). -/
def State.platformSend (s : State) (p : Nat) (l : List Byte) : State :=
  if s.tooLong p l.length then s.bump (Fd.MAC_TXERR_LONG p)
  else s.modMac p fun m => { m with platform := m.platform ++ [{ bay := 8, bytes := l }] }

/-- A transmit secure association that bay `b` may name (R419). -/
def State.txSa (s : State) (b p sa : Nat) : Bool :=
  ((s.macPort p).sas.find? (·.1 = sa)).any fun e => e.2.bay = b && !e.2.rx

/-- Replace bytes of a list from offset `o` on. -/
def splice (l : List Byte) (o : Nat) (v : List Byte) : List Byte := l.take o ++ v ++ l.drop (o + v.length)

/-- FILL (R420): header fields that the MAC writes, with `h` header bytes. -/
def fillHeader (mac : List Byte) (h : Nat) (l : List Byte) : List Byte :=
  let ip := h - 28
  let n := l.length - ip
  let l1 := splice (splice (splice (splice l 6 mac) (ip + 2) (natBe 2 n)) (ip + 4) (natBe 2 0)) (ip + 10) (natBe 2 0)
  let l2 := splice l1 (ip + 10) (natBe 2 (ipSum ((l1.drop ip).take 20)))
  splice (splice l2 (ip + 24) (natBe 2 (n - 20))) (ip + 26) (natBe 2 0)

/-- The granules that bays have moved into the transmit DMA since the last look: telegram data goes to its store, the rest waits to be
parsed (R418, R428). -/
def State.macPull (s : State) : State :=
  s.each (List.range 4) fun s p =>
    let e := s.endp (0x1B8 + p)
    if e.fifo.isEmpty then s
    else
      (s.modEnd (0x1B8 + p) fun e => { e with fifo := [] }).each e.fifo fun s g =>
        let b := g.tag / 2 ^ 25
        let a := g.tag % 2 ^ 25
        match (s.macPort p).telegrams.find? fun t => t.2.bay = b && t.2.buf ≤ a && a < t.2.buf + 16 * cdiv t.2.len 16 with
        | some (n, _) => s.modMac p fun m => { m with telegrams := m.telegrams.map fun t =>
            if t.1 = n then (n, { t.2 with store := splice t.2.store (a - t.2.buf) g.bytes }) else t }
        | none => s.modMac p fun m => { m with dma := m.dma ++ [g] }

/-- A complete record of `n` granules leaves the transmit DMA (R419, R420). -/
def State.takeRecord (s : State) (p n : Nat) : State :=
  let gs := (s.macPort p).dma.take n
  let l := gs.flatMap Granule.bytes
  let s1 := s.modMac p fun m => { m with dma := m.dma.drop n }
  let cls := fieldAt l 1 1 % 8
  let fl := fieldAt l 2 1
  let h := fieldAt l 3 1
  let sa := fieldAt l 6 1
  let area := cdiv h 16 * 16
  let chain := bitAt fl 2
  let start := 16 + area + if chain then 16 else 0
  let len := if chain then fieldAt l (16 + area) 2 else fieldAt l 4 2
  let bays := (gs.map fun g => g.tag / 2 ^ 25).eraseDups
  let b := bays.headD 0
  let raw := (l.drop 16).take h ++ (l.drop start).take len
  let fill := bitAt fl 0
  if s1.prpHigh p then s1.txBad p
  else if bays.length ≠ 1 || !s1.ownsClass b p cls || (sa ≠ 0xFF && !s1.txSa b p sa) then s1.bump (Fd.MAC_TXERR_NOT_OWNED p)
  else if fill && h ≠ 42 && h ≠ 46 then s1.txBad p
  else if s1.tooLong p raw.length then s1.bump (Fd.MAC_TXERR_LONG p)
  else
    let bytes := if fill then fillHeader (s1.macPort p).mac h raw else raw
    s1.enqueue p cls { bay := b, bytes := bytes, sa := sa, stamp := bitAt fl 1, tag := fieldAt l 8 4 }

/-- TX_RECORD of port `p` (R418, R419): filler granules are passed over and the first complete record is taken. -/
def State.txRecord (s : State) (p : Nat) : Nat → State
  | 0 => s
  | n + 1 =>
    match (s.macPort p).dma with
    | [] => s
    | g :: t =>
      let l := g.bytes
      let kind := fieldAt l 0 1
      let pass (s : State) : State := s.modMac p fun m => { m with dma := t }
      if kind = 0 then (pass s).txRecord p n
      else if kind ≠ 1 || fieldAt l 3 1 > 64 then ((pass s).txBad p).txRecord p n
      else
        let area := cdiv (fieldAt l 3 1) 16
        let chain := bitAt (fieldAt l 2 1) 2
        match chain, t[area]? with
        | true, none => s
        | true, some g2 =>
          let whole := 2 + area + cdiv (fieldAt g2.bytes 0 2) 16
          if t.length + 1 < whole then s else s.takeRecord p whole
        | false, _ =>
          let whole := 1 + area + cdiv (fieldAt l 4 2) 16
          if t.length + 1 < whole then s else s.takeRecord p whole

/-! ### Receive records (R422) -/

/-- Frame bytes plus 16 of the records that wait in a queue. -/
def recordsHeld (q : List (List Granule)) : Nat := q.foldl (fun n r => n + fieldAt ((r.headD {}).bytes) 4 2 + 16) 0

/-- A record for bay `b` in class `c` of port `p`: KIND, FLAGS, TIME, TAG and the frame (R416, R422). -/
def State.rxRecord (s : State) (b p c kind flags time tag : Nat) (frame : List Byte) : State :=
  let st := vget (s.macPort p).rx b
  if recordsHeld (vget st.queues c) + frame.length + 16 > (s.netClass p c).rxLimit then s.bump (Fd.TSN_DROP_RX_FULL p)
  else
    let head := natLe 1 kind ++ natLe 1 c ++ natLe 1 flags ++ natLe 1 p ++ natLe 2 frame.length ++ natLe 2 0 ++ natLe 4 st.seq ++ natLe 4 0 ++
      natLe 8 time ++ natLe 4 tag ++ natLe 4 0
    let r := granules (frame.length + 32) (head ++ frame)
    s.modMac p fun m => { m with rx := vmod m.rx b fun q => { q with queues := vmod q.queues c fun l => l ++ [r], seq := (q.seq + 1) % 2 ^ 32 } }

/-! ### MACsec (R431) -/

/-- Nonce of a secure association for a packet number (IEEE 802.1AE, which R431 names). -/
def Sa.nonce (a : Sa) (pn : Nat) : List Byte :=
  if a.xpn then List.zipWith (· ^^^ ·) (bytesN 12 a.salt) (natBe 4 a.ssci ++ natBe 8 pn) else natBe 8 a.sci ++ natBe 4 pn

/-- The last packet number of a secure association. -/
def Sa.lastPn (a : Sa) : Nat := if a.xpn then 2 ^ 64 - 1 else 2 ^ 32 - 1

def State.modSa (s : State) (p n : Nat) (f : Sa → Sa) : State :=
  s.modMac p fun m => { m with sas := m.sas.map fun e => if e.1 = n then (n, f e.2) else e }

/-- A frame leaves under its secure association; none: it is dropped (R431). -/
def State.protect (s : State) (p n : Nat) (l : List Byte) : Option (List Byte) × State :=
  match ((s.macPort p).sas.find? (·.1 = n)).map (·.2) with
  | none => (none, s.bump (Fd.MSC_STAT_NO_SA p))
  | some a =>
    if a.stopped then (none, s.bump (Fd.MSC_STAT_NO_SA p))
    else match s.useKey a.slot uMACSEC with
      | (.error _, s1) => (none, s1.bump (Fd.MSC_STAT_NO_SA p))
      | (.ok key, s1) =>
        let user := l.drop 12
        let head := l.take 12 ++ [0x88, 0xE5] ++ natBe 1 (0x2C + a.an % 4) ++ natBe 1 (if user.length < 48 then user.length else 0) ++
          natBe 4 a.pn ++ natBe 8 a.sci
        let out := head ++ bytesN (user.length + 16) (Config.gcmSeal (natBe 32 key) (a.nonce a.pn) head user)
        let low := !a.lowPosted && 4 * a.pn ≥ 3 * a.lastPn
        let last := a.pn ≥ a.lastPn
        let s2 := s1.modSa p n fun a => { a with pn := if last then a.pn else a.pn + 1, lowPosted := a.lowPosted || low, stopped := last }
        let s3 := s2.when low fun s => s.post a.bay 0x03A1 (natLe 1 p ++ natLe 1 n ++ natLe 1 1)
        (some out, s3.when last fun s => s.post a.bay 0x03A1 (natLe 1 p ++ natLe 1 n ++ natLe 1 2))

/-- The full packet number that a received 32-bit number stands for (IEEE 802.1AE). -/
def Sa.fullPn (a : Sa) (pn : Nat) : Nat :=
  if !a.xpn then pn
  else
    let low := a.top % 2 ^ 32
    let high := a.top / 2 ^ 32
    if pn + 2 ^ 31 < low then (high + 1) * 2 ^ 32 + pn else high * 2 ^ 32 + pn

/-- A received frame without its MACsec, and whether it was verified; none: it is dropped and counted (R431). -/
def State.unprotect (s : State) (p : Nat) (l : List Byte) : Option (List Byte × Bool) × State :=
  let t := (etherType l).1
  if beAt l 12 2 = 0x88E5 then
    let tci := beAt l 14 1
    match (s.macPort p).sas.find? fun e => e.2.rx && bitAt tci 5 && e.2.sci = beAt l 20 8 && e.2.an % 4 = tci % 4 with
    | none => (none, s.bump (Fd.MSC_STAT_NO_SA p))
    | some (n, a) =>
      let pn := a.fullPn (beAt l 16 4)
      if pn + 64 ≤ a.top || (pn ≤ a.top && a.seen.getLsbD (a.top - pn)) then (none, s.bump (Fd.MSC_STAT_REPLAY p))
      else match s.useKey a.slot uMACSEC with
        | (.error _, s1) => (none, s1.bump (Fd.MSC_STAT_VERIFY p))
        | (.ok key, s1) =>
          match Config.gcmOpen (natBe 32 key) (a.nonce pn) (l.take 28) (l.drop 28) with
          | none => (none, s1.bump (Fd.MSC_STAT_VERIFY p))
          | some d =>
            (some (l.take 12 ++ d, true), s1.modSa p n fun a =>
              if pn > a.top then { a with seen := (a.seen <<< (pn - a.top)) ||| 1#64, top := pn }
              else { a with seen := a.seen ||| (1#64 <<< (a.top - pn)) })
  else if t ≠ 0x888E && t ≠ 0x88F7 && (s.macPort p).sas.any (fun e => e.2.rx) then (none, s.bump (Fd.MSC_STAT_UNPROT p))
  else (some (l, false), s)

/-! ### PTP time stamps (R28, R429) -/

/-- An IPv4 packet: protocol, source, destination, plain (neither fragmented nor with options), transport payload. -/
def ipv4 (l : List Byte) : Option (Nat × Nat × Nat × Bool × List Byte) :=
  let (t, o) := etherType l
  if t ≠ 0x0800 || beAt l o 1 / 16 ≠ 4 then none
  else
    let ihl := 4 * (beAt l o 1 % 16)
    let len := beAt l (o + 2) 2
    let frag := beAt l (o + 6) 2 % 16384
    some (beAt l (o + 9) 1, beAt l (o + 12) 4, beAt l (o + 16) 4, frag = 0 && ihl = 20, (l.drop (o + ihl)).take (len - ihl))

/-- The UDP ports (source, destination) of a frame, if it is UDP (17) or TCP (6). -/
def ports (l : List Byte) : Option (Nat × Nat × Nat) :=
  match ipv4 l with
  | some (k, _, _, _, u) => if k = 17 || k = 6 then some (k, beAt u 0 2, beAt u 2 2) else none
  | none => none

/-- A PTP message (R417): EtherType 0x88F7, or UDP port 319 or 320. -/
def isPtp (l : List Byte) : Bool :=
  (etherType l).1 = 0x88F7 || match ports l with | some (k, _, b) => k = 17 && (b = 319 || b = 320) | none => false

/-- A PTP message on port `p` is stamped at its SFD, `later` units of 2^-48 ns from now, on the 78.125 ps grid, with the plumb state at
that moment, the step in which it lies; in every plumb state (R28, R429). -/
def State.ptpStamp (s : State) (p : Nat) (sent : Bool) (later : Nat) (l : List Byte) : State :=
  s.when (isPtp l) fun s =>
    let t : Int := (s.tme.t + later) * 64 / (5 * nsU)
    let lat : Int := Config.phyLatency p sent
    let x : PtpStamp := ⟨p, sent, if sent then t + lat else t - lat, s.plbState⟩
    if later = 0 then s.modNet fun n => { n with ptp := x :: n.ptp }
    else s.modNet fun n => { n with ptpDue := n.ptpDue ++ [(s.clk.now + later / (2 * nsU), x)] }

/-- Stamps of sent messages whose moment lies in the present step are made. -/
def State.ptpMoments (s : State) : State :=
  if s.net.ptpDue.isEmpty then s
  else s.modNet fun n => { n with ptpDue := n.ptpDue.filter (s.clk.now < ·.1)
                                  ptp := ((n.ptpDue.filter (·.1 ≤ s.clk.now)).map fun x => { x.2 with plumb := s.plbState }).reverse ++ n.ptp }

/-! ### Transmission (R424, R426, R430) -/

/-- The frames of a queue's head that may leave now: 8 TRDP, 9 platform, else the class. -/
def State.queueHead (s : State) (p k : Nat) : Option NetFrame :=
  if k = 8 then (s.macPort p).trdp.head? else if k = 9 then (s.macPort p).platform.head? else (s.netClass p k).tx.head?

/-- Queue `k` is eligible in this step (R424). -/
def State.eligible (s : State) (p k : Nat) : Bool :=
  let c := if k ≥ 8 then 7 else k
  let q := s.netClass p c
  match s.queueHead p k with
  | none => false
  | some f => s.gateOpen p c && (k ≥ 8 || q.idle = 0 || 0 ≤ q.credit) &&
    s.fitsIn p f ((s.nextClose p c).map fun n => 2 * (n - s.clk.now))

/-- Send one frame on the port, or on both ports of a pair (R420, R424, R430). -/
def State.sendFrameOn (s : State) (p : Nat) (c : Option Nat) (f : NetFrame) : State :=
  let rate := s.macRate p
  let pair := s.prpOn p
  let x := s.overhead p f
  let padded := f.bytes ++ List.replicate (60 - f.bytes.length) (0 : Byte)
  let seq := (s.macPort p).prpSeq
  let rct (lan : Nat) : List Byte := natBe 2 seq ++ natBe 2 (lan * 4096 + (padded.length + 6 - 14) % 4096) ++ [0x88, 0xFB]
  let one (s : State) (q : Nat) (l : List Byte) : State :=
    let (r, s1) := if f.sa ≠ 0xFF && !plainType f.bytes then s.protect p f.sa l else (some l, s)
    match r with
    | some l => s1.emit (.frame q (l ++ natLe 4 (crc32 l).toNat))
    | none => s1
  let s1 := if pair then one (one s p (padded ++ rct 0xA)) (p + 1) (padded ++ rct 0xB) else one s p padded
  let s2 := s1.modMac p fun m =>
    { m with busy := s.clk.now + cdiv ((padded.length + 24 + x) * 8 * 500000) rate, busyClass := c, prpSeq := (seq + if pair then 1 else 0) % 65536 }
  let later := 16 * nsU + 56000000 * nsU / rate
  let s3 := s2.ptpStamp p true later f.bytes
  match f.stamp, c with
  | true, some c => s3.rxRecord f.bay p c 2 0 ((s.tme.t + later) / nsU) f.tag []
  | _, _ => s3

/-- MAC_TRANSMIT_SELECT of port `p` (R424). -/
def State.macSelect (s : State) (p : Nat) : State :=
  if !s.ready rNET || !s.bit (Fd.MAC_STAT_LINK p) || s.prpHigh p || s.clk.now < (s.macPort p).busy then s
  else match [8, 9, 7, 6, 5, 4, 3, 2, 1, 0].find? fun k => s.eligible p k with
    | none => s
    | some k =>
      match s.queueHead p k with
      | none => s
      | some f =>
        if k = 8 then (((s.modMac p fun m => { m with trdp := m.trdp.tail }).bump (Fd.TSN_TRDP_SENT p))).sendFrameOn p none f
        else if k = 9 then (s.modMac p fun m => { m with platform := m.platform.tail }).sendFrameOn p none f
        else (s.modClass p k fun q => { q with tx := q.tx.tail }).sendFrameOn p (some k) f

/-- Credit of the shaped classes over one step, in 10^-6 bits (R426). -/
def State.creditTick (s : State) (p : Nat) : State :=
  s.each (List.range 8) fun s c =>
    let q := s.netClass p c
    if q.idle = 0 || !s.gateOpen p c then s
    else
      let up := 2 * (q.idle : Int)
      let sending := s.clk.now < (s.macPort p).busy && (s.macPort p).busyClass = some c
      let n : Int :=
        if sending then q.credit + up - 2 * (s.macRate p : Int)
        else if !q.tx.isEmpty then q.credit + up
        else if q.credit < 0 then min 0 (q.credit + up) else 0
      s.modClass p c fun q => { q with credit := n }

/-! ### TRDP (R427, R428) -/

/-- The process-data frame of a telegram (R427); the header FCS is that of IEC 61375-2-3 (PRESUMED, log entry 26). -/
def State.telegramFrame (s : State) (p : Nat) (t : Telegram) (dst : List Byte) : List Byte :=
  let vlan := if s.bit (Fd.MAC_VLAN_ENABLE p) then natBe 2 0x8100 ++ natBe 2 (7 * 8192 + s.get (Fd.MAC_VLAN_VID p)) else []
  let head := natBe 4 t.counter ++ natBe 2 0x0100 ++ natBe 2 0x5064 ++ natBe 4 t.comId ++ natBe 4 (s.reg (Reg.TSN_TOPO 0)).toNat ++
    natBe 4 (s.reg (Reg.TSN_TOPO 1)).toNat ++ natBe 4 t.len ++ natBe 4 0 ++ natBe 4 0 ++ natBe 4 0
  let pd := head ++ natLe 4 (crc32 head).toNat ++ fixLen 0 ((t.len + 3) / 4 * 4) (t.store.take t.len)
  dst ++ (s.macPort p).mac ++ vlan ++ natBe 2 0x0800 ++ udpPacket 64 true (s.reg (Reg.MAC_IP p)).toNat t.dest 17224 17224 pd

/-- The Ethernet destination of an IPv4 address: multicast, or as ARP resolved it. -/
def State.macOfIp (s : State) (ip : Nat) : Option (List Byte) :=
  if bitsOf ip 31 28 = 0xE then some ([0x01, 0x00, 0x5E] ++ natBe 3 (ip % 2 ^ 23)) else (s.net.arp.find? (·.1 = ip)).map (·.2)

/-- The telegram that a TRDP_TX action of the step before queued (R427); a frame that is too long is dropped and counted (R414). -/
def State.queueTelegram (s : State) (b p i : Nat) : State :=
  match ((s.macPort p).telegrams.find? (·.1 = i)).map (·.2) with
  | none => s
  | some t =>
    if t.bay ≠ b then s
    else match s.macOfIp t.dest with
      | none => s.bump (Fd.TSN_TRDP_NO_ARP p)
      | some d =>
        if s.tooLong p (s.telegramFrame p t d).length then s.bump (Fd.MAC_TXERR_LONG p)
        else s.modMac p fun m =>
          { m with trdp := m.trdp ++ [{ bay := b, bytes := s.telegramFrame p t d }]
                   telegrams := m.telegrams.map fun e => if e.1 = i then (i, { e.2 with counter := (e.2.counter + 1) % 2 ^ 32 }) else e }

/-- TRDP_TX (R427): the frame is queued at the next step. -/
def State.trdpAct (s : State) (b p i : Nat) : State :=
  if s.prpHigh p then s.txBad p
  else s.modNet fun n => { n with jobs := n.jobs ++ [(s.clk.now + 1, .telegram b p i)] }

/-- What network actions left for this step. -/
def State.netJobs (s : State) : State :=
  let (now, later) := s.net.jobs.partition fun j => j.1 ≤ s.clk.now
  (s.modNet fun n => { n with jobs := later }).each now fun s j =>
    match j.2 with
    | .gate p mask value => s.each (List.range 8) fun s c =>
        if bitAt mask c then s.modClass p c fun q => { q with gate := bitAt value c } else s
    | .telegram b p i => s.queueTelegram b p i

/-- A TRDP process-data datagram meets the receive filter (R428). -/
def State.trdpReceive (s : State) (p src : Nat) (l : List Byte) : State :=
  let fcs := fieldAt l 36 4 = (crc32 (l.take 36)).toNat && 40 ≤ l.length
  let len := beAt l 20 4
  match s.net.filters.find? fun e => e.2.enable && bitAt e.2.ports p && e.2.comId = beAt l 8 4 && (e.2.src = 0 || e.2.src = src) && fcs with
  | none => s.bump (Fd.TSN_TRDP_RX_DROP p)
  | some (n, e) =>
    if len > e.maxLen then s.bump (Fd.TSN_TRDP_RX_DROP p)
    else
      let e' := { e with counter := beAt l 0 4, len := len, fresh := true, valid := true, port := p, time := s.ns, data := fixLen 0 len (l.drop 40) }
      s.modNet fun q => { q with filters := q.filters.map fun x => if x.1 = n then (n, e') else x }

/-! ### Reception (R415, R417, R430) -/

/-- Remove the redundancy trailer and discard duplicates: the frame without it, or none for the second copy (R430). -/
def State.prpReceive (s : State) (p : Nat) (l : List Byte) : Option (List Byte) × State :=
  let n := l.length
  let h := p / 2 * 2
  let lan := beAt l (n - 4) 1 / 16
  if !s.prpOn p || n < 20 || beAt l (n - 2) 2 ≠ 0x88FB || (lan ≠ 0xA && lan ≠ 0xB) then (some l, s)
  else
    let seq := beAt l (n - 6) 2
    let mac := beAt l 6 6
    let cut := l.take (n - 6)
    let live := (s.macPort h).prpSrcs.filter fun x => s.ns ≤ x.at_ + 400000000
    let put (x : PrpSrc) : State := s.modMac h fun m => { m with prpSrcs := (x :: live.filter fun y => y.mac ≠ mac).take 256 }
    match live.find? fun x => x.mac = mac with
    | none => (some cut, put ⟨mac, seq, 1, s.ns⟩)
    | some x =>
      let ahead := (seq + 65536 - x.top) % 65536
      let back := (x.top + 65536 - seq) % 65536
      if back < 64 then
        if x.seen.getLsbD back then (none, put { x with at_ := s.ns })
        else (some cut, put { x with seen := x.seen ||| (1#64 <<< back), at_ := s.ns })
      else if ahead < 32768 then (some cut, put { x with top := seq, seen := (x.seen <<< ahead) ||| 1#64, at_ := s.ns })
      else (some cut, put { x with top := seq, seen := 1, at_ := s.ns })

/-- The RTP flow that a frame matches, with the UDP payload (R421). -/
def State.flowOf (s : State) (p : Nat) (l : List Byte) : Option (Nat × List Byte) :=
  match ipv4 l with
  | some (17, _, dst, true, u) =>
    ((List.range 16).find? fun f => s.flowOn f && s.flow f 0 = p && s.flow f 2 = dst && s.flow f 3 = beAt u 2 2).map fun f =>
      (f, (u.drop 8).take (beAt u 4 2 - 8))
  | _ => none

/-- A payload becomes a record of its flow (R421); past LIMIT it is dropped. -/
def State.flowRecord (s : State) (p f : Nat) (l : List Byte) : State :=
  let head := if s.flow f 4 = 1 then natLe 2 l.length ++ natLe 2 (if bitAt (fieldAt l 1 1) 7 then 2 else 0) ++ natLe 12 0
    else natLe 2 l.length ++ natLe 1 2 ++ natLe 1 (s.flow f 5) ++ natLe 12 0
  let held := (vget s.net.flows f).length * 16
  if held + l.length + 16 > s.flow f 6 then s.bump (Fd.TSN_DROP_RX_FULL p)
  else s.modNet fun n => { n with flows := vmod n.flows f fun q => q ++ granules (l.length + 16) (head ++ l) }

/-- A frame for platform firmware: a PTP message with its stamp; it learns addresses from ARP. -/
def State.toFirmware (s : State) (p : Nat) (l : List Byte) : State :=
  let (t, o) := etherType l
  let s1 := (s.modNet fun n => { n with fw := (p, l) :: n.fw }).ptpStamp p false 0 l
  if t = 0x0806 then s1.modNet fun n =>
    { n with arp := (beAt l (o + 14) 4, (l.drop (o + 8)).take 6) :: n.arp.filter fun e => e.1 ≠ beAt l (o + 14) 4 }
  else s1

/-- The frame goes to platform firmware (R417, step 1); `jp` is the port of junction datagrams, if this MAC port takes them. -/
def forFirmware (jp : Option Nat) (l : List Byte) : Bool :=
  let t := (etherType l).1
  isPtp l || t = 0x0806 || t = 0x888E || t = 0x88FB ||
    match ports l with
    | some (k, a, b) => a = 17225 || b = 17225 || (k = 17 && some b = jp)
    | none => false

/-- The port on which this MAC port takes junction datagrams (R439). -/
def State.jncUdp (s : State) (p : Nat) : Option Nat :=
  if s.get Fd.JNC_NODE_MODE ≠ 0 && s.get Fd.JNC_UDPMAC_PORT = p then some s.jnc.udpPort else none

/-- MAC_FRAME_RECEIVE (R415, R417): a frame without its FCS arrives on port `p`. -/
def State.macReceive (s : State) (p : Nat) (l : List Byte) : State :=
  if !s.ready rNET then s.bump (Fd.MAC_RXDROP_NOT_READY p)
  else
    let h := s.macHome p
    match s.unprotect h l with
    | (none, s1) => s1
    | (some (l1, ver), s1) =>
      match s1.prpReceive p l1 with
      | (none, s2) => s2
      | (some l2, s2) =>
        if l2.length > (s2.macPort h).mtu + 18 then s2.bump (Fd.MAC_RXDROP_LONG p)
        else if forFirmware (s2.jncUdp h) l2 then s2.toFirmware h l2
        else match ipv4 l2, ports l2 with
          | some (17, src, _, _, u), some (_, _, 17224) => s2.trdpReceive h src (u.drop 8)
          | _, _ =>
            match s2.flowOf h l2 with
            | some (f, u) => s2.flowRecord h f u
            | none =>
              let c := if beAt l2 12 2 = 0x8100 then beAt l2 14 1 / 32 else 0
              match s2.classOwner h c with
              | none => s2.bump (Fd.MAC_RXDROP_NO_OWNER p)
              | some b => s2.rxRecord b h c 1 (b2n ver + 2 * b2n (p ≠ h)) s2.ns 0 l2

/-! ### Link state and supervision (R415, R430) -/

/-- The link of port `p` goes up or down; every change posts NET_LINK. -/
def State.netLink (s : State) (p : Nat) (up : Bool) : State :=
  if s.bit (Fd.MAC_STAT_LINK p) = up then s
  else
    let s1 := s.putB (Fd.MAC_STAT_LINK p) up
    (0 :: (List.range 8).filter fun b => b ≠ 0 && (List.range 8).any fun c => s.ownsClass b p c).foldl
      (fun s b => s.post b 0x03A0 (natLe 1 p ++ natLe 1 (b2n up) ++ natLe 1 (s.get (Fd.MAC_STAT_SPEED p)))) s1

/-- Every 2 s firmware sends a supervision frame on an active pair (R430; its content PRESUMED, IEC 62439-3, log entry 26). -/
def State.supervise (s : State) (p : Nat) : State :=
  if !s.ready rNET || p % 2 = 1 || !s.prpOn p || s.sec < (s.macPort p).supAt + 2 then s
  else
    let mac := (s.macPort p).mac
    (s.modMac p fun m => { m with supAt := s.sec }).platformSend p
      ([0x01, 0x15, 0x4E, 0x00, 0x01, 0x00] ++ mac ++ [0x88, 0xFB] ++ natBe 2 1 ++ natBe 2 (s.sec / 2 % 65536) ++ [20, 6] ++ mac ++ [0, 0])

/-- The network's share of a step. -/
def State.netTick (s : State) : State :=
  s.ptpMoments.netJobs.each (List.range 4) fun s p => (s.creditTick p).supervise p

/-! ### Commands (R280, R415, R416, R427, R428, R431) -/

/-- PAYLOAD_BAD and NOT_OWNED (R256). -/
def stPAYLOAD_BAD : Nat := 0x13
def stNOT_OWNED : Nat := 0x16

/-- NET_PORT_CFG: 16 bytes. -/
def State.netPortCfg (s : State) (l : List Byte) : Nat × State :=
  let p := fieldAt l 0 1
  let sp := fieldAt l 1 1
  let mtu := fieldAt l 12 2
  if p > 3 || sp > 4 || fieldAt l 2 1 > 1 || fieldAt l 3 1 > 2 || mtu < 68 || mtu > 9000 then (stPAYLOAD_BAD, s)
  else
    let s1 := (s.netLink p false).modMac p fun m => { m with mac := (l.drop 4).take 6, mtu := mtu, prp := fieldAt l 2 1 = 1, ptp := fieldAt l 3 1 }
    (0, (s1.put (Fd.MAC_STAT_SPEED p) sp).put (Fd.MAC_STAT_PRP p) (fieldAt l 2 1))

/-- NET_QUEUE_CFG of bay `b`: 12 bytes. -/
def State.netQueueCfg (s : State) (b : Nat) (l : List Byte) : Nat × State :=
  let p := fieldAt l 0 1
  let c := fieldAt l 1 1
  let dir := fieldAt l 2 1
  let lim := fieldAt l 4 4
  let idle := fieldAt l 8 4
  let sum (f : NetClass → Nat) (v : Nat) : Nat := (List.range 8).foldl (fun n k => n + if k = c then v else f (s.netClass p k)) 0
  if p > 3 || c > 7 || dir > 1 || (dir = 1 && idle ≠ 0) || lim < (s.macPort p).mtu + 34 ||
      sum (if dir = 0 then (·.txLimit) else (·.rxLimit)) lim > 262144 ||
      (dir = 0 && 4 * sum (·.idle) idle > 3 * s.macRate p) then (stPAYLOAD_BAD, s)
  else if !s.ownsClass b p c then (stNOT_OWNED, s)
  else (0, s.modClass p c fun q => if dir = 0 then { q with txLimit := lim, idle := idle, credit := 0 } else { q with rxLimit := lim })

/-- A range inside bay `b`'s own bank field. -/
def State.ownBank (s : State) (b o n : Nat) : Bool := inRange o n (s.get (Fd.BXM_BKF_BASE b)) (s.get (Fd.BXM_BKF_LEN b)) 65536

/-- Set an entry of a numbered table. -/
def putEntry {α : Type} (l : List (Nat × α)) (n : Nat) (x : α) : List (Nat × α) :=
  l.filter (fun e => e.1 < n) ++ [(n, x)] ++ l.filter fun e => n < e.1

/-- NET_TRDP_TX of bay `b`: 20 bytes. -/
def State.netTrdpTx (s : State) (b : Nat) (l : List Byte) : Nat × State :=
  let p := fieldAt l 0 1
  let i := fieldAt l 1 1
  let len := fieldAt l 12 2
  let buf := fieldAt l 16 4
  let g := vget (s.bayRec b).net p
  let total := ((s.macPort p).telegrams.filter (·.1 ≠ i)).foldl (fun n t => n + cdiv t.2.len 16 * 16) (cdiv len 16 * 16)
  if p > 3 || len > 1432 || buf % 16 ≠ 0 || !s.ownBank b buf len || total > 32768 then (stPAYLOAD_BAD, s)
  else if !(g.trdpFirst ≤ i && i < g.trdpFirst + g.trdpCount) then (stNOT_OWNED, s)
  else
    let t : Telegram := { bay := b, comId := fieldAt l 4 4, dest := beAt l 8 4, len := len, buf := buf, store := List.replicate (cdiv len 16 * 16) 0 }
    (0, s.modMac p fun m => { m with telegrams := putEntry m.telegrams i t })

/-- NET_TRDP_FILTER of bay `b`: 20 bytes. -/
def State.netTrdpFilter (s : State) (b : Nat) (l : List Byte) : Nat × State :=
  let i := fieldAt l 0 2
  let ps := fieldAt l 2 1
  let len := fieldAt l 16 2
  let buf := fieldAt l 12 4
  let e : Filter := { bay := b, ports := ps, enable := fieldAt l 3 1 = 1, comId := fieldAt l 4 4, src := fieldAt l 8 4, buf := buf, maxLen := len }
  let total := (s.net.filters.filter (·.1 ≠ i)).foldl (fun n x => n + x.2.span) e.span
  if i > 1023 || ps > 15 || fieldAt l 3 1 > 1 || len > 1432 || buf % 16 ≠ 0 || !s.ownBank b buf e.span || total > 262144 then (stPAYLOAD_BAD, s)
  else if !((List.range 4).all fun p => !bitAt ps p ||
      let g := vget (s.bayRec b).net p
      g.filtFirst ≤ i && i < g.filtFirst + g.filtCount) || (ps = 0 && !(List.range 4).any fun p =>
      let g := vget (s.bayRec b).net p
      g.filtFirst ≤ i && i < g.filtFirst + g.filtCount) then (stNOT_OWNED, s)
  else (0, s.modNet fun n => { n with filters := putEntry n.filters i e })

/-- NET_MACSEC_SA of bay `b`: 40 bytes. -/
def State.netMacsecSa (s : State) (b : Nat) (l : List Byte) : Nat × State :=
  let p := fieldAt l 0 1
  let i := fieldAt l 1 1
  let slot := fieldAt l 4 1
  let g := vget (s.bayRec b).net p
  if p > 3 || i > 31 || fieldAt l 2 1 > 1 || fieldAt l 3 1 > 3 || slot > 63 || fieldAt l 5 1 > 1 then (stPAYLOAD_BAD, s)
  else if !(g.saFirst ≤ i && i < g.saFirst + g.saCount) || s.keyOwner slot ≠ b then (stNOT_OWNED, s)
  else match s.useKey slot uMACSEC with
    | (.error true, s1) => (stSLOT_BAD, s1)
    | (.error false, s1) => (stKEY_USAGE, s1)
    | (.ok _, s1) =>
      let a : Sa := { bay := b, rx := fieldAt l 2 1 = 1, an := fieldAt l 3 1, slot := slot, xpn := fieldAt l 5 1 = 1, sci := fieldAt l 8 8
                      pn := fieldAt l 16 8, ssci := fieldAt l 24 4, salt := (l.drop 28).take 12 }
      (0, s1.modMac p fun m => { m with sas := putEntry m.sas i a })

end Sys2Proof.Machine
end

