-- ==== Sys2Proof/Machine/Junction.lean ====
section
/-! DEFINITION. Junction links (18): frames, retry, forwarding, discovery, TIME frames, lines to and from the matrix. -/

namespace Sys2Proof.Machine

def State.modJnc (s : State) (f : Jnc → Jnc) : State := { s with jnc := f s.jnc }
def State.jlink (s : State) (p : Nat) : JncLink := vget s.jnc.links p
def State.modLink (s : State) (p : Nat) (f : JncLink → JncLink) : State := s.modJnc fun j => { j with links := vmod j.links p f }
def State.node (s : State) : Nat := s.get Fd.JNC_NODE_NODE_ID
def State.jncMode (s : State) : Nat := s.get Fd.JNC_NODE_MODE
def State.linkUp (s : State) (p : Nat) : Bool := s.bit (Fd.JNC_STAT_TRAINED p)

/-- KIND codes (R433). -/
def kVIDEO : Nat := 1
def kTIME : Nat := 2
def kACK : Nat := 3
def kNAK : Nat := 4
def kDISCOVER : Nat := 5
def kCONTROL : Nat := 6

/-! ### Frames (R433) -/

/-- A junction frame with its CRC. -/
def jncFrame (kind flags seq ack src dst : Nat) (arg payload : List Byte) : List Byte :=
  let l := natLe 1 kind ++ natLe 1 flags ++ natLe 2 seq ++ natLe 2 ack ++ natLe 2 payload.length ++ natLe 4 src ++ natLe 4 dst ++ fixLen 0 8 arg ++ payload
  l ++ natLe 4 (crc32 l).toNat

/-- A frame with header fields replaced and its CRC made anew. -/
def jncPatch (l : List Byte) (changes : List (Nat × List Byte)) : List Byte :=
  let b := changes.foldl (fun l c => splice l c.1 c.2) (l.take (l.length - 4))
  b ++ natLe 4 (crc32 b).toNat

/-- The frame is whole and its CRC is good. -/
def jncGood (l : List Byte) : Bool :=
  28 ≤ l.length && fieldAt l 6 2 ≤ 2048 && l.length = 28 + fieldAt l 6 2 && fieldAt l (l.length - 4) 4 = (crc32 (l.take (l.length - 4))).toNat

def sequenced (kind : Nat) : Bool := kind = kVIDEO || kind = kDISCOVER || kind = kCONTROL

/-- Node, channel and hop count of SRC. -/
def srcNode (l : List Byte) : Nat := fieldAt l 8 4 % 2 ^ 20
def srcChan (l : List Byte) : Nat := fieldAt l 8 4 / 2 ^ 20 % 8
def srcHops (l : List Byte) : Nat := fieldAt l 11 1

/-! ### Sending (R434, R436, R437, R439) -/

def retryBytes (k : JncLink) : Nat := k.retry.foldl (fun n e => n + e.bytes.length) 0
def queueBytes (k : JncLink) : Nat := k.queue.foldl (fun n e => n + e.length) 0

/-- Bytes leave on a link now. -/
def State.linkOut (s : State) (p : Nat) (l : List Byte) : State := (s.modLink p fun k => { k with sentAt := s.runNs }).emit (.link p l)

/-- An unsequenced frame (TIME, ACK, NAK). -/
def State.sendPlain (s : State) (p kind : Nat) (arg payload : List Byte) : State :=
  s.linkOut p (jncFrame kind 0 0 (s.jlink p).rxSeq s.node 0 arg payload)

/-- A frame takes the link's next SEQ and enters the retry buffer. -/
def State.sendSeq (s : State) (p : Nat) (l : List Byte) : State :=
  let k := s.jlink p
  let b := jncPatch l [(2, natLe 2 k.txSeq), (4, natLe 2 k.rxSeq)]
  (s.modLink p fun k => { k with txSeq := (k.txSeq + 1) % 65536, retry := k.retry ++ [{ seq := k.txSeq, bytes := b, at_ := s.runNs }] }).linkOut p b

/-- VIDEO and CONTROL frames are held while a node ID appears twice (R437). -/
def State.heldKind (s : State) (l : List Byte) : Bool := s.bit Fd.JNC_RING_DUP && fieldAt l 0 1 ≠ kDISCOVER

/-- Frames of the transmit queue go while the retry buffer has room. -/
def State.flushLink (s : State) (p : Nat) : Nat → State
  | 0 => s
  | n + 1 =>
    match (s.jlink p).queue with
    | [] => s
    | l :: t =>
      if !s.linkUp p || s.heldKind l || retryBytes (s.jlink p) + l.length > 262144 then s
      else ((s.modLink p fun k => { k with queue := t }).sendSeq p l).flushLink p n

/-- A sequenced frame for a link: sent, queued behind a full retry buffer, or dropped and counted. -/
def State.sendLink (s : State) (p : Nat) (l : List Byte) : State :=
  if !s.linkUp p then s.modJnc fun j => { j with dropped := j.dropped + 1 }
  else if (s.jlink p).queue.isEmpty && !s.heldKind l && retryBytes (s.jlink p) + l.length ≤ 262144 then s.sendSeq p l
  else if queueBytes (s.jlink p) + l.length ≤ 65536 then s.modLink p fun k => { k with queue := k.queue ++ [l] }
  else s.modJnc fun j => { j with dropped := j.dropped + 1 }

/-- A frame goes as a UDP datagram (R439); without a resolved address or past the MTU it is dropped. -/
def State.sendUdp (s : State) (l : List Byte) : State :=
  let p := s.get Fd.JNC_UDPMAC_PORT
  let b := jncPatch l [(2, natLe 4 0)]
  let drop (s : State) : State := s.modJnc fun j => { j with dropped := j.dropped + 1 }
  match s.macOfIp s.jnc.udpIp with
  | none => drop s
  | some d =>
    if b.length + 28 > (s.macPort p).mtu then drop s
    else
      let vlan := if s.bit (Fd.MAC_VLAN_ENABLE p) then natBe 2 0x8100 ++ natBe 2 (s.get (Fd.MAC_VLAN_VID p)) else []
      s.platformSend p (d ++ (s.macPort p).mac ++ vlan ++ natBe 2 0x0800 ++
        udpPacket 64 true (s.reg (Reg.MAC_IP p)).toNat s.jnc.udpIp s.jnc.udpPort s.jnc.udpPort b)

/-- A frame of this node to node `dst`, or to all: by UDP or the ring as MODE says; on the ring through JNC1, and in an open ring
through both ports (DESIGN CHOICE, log entry 27). -/
def State.sendFrom (s : State) (dst : Nat) (bcast : Bool) (l : List Byte) : State :=
  let udp := s.jncMode = 1 || (s.jncMode = 2 && !bcast && !s.jnc.nodes.contains dst)
  if udp then s.sendUdp l
  else
    let s1 := if s.linkUp 1 then s.sendLink 1 l else s
    if s.linkUp 0 && (s.bit Fd.JNC_RING_OPEN || !s.linkUp 1) then s1.sendLink 0 l else s1

/-! ### Ring knowledge (R437, R440) -/

/-- JNC_RING to bay 0 (R442). -/
def State.postRing (s : State) : State :=
  s.post 0 0x03A3 (natLe 1 (s.get Fd.JNC_RING_SIZE) ++ natLe 1 (s.get Fd.JNC_POS_POSITION) ++
    natLe 1 (s.get Fd.JNC_RING_OPEN + 2 * s.get Fd.JNC_RING_DUP) ++ [0] ++ natLe 4 (s.get Fd.JNC_RING_MASTER))

/-- Change the ring registers; every change posts JNC_RING. -/
def State.setRing (s : State) (f : State → State) : State :=
  let s1 := f s
  if s1.reg Reg.JNC_RING = s.reg Reg.JNC_RING && s1.reg Reg.JNC_POS = s.reg Reg.JNC_POS then s1 else s1.postRing

/-- How good a plumb state makes its node as master: LOCKED to a reference other than 6, HOLDOVER, any other. -/
def State.ownRank (s : State) : Nat :=
  if s.plbState = sLOCKED && s.get Fd.PLB_STATE_SELECTED ≠ 6 then 0 else if s.plbState = sHOLDOVER then 1 else 2

/-- The master of the ring as this node knows it: the link that named it, or none for this node itself. -/
def State.ringMaster (s : State) : Option (Nat × JncHeard) :=
  let cands : List (Nat × Nat × Option (Nat × JncHeard)) := (s.ownRank, s.node, none) :: (List.range 2).filterMap fun p =>
    (s.jlink p).heard.bind fun h =>
      if h.node = s.node then none else some (if h.state = sLOCKED then 0 else if h.state = sHOLDOVER then 1 else 2, h.node, some (p, h))
  let best := cands.foldl (fun (a : Nat × Nat × Option (Nat × JncHeard)) b =>
    if b.1 < a.1 || (b.1 = a.1 && b.2.1 < a.2.1) then b else a) (s.ownRank, s.node, none)
  best.2.2

def State.masterNode (s : State) : Nat := match s.ringMaster with | some (_, h) => h.node | none => s.node

/-- JNC_RING.MASTER follows what this node knows of the members (R437, R440). -/
def State.showMaster (s : State) : State := s.setRing fun s => s.put Fd.JNC_RING_MASTER s.masterNode

/-- Device time in 2^-16 ns. -/
def State.t16 (s : State) : Nat := s.tme.t / 2 ^ 32

/-! ### Retry (R434) -/

/-- JNC_LINK to bay 0: up, or down with its cause. -/
def State.postLink (s : State) (p : Nat) (up : Bool) (cause : Nat) : State := s.post 0 0x03A2 (natLe 1 p ++ natLe 1 (b2n up) ++ natLe 1 cause)

/-- The link discards its retry buffer and is no longer trained; its transmit queue stands (log entry 27). -/
def State.linkClear (s : State) (p : Nat) : State :=
  ((s.put (Fd.JNC_STAT_TRAINED p) 0).put (Fd.JNC_STAT_LINK p) 0).modLink p fun k => { sentAt := k.sentAt, queue := k.queue }

/-- The sender resends every unacknowledged frame in order; after 16 resends of one, the link fails and retrains. -/
def State.resend (s : State) (p : Nat) : State :=
  let k := s.jlink p
  if k.retry.any fun e => e.again ≥ 16 then (((s.linkClear p).postLink p false 1).flag Fd.SYS_FLTSUM_LINK).showMaster
  else
    let s1 := s.modLink p fun k => { k with retry := k.retry.map fun e => { e with again := e.again + 1, at_ := s.runNs } }
    (s1.bump (Fd.JNC_STAT_RETRIES p) k.retry.length).each k.retry fun s e =>
      s.linkOut p (jncPatch e.bytes [(1, natLe 1 (fieldAt e.bytes 1 1 ||| 2)), (4, natLe 2 k.rxSeq)])

/-- JNC_RESEND_TIMEOUT: the oldest unacknowledged frame is 10 µs old. -/
def State.resendTimeout (s : State) (p : Nat) : State :=
  match (s.jlink p).retry with
  | e :: _ => if s.linkUp p && e.at_ + 10000 ≤ s.runNs then s.resend p else s
  | [] => s

/-- JNC_ACK_TIMER: nothing has been sent for 1 µs. -/
def State.ackTimer (s : State) (p : Nat) : State :=
  if s.linkUp p && (s.jlink p).sentAt + 1000 ≤ s.runNs then s.sendPlain p kACK [] [] else s

/-- Frames that ACKSEQ acknowledges leave the retry buffer. -/
def State.acked (s : State) (p ack : Nat) : State :=
  (s.modLink p fun k => { k with retry := k.retry.filter fun e =>
    let d := (ack + 65536 - e.seq) % 65536
    !(1 ≤ d && d ≤ 32768) }).flushLink p 1024

/-! ### Video (R433, R438) -/

/-- Two 36-bit pixels in 9 bytes, pixel 0 component 0 in the low bits. -/
def packPixels : List Px → List Byte
  | [] => []
  | [a] => natLe 5 (a.c0 % 4096 + a.c1 % 4096 * 2 ^ 12 + a.c2 % 4096 * 2 ^ 24)
  | a :: b :: t =>
    natLe 9 (a.c0 % 4096 + a.c1 % 4096 * 2 ^ 12 + a.c2 % 4096 * 2 ^ 24 + (b.c0 % 4096 + b.c1 % 4096 * 2 ^ 12 + b.c2 % 4096 * 2 ^ 24) * 2 ^ 36) ++ packPixels t

/-- Pixels of a payload. -/
def unpackPixels (l : List Byte) : List Px :=
  (List.range (l.length * 8 / 36)).map fun i =>
    let v := leNat l / 2 ^ (36 * i)
    ⟨v % 4096, v / 2 ^ 12 % 4096, v / 2 ^ 24 % 4096⟩

/-- Split a list into pieces of `n`. -/
def pieces {α : Type} (n : Nat) : Nat → List α → List (List α)
  | 0, _ => []
  | k + 1, l => if l.isEmpty then [] else l.take (max 1 n) :: pieces n k (l.drop (max 1 n))

/-- A line of junction transmit D24 + i: its tag segment, then its pixels, at most 454 a frame (DESIGN CHOICE, log entry 27). -/
def State.sendLine (s : State) (i : Nat) (l : VLine) : State :=
  if !s.ready rJNC || s.fig.geom.isNone then s.modJnc fun j => { j with dropped := j.dropped + 1 }
  else
    let bcast := s.bit (Fd.JNC_TXMAP_BCAST i)
    let dst := s.get (Fd.JNC_TXMAP_NODE i)
    let fl := b2n bcast + 4 * b2n (bitAt l.tag.flags 6) + 8 * l.space
    let f (first : Nat) (payload : List Byte) : List Byte :=
      jncFrame kVIDEO fl 0 0 (s.node + i * 2 ^ 20) (dst + i * 2 ^ 20) (natLe 4 l.tag.frame ++ natLe 2 l.tag.line ++ natLe 2 first) payload
    let n := if s.jncMode = 0 then 454 else min 454 (((s.macPort (s.get Fd.JNC_UDPMAC_PORT)).mtu - 56) / 9 * 2)
    let s1 := s.sendFrom dst bcast (f 0xFFFF (Pix.tagBytes l.tag))
    if Pix.isTag l.tag = true then s1
    else (((pieces n l.px.length l.px).zipIdx).foldl (fun s p => s.sendFrom dst bcast (f (p.2 * max 1 n) (packPixels p.1))) s1)

/-- A VIDEO frame reaches the receive sources that take its node and channel (R438). -/
def State.takeVideo (s : State) (l : List Byte) : State :=
  let payload := (l.drop 24).take (fieldAt l 6 2)
  let first := fieldAt l 22 2
  let fl := fieldAt l 1 1
  let body : VLine := if first = 0xFFFF then { tag := Pix.tagOf payload, space := bitsOf fl 4 3 } else { space := bitsOf fl 4 3, px := unpackPixels payload }
  let g : JncSeg := { frame := fieldAt l 16 4, line := fieldAt l 20 2, first := first, body := body }
  let add (r : JncRx) (i : Nat) : JncRx :=
    if s.get (Fd.JNC_RXMAP_NODE i) = srcNode l && s.get (Fd.JNC_RXMAP_CH i) = srcChan l && r.done ≠ some g.frame then
      { r with segs := r.segs ++ [g] }
    else r
  s.modJnc fun j => { j with rx := Vector.ofFn (n := 8) fun i => add (vget j.rx i.val) i.val }

def State.jrx (s : State) (i : Nat) : JncRx := vget s.jnc.rx i
def State.modJrx (s : State) (i : Nat) (f : JncRx → JncRx) : State := s.modJnc fun j => { j with rx := vmod j.rx i f }

/-- Time of a tag in whole ns. -/
def tagNs (t : Tag) : Nat := t.sec * 1000000000 + t.ns

/-- The tag segment of a line. -/
def JncRx.tagSeg (r : JncRx) (f n : Nat) : Option JncSeg := r.segs.find? fun g => g.frame = f && g.line = n && g.first = 0xFFFF

/-- Width of a frame's lines as its segments show it. -/
def JncRx.width (r : JncRx) (f : Nat) : Nat :=
  (r.segs.filter fun g => g.frame = f && g.first ≠ 0xFFFF).foldl (fun n g => max n (g.first + g.body.px.length)) 0

/-- A whole line: its tag and its pixels, if all have arrived. -/
def JncRx.whole (r : JncRx) (f n : Nat) : Option VLine :=
  match r.tagSeg f n with
  | none => none
  | some t =>
    let segs := r.segs.filter fun g => g.frame = f && g.line = n && g.first ≠ 0xFFFF
    let px := (List.range (segs.length)).foldl (fun (acc : List Px) _ =>
      match segs.find? fun g => g.first = acc.length && !g.body.px.isEmpty with
      | some g => acc ++ g.body.px
      | none => acc) []
    let w := r.width f
    if w = 0 || px.length < w then none else some { t.body with px := px.take w }

/-- JNC_RX_FRAME_START of S32 + i (R438): line 0's time plus JNC_RXDLYi has come. -/
def State.jncStart (s : State) (i : Nat) : State :=
  let r := s.jrx i
  if r.cur.isSome then s
  else match r.segs.find? fun g => g.line = 0 && g.first = 0xFFFF && tagNs g.body.tag + s.get (Fd.JNC_RXDLY_NS i) ≤ s.ns with
    | none => s
    | some g =>
      let t0 := tagNs g.body.tag
      let later := r.segs.find? fun h => h.frame = g.frame && h.first = 0xFFFF && 0 < h.line && h.line ≠ 0xFFFF && t0 < tagNs h.body.tag
      let (v, s1) := if later.isSome then (0, s) else s.draw
      let pace := match later with
        | some h => max 1 (cdiv ((tagNs h.body.tag - t0) / h.line) 2)
        | none => v + 1
      let s2 := s1.modJrx i fun r => { r with segs := r.segs.filter fun h => h.frame = g.frame || t0 < tagNs h.body.tag || h.first ≠ 0xFFFF
                                              cur := some g.frame, startAt := s.clk.now, pace := pace, line := 0, flags := 0 }
      s2.startSrc (32 + i) s.clk.now

/-- The line of S32 + i that is due (R438): as it arrived, or black with LATE; the frame ends with its tag. -/
def State.jncDue (s : State) (i : Nat) : State :=
  let r := s.jrx i
  match r.cur with
  | none => s
  | some f =>
    if s.clk.now < r.startAt + r.line * r.pace then s
    else
      let top := (r.segs.filter fun g => g.frame = f && g.line ≠ 0xFFFF).foldl (fun n g => max n g.line) 0
      let ended := (r.tagSeg f 0xFFFF).isSome || r.segs.any fun g => g.frame ≠ f && g.line = 0
      if ended && top < r.line then
        let t : Tag := match r.tagSeg f 0xFFFF with
          | some g => g.body.tag
          | none => { line := 0xFFFF, frame := f }
        (s.modJrx i fun r => { r with cur := none, done := some f, segs := r.segs.filter fun g => g.frame ≠ f }).feedAll (32 + i)
          { tag := { t with flags := t.flags ||| r.flags }, fs := r.startAt } 0 0
      else
        let sp := ((r.segs.find? fun g => g.frame = f).map (·.body.space)).getD 0
        let (l, fl) : VLine × Nat := match r.whole f r.line with
          | some l => (l, 0)
          | none =>
            let t : Tag := match r.tagSeg f r.line with
              | some g => g.body.tag
              | none => { line := r.line, frame := f }
            ({ tag := { t with flags := t.flags ||| fLATE }, space := sp, px := List.replicate (r.width f) (Pix.black sp) }, fLATE)
        (s.modJrx i fun r => { r with line := r.line + 1, flags := r.flags ||| fl }).feedAll (32 + i) { l with fs := r.startAt } 0 0

/-- Steps that a line takes on a link of two lanes at 25.78125 Gb/s with 64b/66b coding, which is 100 bits a step (R432, R433). -/
def lineSteps (l : VLine) : Nat := cdiv ((60 + 28 * cdiv l.px.length 454 + cdiv (9 * l.px.length) 2) * 8) 100

/-- The junctions' share of a step: the oldest line leaves when the line before it has gone, frames play. -/
def State.jncTick (s : State) : State :=
  let s1 := match s.vid.jtx with
    | (d, l) :: rest =>
      if s.clk.now < s.jnc.txAt then s
      else ((s.modVid fun v => { v with jtx := rest }).modJnc fun j => { j with txAt := s.clk.now + lineSteps l }).sendLine (d - 24) l
    | [] => s
  s1.each (List.range 8) State.jncDue

/-! ### Discovery (R437) -/

/-- DISCOVER of this node on a port; in MODE 1 it goes as a datagram (R439). -/
def State.sendDiscover (s : State) (p : Nat) : State :=
  let l := jncFrame kDISCOVER 0 0 0 s.node 0 (natLe 4 s.node ++ natLe 4 s.node) []
  if s.jncMode = 1 then s.sendUdp l else s.sendLink p l

/-- Every command that waits for the discovery completes. -/
def State.discDone (s : State) (st : Nat) : State :=
  (s.jnc.discBy.foldl (fun s o => s.finish (some o) st) s).modJnc fun j => { j with disc := none, discBy := [] }

/-- A DISCOVER frame arrives on port `p`: back at its origin it tells size and position; elsewhere it goes on. -/
def State.takeDiscover (s : State) (p : Nat) (l : List Byte) : State :=
  let origin := fieldAt l 16 4 % 2 ^ 20
  let low := fieldAt l 20 4 % 2 ^ 20
  let since := fieldAt l 20 4 / 2 ^ 20 % 256 + 1
  let hops := srcHops l + 1
  if origin = s.node then
    if s.jnc.disc.isNone then s.setRing fun s => s.put Fd.JNC_RING_DUP 1
    else ((s.modJnc fun j => { j with low := some low }).setRing fun s => ((((s.put Fd.JNC_RING_SIZE hops).put Fd.JNC_POS_POSITION (if low = s.node then 0 else since)).put Fd.JNC_RING_OPEN 0).put
      Fd.JNC_RING_DUP 0)).discDone 0
  else if hops ≥ 64 then s
  else
    let arg := if s.node < low then natLe 4 origin ++ natLe 4 s.node else natLe 4 origin ++ natLe 4 (low + since * 2 ^ 20)
    s.sendLink (1 - p) (jncPatch l [(1, natLe 1 (fieldAt l 1 1 &&& 253)), (11, natLe 1 hops), (16, arg)])

/-- JNC_DISCOVER_TIMEOUT with the members counted on the arms of JNC0 and JNC1 (R437). -/
def State.discTimeout (s : State) (arm0 arm1 : Nat) : State :=
  match s.jnc.disc with
  | none => s
  | some t =>
    if s.runNs < t + 1000000 then s
    else ((s.sendDiscover 0).setRing fun s =>
      (((s.modJnc fun j => { j with low := none }).put Fd.JNC_RING_SIZE (1 + arm0 + arm1)).put Fd.JNC_POS_POSITION arm0).put Fd.JNC_RING_OPEN 1).discDone 0

/-! ### TIME frames (R440) -/

/-- JNC_TIME_SEND: a TIME frame on each link, once a millisecond. -/
def State.timeSend (s : State) : State :=
  s.showMaster.each (List.range 2) fun s p =>
    let ms := s.ns / 1000000
    if !s.linkUp p || s.jncMode = 1 || (s.jlink p).timeAt = some ms then s
    else
      let now := s.t16
      let (time, node, st, corr) : Nat × Nat × Nat × Int := match s.ringMaster with
        | some (_, h) => (h.time, h.node, h.state, h.corr + ((now : Int) - h.stamp))
        | none => (now, s.node, s.plbState, 0)
      let ns := time / 65536
      let payload := natLe 6 (ns / 1000000000) ++ natLe 4 (ns % 1000000000) ++ natLe 2 (time % 65536) ++ natLe 4 node ++ natLe 1 st ++ natLe 7 0 ++
        natLe 8 (unsigned 64 corr) ++ natLe 8 (s.jlink p).echoTx ++ natLe 8 (s.jlink p).echoRx
      (s.modLink p fun k => { k with timeAt := some ms }).sendPlain p kTIME (natLe 8 now) payload

/-- JNC1 is fewer hops from the master than JNC0, as the last discovery shows when the master is the lowest node; else they cannot be told
apart and count as a tie (R440; DEDUCED, log entry 27). -/
def State.nearer1 (s : State) : Bool :=
  s.jnc.low = some s.masterNode && !s.bit Fd.JNC_RING_OPEN && s.get Fd.JNC_RING_SIZE < 2 * s.get Fd.JNC_POS_POSITION

/-- A TIME frame: link delay, what it says of the master, and a sample of reference 6, from the direction with fewer hops to the master,
or from JNC0 on a tie (R440). -/
def State.takeTime (s : State) (p : Nat) (l : List Byte) : State :=
  let q := (l.drop 24).take 48
  let t4 := s.t16
  let tx := fieldAt l 16 8
  let s0 := s.when (srcNode l = s.node && s.get Fd.JNC_RING_SIZE > 1) fun s => s.setRing fun s => s.put Fd.JNC_RING_DUP 1
  let s1 := s0.modLink p fun k => { k with echoTx := tx, echoRx := t4 % 2 ^ 64 }
  let echoTx := fieldAt q 32 8
  if echoTx = 0 then s1
  else
    let gap := signed 64 (unsigned 64 ((t4 : Int) - echoTx)) - signed 64 (unsigned 64 ((tx : Int) - fieldAt q 40 8))
    let delay := roundQ gap 2
    let h : JncHeard := { time := (fieldAt q 0 6 * 1000000000 + fieldAt q 6 4) * 65536 + fieldAt q 10 2, node := fieldAt q 12 4 % 2 ^ 20
                          state := fieldAt q 16 1, corr := signed 64 (fieldAt q 24 8) + delay, stamp := t4 }
    let s2 := s1.modLink p fun k => { k with heard := some h }
    let s3 := s2.showMaster
    let best := if s3.nearer1 then 1 else 0
    let other := (s3.jlink (1 - p)).heard.any fun g => g.node = h.node
    if h.node = s3.masterNode && h.node ≠ s3.node && (p = best || !other) then
      s3.refSample 6 1 0 (((h.time : Int) + h.corr).toNat * 2 ^ 32)
    else s3

/-! ### Receiving (R434 to R436) -/

/-- A VIDEO or CONTROL frame is delivered here. -/
def State.deliverFrame (s : State) (l : List Byte) : State :=
  if fieldAt l 0 1 = kVIDEO then s.takeVideo l
  else s.modJnc fun j => { j with control := j.control ++ [(l.drop 24).take (fieldAt l 6 2)] }

def State.discardFrame (s : State) : State := s.modJnc fun j => { j with discarded := j.discarded + 1 }

/-- A VIDEO or CONTROL frame from the ring: delivered, forwarded or removed (R435, R436). -/
def State.ringFrame (s : State) (p : Nat) (l : List Byte) : State :=
  let bcast := bitAt (fieldAt l 1 1) 0
  let hops := srcHops l + 1
  if s.fig.geom.isNone then s.discardFrame
  else if srcNode l = s.node then s
  else
    let mine := fieldAt l 12 4 % 2 ^ 20 = s.node
    let s1 := s.when (bcast || mine) fun s => s.deliverFrame l
    if (bcast || !mine) && hops < 64 then s1.sendLink (1 - p) (jncPatch l [(1, natLe 1 (fieldAt l 1 1 &&& 253)), (11, natLe 1 hops)]) else s1

/-- JNC_FRAME_RECEIVE: a frame arrives on a trained link (R434). -/
def State.jncReceive (s : State) (p : Nat) (l : List Byte) : State :=
  let nak (s : State) : State := if (s.jlink p).naked then s else (s.modLink p fun k => { k with naked := true }).sendPlain p kNAK [] []
  if !s.linkUp p then s
  else if !jncGood l then nak s
  else
    let kind := fieldAt l 0 1
    if kind < 1 || 6 < kind then s.discardFrame
    else
      let s0 := (s.acked p (fieldAt l 4 2)).modJnc fun j => if j.nodes.contains (srcNode l) then j else { j with nodes := srcNode l :: j.nodes }
      let s1 := s0.when (p = 0 && srcHops l = 0) fun s => s.setRing fun s => s.put Fd.JNC_POS_UPSTREAM (srcNode l)
      if kind = kTIME then s1.takeTime p l
      else if kind = kACK then s1
      else if kind = kNAK then s1.resend p
      else
        let ahead := (fieldAt l 2 2 + 65536 - (s1.jlink p).rxSeq) % 65536
        if ahead = 0 then
          let s2 := s1.modLink p fun k => { k with rxSeq := (k.rxSeq + 1) % 65536, naked := false }
          if kind = kDISCOVER then s2.takeDiscover p l else s2.ringFrame p l
        else if ahead < 32768 then nak s1
        else s1

/-- A frame that came as a UDP datagram (R439): nothing is retried or forwarded. -/
def State.udpFrame (s : State) (l : List Byte) : State :=
  let kind := fieldAt l 0 1
  if !s.ready rJNC || !jncGood l then s
  else if !(kind = kVIDEO || kind = kCONTROL) || s.fig.geom.isNone then s.discardFrame
  else if srcNode l = s.node then s
  else if bitAt (fieldAt l 1 1) 0 || fieldAt l 12 4 % 2 ^ 20 = s.node then s.deliverFrame l
  else s.discardFrame

/-- MAC_FRAME_RECEIVE with what firmware does with a junction datagram. -/
def State.macFrame (s : State) (p : Nat) (l : List Byte) : State :=
  let s1 := s.macReceive p l
  if s1.net.fw.length = s.net.fw.length then s1
  else match s1.net.fw with
    | (h, f) :: _ =>
      match ipv4 f with
      | some (17, _, _, _, u) =>
        if s1.jncUdp h = some (beAt u 2 2) then s1.udpFrame ((u.drop 8).take (beAt u 4 2 - 8)) else s1
      | _ => s1
    | [] => s1

/-! ### Links and commands (R434, R436, R280) -/

/-- JNC_LINK_CHANGE: a link trains and comes up, or loses its signal. -/
def State.jncLink (s : State) (p : Nat) (up : Bool) : State :=
  if up then
    if s.linkUp p || !s.ready rJNC || !bitAt s.jnc.ports p then s
    else (((s.linkClear p).put (Fd.JNC_STAT_TRAINED p) 1).put (Fd.JNC_STAT_LINK p) 1).postLink p true 0 |>.flushLink p 1024
  else if s.bit (Fd.JNC_STAT_LINK p) then ((s.linkClear p).postLink p false 2).showMaster else s

/-- JNC_CFG: 16 bytes; the links retrain. -/
def State.jncCfg (s : State) (l : List Byte) : Nat × State :=
  let id := fieldAt l 0 4
  let mode := fieldAt l 4 1
  let ps := fieldAt l 5 1
  if id ≥ 2 ^ 20 || mode > 2 || ps > 3 then (stPAYLOAD_BAD, s)
  else
    let s1 := s.each (List.range 2) fun s p => if s.bit (Fd.JNC_STAT_LINK p) then (s.linkClear p).postLink p false 3 else s
    let s2 := ((s1.put Fd.JNC_NODE_NODE_ID id).put Fd.JNC_NODE_MODE mode).modJnc fun j =>
      { j with ports := ps, udpIp := fieldAt l 8 4, udpPort := fieldAt l 12 2, nodes := [] }
    (0, s2.setRing fun s => s.put Fd.JNC_RING_DUP 0)

/-- JNC_DISCOVER: the frame goes out on JNC1; the command completes when discovery does. -/
def State.jncDiscover (s : State) (o : Origin) : State :=
  let s1 := s.modJnc fun j => { j with discBy := j.discBy ++ [o] }
  if s1.jnc.disc.isSome then s1 else (s1.modJnc fun j => { j with disc := some s.runNs }).sendDiscover 1

/-- Response of JNC_DISCOVER: the ring as it is known when the discovery starts; before the first one this node alone (R280, DESIGN CHOICE,
log entry 27). -/
def State.ringReport (s : State) : List Byte :=
  natLe 1 (max 1 (s.get Fd.JNC_RING_SIZE)) ++ natLe 1 (s.get Fd.JNC_POS_POSITION) ++ natLe 2 0 ++ natLe 4 (s.get Fd.JNC_POS_UPSTREAM)

/-- Response of JNC_STATUS: node ID, retries of both links, and the last e of reference 6 in ps (R441). -/
def State.jncReport (s : State) (e : Int) : List Byte :=
  natLe 4 s.node ++ natLe 4 (s.get (Fd.JNC_STAT_RETRIES 0) + s.get (Fd.JNC_STAT_RETRIES 1)) ++ natLe 4 (unsigned 32 e) ++ natLe 4 0

end Sys2Proof.Machine
end

