-- ==== Sys2Proof/Machine/Startup.lean ====
section
/-! DEFINITION. Start-up, resets, clocks, power domains and platform faults (01, 19 to 21, 24): the meanings of their commands over
the shared operations. -/

namespace Sys2Proof.Machine

def State.modFw (s : State) (f : Fw → Fw) : State := { s with fw := f s.fw }

/-! ### Resets (R465 to R471) -/

/-- VDDIO_AON_V as SYS_STRAP shows it: 0x12 for 1.8 V, 0x21 for 3.3 V; outside both ranges a free value (R536, R543). -/
def State.strapVolt (s : State) : Sensed → Nat × State
  | .v18 => (0x12, s)
  | .v33 => (0x21, s)
  | .outside => let (v, s1) := s.draw; (v % 256, s1)

/-- SC0/SC1 leave reset (R161): when the divider chain first gives them a clock (DEDUCED, log entry 29). -/
def State.startPair (s : State) : State :=
  ((((s.releaseCore 0).releaseCore 1).put (Fd.SYS_CORECTL_RUN 0) 1).put (Fd.SYS_CORECTL_RUN 1) 1).released [0]

/-- Power-on reset: all domains but debug, straps sampled (R465, R467). -/
def State.powerOn (s : State) (osc boot : BitVec 2) (snp : Bool) (vio : Sensed) : State :=
  let (v, s1) := s.strapVolt vio
  (s1.afterReset 0).putStraps osc.toNat boot.toNat (b2n snp) v

/-- SYS_RST_N (R465, R471). -/
def State.sysReset (s : State) (cause delay : Nat) : State := s.systemReset cause delay

/-- Debug reset: the debug domain and the TAP (R465, R506): every enable and request ends, so halted cores resume (R506), and the watchdog
restarts with the platform pair (R512). -/
def State.debugReset (s : State) : State :=
  let s1 := s.each (List.range 6) fun s c => if s.coreState c = 3 then { (s.put (Fd.SYS_CORECTL_STATE c) 1) with
    cores := vmod s.cores c fun k => { k with pc := (s.reg (Reg.DBG_PC c)).extractLsb' 2 30, stepping := false } }
    else s.modCore c fun k => { k with stepping := false }
  let s2 := if s.coreState 0 = 3 then s1.modFw fun f => { f with kick := s.runNs } else s1
  { s2.resetBlocks dbgBlocks with dbg := {} }

/-- SUPPLY_MONITOR_TRIP (R542). -/
def State.supplyTrip (s : State) (debugRail : Bool) (osc boot : BitVec 2) (snp : Bool) (vio : Sensed) : State :=
  if debugRail then s.debugReset else s.powerOn osc boot snp vio

/-- Grant registers of the static domain that firmware keeps records of (R468). -/
def grantRecords : List Nat :=
  ((List.range 8).map fun b => Reg.FGE_ACT b) ++ ((List.range 8).map fun b => Reg.FGE_DESC b) ++
    ((List.range 8).map fun i => Reg.VXM_SOWN i) ++ ((List.range 8).map fun i => Reg.VXM_DOWN i)

/-- Readiness bits that a static reset clears (R472). -/
def staticReady : List Nat := [rDDR, rFGE, rVID, rAUD, rNET, rJNC, rSEAL]

/-- Static reset (R465, R468): parts, commits, scarfs and static settings go; seal chains abort; LPDDR5X is reset. Every
LPDDR5X word's check state is clean (DESIGN CHOICE, log entry 61). -/
def State.staticReset (s : State) : State :=
  let lost := s.runningBays
  let k := if s.fig.geom.isSome then s.fig.measure else 0
  let keep := (grantRecords.map fun a => (a, s.reg a)).filter fun p => p.2 ≠ regReset p.1
  let before := if s.fw.staticDue then s.fw.saved.filter fun p => !keep.any fun q => q.1 = p.1 else []
  let s1 := s.each (List.range 4) fun s i => if (s.seal_ i).active then s.sealFail i else s
  let s2 := (s1.each staticReady State.clearReady).resetBlocks staticBlocks
  { s2 with
    fig := {}, vid := {}, aud := {}, net := {}, jnc := {}, seals := Vector.replicate 4 {}, ddrCtl := {}
    field := { s2.field with wb := [], due := [], row := [], head := none }
    fw := { s2.fw with
      sched := s2.fw.sched.filter fun e => match e.eff with
        | .commit _ => false
        | .routeSet _ _ => false
        | .layerCommit _ _ => false
        | _ => true
      saved := before ++ keep, lostPart := if s.fw.staticDue then (s.fw.lostPart ++ lost).eraseDups else lost, staticAt := k, staticDue := true } }

/-! ### The clock root (R20 to R24, R410, R493) -/

/-- The period of OSC_IN in ns, by OSC_SEL (R20). -/
def State.oscPeriod (s : State) : Nat := 40 / 2 ^ s.get Fd.SYS_CLKSTAT_OSC_SEL

/-- MDLL_LOCK (R21): the phase errors of the OSC_IN cycles just past, newest first, in 1/1,024 of a root period, have stayed within ±1/64
of it for 1,024 cycles since the MDLL began to acquire. Never with OSC_SEL 0b11 (R20). -/
def State.mdllLock (s : State) (errs : List Int) : State :=
  if s.get Fd.SYS_CLKSTAT_OSC_SEL = 3 || s.bit Fd.SYS_CLKSTAT_MDLL_LOCK || s.clk.gateAt.isSome then s
  else if errs.length < 1024 || s.clk.ka < s.clk.mdllFrom + 1024 * s.oscPeriod || !(errs.take 1024).all (fun e => -16 ≤ e && e ≤ 16) then s
  else s.put Fd.SYS_CLKSTAT_MDLL_LOCK 1

/-- DIVIDER_CHAIN_START (R22): a beat begins with every derived clock's edges counted from it, and CLK sets; after a gap plumb, odometry,
PWM and the figure engine go on as their chapters say. -/
def State.dividerStart (s : State) : State :=
  if !s.bit Fd.SYS_CLKSTAT_MDLL_LOCK || s.bit Fd.SYS_CLKSTAT_BEAT_ALIGNED then s
  else
    let c := { s.clk with beat0 := s.clk.now, beats := s.clk.beats + cdiv (s.clk.now - s.clk.beat0) 5, started := true, gated := false }
    let s1 := ({ s with clk := c }.put Fd.SYS_CLKSTAT_BEAT_ALIGNED 1).setReady rCLK
    if s.clk.started then (((s1.plbGapEnd).odoGap).pwmStop false).figResume else { s1.startPair with tme := { s1.tme with t := 0 } }

/-- MDLL_LOSS_OF_LOCK (R21, R23): the phase error of an OSC_IN cycle, in 1/1,024 of a root period, exceeds ±1/16 of it, or no edge has come
for `late` ns, two nominal periods or more. The clocks are gated at the next beat boundary, and a clock fault is reported (R493). -/
def State.lossOfLock (s : State) (err : Int) (late : Nat) : State :=
  if !s.bit Fd.SYS_CLKSTAT_MDLL_LOCK || ((-64 ≤ err && err ≤ 64) && late < 2 * s.oscPeriod) then s
  else
    let s1 := ((s.put Fd.SYS_CLKSTAT_MDLL_LOCK 0).flag Fd.SYS_CLKSTAT_LOCK_LOST).bump Fd.SYS_CLKSTAT_LOCK_COUNT
    let s2 := ((s1.put Fd.SYS_CLKSTAT_BEAT_ALIGNED 0).clearReady rCLK).flag Fd.SYS_FLTSUM_CLOCK
    let edge := s.clk.now + (5 - (s.clk.now - s.clk.beat0) % 5)
    { s2 with clk := { s2.clk with mdllFrom := s.clk.ka, gateAt := if s.bit Fd.SYS_CLKSTAT_BEAT_ALIGNED then some edge else none } }

/-- The derived clocks are gated (R23, R410, R493): the static domain stands, PWM holds its outputs. -/
def State.gateClocks (s : State) : State :=
  (({ s with clk := { s.clk with gated := true, gateAt := none } }.figStop).plbGapStart).pwmStop true

/-! ### Readiness (R469, R472) -/

/-- Set each bit of a list, in order. -/
def State.setAll (s : State) (l : List Nat) : State := s.each l State.setReady

/-- READINESS_TIMER (R469, R472): what falls due by time. AON, ODO and PLB by hardware; then firmware's static blocks, 23 ms after
it was entered, and its service, 48 ms after (R469's latest times; DESIGN CHOICE, log entry 28). -/
def State.readinessTimer (s : State) : State :=
  let t := s.tline
  let s1 := if s.ready rCLK && t ≥ 500000 && !s.ready rAON then ((s.setReady rAON).setReady rODO).odoStart else s
  let s2 := if s1.ready rCLK && t ≥ 2000000 && !s1.ready rPLB then (s1.setReady rPLB).plbStart else s1
  match s2.fw.entered with
  | none => s2
  | some e =>
    let s3 := if s2.fw.stage = 0 && e + 23000000 ≤ s2.clk.ka then
        (s2.setAll [rFGE, rVID, rAUD, rNET, rJNC, rSEAL]).modFw fun f => { f with stage := 1 } else s2
    if s3.fw.stage = 1 && e + 48000000 ≤ s3.clk.ka then
      let s4 := if s3.get Fd.SYS_STRAP_BOOT_SEL = 2 then s3.resetRing 8 else s3
      let s5 := ((((s4.put Fd.PLB_IEN_IEN 0x3FF).put (bayStateFld 0) bRUNNING).setReady (rBAY 0)).setReady rPCIE).setReady rMBX
      let roll := BitVec.ofNat 64 (2 ^ s5.fw.rollback - 1)
      ({ s5 with otp := { s5.otp with rollback := s5.otp.rollback ||| roll } }).modFw fun f => { f with stage := 2 }
    else s3

/-! ### Secure boot (R443 to R445, R455 to R457) -/

/-- Firmware image of R456: it verifies against FW_ROOT and the rollback count. -/
def magicCHFW : List Byte := [0x43, 0x48, 0x46, 0x57]
def imageLoadLen (l : List Byte) : Nat := fieldAt l 12 4
def countBits (v : BitVec 64) : Nat := (List.range 64).foldl (fun n i => n + if v.getLsbD i then 1 else 0) 0

def imageOk (roll : BitVec 64) (l : List Byte) : Bool :=
  let n := imageLoadLen l
  let key := (l.drop 0x20).take 96
  l.take 4 = magicCHFW && n ≤ 458752 && l.length ≥ 0x80 + n + 96 && fieldAt l 8 4 ≤ 64 && countBits roll ≤ fieldAt l 8 4 &&
    bytesN 48 (Config.sha384 key) = bytesN 48 Config.fwRoot &&
    Config.ecVerify true key (bytesN 48 (Config.sha384 (l.take (0x80 + n)))) ((l.drop (0x80 + n)).take 96)

/-- Start of a firmware bank in the flash (R450). -/
def bankBase (k : Nat) : Nat := 0x100000 + 0x100000 * k

/-- The image in a flash bank. -/
def State.bankImage (s : State) (k : Nat) : List Byte :=
  s.flashBytes (bankBase k) (min 0x100000 (0x80 + fieldAt (s.flashBytes (bankBase k) 16) 12 4 + 96))

/-- The bank that the boot record names: bank 1 if its first byte is 1 (the layout is open, DESIGN CHOICE, log entry 28). -/
def State.bootBank (s : State) : Nat := if fieldAt (s.flashBytes 0 1) 0 1 = 1 then 1 else 0

/-- The pair jumps to a verified image, which lies at the start of working SRAM with its header (R193, R455, R456). What of it reaches beyond
firmware's half of working SRAM is recorded as bay 0's grant there (R193). -/
def State.enterFirmware (s : State) (bank : Nat) (l : List Byte) : State :=
  let n := 0x80 + imageLoadLen l
  let s0 := { s with sram := writeBytes zeroByte (l.take n) 0 s.sram }
  let s1 := if n ≤ 0x40000 then s0 else (s0.put (Fd.BXM_SRAM_BASE 0) 0).put (Fd.BXM_SRAM_LEN 0) (cdiv (n - 0x40000) 4096)
  let pc := BitVec.ofNat 30 ((0x08000000 + fieldAt l 16 4) / 4)
  let s2 := (s1.modCore 0 fun k => { k with pc := pc }).modCore 1 fun k => { k with pc := pc }
  let v := fieldAt l 4 4
  let s3 := ((((s2.put Fd.SYS_FWVER_MAJOR (bitsOf v 23 16)).put Fd.SYS_FWVER_MINOR (bitsOf v 15 8)).put Fd.SYS_FWVER_PATCH (bitsOf v 7 0)).put
    Fd.SYS_FWVER_BANK bank).put Fd.SYS_FWVER_NEXT s.bootBank
  s3.modFw fun f => { f with entered := some s.clk.ka, rollback := fieldAt l 8 4, kick := s.runNs }

/-- Program a region that is blank: a good value, or torn by a power failure. -/
def otpWrite (cut : Bool) (a b : Nat) : OtpRegion := if cut then .torn else .good a b

def OtpRegion.isGood : OtpRegion → Bool
  | .good _ _ => true
  | _ => false

/-- One region pair of R444 is made good: used as it stands, or the first usable copy is programmed. -/
def otpEnsure (cut : Bool) (x y : OtpRegion) (a b : Nat) : OtpRegion × OtpRegion :=
  match x, y with
  | .good _ _, _ => (x, y)
  | .blank, _ => (otpWrite cut a b, y)
  | .torn, .blank => (x, otpWrite cut a b)
  | .torn, _ => (x, y)

/-- R444 and R445 at a start. `cut`: where power fails on a first start (0: nowhere; 1: while DRK is written; 2: while the helper data
is; 3: before PROVISIONED). Answers whether boot ROM goes on. -/
def State.provision (s : State) (pufOk : Bool) (cut : Nat) : Bool × State :=
  let (perm, s0) := s.draw
  let s1 := (s0.modKeys fun k => { k with perm := perm }).putB Fd.KEY_STAT_PUF_FAIL (!pufOk)
  if s1.otp.provisioned then (true, s1.put Fd.KEY_STAT_PROVISIONED 1)
  else
    let (d, s2) := s1.draw
    let (m, s3) := s2.draw
    let (h, s4) := s3.draw
    let drk := otpEnsure (cut = 1) s4.otp.drkA s4.otp.drkB ((d ^^^ m) % 2 ^ 256) (m % 2 ^ 256)
    let s5 := { s4 with otp := { s4.otp with drkA := drk.1, drkB := drk.2 } }
    if cut = 1 then (false, s5)
    else
      let help := otpEnsure (cut = 2) s5.otp.helpA s5.otp.helpB (h % 2 ^ 8192) 0
      let s6 := { s5 with otp := { s5.otp with helpA := help.1, helpB := help.2 } }
      if cut = 2 || cut = 3 then (false, s6)
      else if !(drk.1.isGood || drk.2.isGood) || !(help.1.isGood || help.2.isGood) then (true, s6.put Fd.KEY_STAT_OTP_SPENT 1)
      else (true, { s6 with otp := { s6.otp with provisioned := true } }.put Fd.KEY_STAT_PROVISIONED 1)

/-- BOOT_ROM_START (R455). -/
def State.bootRom (s : State) (pufOk : Bool) (cut : Nat) : State :=
  if !s.ready rCLK || s.fw.entered.isSome || s.fw.hostPhase ≠ 0 || s.bit Fd.SYS_FLTSUM_BOOT_FAIL then s
  else match s.provision pufOk cut with
    | (false, s1) => s1
    | (true, s1) =>
      if s1.get Fd.SYS_STRAP_BOOT_SEL = 2 then s1.modFw fun f => { f with hostPhase := 1, hostBuf := [] }
      else
        let b := s1.bootBank
        let first := s1.bankImage b
        if imageOk s1.otp.rollback first then s1.enterFirmware b first
        else
          let second := s1.bankImage (1 - b)
          if imageOk s1.otp.rollback second then s1.enterFirmware (1 - b) second
          else ((((s1.holdCore 0).holdCore 1).put (Fd.SYS_CORECTL_RUN 0) 0).put (Fd.SYS_CORECTL_RUN 1) 0).put Fd.SYS_FLTSUM_BOOT_FAIL 1

/-- A board record of R475 whose MAGIC, COUNT, CRC and addresses hold: its entries. -/
def magicCHBD : List Byte := [0x43, 0x48, 0x42, 0x44]

/-- Registers that a board record may name (R476). -/
def boardMay (a : Nat) : Bool :=
  (match findReg a with
    | some (f, _) => f.fields.any (·.board)
    | none => false) ||
    a = Reg.DDR_CFG || a = Reg.BKF_SCRUB || (List.range 8).any (fun t => a = Reg.BXM_PRI t) || a = Reg.BXM_AGE || a = Reg.PLB_CTL ||
    a = Reg.PLB_LOCK || a = Reg.PLB_LOOP || a = Reg.PLB_ALMEN || a = Reg.PLB_OUT0 || a = Reg.PLB_OUT1 || a = Reg.PLB_PPSOUT || a = Reg.AUD_LOOP ||
    a = Reg.PWR_POLICY

def boardEntries (l : List Byte) : Option (List (Nat × Word)) :=
  let n := fieldAt l 4 4
  let body := (l.drop 16).take (8 * n)
  if l.take 4 ≠ magicCHBD || n < 1 || 4096 < n || body.length < 8 * n || fieldAt l 8 4 ≠ (crc32 body).toNat then none
  else
    let es := (List.range n).map fun i => (fieldAt body (8 * i) 4, BitVec.ofNat 32 (fieldAt body (8 * i + 4) 4))
    if es.all fun e => boardMay e.1 then some es else none

/-- What a write of the register at `a` does beyond its fields where a unit acts on its settings: plumb, odometry and PWM (R367, R389, R398, R403,
R405). -/
def State.written (old s : State) (a : Nat) : State :=
  if a / 65536 = 0x4003 then State.plbWritten old s else if a / 65536 = 0x4005 then State.odoWritten old s a
  else if a / 65536 = 0x4006 then s.pwmWritten else s

/-- Write board entries in order, each to the writable fields of its register. -/
def State.writeBoard (s : State) (es : List (Nat × Word)) : State :=
  s.each es fun s e => match findReg e.1 with
    | some (f, _) => State.written s (s.writeFields e.1 (f.fields.filter fun x => x.acc ≠ .ro) e.2) e.1
    | none => s

/-- A chunk of host boot arrives: BAR2 0x1818 of the PF is written (R457, R475). -/
def State.hostChunk (s : State) : State :=
  let q := s.ring 8
  let n := leNat (readBytes zeroByte q.mem 0x1800 4)
  let answer (s : State) (o v : Nat) : State := s.modRing 8 fun q => { q with mem := writeBytes zeroByte (natLe 4 v) o q.mem }
  if s.fw.hostPhase ≠ 1 && s.fw.hostPhase ≠ 2 then s
  else if n ≠ 0 then
    let m := min n 6144
    (answer s 0x1804 n).modFw fun f => { f with hostBuf := f.hostBuf ++ readBytes zeroByte q.mem 0 m }
  else
    let l := s.fw.hostBuf
    let s1 := s.modFw fun f => { f with hostBuf := [] }
    if s.fw.hostPhase = 1 then
      if imageOk s.otp.rollback l then (answer (s1.enterFirmware 0 l) 0x1808 0).modFw fun f => { f with hostPhase := 2 } else answer s1 0x1808 0x19
    else if (boardEntries l).isSome then (answer s1 0x1808 0).modFw fun f => { f with hostPhase := 3, hostRecord := some l }
    else (answer s1 0x1808 0x13).modFw fun f => { f with hostPhase := 3, hostRecord := some l }

/-- BOARD_RECORD_APPLY (R475, R476): every entry in order, or none; XSPI and PWM follow (R469). -/
def State.applyBoard (s : State) : State :=
  if s.fw.entered.isNone || s.ready rPWM then s
  else
    let src : Option (List Byte) :=
      if s.get Fd.SYS_STRAP_BOOT_SEL = 2 then s.fw.hostRecord
      else some (s.flashBytes 0x80000 (16 + 8 * min 4096 (fieldAt (s.flashBytes 0x80000 16) 4 4)))
    match src with
    | none => s
    | some l =>
      let s1 := match boardEntries l with
        | some es => ((s.writeBoard es).modFw fun f => { f with board := es }).setReady rBOARD
        | none => s.flag Fd.SYS_FLTSUM_BOARD_BAD
      s1.setAll (if s.get Fd.SYS_STRAP_BOOT_SEL = 2 && !Config.flashFitted then [rPWM] else [rXSPI, rPWM])

/-- KEY_STORE_RESTORE (R449): then KEY and DBG set; never with OTP_SPENT (R444). Debug enables of bays are cleared first (R506). -/
def State.keyRestore (s : State) : State :=
  if s.fw.entered.isNone || s.ready rKEY || s.bit Fd.KEY_STAT_OTP_SPENT || !s.otp.provisioned then s
  else
    let s1 := (s.restoreKeys).setReady rKEY
    (s1.each (List.range 6) fun s c => (s.put (Fd.DBG_EN_U_BAY c) 0).put (Fd.DBG_EN_S_BAY c) 0).setReady rDBG

/-- DDR_TRAINING (R145): once after the board record has been applied. It succeeds when `fitted`, the capacity of each channel as DDR_CFG
codes it, is at least the declared one and memory and board run at the declared rate, a bit of `rates`. -/
def State.ddrTrain (s : State) (fitted : Nat) (rates : BitVec 4) : State :=
  if !s.ready rBOARD || s.fw.staticDue || s.ddrCtl.training then s
  else
    let s1 := { s with ddrCtl := { s.ddrCtl with training := true } }
    if s.get Fd.DDR_CFG_CAP ≤ fitted && rates.getLsbD (s.get Fd.DDR_CFG_RATE) then (s1.put Fd.DDR_STAT_TRAINED 1).setReady rDDR else s1

/-- STATIC_RESET_RECOVERY: the copy of the board record that firmware keeps is applied (R468, R563; R145 speaks of a new record, DEDUCED, log
entry 61). -/
def State.staticRecover (s : State) : State :=
  if !s.fw.staticDue then s
  else
    let s1 := (s.writeBoard s.fw.board).each s.fw.saved fun s p => s.setReg p.1 p.2
    let s2 := (s1.setAll [rFGE, rVID, rAUD, rNET, rJNC, rSEAL]).each (List.range 8) fun s b =>
      if b = 0 || s.bayState b ≠ bEMPTY then s.post b 0x000D (natLe 8 s.fw.staticAt ++ natLe 1 (b2n (s.fw.lostPart.contains b))) else s
    s2.modFw fun f => { f with staticDue := false, saved := [], lostPart := [] }

/-! ### Power domains (R477 to R484) -/

/-- R477 and the policy allow domain `d` to be gated now. -/
def State.mayGate (s : State) (d : Nat) : Bool :=
  bitAt (s.get Fd.PWR_POLICY_GATE) (d - 4) && 4 ≤ d && d ≤ 13 &&
    (if d < 8 then
      let c := d - 2
      let cs := if s.locked c then [c / 2 * 2, c / 2 * 2 + 1] else [c]
      !(List.range 8).any fun b => b ≠ 0 && s.bayState b ≠ bEMPTY && s.bayState b ≠ bASLEEP && s.bayState b ≠ bFAULTED &&
        (unitCores (s.bayRec b).coreUnit).any fun x => cs.contains x
    else if d < 12 then
      let parts := (List.range 8).filterMap (s.part ·) ++ s.fig.commits.map (·.2.2) ++ (List.range 8).filterMap fun b => (s.bayRec b).parked.map (·.1)
      !parts.any (usesEngine (d - 8))
    else if d = 12 then
      !(List.range 48).any fun k =>
        let r := (s.dest k).route
        r.source ≠ 0xFF && s.routeCodec k r
    else s.jnc.ports = 0)

/-- POWER_DOWN_REQUEST (R478, R480): a down request that R477 forbids is not issued; in WAKE it waits. -/
def State.powerDown (s : State) (d : Nat) : State :=
  if !s.mayGate d then s
  else if s.domState d = dON then
    let s1 := (s.put (Fd.PWR_STATE_STATE d) dDRAIN).modDom d fun x => { x with drainAt := s.clk.ka, upWanted := false }
    if d = 13 then s1.clearReady rJNC else s1
  else if s.domState d = dWAKE then s.modDom d fun x => { x with downWanted := true }
  else s

/-- Descriptor runs of engine `e`: the work a draining engine has admitted. -/
def State.engineBusy (s : State) (e : Nat) : Nat := (s.fig.runs.filter fun r => r.engine = e).length

/-- DOMAIN_DRAIN_END (R478 to R480): admitted work has finished, or at 8 µs is abandoned; a wanted domain returns to ON. -/
def State.drainEnd (s : State) (d : Nat) : State :=
  let busy := if 8 ≤ d && d ≤ 11 then s.engineBusy (d - 8) else 0
  if s.domState d ≠ dDRAIN || (busy ≠ 0 && s.clk.ka < (vget s.pwr d).drainAt + 8000) then s
  else
    let s1 := if busy = 0 then s else (s.bump (Fd.PWR_STATE_ABANDONED d) busy).modFig fun f => { f with runs := f.runs.filter fun r => r.engine ≠ d - 8 }
    if (vget s.pwr d).upWanted then
      let s2 := (s1.put (Fd.PWR_STATE_STATE d) dON).modDom d fun x => { x with upWanted := false }
      if d = 13 then s2.setReady rJNC else s2
    else s1.put (Fd.PWR_STATE_STATE d) dFENCED

/-- DOMAIN_POWER_OFF (R478): a core's state is lost, a locked pair's as one, which its trace will tell (R188). -/
def State.powerOff (s : State) (d : Nat) : State :=
  if s.domState d ≠ dFENCED then s
  else
    let s1 := s.put (Fd.PWR_STATE_STATE d) dOFF
    if 4 ≤ d && d < 8 then s1.each (s1.mates (d - 2)) fun s c => (s.holdCore c).modSrc c fun t => { t with ctxLost := true } else s1

/-- The block that powers up reset with its domain. -/
def domBlocks (d : Nat) : List Nat := if 8 ≤ d && d ≤ 11 then [0x4011 + (d - 8)] else if d = 12 then [0x4033] else if d = 13 then [0x4043] else []

/-- The core of domain `d` and its locked partner are released once their domains are ON: into the code of a RUNNING bay that they serve, else
at the monitor's first instruction if RUN is set (R161, R188, R210). -/
def State.gatedRelease (s : State) (d : Nat) : State :=
  let c := d - 2
  let serves (b : Nat) : Bool := b ≠ 0 && s.bayState b = bRUNNING && (unitCores (s.bayRec b).coreUnit).contains c
  let up (cs : List Nat) : Bool := cs.all fun c => s.domOn (c + 2) && s.coreState c = 0
  match (List.range 8).find? serves with
  | some b => if up (unitCores (s.bayRec b).coreUnit) then s.enterBay b (s.bayRec b).reason else s
  | none =>
    let s1 := s.sampleLock c
    let cs := s1.mates c
    if up cs && s.bit (Fd.SYS_CORECTL_RUN (s1.lead c)) then (s1.each cs State.releaseCore).released cs else s

/-- DOMAIN_WAKE_DONE (R478, R480, R210): the domain is reset and ON; a core is released; a waiting down request acts. -/
def State.wakeDone (s : State) (d : Nat) : State :=
  if s.domState d ≠ dWAKE then s
  else
    let s1 := (s.resetBlocks (domBlocks d)).put (Fd.PWR_STATE_STATE d) dON
    let s2 := if d = 13 then ({ s1 with jnc := { ports := s1.jnc.ports, udpIp := s1.jnc.udpIp, udpPort := s1.jnc.udpPort } }).setReady rJNC else s1
    let s3 := if 4 ≤ d && d < 8 then s2.gatedRelease d else s2
    if (vget s3.pwr d).downWanted then (s3.modDom d fun x => { x with downWanted := false }).powerDown d else s3

/-! ### Platform faults (R165, R494 to R498, R557) -/

/-- WATCHDOG_KICK (R494): the key restarts the period; any other value counts as a missed deadline, which resets the platform
pair: a watchdog reset is a platform-pair reset too, so counters 4 and 5 count it (R499). -/
def State.wdogMiss (s : State) : State := (((s.flag Fd.SYS_FLTSUM_WATCHDOG).countBay 0 5)).pairReset

def State.wdogKick (s : State) (v : Word) : State :=
  if v = 0x00C0FFEE then s.modFw fun f => { f with kick := s.runNs } else s.wdogMiss

/-- WATCHDOG_EXPIRY (R494): no kick within WDOG_MS; suspended while SC0/SC1 are halted (R512). -/
def State.wdogExpiry (s : State) : State :=
  if s.coreState 0 = 3 || s.runNs < s.fw.kick + s.get Fd.SYS_WDOGCFG_WDOG_MS * 1000000 then s else s.wdogMiss

/-- LOCKSTEP_MISMATCH of a pair (0: SC0/SC1, 1: SC2/SC3, 2: SC4/SC5; R165). -/
def State.mismatch (s : State) (pair : Nat) : State :=
  if !s.locked (2 * pair) || s.coreState (2 * pair) = 0 then s
  else if pair = 0 then (s.flag Fd.SYS_PAIR_MISMATCH_01).pairResetCounted
  else
    let s1 := s.flag (if pair = 1 then Fd.SYS_PAIR_MISMATCH_23 else Fd.SYS_PAIR_MISMATCH_45)
    let b := (s.core (2 * pair)).bay.toNat
    let s2 := ((s1.holdCore (2 * pair)).holdCore (2 * pair + 1)).bayFault b 1
    if s2.coreState (2 * pair) = 0 && s2.unitShared b then
      ((s2.sampleLock (2 * pair)).each [2 * pair, 2 * pair + 1] fun s c => (s.releaseCore c).put (Fd.SYS_CORECTL_STATE c) 2) else s2

/-- TEMP_SENSOR_READ (R557): the hottest reading as SYS_TEMP codes it; ALARM sets at the threshold. -/
def State.tempRead (s : State) (t : BitVec 16) : State :=
  let v := t.toInt
  let s1 := s.put Fd.SYS_TEMP_TEMP t.toNat
  let s2 := if s1.getI Fd.SYS_TEMPMAX_MAX < v then s1.put Fd.SYS_TEMPMAX_MAX t.toNat else s1
  if v < s2.getI Fd.SYS_TEMPALM_THRESH then s2
  else
    let s3 := s2.flag Fd.SYS_TEMP_ALARM
    if s2.bit Fd.SYS_TEMP_ALARM then s3 else s3.post 0 0x03D0 (natLe 2 t.toNat)

/-- FAULT_SUMMARY_REPORT: to bay 0 when a bit of SYS_FLTSUM has set (R498). -/
def State.faultReport (s : State) : State :=
  let w := s.reg Reg.SYS_FLTSUM
  let new := w &&& ~~~ s.fw.fltSeen
  let s1 := s.modFw fun f => { f with fltSeen := w }
  if new = 0 then s1 else s1.post 0 0x03C2 (natLe 2 w.toNat)

/-- CORE_RUN_CONTROL (R161, R163): RUN releases a bay core or holds it; a locked pair's higher core has no control of its own. A write while
the core's power domain is not ON is ignored (DESIGN CHOICE, log entry 29). -/
def State.runControl (s : State) (c : Nat) (on : Bool) : State :=
  if c < 2 || !s.domOn (c + 2) then s
  else if on then
    let s1 := s.sampleLock c
    if s1.follows c || s.coreState c ≠ 0 then s
    else
      let s2 := (s1.put (Fd.SYS_CORECTL_RUN c) 1).releaseCore c
      (if s2.locked c then s2.releaseCore (c + 1) else s2).released [c]
  else if s.follows c then s
  else
    let s1 := (s.holdCore c).put (Fd.SYS_CORECTL_RUN c) 0
    if s.locked c then s1.holdCore (c + 1) else s1

/-- SYS_REMAP_SWAP (R160): SWAP stays set until the next reset of the always-on domain. -/
def State.remapSwap (s : State) : State := s.put Fd.SYS_REMAP_SWAP 1

end Sys2Proof.Machine
end

