-- ==== Sys2Proof/Machine/RegIO.lean ====
section
/-! DEFINITION. Register reads and writes as a path makes them (R6 to R11, R196, R197, R482), with the effects that single registers
have: latches, pops, requests, the virtual terminal and the trace RAM port. -/

namespace Sys2Proof.Machine

/-! ### Virtual terminal (R515) -/

def State.modVt (s : State) (i : Nat) (f : Vt → Vt) : State := { s with dbg := { s.dbg with vt := vmod s.dbg.vt i f } }

/-- ENABLED: the core is out of reset at an enabled debug level. -/
def State.vtOn (s : State) (c : Nat) : Bool := s.coreState c ≠ 0 && s.levelEnabled c false

/-- A core writes SCC_VTOUT. -/
def State.vtOut (s : State) (c : Nat) (b : Byte) : State :=
  let i := s.lead c
  if !s.vtOn i then s
  else if (vget s.dbg.vt i).out.length ≥ 16 then s.bump (Fd.DBG_STAT_VT_LOST i)
  else s.modVt i fun v => { v with out := v.out ++ [b] }

/-- What a core reads from SCC_VTOUT: FULL and ENABLED. -/
def State.vtStatus (s : State) (c : Nat) : Word :=
  BitVec.ofNat 32 (b2n ((vget s.dbg.vt (s.lead c)).out.length ≥ 16) + 2 * b2n (s.vtOn (s.lead c)))

/-- A core reads SCC_VTIN: VALID and the byte, popped. -/
def State.vtIn (s : State) (c : Nat) : Word × State :=
  let i := s.lead c
  match (vget s.dbg.vt i).inp with
  | [] => (0, s)
  | b :: t => if s.vtOn i then (BitVec.ofNat 32 (256 + b.toNat), s.modVt i fun v => { v with inp := t }) else (0, s)

/-- The debugger reads DBG_VTOUTn. -/
def State.vtPop (s : State) (n : Nat) : Word × State :=
  match (vget s.dbg.vt n).out with
  | [] => (0, s)
  | b :: t => if s.vtOn n then (BitVec.ofNat 32 (256 + b.toNat), s.modVt n fun v => { v with out := t }) else (0, s)

/-- The debugger writes DBG_VTINn. -/
def State.vtPush (s : State) (n : Nat) (b : Byte) : State :=
  if !s.vtOn n then s
  else if (vget s.dbg.vt n).inp.length ≥ 16 then s.bump (Fd.DBG_STAT_VT_LOST n)
  else s.modVt n fun v => { v with inp := v.inp ++ [b] }

/-- Write SCC_BAY: both terminal FIFOs empty at a change, and trace tells the bay (R162, R515, R517). -/
def State.setBay (s : State) (c : Nat) (b : BitVec 3) : State :=
  if (s.core c).bay = b then s
  else
    let s1 := (s.each (s.mates c) fun s i => s.modCore i fun k => { k with bay := b }).modVt (s.lead c) fun _ => {}
    if (s1.src (s.lead c)).on && s1.tracing (s.lead c) then s1.packet (s.lead c) [BitVec.ofNat 8 (0x30 + b.toNat)] else s1.traceSync (s.lead c)

/-! ### Trace RAM port and group requests (R513, R514, R522) -/

/-- A read of TRC_RDATA: the word at TRC_RADDR, which increments. -/
def State.traceRead (s : State) : Word × State :=
  let w := s.get Fd.TRC_RADDR_WORD
  (BitVec.ofNat 32 (leNat (readBytes zeroByte s.dbg.ram (4 * w) 4)), s.put Fd.TRC_RADDR_WORD (w + 1))

/-- XTR_RESUME: every halted member of each named group resumes at once. -/
def State.resumeGroups (s : State) (m : Nat) : State :=
  s.each ((List.range 6).filter fun c => (List.range 8).any fun g => bitAt m g && bitAt (s.grpField g 21 16) c) State.resumeCore

/-- DBG_CTLn written: settings, the halt request, and a resume (R507, R510). -/
def State.dbgCtl (s : State) (n : Nat) (w : Word) : State :=
  let s1 := (((((s.putB (Fd.DBG_CTL_STOPCNT n) (w.getLsbD 5)).putB (Fd.DBG_CTL_HALT_ON_RESET n) (w.getLsbD 4)).putB (Fd.DBG_CTL_STEP_IRQ n)
    (w.getLsbD 3)).putB (Fd.DBG_CTL_STEP n) (w.getLsbD 2)).putB (Fd.DBG_CTL_HALT_REQ n) (w.getLsbD 0)).showPending n
  if w.getLsbD 1 then s1.resumeCore n else s1

/-- DBG_FEEDn written: the word waits to be executed; FEED_BUSY discards it, a core that is not halted refuses it (R509). -/
def State.dbgFeed (s : State) (n : Nat) (w : Word) : State :=
  if s.bit (Fd.DBG_STAT_FEED_BUSY n) then s
  else if s.coreState n ≠ 3 then s.put (Fd.DBG_STAT_FEED_ERR n) 1
  else ({ s with dbg := { s.dbg with feed := vmod s.dbg.feed n fun _ => some w } }.put (Fd.DBG_STAT_FEED_BUSY n) 1).put (Fd.DBG_STAT_FEED_ERR n) 0

/-! ### Reading -/

/-- Low and high words of a 48-bit position, whose sign bits 31:16 of the high word extend. -/
def posLo (z : Int) : Word := BitVec.ofInt 32 z
def posHi (z : Int) : Word := BitVec.ofNat 32 (unsigned 64 (wrap48 z) / 2 ^ 32)

/-- A register whose value the model computes: FGE_MEASURE, TME, ODO positions, SE_STATUS, TSN_GATE, VXM_DSTAT, PWM_STAT. -/
def State.view (s : State) (a : Nat) : Word :=
  if a = Reg.FGE_MEASURE_LO then BitVec.ofNat 32 s.fig.measure
  else if a = Reg.FGE_MEASURE_HI then s.fig.measureHi
  else if a = Reg.TME_SEC_LO then BitVec.ofNat 32 s.sec
  else if a = Reg.TME_SEC_HI then s.tme.latHi
  else if a = Reg.TME_NS then s.tme.latNs
  else if a = Reg.TME_FRAC then s.tme.latFrac
  else if a = Reg.ODO_POS_LO then posLo s.unitPos
  else if a = Reg.ODO_POS_HI then s.odo.latPos
  else if a = Reg.ODO_OFFSET_LO then posLo s.odo.offset
  else if a = Reg.ODO_OFFSET_HI then s.odo.latOfs
  else match (List.range 4).find? (fun i => a = Reg.ODO_AXPOS_LO i || a = Reg.ODO_AXPOS_HI i || a = Reg.SE_STATUS i || a = Reg.TSN_GATE i) with
    | some i =>
      if a = Reg.ODO_AXPOS_LO i then posLo (s.axPos i)
      else if a = Reg.ODO_AXPOS_HI i then vget s.odo.latAx i
      else if a = Reg.TSN_GATE i then BitVec.ofNat 32 (s.gateState i)
      else
        let busy := s.fig.runs.any (·.engine = i)
        let issue := busy && s.clk.now ≤ vget s.fig.seRead i
        let drain := busy && ((vget s.fig.seRead i < s.clk.now && s.clk.now ≤ vget s.fig.seWrite i) || s.clk.now ≤ vget s.fig.seTail i)
        BitVec.ofNat 32 (if issue || drain then 256 * vget s.fig.seBay i + 2 * b2n drain + b2n issue else 0)
    | none => s.reg a

/-- The latches that a read of a low word sets (R41, R365, R407). -/
def State.latchRead (s : State) (a : Nat) : State :=
  if a = Reg.FGE_MEASURE_LO then s.modFig fun f => { f with measureHi := BitVec.ofNat 32 (f.measure / 2 ^ 32) }
  else if a = Reg.TME_SEC_LO then
    { s with tme := { s.tme with
      latHi := BitVec.ofNat 32 (s.sec / 2 ^ 32 % 65536), latNs := BitVec.ofNat 32 s.nsInSec, latFrac := BitVec.ofNat 32 (s.tme.t % 2 ^ 48 / 2 ^ 32) } }
  else if a = Reg.ODO_POS_LO then { s with odo := { s.odo with latPos := posHi s.unitPos } }
  else if a = Reg.ODO_OFFSET_LO then { s with odo := { s.odo with latOfs := posHi s.odo.offset } }
  else match (List.range 4).find? fun i => a = Reg.ODO_AXPOS_LO i with
    | some i => { s with odo := { s.odo with latAx := vmod s.odo.latAx i fun _ => posHi (s.axPos i) } }
    | none => s

/-- Bring the registers of one index that show what other state says up to date: VXM_DSTATd, PWM_STATc. -/
def State.showReg (s : State) (a : Nat) : State :=
  match (List.range 48).find? fun d => a = Reg.VXM_DSTAT d with
  | some d => s.showDest d
  | none =>
    match (List.range 12).find? fun c => a = Reg.PWM_STAT c with
    | some c => (s.putB (Fd.PWM_STAT_H_ON c) (s.pwmOn c).1).putB (Fd.PWM_STAT_L_ON c) (s.pwmOn c).2
    | none => s

/-- Read the register at `a`, which the path may read and whose domain is up. -/
def State.readWord (s : State) (a : Nat) : Word × State :=
  match ringArea a with
  | some (r, o) => (s.ringRead r o, s)
  | none =>
    if a = Reg.TRC_RDATA then s.traceRead
    else match (List.range 8).find? fun n => a = Reg.PEG_DQ n with
      | some n => s.popDq n
      | none =>
        match (List.range 6).find? fun n => a = Reg.DBG_VTOUT n || a = Reg.DBG_VTIN n with
        | some n =>
          if a = Reg.DBG_VTOUT n then s.vtPop n
          else (BitVec.ofNat 32 (256 * b2n ((vget s.dbg.vt n).inp.length ≥ 16)), s)
        | none =>
          let s1 := s.showReg a
          (s1.view a, s1.latchRead a)

/-- Bay `b`'s own ring area holds address `a` (R240). -/
def ownRing (b a : Nat) : Bool := match ringArea a with | some (r, _) => r = b | none => false

/-- Function `fn` may read the register at `a` through BAR0: its table lists H and, for a VF, R197 allows it to its bay (R216). Ring
slots and MBX_IRQ are none such. A reserved offset of a listed block reads 0, as R10 says of every path (DEDUCED, log entry 51). -/
def State.hostReads (s : State) (fn a : Nat) : Bool :=
  match findReg a with
  | some (f, _) => f.host && (fn = 8 || ownRing fn a || s.bayReads fn none a)
  | none => (ringArea a).isNone

/-- An access that the path may not make: counted for a bay core or a VF (R198). -/
def State.denied (s : State) (p : Path) (a : Nat) : State :=
  match p with
  | .bay b _ => s.violation b a 0
  | .host fn => if fn.val < 8 then s.violation fn.val a 1 else s
  | .fw | .tap => s

/-- A register read on a path: its word, or none for an error response (R7, R10, R197, R482, R501). -/
def State.regRead (s : State) (p : Path) (a : Nat) : Option Word × State :=
  if a % 4 ≠ 0 || !listedBlocks.contains (a / 65536) then (none, s)
  else
    let denied : Bool := match p with
      | .fw => false
      | .bay b c => !ownRing b a && !s.bayReads b (some c) a
      | .tap => !dbgBlocks.contains (a / 65536)
      | .host fn => !s.hostReads fn.val a
    if denied then (none, s.denied p a)
    else if !s.domOn (blockDomain (a / 65536)) then (none, s.countDown)
    else
      let (w, s1) := s.readWord a
      (some w, s1)

/-! ### Writing -/

/-- The fields that a path may write of a register's table (R8, R197, R502). -/
def pathFields (p : Path) (f : Family) : List FieldSpec :=
  match p with
  | .fw | .host _ => f.fields
  | .bay _ _ => bayFields f
  | .tap => f.fields.filter fun x => !x.fOnly

/-- Plain write of a register through its field access codes. -/
def State.plainWrite (s : State) (p : Path) (a : Nat) (w : Word) : State :=
  match findReg a with
  | some (f, _) => s.writeFields a (pathFields p f) w
  | none => s

/-- A write to a register of the debug domain. -/
def State.writeDebug (s : State) (p : Path) (a : Nat) (w : Word) : State :=
  if a = Reg.XTR_FIRE then s.fireGroups (w.toNat % 256)
  else if a = Reg.XTR_RESUME then s.resumeGroups (w.toNat % 256)
  else match (List.range 6).find? (fun n => Reg.DBG_CTL n ≤ a && a < Reg.DBG_CTL n + 0x40) with
    | some n =>
      if (findReg a).isNone then s
      else if a = Reg.DBG_CTL n then s.dbgCtl n w
      else if a = Reg.DBG_FEED n then s.dbgFeed n w
      else if a = Reg.DBG_VTIN n then s.vtPush n (w.setWidth 8)
      else if a = Reg.DBG_PC n then (if s.coreState n = 3 then s.plainWrite p a w else s)
      else if a = Reg.DBG_EN n then (s.plainWrite p a w).enablesEnded
      else ((s.flushFrame n).plainWrite p a w).traceSync n
    | none => (s.plainWrite p a w).each (List.range 6) State.traceSync

/-- The requests that the bank port and the DDR port hold, or whose accesses are in flight. -/
def State.portReqs (s : State) : List BusReq :=
  (s.field.head.map (·.req)).toList ++ (s.ddrCtl.heads.map (·.req) ++ s.ddrCtl.flight.map (·.req)).foldl
    (fun l r => if l.any (·.id = r.id) then l else l ++ [r]) []

/-- PWR_RESET.STATIC: the static reset, with an error response to every request that it finds at the ports (DESIGN CHOICE, log entry 61). -/
def State.staticRestart (s : State) : State := s.staticReset.each s.portReqs fun s r => s.busAnswer r none

/-- A write to a register of the always-on start-up, power and clock blocks with an effect beyond its fields. -/
def State.writeSystem (s : State) (p : Path) (a : Nat) (w : Word) : State :=
  if a = Reg.SYS_WDOG then s.wdogKick w
  else if a = Reg.SYS_FLTSUM then
    let s1 := s.plainWrite p a w
    s1.modFw fun f => { f with fltSeen := f.fltSeen &&& s1.reg Reg.SYS_FLTSUM }
  else if a = Reg.PWR_REQ then (if w.getLsbD 8 then s.powerUp (w.toNat % 16) else s.powerDown (w.toNat % 16))
  else if a = Reg.PWR_RESET then (if w.getLsbD 0 then s.sysReset 2 10000 else if w.getLsbD 1 then s.staticRestart else s)
  else match (List.range 6).find? fun c => a = Reg.SYS_CORECTL c with
    | some c => s.runControl c (w.getLsbD 0)
    | none => s.plainWrite p a w

/-- A write to a per-bay request register: PEG_REQn, PCI_RAISEn, CRY_GOb. -/
def State.writeRequest (s : State) (p : Path) (a : Nat) (w : Word) : State :=
  match (List.range 8).find? (fun n => a = Reg.PEG_REQ n || a = Reg.PCI_RAISE n || a = Reg.CRY_GO n) with
  | some n =>
    if a = Reg.PEG_REQ n then s.pegDevice n w
    else if a = Reg.PCI_RAISE n then s.raise n w
    else if w.getLsbD 0 then s.cryGo n else s
  | none => s.plainWrite p a w

/-- Write the register at `a`, which the path may write and whose domain is up. -/
def State.writeWord (s : State) (p : Path) (a : Nat) (w : Word) : State :=
  match ringArea a with
  | some (r, o) => (match p with
    | .fw => s.ringWriteF r o w
    | .bay _ _ => s.ringWrite r o false w
    | .tap | .host _ => s)
  | none =>
    let b := a / 65536
    if dbgBlocks.contains b then s.writeDebug p a w
    else if b = 0x4000 || b = 0x4001 then s.writeSystem p a w
    else if b = 0x4021 || b = 0x4023 || b = 0x4051 then s.writeRequest p a w
    else if b = 0x4003 || b = 0x4005 || b = 0x4006 then State.written s (s.plainWrite p a w) a
    else if a = Reg.DDR_CFG && s.ddrCtl.training then s
    else if a = Reg.MBX_CFG 0 then s
    else s.plainWrite p a w

/-! ### BAR2 (R217, R218, R457) -/

/-- Pending vectors of function `n` that may be sent now are sent (PCI; R218). -/
def State.msixFlush (s : State) (n : Nat) : State :=
  s.each (List.range 64) fun s v =>
    if (vget s.pcie.fns n).pend.getLsbD v && s.msixOpen n v then
      (s.modFn n fun f => { f with pend := f.pend &&& ~~~ (1#64 <<< v) }).emit (.msix n v)
    else s

/-- A host read at BAR2 offset `o` of function `n` (8 is the PF): its word, or none for a Completer Abort. Before MBX sets, the peg
offsets read 0 but for PEG_STATE (R217, R230, R240, R241, R474). -/
def State.bar2Read (s : State) (n o : Nat) : Option Word × State :=
  if o % 4 ≠ 0 then (none, s.bump Fd.PCI_ERR_BAD_ACCESS)
  else if o < 0x2000 then (some (s.ringRead n o), s)
  else if n < 8 && o < 0x2400 then (some (s.reg (Reg.PEG_STATE n ((o - 0x2000) / 4))), s)
  else if n < 8 && o = 0x2408 then
    let (w, s1) := s.popHq n
    (some w, s1)
  else if n < 8 && o = 0x240C then (some (s.reg (Reg.PEG_FSTAT n)), s)
  else if 0x3000 ≤ o && o < 0x3400 then (some (sget msixReset (vget s.pcie.fns n).msix ((o - 0x3000) / 4)), s)
  else if o = 0x3800 || o = 0x3804 then (some (BitVec.ofNat 32 ((vget s.pcie.fns n).pend.toNat / 2 ^ (8 * (o - 0x3800)))), s)
  else (some 0, s)

/-- A host write of `w` at BAR2 offset `o` of function `n` (8 is the PF). While boot ROM takes an image or a record from the host, the
PF's ring slots and length word are its buffer (R457, R475). -/
def State.bar2Write (s : State) (n o : Nat) (w : Word) : State :=
  let boot := n = 8 && (s.fw.hostPhase = 1 || s.fw.hostPhase = 2)
  if o % 4 ≠ 0 then s.bump Fd.PCI_ERR_BAD_ACCESS
  else if boot && o ≤ 0x1800 then s.modRing 8 fun q => { q with mem := writeBytes zeroByte (natLe 4 w.toNat) o q.mem }
  else if boot && o = 0x1818 then s.hostChunk
  else if o < 0x2000 then s.ringWrite n o true w
  else if o = 0x2400 && n < 8 then s.pegHost n w
  else if 0x3000 ≤ o && o < 0x3400 then
    (s.modFn n fun f => { f with msix := sset msixReset ((o - 0x3000) / 4) w f.msix }).msixFlush n
  else s

/-- Function `fn` has accesses under way, behind which its next ones wait (R229). -/
def State.hostBehind (s : State) (fn : Nat) : Bool := s.pcie.asks.any (·.fn = fn)

def State.pushAsk (s : State) (q : HostAsk) : State := { s with pcie := { s.pcie with asks := s.pcie.asks ++ [q] } }

/-- A host write at BAR2 offset `o`, behind the window accesses that the function made before (R229). -/
def State.hostWrite (s : State) (fn o : Nat) (w : Word) : State :=
  if s.hostBehind fn then s.pushAsk { fn := fn, op := .bar2Write o w } else s.bar2Write fn o w

/-- A register write on a path: false is an error response (R7, R10, R197, R482, R501). -/
def State.regWrite (s : State) (p : Path) (a : Nat) (w : Word) : Bool × State :=
  if let .host fn := p then (true, s.hostWrite fn.val a w)
  else if a % 4 ≠ 0 || !listedBlocks.contains (a / 65536) then (false, s)
  else
    let denied : Bool := match p with
      | .fw => false
      | .bay b c => !ownRing b a && !s.bayWrites b (some c) a
      | .tap => !dbgBlocks.contains (a / 65536) || (match findReg a with
        | some (f, _) => f.fields.all fun x => x.acc = .ro || x.fOnly
        | none => true)
      | .host _ => false
    if denied then (false, s.denied p a)
    else if !s.domOn (blockDomain (a / 65536)) then (false, s.countDown)
    else (true, s.writeWord p a w)

end Sys2Proof.Machine
end

