-- ==== Sys2Proof/Machine/Matrix.lean ====
section
/-! DEFINITION. The bus matrix at work (05, 06): requests of every master, grants, and what a granted request does at boot ROM, working SRAM,
the ports and the register blocks. -/

namespace Sys2Proof.Machine

/-! ### Masters and requests (R156) -/

/-- The core that makes an access on a path. -/
def pathCore : Path → Option Nat
  | .fw => some 0
  | .bay _ c => some c
  | .tap | .host _ => none

/-- The bus master that core `c` is: a locked pair goes by its lower core (R156). -/
def State.masterOf (s : State) (c : Nat) : Nat := if c < 2 then 0 else s.lead c - 1

/-- The bus master of a path. -/
def State.pathMaster (s : State) : Path → Nat
  | .fw => 0
  | .bay _ c => s.masterOf c
  | .tap => 7
  | .host _ => 5

/-- The request of a register access on a path: a read, or a write of `w`. -/
def State.regReq (s : State) (ask : Asker) (p : Path) (a : Nat) (w : Option Word) : BusReq :=
  { master := s.pathMaster p, core := (pathCore p).getD 7, level := .f, path := p, target := (Place.reg a).target, addr := a, key := a
    data := (w.map fun v => natLe 4 v.toNat).getD [], since := s.clk.now, ask := ask, read := if w.isSome then 0 else 4 }

/-- The error answer on a path: Completer Abort to the host, else an error response. -/
def State.denyOut (s : State) (p : Path) : State := match p with | .host fn => s.abortTo fn.val | _ => s.emit .error

/-! ### Grants (R157) -/

/-- A granted access to a register is made, and its answer goes to who awaits it: to a core's instruction, out of the block, into the TAP's
data register, or to nobody. -/
def State.deliverReg (s : State) (r : BusReq) : State :=
  let v := BitVec.ofNat 32 (leNat r.data)
  if r.ask = .peg then s.pegDevice ((r.addr - Reg.PEG_REQ 0) / (Reg.PEG_REQ 1 - Reg.PEG_REQ 0)) v
  else
    let (res, s1) : Option (List Byte) × State :=
      if r.read ≠ 0 then
        let (w, s1) := s.regRead r.path r.addr
        (w.map fun x => natLe 4 x.toNat, s1)
      else
        let (ok, s1) := s.regWrite r.path r.addr v
        (if ok then some [] else none, s1)
    match r.ask with
    | .row =>
      match res with
      | none => s1.denyOut r.path
      | some l => if r.read ≠ 0 then s1.emit (.word (BitVec.ofNat 32 (leNat l))) else s1
    | .tap => { s1 with dbg := { s1.dbg with accBusy := false, accErr := res.isNone
                                             accData := if r.read ≠ 0 && res.isSome then BitVec.ofNat 32 (leNat (res.getD [])) else s1.dbg.accData } }
    | _ => s1.busAnswer r res

/-- Hand a granted request to its target: the bank port takes it as its head and the DDR port behind those it has, and answers with an error
while LPDDR5X is not trained (R155); boot ROM, working SRAM and the register blocks serve it. A write to boot ROM and an access to an unmapped
address get an error response. -/
def State.deliver (s : State) (r : BusReq) : State :=
  match (if r.ask = .row || r.ask = .tap || r.ask = .peg then .reg r.key else keyPlace r.key) with
  | .bkf o => s.modField fun f => { f with head := some { req := { r with addr := o }, since := s.clk.now } }
  | .ddr _ =>
    if !s.bit Fd.DDR_STAT_TRAINED then s.busAnswer r none
    else s.modDdr fun d => { d with heads := d.heads ++ [{ req := r, since := s.clk.now }] }
  | .reg _ => s.deliverReg r
  | p =>
    if r.read ≠ 0 then
      let (l, s1) := s.readPlace p r.read
      s1.busAnswer r l
    else if r.ask = .sc then
      let (res, s1) := s.scMake r r.key r.data
      s1.busAnswer r res
    else
      let (ok, s1) := s.writePlace (some r.core) p r.data
      s1.busAnswer r (if ok then some [] else none)

/-- BUS_MATRIX_GRANT at target `t`: one request a CCLK cycle; the bank port takes a new head only after the one before has completed (R141,
R157). -/
def State.busGrant (s : State) (t : Nat) : State :=
  if !s.canTake t then s
  else match s.grantCycle t, s.busPick t with
    | some c, some r =>
      (s.modBxm fun b => { b with reqs := headSince r.master t s.clk.now (dropReq r b.reqs), ptr := vmod b.ptr t fun _ => r.master
                                  grantFrom := vmod b.grantFrom t fun _ => c + 1 }).deliver
        (if t = 2 || t = 3 then { r with since := s.clk.now } else r)
    | _, _ => s

/-- A request comes to the bus matrix. A target other than the two ports that can grant in the present step and would pick it grants it at
once; any other request waits for a grant (DESIGN CHOICE, log entry 10). -/
def State.request (s : State) (r : BusReq) : State :=
  let s1 := s.busPost r
  if r.target = 2 || r.target = 3 then s1
  else s1.when (s1.busPick r.target = some { r with id := s.bxm.next }) fun s => s.busGrant r.target

/-! ### Register accesses behind stores (R169, R171, R229) -/

/-- Requests of the cores `cs` that have had no answer yet, by number. -/
def State.earlier (s : State) (cs : List Nat) : List Nat := (s.allReqs.filter fun r => cs.contains r.core).map (·.id)

/-- A register access that comes after the accesses `ids`: it is held until they have completed. -/
def State.requestAfter (s : State) (ids : List Nat) (r : BusReq) : State :=
  if ids.isEmpty then s.request r else s.modBxm fun b => { b with held := b.held ++ [(ids, r)] }

/-- Held accesses whose time has come go to the bus matrix. -/
def State.heldTick (s : State) : State :=
  if s.bxm.held.isEmpty then s
  else
    let live := s.allReqs.map (·.id)
    let open_ (e : List Nat × BusReq) : Bool := e.1.any live.contains
    (s.modBxm fun b => { b with held := b.held.filter open_ }).each (s.bxm.held.filter fun e => !open_ e) fun s e => s.request e.2

/-- The cores that serve bay `n`. -/
def State.bayCores (s : State) (n : Nat) : List Nat := (List.range 6).filter fun c => (s.core c).bay.toNat = n

/-- A device-side peg request of bay `n`: it takes effect once the stores that the bay's cores made before have completed (R226, R229). -/
def State.deviceRequest (s : State) (n : Nat) (w : Word) : State :=
  s.requestAfter (s.earlier (s.bayCores n)) (s.regReq .peg (.bay (Fin.ofNat 8 n) (Fin.ofNat 6 ((s.bayCores n).headD 0))) (Reg.PEG_REQ n) (some w))

end Sys2Proof.Machine
end

