-- ==== Sys2Proof/Machine/Boundary.lean ====
section
/-! DEFINITION. Measure boundaries (02): when a measure starts, the effects that take place at its boundary step in the order of R271,
bay states at a boundary (07), and the merge of R107. -/

namespace Sys2Proof.Machine

/-! ### Routes, scarfs and parts at a boundary (R77, R100, R272) -/

def routeOf (b : Nat) (e : RouteEnt) : Route := { source := e.source, replay := e.replay, profile := e.profile, bay := b }

/-- The route entries of bay `b`'s running part. -/
def State.partRoutes (s : State) (b : Nat) : List RouteEnt := match s.part b with | some p => p.routes | none => []

/-- Cancel the pending scarfs of bay `b` whose destination or source leaves its figure (R77): the destination has no feed. -/
def State.cancelScarfs (s : State) (b : Nat) (gone : Nat → Nat → Bool) : State :=
  let mine (d : Nat) (r : Route) : Bool := r.bay = b && gone d r.source
  let ds := (List.range 48).filter fun d =>
    ((s.dest d).pend.any fun p => mine d p.1) || s.fw.sched.any fun e => match e.eff with
      | .routeSet x r => x = d && mine x r && e.measure ≤ s.fig.measure
      | _ => false
  let s1 := s.modFw fun f => { f with sched := f.sched.filter fun e => match e.eff with
    | .routeSet x r => !(ds.contains x && mine x r && e.measure ≤ s.fig.measure)
    | _ => true }
  s1.each ds fun s d =>
    ((s.modDest d fun x => { x with pend := none, override := none, route := { x.route with source := 0xFF } }).showDest d).post b 0x0005 (natLe 1 d)

/-- Arm a route change of destination `d` at the present boundary: it waits for the destination's frame boundary (R31). A change that still
waits from an earlier measure is overtaken, and its command is done (DESIGN CHOICE, log entry 37). -/
def State.armRoute (s : State) (d : Nat) (r : Route) (o : Option Origin) : State :=
  let s1 := match (s.dest d).pend with
    | some (_, _, _, some x) => s.finish (some x) 0
    | _ => s
  (s1.modDest d fun x => { x with pend := some (r, s.fig.measure, some s.clk.now, o) }).showDest d

/-- The route of destination `x`, or the one armed for it, is bay `b`'s. -/
def Dest.of (x : Dest) (b : Nat) : Bool := x.route.bay = b || x.pend.any fun q => q.1.bay = b

/-- Bay `b`'s destinations after a commit: its entries govern again (R272), and what it no longer routes has no feed. What another bay has set
on a destination that has passed to this one overrides no entry of this one's part. -/
def State.commitRoutes (s : State) (b : Nat) (old new : List RouteEnt) : State :=
  let s1 := s.each (List.range 48) fun s d =>
    let x := s.dest d
    if x.of b && x.override.any (· < s.fig.measure) then (s.modDest d fun x => { x with override := none }).showDest d else s
  let s2 := s1.each new fun s e =>
    let x := s.dest e.dest
    if (x.of b && x.override.isSome) || (x.route = routeOf b e && x.pend.isNone) then s
    else (s.modDest e.dest fun x => { x with override := none }).armRoute e.dest (routeOf b e) none
  s2.each (old.filter fun e => !new.any fun n => n.dest = e.dest) fun s e =>
    let x := s.dest e.dest
    if x.route.bay = b && x.override.isNone then s.armRoute e.dest { x.route with source := 0xFF } none else s

/-- Bay `b`'s part leaves the figure with its pending scarfs (R77, R209). -/
def State.removePart (s : State) (b : Nat) : State := (s.dropPart b).cancelScarfs b fun _ _ => true

/-- The part committed for bay `b` takes effect (R72, R74, R77). `old` are the carries of the part before it. The route entries of a part
without actions are armed like any other's, though the bay leaves the figure (DESIGN CHOICE, log entry 37). -/
def State.takePart (s : State) (b : Nat) (p : Part) (old : List Carry) : State :=
  let was := s.partRoutes b
  let had (d src : Nat) : Bool := was.any (·.dest = d) && !p.routes.any (·.dest = d) ||
    (was.any (·.source = src) && !p.routes.any (·.source = src))
  ((((s.keepGates b).cancelScarfs b had).installPart b p old).commitRoutes b was p.routes).gateIntervals

/-! ### Bays at a boundary (R208 to R210, R484) -/

/-- Park the part of borrower `b` of a memory that goes (R208): a RUNNING bay falls asleep with it, as only ASLEEP has a parked part; that of a
CREATED one leaves the figure (DESIGN CHOICE, log entry 31). -/
def State.parkBorrower (s : State) (b : Nat) : State :=
  if s.bayState b = bCREATED then s.removePart b
  else if s.bayState b ≠ bRUNNING then s
  else
    let keep := (s.part b).map fun p => (p, vget s.fig.carry b)
    (((s.modBay b fun r => { r with parked := keep }).removePart b).leaveBay b).setBayState b bASLEEP

/-- Park bay `b`'s part with its carry state, stop its cores (R209). -/
def State.bayPark (s : State) (b : Nat) : State :=
  if s.bayState b ≠ bRUNNING then s
  else
    let keep := (s.part b).map fun p => (p, vget s.fig.carry b)
    (((s.modBay b fun r => { r with parked := keep }).removePart b).leaveBay b).setBayState b bASLEEP

/-- The core unit of bay `b` is powered. -/
def State.unitOn (s : State) (b : Nat) : Bool := (unitCores (s.bayRec b).coreUnit).all fun c => s.domOn (c + 2)

/-- Bay `b` becomes RUNNING and enters bay code with reason `g2`; unpowered cores do once they are (R481), and a
shared core unit does in the bay's slice (R199, R200). -/
def State.bayRun (s : State) (b g2 : Nat) : State :=
  let s1 := s.modBay b fun r => { r with reason := g2, waking := false, wakeAt := s.fig.measure }
  let s2 := if s1.unitShared b then s1.modBay b fun r => { r with ctx := some (freshCtx r.entry g2) }
    else if s1.unitOn b then s1.enterBay b g2 else s1.each (unitCores (s.bayRec b).coreUnit) fun s c => s.powerUp (c + 2)
  s2.setBayState b bRUNNING

/-- The parts that run beside bay `b`'s in the figure now, with their carry regions. -/
def State.otherParts (s : State) (b : Nat) : List Load.Mate :=
  ((List.range 8).filter (· ≠ b)).filterMap fun x => (s.part x).map fun p => (p, vget s.fig.carry x)

/-- The loader's result for bay `b` (FGE_LOADn, FGE_LOAD_OFSn, FGE_LOAD_LOCn). -/
def State.loadResult (s : State) (b : Nat) (f : Option Load.Fail) : State :=
  let x := f.getD ⟨0, 0, 0, 0⟩
  (((s.put (Fd.FGE_LOAD_CODE b) x.code).put (Fd.FGE_LOAD_OFS_OFFSET b) x.ofs).put (Fd.FGE_LOAD_LOC_RESOURCE b) x.res).put (Fd.FGE_LOAD_LOC_STEP b) x.step

/-- Bay `b` wakes (R210): its parked part is re-committed unless a check of R71 fails for it beside the parts that will run at this
measure, the commits for it among them. -/
def State.bayWake (s : State) (b : Nat) (o : Option Origin) : State :=
  if s.bayState b ≠ bASLEEP then (s.modBay b fun r => { r with waking := false }).finish o 0
  else
    let s1 := s.modBay b fun r => { r with parked := none }
    match (s.bayRec b).parked with
    | none => (s1.bayRun b 1).finish o 0
    | some (p, old) =>
      match Load.commitChecks s b (Load.mateOf p old) (s.partsDue b) with
      | none => ((s1.takePart b p old).bayRun b 1).finish o 0
      | some f => ((s1.loadResult b (some f)).bayRun b 4).finish o f.code

/-- FAULTED to RUNNING without a part (R207). -/
def State.bayResume (s : State) (b : Nat) : State := if s.bayState b = bFAULTED then s.bayRun b 2 else s

/-- The inbound endpoints that a part of bay `b` serves. -/
def inEnds (b : Nat) (p : Option Part) : List Nat :=
  match p with
  | some p => ((p.acts.filter (·.kind = 1)).map fun a => inKey b a.res).eraseDups
  | none => []

/-- Drain bay `b`'s endpoints, those of its part, `mine`, among them (R484). -/
def State.drainBay (s : State) (b : Nat) (mine : List Nat) : State :=
  let s1 := s.each (List.range 32) fun s i =>
    let p := i / 8
    let c := i % 8
    if s.ownsClass b p c then
      (s.modClass p c fun q => { q with tx := [] }).bump (Fd.TSN_DROP_TX_FULL p) (s.netClass p c).tx.length
    else s
  let s2 := s1.each (List.range 4) fun s p =>
    let n := (List.range 8).foldl (fun n c => n + (vget (vget (s.macPort p).rx b).queues c).length) 0
    (s.modMac p fun m =>
      { m with rx := vmod m.rx b fun _ => {}, telegrams := m.telegrams.filter (·.2.bay ≠ b), sas := m.sas.filter (·.2.bay ≠ b) }).bump
      (Fd.TSN_DROP_RX_FULL p) n
  let s2 := s2.each (List.range 4) fun s p => s.when (mine.contains (0x1B8 + p)) fun s => s.modMac p fun m => { m with dma := [] }
  let s3 := s2.modNet fun n => { n with filters := n.filters.filter (·.2.bay ≠ b)
                                        flows := n.flows.mapIdx fun f q => if s.flowOn f && s.flow f 1 = b then [] else q }
  let s4 := (s3.each mine fun s e => s.modEnd e fun _ => {}).dropJob b
  s4.each (List.range 4) fun s i => if (s.seal_ i).active && (s.seal_ i).bay = b then s.sealFail i else s

/-- Zeroise bay `b`'s key slots (R208). -/
def State.zeroKeys (s : State) (b : Nat) : State :=
  (s.each (List.range 64) fun s n =>
    if s.keyType n ≠ 0xF && s.keyOwner n = b then s.clearKey n else s).savePersist true

/-- Set every peg of bay `b` to IDLE. -/
def State.idlePegs (s : State) (b : Nat) : State :=
  let s1 := s.each (List.range 256) fun s k => if s.reg (Reg.PEG_STATE b k) = 0 then s else s.setReg (Reg.PEG_STATE b k) 0
  ({ s1 with pcie := { s1.pcie with hq := vmod s1.pcie.hq b fun _ => [], dq := vmod s1.pcie.dq b fun _ => []
                                    hqLost := vmod s1.pcie.hqLost b fun _ => false, dqLost := vmod s1.pcie.dqLost b fun _ => false } }).dqPending b

/-- A share ends; both bays are told (R203). -/
def State.endShare (s : State) (i : Nat) : State :=
  match vget s.fw.shares i with
  | none => s
  | some h =>
    let arg := natLe 1 i ++ natLe 1 h.owner ++ natLe 1 h.borrower
    ((s.modFw fun f => { f with shares := vmod f.shares i fun _ => none }).post h.owner 0x0008 arg).post h.borrower 0x0008 arg

/-- An effect that concerns bay `b`. -/
def Effect.ofBay (b : Nat) : Effect → Bool
  | .grantPhase x _ _ _ | .grantPorts x _ _ | .grantNet x _ _ | .grantKeys x _ | .bayPark x | .bayWake x | .bayResume x
  | .partRemove x | .commit x | .sealStart x _ _ _ _ | .bayDelete x _ => x = b
  | .routeSet _ r => r.bay = b
  | .shareMake _ h => h.owner = b || h.borrower = b
  | .shareRevoke _ | .layerCommit _ _ | .audRoute _ _ _ | .sealStop _ => false

/-- BAY_DELETE at its boundary (R208): steps 1 to 4 at once; the zeroing ends with BAY_ZEROING_DONE. -/
def State.bayDelete (s : State) (b : Nat) (force : Bool) (o : Option Origin) : State :=
  let lent := (List.range 16).filter fun i => match vget s.fw.shares i with
    | some h => h.owner = b || h.borrower = b
    | none => false
  let parks := if force then (s.shares.filter fun h => h.memory && h.owner = b).map (·.borrower) else []
  let s1 := (((s.removePart b).leaveBay b).drainBay b (inEnds b (s.part b))).each parks.eraseDups State.parkBorrower
  let s2 := ((s1.zeroKeys b).idlePegs b).each lent State.endShare
  let s3 := s2.modFig fun f =>
    { f with staged := vmod f.staged b fun _ => none, commits := f.commits.filter (·.1 ≠ b) }
  let s4 := (s3.putB ⟨Reg.FGE_STATUS, 16 + b, 16 + b⟩ false).putB ⟨Reg.FGE_STATUS, 24 + b, 24 + b⟩ false
  let s5 := s4.modFw fun f => { f with sched := f.sched.filter fun e => !e.eff.ofBay b }
  (s5.modBay b fun r => { r with parked := none, deleting := true, delBy := o }).setBayState b bDRAINING

/-- Slot `n` goes to bay `b` (R446): its tag, which covers the owner, is made again if it held (R447). -/
def State.moveSlot (s : State) (n b : Nat) : State :=
  let r := s.slotRec n
  let key := r.share ^^^ r.mask
  let s1 := s.put (Fd.KEY_SLOT_OWNER n) b
  if r.tag = s.tagOf n (s.keyType n) (s.keyUsage n) (s.keyOwner n) key then
    s1.modKeys fun k => { k with slots := vmod k.slots n fun q => { q with tag := s.tagOf n (s.keyType n) (s.keyUsage n) b key } }
  else s1

/-- A range of `n` bytes from `a` as one store holds it: its entries go, so that it reads zero. -/
def zeroRange {β : Type} (a n : Nat) (l : List (Nat × β)) : List (Nat × β) := l.filter fun p => !(a ≤ p.1 && p.1 < a + n)

/-- A request to a memory range of bay `b` has not reached it yet. -/
def State.rangeBusy (s : State) (b : Nat) : Bool :=
  s.allReqs.any fun r =>
    r.read = 0 && s.granted b (keyPlace r.key) r.len true

/-- BAY_ZEROING_DONE (R208): once the stores on their way to it have landed, the bay's memory reads zero, its grant is gone, and it is
EMPTY. -/
def State.zeroingDone (s : State) (b : Nat) : State :=
  if s.bayState b ≠ bDRAINING || s.rangeBusy b then s
  else
    let sr := (0x40000 + 4096 * s.get (Fd.BXM_SRAM_BASE b), 4096 * s.get (Fd.BXM_SRAM_LEN b))
    let bk := (65536 * s.get (Fd.BXM_BKF_BASE b), 65536 * s.get (Fd.BXM_BKF_LEN b))
    let dd := (16777216 * s.get (Fd.BXM_DDR_BASE b), 16777216 * s.get (Fd.BXM_DDR_LEN b))
    let s1 := { s with
      sram := zeroRange sr.1 sr.2 s.sram
      bkf := zeroRange bk.1 bk.2 s.bkf
      ddr := zeroRange dd.1 dd.2 s.ddr
      field := { s.field with ecc := zeroRange (bk.1 / 16) (bk.2 / 16) s.field.ecc
                              wb := s.field.wb.filter fun g => !(bk.1 / 16 ≤ g && g < bk.1 / 16 + bk.2 / 16) }
      ddrCtl := { s.ddrCtl with ecc := zeroRange (dd.1 / 8) (dd.2 / 8) s.ddrCtl.ecc } }
    let s2 := s1.each [Reg.BXM_SRAM b, Reg.BXM_BKF b, Reg.BXM_DDR b, Reg.FGE_ACT b, Reg.FGE_DESC b, Reg.PEG_WIN b] fun s a => s.setReg a 0
    let s3 := s2.each (List.range 48) fun s i =>
      let s1 := if s.destOwner i = b then s.put ⟨Reg.VXM_DOWN (i / 8), 4 * (i % 8) + 3, 4 * (i % 8)⟩ 0xF else s
      if s1.sourceOwner i = b then s1.put ⟨Reg.VXM_SOWN (i / 8), 4 * (i % 8) + 3, 4 * (i % 8)⟩ 0xF else s1
    let s4 := s3.each (List.range 64) fun s n => if s.keyOwner n = b then s.moveSlot n 0 else s
    let by_ := (s.bayRec b).delBy
    ((((s4.setBayState b bEMPTY).modBay b fun _ => {}).post 0 0x0009 (natLe 1 b))).finish by_ 0

/-! ### Grants and shares at a boundary (R191, R195, R203) -/

/-- The port sets of a bay become exactly these. -/
def State.grantPorts (s : State) (b sources dests : Nat) : State :=
  let one (s : State) (f : Fld) (on : Bool) : State := if on then s.put f b else if s.get f = b then s.put f 0xF else s
  s.each (List.range 48) fun s i =>
    one (one s ⟨Reg.VXM_SOWN (i / 8), 4 * (i % 8) + 3, 4 * (i % 8)⟩ (bitAt sources i)) ⟨Reg.VXM_DOWN (i / 8), 4 * (i % 8) + 3, 4 * (i % 8)⟩ (bitAt dests i)

/-- A bay's phase masks with resources `first` to `first + count − 1` set to `mask`. -/
def phasesWith (l : List (Nat × BitVec 64)) (first count : Nat) (mask : BitVec 64) : List (Nat × BitVec 64) :=
  (List.range count).foldl (fun l i => sset (fun _ => (0 : BitVec 64)) (first + i) mask l) l

/-- Filter entries and telegrams that bay `b` set up and that its grants no longer list go (R191). -/
def State.netShrunk (s : State) (b : Nat) : State :=
  let has (p i : Nat) : Bool := let g := vget (s.bayRec b).net p; g.filtFirst ≤ i && i < g.filtFirst + g.filtCount
  let kept (e : Nat × Filter) : Option (Nat × Filter) :=
    if e.2.bay ≠ b then some e
    else if !(List.range 4).any (has · e.1) then none
    else some (e.1, { e.2 with ports := (List.range 4).foldl (fun n p => if bitAt e.2.ports p && has p e.1 then n + 2 ^ p else n) 0 })
  (s.modNet fun n => { n with filters := n.filters.filterMap kept }).each (List.range 4) fun s p =>
    let g := vget (s.bayRec b).net p
    s.modMac p fun m => { m with telegrams := m.telegrams.filter fun t => t.2.bay ≠ b || (g.trdpFirst ≤ t.1 && t.1 < g.trdpFirst + g.trdpCount) }

/-- A grant or share effect takes place. -/
def State.grantEffect (s : State) (e : Effect) : State :=
  match e with
  | .grantPhase b first count mask => s.modBay b fun r => { r with phase := phasesWith r.phase first count mask }
  | .grantPorts b sources dests => s.grantPorts b sources dests
  | .grantNet b p g => (s.modBay b fun r => { r with net := vmod r.net p fun _ => g }).netShrunk b
  | .grantKeys b l => s.each (List.range 64) fun s n =>
      if l.getLsbD n then (if s.keyOwner n = 0 || s.keyOwner n = b then s.moveSlot n b else s)
      else if s.keyOwner n = b && n / 2 ≠ (s.bayRec b).figKey / 2 then s.moveSlot n 0 else s
  | .shareMake i h =>
    let arg := natLe 1 i ++ natLe 1 h.owner ++ natLe 1 h.borrower
    ((s.modFw fun f => { f with shares := vmod f.shares i fun _ => some h }).post h.owner 0x0007 arg).post h.borrower 0x0007 arg
  | .shareRevoke i => s.endShare i
  | _ => s

/-! ### The effects of one boundary (R50, R271) -/

/-- The grants and shares as they will stand at measure `k`: a copy of the state that is only read. -/
def State.grantsAt (s : State) (p k : Nat) : State := (s.dueBy p k).foldl (fun s e => s.grantEffect e.eff) s

/-- Bay `b`'s mask for resource `r`. -/
def State.phaseOf (s : State) (b r : Nat) : BitVec 64 := sget (fun _ => (0 : BitVec 64)) (s.bayRec b).phase r

/-- A grant effect would give its bay what another bay holds in `g` (R192). -/
def State.grantClash (g : State) (e : Effect) : Bool :=
  match e with
  | .grantPhase b first n mask =>
    (List.range n).any fun j => (List.range 8).any fun i => i ≠ b && g.phaseOf i (first + j) &&& mask ≠ 0
  | .grantPorts b src dst => (List.range 48).any fun i =>
    (bitAt src i && g.sourceOwner i ≠ 0xF && g.sourceOwner i ≠ b) || (bitAt dst i && g.destOwner i ≠ 0xF && g.destOwner i ≠ b)
  | .grantNet b p n => (List.range 8).any fun i => i ≠ b &&
    (let o := vget (g.bayRec i).net p
     o.queues &&& n.queues ≠ 0 || Load.overlaps n.trdpFirst n.trdpCount o.trdpFirst o.trdpCount || Load.overlaps n.saFirst n.saCount o.saFirst o.saCount ||
       (List.range 4).any fun k => Load.overlaps n.filtFirst n.filtCount (vget (g.bayRec i).net k).filtFirst (vget (g.bayRec i).net k).filtCount)
  | .grantKeys b l => (List.range 64).any fun n => l.getLsbD n && g.keyOwner n ≠ 0 && g.keyOwner n ≠ b
  | _ => false

/-- Some bank of those that a grant effect names has all its phases granted in `g` (R194). -/
def State.starved (g : State) (e : Effect) : Bool :=
  match e with
  | .grantPhase _ first n _ => (List.range n).any fun j =>
    first + j < 256 && (List.range 8).foldl (fun v i => v ||| g.phaseOf i (first + j)) 0#64 = BitVec.allOnes 64
  | _ => false

/-- The grant effects accepted for measures after `k`, in the order in which they take place. -/
def State.laterGrants (s : State) (p k : Nat) : List Effect :=
  ((s.fw.sched.filter fun e => e.eff.rank = 0 && !e.by p k).foldl (fun l e => insertSched e l) []).map (·.eff)

/-- From the grants of `g` on, some of the effects `l` gives a bay what another holds, or starves a bank (R192, R194). -/
def State.laterFault (g : State) (bad : State → Effect → Bool) : List Effect → Bool
  | [] => false
  | e :: l => bad g e || State.laterFault (g.grantEffect e) bad l

/-- The accepted commit of bay `b` for measure `m` takes effect, unless the bay can no longer run it. -/
def State.commitNow (s : State) (b m : Nat) (o : Option Origin) : State :=
  match s.fig.commits.find? fun x => x.1 = b && x.2.1 = m with
  | none => s
  | some (_, _, p) =>
    let s1 := s.modFig fun f => { f with commits := f.commits.eraseP fun x => x.1 = b && x.2.1 = m }
    let s2 := s1.putB ⟨Reg.FGE_STATUS, 24 + b, 24 + b⟩ (s1.fig.commits.any (·.1 = b))
    if s.bayState b = bCREATED || s.bayState b = bRUNNING then (s2.takePart b p (vget s.fig.carry b)).finish o 0 else s2

/-- One scheduled effect takes place. -/
def State.effect (s : State) (e : Sched) : State :=
  match e.eff with
  | .bayPark b => (s.bayPark b).finish e.origin 0
  | .bayWake b => s.bayWake b e.origin
  | .bayResume b => (s.bayResume b).finish e.origin 0
  | .partRemove b => (s.removePart b).finish e.origin 0
  | .bayDelete b force => s.bayDelete b force e.origin
  | .commit b => s.commitNow b e.measure e.origin
  | .routeSet d r => (s.modDest d fun x => { x with override := some s.fig.measure }).armRoute d r e.origin
  | .layerCommit c _ => s.modComp c fun m =>
      { m with commits := m.commits.map fun q => if q.measure ≤ e.measure && q.armed.isNone then { q with armed := some s.clk.now } else q }
  | .audRoute out inp gain => s.audRouteAt out inp gain e.origin
  | .sealStart b i slot frames chain =>
    let (st, s1) := s.sealBegin b i slot frames chain
    s1.finish e.origin st
  | .sealStop i => s.sealStop i e.origin
  | _ => (s.grantEffect e.eff).finish e.origin 0

/-- Apply every due effect, in the order of R271 and within it in order of acceptance. An effect that an earlier one has withdrawn
(a deletion, a cancelled scarf) does not take place. -/
def State.applyEffects (s : State) : State :=
  let due := s.fw.sched.filter s.effectDue
  (List.range 5).foldl (fun s k =>
    (due.filter fun e => e.eff.rank = k).foldl (fun s e =>
      if s.fw.sched.contains e then (s.modFw fun f => { f with sched := f.sched.erase e }).effect e else s) s) s

/-- New LUT tables become active where SE_LUTSWAP is set (R116). The shadow table keeps what was written to it (DESIGN CHOICE, log entry
37). -/
def State.lutSwap (s : State) : State :=
  s.each (List.range 32) fun s i =>
    let e := i / 8
    let b := i % 8
    let f : Fld := ⟨Reg.SE_LUTSWAP e, b, b⟩
    if s.bit f then
      (s.unflag f).modFig fun g => { g with lut := (List.range 256).foldl (fun l k =>
        sset (fun _ => (0 : Word)) ((e * 8 + b) * 256 + k) (s.reg (Reg.SE_LUT e b k)) l) g.lut }
    else s

/-- Registers whose value the model computes, as the boundary step finds them. -/
def State.computed (s : State) : List (Nat × Word) :=
  let hi (z : Int) : Word := posHi z
  [(Reg.FGE_MEASURE_LO, BitVec.ofNat 32 s.fig.measure), (Reg.FGE_MEASURE_HI, BitVec.ofNat 32 (s.fig.measure / 2 ^ 32)),
   (Reg.TME_SEC_LO, BitVec.ofNat 32 s.sec), (Reg.TME_SEC_HI, BitVec.ofNat 32 (s.sec / 2 ^ 32 % 65536)), (Reg.TME_NS, BitVec.ofNat 32 s.nsInSec),
   (Reg.TME_FRAC, BitVec.ofNat 32 (s.tme.t % 2 ^ 48 / 2 ^ 32)), (Reg.ODO_POS_LO, posLo s.unitPos), (Reg.ODO_POS_HI, hi s.unitPos),
   (Reg.ODO_OFFSET_LO, posLo s.odo.offset), (Reg.ODO_OFFSET_HI, hi s.odo.offset)] ++
  (List.range 4).flatMap (fun i =>
    [(Reg.ODO_AXPOS_LO i, posLo (s.axPos i)), (Reg.ODO_AXPOS_HI i, hi (s.axPos i)), (Reg.SE_STATUS i, s.view (Reg.SE_STATUS i)),
     (Reg.TSN_GATE i, s.view (Reg.TSN_GATE i))]) ++
  ((List.range 8).drop 1).flatMap fun r => (List.range 10).map fun k => (0x40200000 + 0x2000 * r + 0x1800 + 4 * k, s.ringRead r (0x1800 + 4 * k))

/-- Telemetry is copied to its shadow registers (R67). -/
def State.snapshot (s : State) : State :=
  let s1 := (s.each (List.range 48) fun s d => s.showReg (Reg.VXM_DSTAT d)).each (List.range 12) fun s c => s.showReg (Reg.PWM_STAT c)
  s1.modFig fun f => { f with shadow := s1.computed ++ s1.regs }

/-- A register as the last boundary step copied it. -/
def State.shadowReg (s : State) (a : Nat) : Word := sget regReset s.fig.shadow a

/-- Measure `k` starts at the present step: telemetry, then the scheduled effects, new LUT tables, held lines (R67, R116, R271, R317). -/
def State.measureStart (s : State) (k : Nat) : State :=
  let s0 := s.modFig fun f => { f with measure := k }
  let had := s.fig.geom
  let s1 := s0.snapshot.applyEffects.lutSwap.settleGeom
  let k' := match s1.fig.geom with
    | some h =>
      let n := if s.fig.counted = h.period then k else k * s.fig.counted / h.period
      if had.isSome then n else max n (s1.tme.t / timePoint h.period 1)
    | none => k
  let s2 := s1.modFig fun f =>
    { f with counted := ((f.geom.map (·.period)).getD f.counted), latePad := false, measure := k', boundary := s.clk.now, slot := 0, turn := 0, spent := false, replaying := false, faulted := false
             unjournalled := false, interrupted := false, merged := none, resting := f.geom.isNone }
  ((s2.showGeom.heldBoundary).each (List.range 48) State.showDest).xtrSource 3 none

/-! ### When a measure starts (R42, R45 to R51, R493) -/

/-- At the step in which the pad ends, whether the next time point has passed: a boundary at or after it would have been an earlier step
(R47). -/
def State.padCheck (s : State) : State :=
  match s.fig.geom with
  | some g =>
    if s.clk.now = s.padEnd g && !s.fig.interrupted then
      s.modFig fun f => { f with latePad := timePoint g.period (s.fig.measure + 1) + 2 * 2 ^ 48 ≤ s.tme.t }
    else s
  | none => s

/-- The tail of the measure in progress has begun: its turns and its pad are over. -/
def State.inTail (s : State) (g : Geom) : Bool := s.fig.resting && !s.fig.stopped && (s.fig.interrupted || s.padEnd g ≤ s.clk.now)

/-- Report a slip (R47, R49); the event carries the number of the measure that starts (R253, DEDUCED, log entry 35). -/
def State.slip (s : State) (early : Bool) (skipped : Nat) : State :=
  let s1 := (s.flag (if early then Fd.FGE_STATUS_SLIP_EARLY else Fd.FGE_STATUS_SLIP_LATE)).bump Fd.FGE_SLIP_SLIPS
  let arg := natLe 1 (b2n early) ++ [0] ++ natLe 2 skipped
  let s2 := s1.each (0 :: s1.runningBays.filter (· ≠ 0)) fun s b => s.post b 0x0003 arg
  s2.each (0 :: s1.runningBays.filter (· ≠ 0)) fun s b => s.countBay b 8

/-- MEASURE_BOUNDARY: the first step at or after the next time point, or after a late slip at once. With no figure running, scheduled
effects take place once their time points have passed. A measure that a loss of lock interrupted has no tail of its own: LAST gets 0 and
no slip is reported (R493; DESIGN CHOICE, log entry 35). -/
def State.measureBoundary (s : State) : State :=
  if !s.clocksRun then s
  else match s.fig.geom with
    | none => if s.fw.sched.any s.effectDue then s.measureStart s.fig.measure else s
    | some g =>
      if !s.inTail g || s.tme.t < timePoint g.period (s.fig.measure + 1) then s
      else
        let k := max (s.fig.measure + 1) (s.tme.t / timePoint g.period 1)
        let tail := s.clk.now - s.padEnd g
        let late := !s.fig.interrupted && s.fig.latePad
        let skipped := k - (s.fig.measure + 1)
        let s1 := (s.bump Fd.FGE_SLIP_SKIPPED skipped).put Fd.FGE_TAIL_LAST (if late || s.fig.interrupted then 0 else min 4095 tail)
        (s1.when late fun s => (s.modFig fun f => { f with measure := k }).slip false skipped).measureStart k

/-- MEASURE_SLIP_EARLY: the tail has reached 4,095 steps before the next time point. -/
def State.slipEarly (s : State) : State :=
  match s.fig.geom with
  | none => s
  | some g =>
    if !s.clocksRun || !s.inTail g || s.fig.interrupted || s.clk.now < s.padEnd g + 4095 ||
        timePoint g.period (s.fig.measure + 1) ≤ s.tme.t then s
    else
      let k := s.fig.measure + 1
      (((s.put Fd.FGE_TAIL_LAST 4095).modFig fun f => { f with measure := k }).slip true 0).measureStart k

/-- The part of bay `b` that runs from measure `m` on: the one committed for it, or the running one (R73). -/
def State.partFor (s : State) (m b : Nat) : Option Part :=
  ((s.fig.commits.find? fun x => x.1 = b && x.2.1 = m).map fun x => x.2.2) <|> s.part b

/-- The actions of the parts that run from measure `m` on, each with its bay, as the parts hold them. -/
def State.actsFor (s : State) (m : Nat) : List (Nat × Act) :=
  (List.range 8).flatMap fun b => match s.partFor m b with
    | some p => p.acts.map fun a => (b, a)
    | none => []

/-- FIGURE_MERGE (R107): in the 100 µs before a measure for which commits have been accepted, the action lists of the parts that run from then
on are joined by resource in STEP order, no action changed. The running figure's join is `State.resList`, the same of the running parts. -/
def State.merge (s : State) : State :=
  match s.fw.sched.find? fun e => e.eff.rank = 2 && timePoint e.period e.measure ≤ s.tme.t + mergeTime with
  | none => s
  | some e => s.modFig fun f => { f with merged := some (e.measure, (s.actsFor e.measure).foldl (fun l a => insertAct a l) []) }

end Sys2Proof.Machine
end

