-- ==== Sys2Proof/Machine/IsaCode.lean ====
section
/-! DEFINITION. The encoding of steward core instructions (R189, R190): words to instructions, for words fed by a debugger, and
instructions to words, which the ADDR of some exceptions holds. -/

namespace Sys2Proof

/-- FN of a register-register operation. -/
def Alu.fn : Alu → Nat
  | .add => 0x000
  | .sub => 0x001
  | .and => 0x002
  | .or => 0x003
  | .xor => 0x004
  | .sll => 0x005
  | .srl => 0x006
  | .sra => 0x007
  | .slt => 0x008
  | .sltu => 0x009
  | .mul => 0x010
  | .mulh => 0x011
  | .mulhu => 0x012
  | .div => 0x018
  | .divu => 0x019
  | .rem => 0x01A
  | .remu => 0x01B

/-- OP of a register-immediate operation. -/
def AluI.op : AluI → Nat
  | .addi => 0x01
  | .andi => 0x02
  | .ori => 0x03
  | .xori => 0x04
  | .slti => 0x08
  | .sltiu => 0x09

/-- OP of an immediate shift. -/
def Shift.op : Shift → Nat
  | .slli => 0x05
  | .srli => 0x06
  | .srai => 0x07

/-- OP of a load. -/
def Load.op : Load → Nat
  | .lb => 0x10
  | .lbu => 0x11
  | .lh => 0x12
  | .lhu => 0x13
  | .lw => 0x14
  | .ll => 0x15

/-- OP of a store. -/
def Store.op : Store → Nat
  | .sb => 0x18
  | .sh => 0x19
  | .sw => 0x1A

/-- OP of a branch. -/
def Cond.op : Cond → Nat
  | .beq => 0x20
  | .bne => 0x21
  | .blt => 0x22
  | .bge => 0x23
  | .bltu => 0x24
  | .bgeu => 0x25

/-- A word of format R. -/
def wordR (op : Nat) (rd ra rb : BitVec 5) (fn : Nat) : Word :=
  BitVec.ofNat 6 op ++ rd ++ ra ++ rb ++ BitVec.ofNat 11 fn

/-- A word of format I or B. -/
def wordI (op : Nat) (x y : BitVec 5) (i : BitVec 16) : Word := BitVec.ofNat 6 op ++ x ++ y ++ i

/-- A word of format J. -/
def wordJ (op : Nat) (off : BitVec 26) : Word := BitVec.ofNat 6 op ++ off

/-- The word of an instruction. -/
def CoreOp.encode : CoreOp → Word
  | .alu f rd ra rb => wordR 0x00 rd ra rb f.fn
  | .imm f rd ra i => wordI f.op rd ra i
  | .shift f rd ra sh => wordI f.op rd ra (sh.setWidth 16)
  | .lui rd i => wordI 0x0A rd 0 i
  | .load f rd ra i => wordI f.op rd ra i
  | .store f rs ra i => wordI f.op rs ra i
  | .sc rd ra rb => wordR 0x1B rd ra rb 0
  | .branch f ra rb off => wordI f.op ra rb off
  | .j off => wordJ 0x28 off
  | .jal off => wordJ 0x29 off
  | .jalr rd ra i => wordI 0x2A rd ra i
  | .ctlr rd n => wordI 0x3C rd 0 (n.setWidth 16)
  | .ctlw n ra => wordI 0x3D 0 ra (n.setWidth 16)
  | .ecall => wordR 0x3F 0 0 0 0x000
  | .eret => wordR 0x3F 0 0 0 0x001
  | .fence => wordR 0x3F 0 0 0 0x010
  | .ifence => wordR 0x3F 0 0 0 0x011
  | .dinv ra => wordR 0x3F 0 ra 0 0x012
  | .rest => wordR 0x3F 0 0 0 0x020
  | .brk => wordR 0x3F 0 0 0 0x030

/-- The first element whose code is `n`. -/
def byCode {α : Type} (code : α → Nat) (n : Nat) (l : List α) : Option α := l.find? fun x => code x = n

def aluAll : List Alu :=
  [.add, .sub, .and, .or, .xor, .sll, .srl, .sra, .slt, .sltu, .mul, .mulh, .mulhu, .div, .divu, .rem, .remu]

/-- The instruction of a system word (OP 0x3F). -/
def decodeSystem (x y z : BitVec 5) (fn : Nat) : Option CoreOp :=
  if fn = 0x012 then (if x = 0 ∧ z = 0 then some (.dinv y) else none)
  else if x ≠ 0 ∨ y ≠ 0 ∨ z ≠ 0 then none
  else match fn with
    | 0x000 => some .ecall
    | 0x001 => some .eret
    | 0x010 => some .fence
    | 0x011 => some .ifence
    | 0x020 => some .rest
    | 0x030 => some .brk
    | _ => none

/-- The instruction that a word encodes; none raises ILLEGAL (R189). -/
def decodeCore (w : Word) : Option CoreOp :=
  let x : BitVec 5 := w.extractLsb' 21 5
  let y : BitVec 5 := w.extractLsb' 16 5
  let z : BitVec 5 := w.extractLsb' 11 5
  let i : BitVec 16 := w.extractLsb' 0 16
  let off : BitVec 26 := w.extractLsb' 0 26
  let fn := (w.extractLsb' 0 11).toNat
  match (w.extractLsb' 26 6).toNat with
  | 0x00 => (byCode Alu.fn fn aluAll).map fun f => .alu f x y z
  | 0x01 => some (.imm .addi x y i)
  | 0x02 => some (.imm .andi x y i)
  | 0x03 => some (.imm .ori x y i)
  | 0x04 => some (.imm .xori x y i)
  | 0x05 => if i.extractLsb' 5 11 = 0 then some (.shift .slli x y (i.setWidth 5)) else none
  | 0x06 => if i.extractLsb' 5 11 = 0 then some (.shift .srli x y (i.setWidth 5)) else none
  | 0x07 => if i.extractLsb' 5 11 = 0 then some (.shift .srai x y (i.setWidth 5)) else none
  | 0x08 => some (.imm .slti x y i)
  | 0x09 => some (.imm .sltiu x y i)
  | 0x0A => if y = 0 then some (.lui x i) else none
  | 0x10 => some (.load .lb x y i)
  | 0x11 => some (.load .lbu x y i)
  | 0x12 => some (.load .lh x y i)
  | 0x13 => some (.load .lhu x y i)
  | 0x14 => some (.load .lw x y i)
  | 0x15 => some (.load .ll x y i)
  | 0x18 => some (.store .sb x y i)
  | 0x19 => some (.store .sh x y i)
  | 0x1A => some (.store .sw x y i)
  | 0x1B => if fn = 0 then some (.sc x y z) else none
  | 0x20 => some (.branch .beq x y i)
  | 0x21 => some (.branch .bne x y i)
  | 0x22 => some (.branch .blt x y i)
  | 0x23 => some (.branch .bge x y i)
  | 0x24 => some (.branch .bltu x y i)
  | 0x25 => some (.branch .bgeu x y i)
  | 0x28 => some (.j off)
  | 0x29 => some (.jal off)
  | 0x2A => some (.jalr x y i)
  | 0x3C => if y = 0 ∧ i.extractLsb' 12 4 = 0 then some (.ctlr x (i.setWidth 12)) else none
  | 0x3D => if x = 0 ∧ i.extractLsb' 12 4 = 0 then some (.ctlw (i.setWidth 12) y) else none
  | 0x3F => decodeSystem x y z fn
  | _ => none

end Sys2Proof
end

