-- ==== Sys2Proof/Machine/Operands.lean ====
section
/-! DEFINITION. What steward core instructions compute from their operands (R190). -/

namespace Sys2Proof

open Machine

/-! ### Results (R190) -/

def w1 (b : Bool) : Word := if b then 1 else 0

/-- Register-register results. -/
def Alu.val (f : Alu) (a b : Word) : Word :=
  match f with
  | .add => a + b
  | .sub => a - b
  | .and => a &&& b
  | .or => a ||| b
  | .xor => a ^^^ b
  | .sll => a <<< (b.toNat % 32)
  | .srl => a >>> (b.toNat % 32)
  | .sra => a.sshiftRight (b.toNat % 32)
  | .slt => w1 (a.slt b)
  | .sltu => w1 (a.ult b)
  | .mul => a * b
  | .mulh => BitVec.ofInt 32 (a.toInt * b.toInt / 2 ^ 32)
  | .mulhu => BitVec.ofNat 32 (a.toNat * b.toNat / 2 ^ 32)
  | .div => if b = 0 then BitVec.allOnes 32 else BitVec.ofInt 32 (a.toInt.tdiv b.toInt)
  | .divu => if b = 0 then BitVec.allOnes 32 else a / b
  | .rem => if b = 0 then a else BitVec.ofInt 32 (a.toInt.tmod b.toInt)
  | .remu => if b = 0 then a else a % b

/-- Register-immediate results. -/
def AluI.val (f : AluI) (a : Word) (i : BitVec 16) : Word :=
  match f with
  | .addi => a + i.signExtend 32
  | .andi => a &&& i.setWidth 32
  | .ori => a ||| i.setWidth 32
  | .xori => a ^^^ i.setWidth 32
  | .slti => w1 (a.slt (i.signExtend 32))
  | .sltiu => w1 (a.ult (i.signExtend 32))

/-- Immediate shifts. -/
def Shift.val (f : Shift) (a : Word) (sh : BitVec 5) : Word :=
  match f with
  | .slli => a <<< sh.toNat
  | .srli => a >>> sh.toNat
  | .srai => a.sshiftRight sh.toNat

/-- Branch decisions. -/
def Cond.holds (f : Cond) (a b : Word) : Bool :=
  match f with
  | .beq => a = b
  | .bne => a ≠ b
  | .blt => a.slt b
  | .bge => !a.slt b
  | .bltu => a.ult b
  | .bgeu => !a.ult b

/-- Bytes a load or a store moves. -/
def Load.size : Load → Nat
  | .lb => 1
  | .lbu => 1
  | .lh => 2
  | .lhu => 2
  | .lw => 4
  | .ll => 4

def Store.size : Store → Nat
  | .sb => 1
  | .sh => 2
  | .sw => 4

/-- A loaded value as the register takes it. -/
def Load.val (f : Load) (l : List Byte) : Word :=
  let n := leNat l
  match f with
  | .lb => (BitVec.ofNat 8 n).signExtend 32
  | .lbu => (BitVec.ofNat 8 n).setWidth 32
  | .lh => (BitVec.ofNat 16 n).signExtend 32
  | .lhu => (BitVec.ofNat 16 n).setWidth 32
  | .lw => BitVec.ofNat 32 n
  | .ll => BitVec.ofNat 32 n

/-! ### Words a debugger may feed (R509) -/

/-- The instruction may be fed. -/
def CoreOp.feedable : CoreOp → Bool
  | .branch .. => false
  | .j _ => false
  | .jal _ => false
  | .jalr .. => false
  | .ecall => false
  | .eret => false
  | .rest => false
  | .brk => false
  | _ => true

/-- The instruction is REST. -/
def isRest : Except Word CoreOp → Bool
  | .ok .rest => true
  | _ => false

end Sys2Proof
end

