-- ==== Sys2Proof/Machine/Isa.lean ====
section
/-! DEFINITION. Steward cores at work (06): operands and results, memory accesses, control registers, exceptions and interrupts,
the boundary rule of R180, and words fed by a debugger (R509). -/

namespace Sys2Proof.Machine

/-! ### Registers (R166) -/

/-- Register `r`: g0 reads 0. -/
def Core.reg (k : Core) (r : BitVec 5) : Word := if r = 0 then 0 else vget k.g r.toNat

/-- Write register `r`: g0 discards. -/
def Core.setReg (k : Core) (r : BitVec 5) (v : Word) : Core := if r = 0 then k else { k with g := vmod k.g r.toNat fun _ => v }

def State.greg (s : State) (c : Nat) (r : BitVec 5) : Word := (s.core c).reg r
def State.setG (s : State) (c : Nat) (r : BitVec 5) (v : Word) : State := s.modCore c fun k => k.setReg r v

/-! ### Exceptions and interrupts (R175 to R180) -/

/-- Cause codes of R175. -/
def xILLEGAL : Nat := 0x01
def xPRIVILEGE : Nat := 0x02
def xFETCH_ACCESS : Nat := 0x03
def xLOAD_ALIGN : Nat := 0x04
def xSTORE_ALIGN : Nat := 0x05
def xLOAD_ACCESS : Nat := 0x06
def xSTORE_ACCESS : Nat := 0x07
def xSTORE_ASYNC : Nat := 0x08
def xECALL_U : Nat := 0x09
def xECALL_S : Nat := 0x0A
def xBREAK : Nat := 0x0B
def xDOUBLE : Nat := 0x0F
def xTIMER : Nat := 0x10
def xEXTERNAL : Nat := 0x11
def xPLATFORM : Nat := 0x12

/-- The exception registers of a level. -/
def Core.exc (k : Core) (f : Bool) : ExcRegs := if f then k.fx else k.sx

/-- What entry writes into a level's registers (R177): `epc`, the cause, ADDR; IEN to PIEN, the level left, INEXC. -/
def ExcRegs.enter (x : ExcRegs) (from_ : Level) (epc : BitVec 30) (intr : Bool) (code : Nat) (addr : Word) : ExcRegs :=
  { x with epc := epc, intr := intr, code := BitVec.ofNat 6 code, addr := addr, pien := x.ien, ien := false, ppl := from_, inexc := true }

/-- Give a locked pair's higher core the state of the lower one (R164). -/
def State.mirror (s : State) (c : Nat) : State :=
  let l := s.lead c
  if s.locked c then s.modCore (l + 1) fun _ => s.core l else s

/-- Tell trace that core `c` may have changed its level (R516, R519). -/
def State.traceMoved (s : State) (c : Nat) (old : Level) : State :=
  if (s.src c).on && s.tracing c then (if (s.core c).level = old then s.countSync c else s.traceLevel c (s.core c).level) else s.traceSync c

/-- Core `c` enters level F (`toF`) or S for a cause (R177): the registers of that level, the level, the pc, the reservation and the
trace. -/
def State.enterExc (s : State) (c : Nat) (toF intr : Bool) (code : Nat) (addr : Word) : State :=
  let k := s.core c
  let x := (k.exc toF).enter k.level k.pc intr code addr
  let s1 := s.traceExc c (code + if intr then 128 else 0) (4 * k.pc.toNat) (4 * x.vec.toNat)
  let s2 := s1.modCore c fun k =>
    let k1 := { k with pc := x.vec, resv := none, level := if toF then .f else .s }
    if toF then { k1 with fx := x } else { k1 with sx := x }
  s2.traceMoved c k.level

/-- Core `c` takes an exception at the level R175 gives; `atF` forces F. One at S under INEXC is DOUBLE, one of the platform pair at F
under INEXC resets the pair (R178). -/
def State.takeExc (s : State) (c code : Nat) (addr : Word) (atF : Bool) : State :=
  let k := s.core c
  if k.level = .s && k.sx.inexc && (!atF || code = xECALL_S) then
    s.enterExc c true false xDOUBLE (BitVec.ofNat 32 k.sx.code.toNat)
  else if (k.level = .f || atF) && k.fx.inexc && c = 0 then s.pairResetCounted
  else s.enterExc c (k.level = .f || atF) false code addr

/-- Sources of EXTERNAL that are pending (R263, R404). -/
def State.extPending (s : State) (c : Nat) : Bool :=
  if c < 2 then s.reg Reg.MBX_DBLATCH ≠ 0 || s.get Fd.PLB_HIST_HIST &&& s.get Fd.PLB_IEN_IEN ≠ 0
  else
    let b := (s.core c).bay.toNat
    let q := s.ring b
    (q.rspIe && s.rspP b) || (q.evtIe && s.evtP b) || (q.pegIe && s.pegP b)

/-- TIMER is pending (R175). -/
def Core.timerPending (k : Core) : Bool := k.timecmp ≤ k.cycle

/-- The interrupt that core `c` takes at a boundary now, as its code (R179, R180). EXTERNAL of the platform pair is enabled by SCC_IE
and FSTATUS.IEN (DEDUCED, log entry 30). -/
def State.irq (s : State) (c : Nat) : Option Nat :=
  let k := s.core c
  let open_ := k.level = .u || (k.level = .s && k.sx.ien)
  if k.platform && (k.level ≠ .f || k.fx.ien) then some xPLATFORM
  else if k.ie.getLsbD 1 && s.extPending c && (if c < 2 then k.level = .f && k.fx.ien else open_) then some xEXTERNAL
  else if k.ie.getLsbD 0 && k.timerPending && open_ then some xTIMER
  else none

/-- Take interrupt `code`. -/
def State.takeIrq (s : State) (c code : Nat) : State :=
  let s1 := if code = xPLATFORM then s.modCore c fun k => { k with platform := false } else s
  s1.enterExc c (code = xPLATFORM || (code = xEXTERNAL && c < 2)) true code 0

/-- The STORE_ASYNC report that core `c` can take now, by its place in the list (R176). -/
def Core.asyncAt (k : Core) : Option Nat := k.async.findIdx? fun x => x.1 = .f || k.level ≠ .f

/-- Take the STORE_ASYNC report at place `i`. -/
def State.takeAsync (s : State) (c i : Nat) : State :=
  let x := (s.core c).async.getD i (.s, 0)
  (s.modCore c fun k => { k with async := k.async.eraseIdx i }).takeExc c xSTORE_ASYNC x.2 (x.1 = .f)

/-! ### Memory accesses (R168 to R173, R176) -/

/-- An enabled U region with the permission `perm` holds address `a` (R168). -/
def Core.region (k : Core) (perm : Rgn → Bool) (a : Nat) : Bool :=
  k.level ≠ .u || k.rgn.toList.any fun r => r.en && perm r && r.base.toNat ≤ a / 32 && a / 32 ≤ r.last.toNat

/-- The path by which core `c` reaches registers. -/
def State.corePath (s : State) (c : Nat) : Path :=
  if (s.core c).level = .f then .fw else .bay ⟨(s.core c).bay.toNat, (s.core c).bay.isLt⟩ (Fin.ofNat 6 c)

/-- The grant of the core's bay allows the access; level F is not checked (R162). -/
def State.coreMay (s : State) (c : Nat) (p : Place) (n : Nat) (write : Bool) : Bool :=
  (s.core c).level = .f || s.granted (s.core c).bay.toNat p n write

/-- An access that the bus matrix refuses a core: counted as a violation at S and U (R198). -/
def State.refuse (s : State) (c a : Nat) (p : Place) (n : Nat) (write : Bool) : State :=
  if s.coreMay c p n write then s else s.violation (s.core c).bay.toNat a 0

/-- The tightly coupled path of the platform pair (R159, R169). -/
def State.tcm (s : State) (c a : Nat) : Bool := c < 2 && s.bit Fd.SYS_REMAP_SWAP && a < 0x40000

/-- The data cache holds accesses to this place (R169). -/
def State.cached (s : State) (c a : Nat) (p : Place) : Bool :=
  match p with
  | .rom _ => true
  | .sram _ => !s.tcm c a
  | .ddr _ => true
  | .bkf _ => false
  | .reg _ => false
  | .hole => false

/-- The lines of a cache that hold key `k`. -/
def lineAt (k : Nat) (l : List CLine) : Option CLine := l.find? fun x => x.line = k / 32

/-- A line whose parity is in error is lost when it is hit, and the event is counted at its core, the locked partner's at the partner
(R174). -/
def State.parity (s : State) (c k : Nat) (instr : Bool) : State :=
  let lose (l : List CLine) : List CLine := l.filter fun x => x.line ≠ k / 32
  match lineAt k (if instr then (s.core c).icache else (s.core c).dcache) with
  | none => s
  | some x =>
    let second := x.badFollower && s.locked c
    if x.bad || second then
      (((s.modCore c fun x => if instr then { x with icache := lose x.icache } else { x with dcache := lose x.dcache }).when x.bad
        fun s => s.bump (Fd.SYS_CORECTL_CACHE_PE c)).when second fun s => s.bump (Fd.SYS_CORECTL_CACHE_PE (c + 1)))
    else s

/-- Whether an upset strikes a line's parity before the line is next hit is not for the spec to say: a free value of the line, drawn when it is
filled (R174; DESIGN CHOICE, log entry 57). -/
def State.struck (s : State) (l : CLine) : CLine × State :=
  let (v, s1) := s.draw
  ({ l with bad := v % 4 = 1 || v % 4 = 3, badFollower := v % 4 = 2 || v % 4 = 3 }, s1)

/-- The data cache line that holds key `k`. -/
def Core.hit (c : Core) (k : Nat) : Option CLine := lineAt k c.dcache

/-- Fill a line: 128 sets of four ways; a full set loses a line, which one is a free value (R169, log entry 5). -/
def State.fill (s0 : State) (c : Nat) (l0 : CLine) : State :=
  let (l, s) := s0.struck l0
  let set := (s.core c).dcache.filter fun x => x.line % 128 = l.line % 128
  if set.length < 4 then s.modCore c fun k => { k with dcache := k.dcache ++ [l] }
  else
    let (v, s1) := s.draw
    let old := (set.getD (v % 4) l).line
    s1.modCore c fun k => { k with dcache := k.dcache.filter (fun x => x.line ≠ old) ++ [l] }

/-- As `fill`, of the instruction cache. -/
def State.fillI (s0 : State) (c : Nat) (l0 : CLine) : State :=
  let (l, s) := s0.struck l0
  let set := (s.core c).icache.filter fun x => x.line % 128 = l.line % 128
  if set.length < 4 then s.modCore c fun k => { k with icache := k.icache ++ [l] }
  else
    let (v, s1) := s.draw
    let old := (set.getD (v % 4) l).line
    s1.modCore c fun k => { k with icache := k.icache.filter (fun x => x.line ≠ old) ++ [l] }

/-- A store that hits updates the line (R169). -/
def State.cacheStore (s : State) (c key : Nat) (l : List Byte) : State :=
  s.modCore c fun k => { k with dcache := k.dcache.map fun x =>
    if x.line = key / 32 then { x with data := x.data.take (key % 32) ++ l ++ x.data.drop (key % 32 + l.length) } else x }

/-- How an access of a core stands: it waits, has got an error response, or is done, with the bytes read. -/
inductive Answer where
  | wait
  | error
  | data (l : List Byte)
deriving DecidableEq, Repr

def Answer.of : Option (List Byte) → Answer
  | some l => .data l
  | none => .error

/-- The access of core `k` of kind `ask` to `n` bytes at address `a` that is under way or has its answer. -/
def Core.asked (k : Core) (ask : Asker) (a n : Nat) : Option Wait :=
  (if ask = .fetch then k.fetched else k.loaded).filter fun x => x.ask = ask && x.addr = a && x.n = n

/-- Where address `a` leads for an access of core `c`: one that is under way goes where the address led when it was asked (R37). -/
def State.placeFor (s : State) (c : Nat) (ask : Asker) (a : Nat) : Place :=
  match (if ask = .fetch then (s.core c).fetched else (s.core c).loaded).filter fun x => x.ask = ask && x.addr = a with
  | some x => keyPlace (x.key / 32 * 32 + a % 32)
  | none => s.place c a

/-- An access by core `c` through the bus matrix: asked once, and done when its answer is there (R141, R155 to R157). -/
def State.askPort (s : State) (c : Nat) (ask : Asker) (a : Nat) (p : Place) (n : Nat) (l : List Byte) : Answer × State :=
  let answer (x : Wait) : Answer := match x.ans with | none => .wait | some r => Answer.of r
  match (s.core c).asked ask a n with
  | some x => (answer x, s)
  | none =>
    let k := s.core c
    let req : BusReq := { master := s.masterOf c, core := c, level := k.level, path := s.corePath c, target := p.target, addr := a, key := p.key, data := l
                          since := s.clk.now, ask := ask, read := if l.isEmpty then n else 0 }
    let w : Wait := { ask := ask, addr := a, key := p.key, n := n, id := s.bxm.next }
    let s1 := (s.modCore c fun k => if ask = .fetch then { k with fetched := some w } else { k with loaded := some w }).request req
    ((((s1.core c).asked ask a n).map answer).getD .wait, s1)

/-- Load `n` bytes at `a` by core `c` (R37, R169, R174, R176). -/
def State.coreLoad (s : State) (c a n : Nat) : Answer × State :=
  let p := s.placeFor c .load a
  let under := (s.core c).loaded.any fun x => x.ask = .load && x.addr = a
  match p with
  | .reg _ => if n ≠ 4 then (.error, s) else s.askPort c .load a p 4 []
  | _ =>
    let s0 := if s.cached c a p && !under then s.parity c p.key false else s
    match (if s.cached c a p then (s0.core c).hit p.key else none) with
    | some l => (.data ((l.data.drop (p.key % 32)).take n), s0)
    | none =>
      if !under && !s.coreMay c p n false then (.error, s0.refuse c a p n false)
      else if s.cached c a p then
        match s0.askPort c .load a (keyPlace (p.key / 32 * 32)) 32 [] with
        | (.data l, s2) => (.data ((l.drop (p.key % 32)).take n), s2.fill c { line := p.key / 32, data := l })
        | r => r
      else s0.askPort c .load a p n []

/-- Stores of core `c` that have had no response yet (R171). -/
def State.posted (s : State) (c : Nat) : Nat := ((s.outstanding c).filter (·.ask = .store)).length

/-- Store bytes at `a` by core `c`: an error is that of a register store, which is precise and waits for the core's earlier stores. Stores
to memory are posted and go to the bus matrix; a fifth waits for a response (R169, R171). The stores of boot ROM and of unmapped addresses
get their error there (log entry 16). -/
def State.coreStore (s : State) (c a : Nat) (l : List Byte) : Answer × State :=
  let p := s.placeFor c .put a
  match p with
  | .reg _ =>
    if l.length ≠ 4 then (.error, s)
    else if ((s.core c).asked .put a 4).isNone && s.busy c then (.wait, s)
    else s.askPort c .put a p 4 l
  | _ =>
    let req : BusReq := { master := s.masterOf c, core := c, level := (s.core c).level, target := p.target, addr := a, key := p.key, data := l
                          since := s.clk.now }
    if !s.coreMay c p l.length true then (.data [], (s.refuse c a p l.length true).asyncError req)
    else if s.tcm c a then (.data [], ((s.cacheStore c p.key l).writePlace (some c) p l).2)
    else if s.posted c ≥ 4 then (.wait, s)
    else (.data [], (s.cacheStore c p.key l).request req)

/-! ### Control registers -/

/-- Levels by rank. -/
def Level.rank : Level → Nat
  | .u => 0
  | .s => 1
  | .f => 2

/-- STATUS as a word. -/
def ExcRegs.status (x : ExcRegs) : Word := BitVec.ofNat 32 (16 * b2n x.inexc + 4 * x.ppl.code + 2 * b2n x.pien + b2n x.ien)

/-- The level that PPL bits name; none for a reserved encoding. -/
def pplOf (n : Nat) (f : Bool) : Option Level := if n = 0 then some .u else if n = 1 then some .s else if n = 3 && f then some .f else none

/-- Register `i` of a level: STATUS, EPC, CAUSE, ADDR, VEC, SCRATCH. -/
def ExcRegs.read (x : ExcRegs) (i : Nat) : Word :=
  match i with
  | 0 => x.status
  | 1 => x.epc ++ 0#2
  | 2 => BitVec.ofNat 32 (2 ^ 31 * b2n x.intr + x.code.toNat)
  | 3 => x.addr
  | 4 => x.vec ++ 0#2
  | _ => x.scratch

/-- Write register `i` of a level. -/
def ExcRegs.write (x : ExcRegs) (i : Nat) (f : Bool) (w : Word) : ExcRegs :=
  match i with
  | 0 => { x with inexc := w.getLsbD 4, ppl := (pplOf (bitsOf w.toNat 3 2) f).getD x.ppl, pien := w.getLsbD 1, ien := w.getLsbD 0 }
  | 1 => { x with epc := w.extractLsb' 2 30 }
  | 2 => { x with intr := w.getLsbD 31, code := w.extractLsb' 0 6 }
  | 3 => { x with addr := w }
  | 4 => { x with vec := w.extractLsb' 2 30 }
  | _ => { x with scratch := w }

/-- RGNB as a word. -/
def Rgn.word (r : Rgn) : Word := r.base ++ 0#1 ++ BitVec.ofBool r.en ++ BitVec.ofBool r.x ++ BitVec.ofBool r.w ++ BitVec.ofBool r.r

/-- The lowest levels that may read and write control register `n`; none where no register has the number. A write level of 3 is
"none may". -/
def scrLevels (n : Nat) (fed : Bool) : Option (Nat × Nat) :=
  if n = 0x000 then some (0, 3)
  else if n = 0x001 then some (0, 2)
  else if n = 0x002 ∨ n = 0x003 then some (0, 3)
  else if n = 0x004 ∨ n = 0x005 then some (1, 1)
  else if 0x010 ≤ n ∧ n ≤ 0x016 then some (1, 1)
  else if n = 0x017 then some (1, 3)
  else if 0x020 ≤ n ∧ n ≤ 0x025 then some (2, 2)
  else if 0x040 ≤ n ∧ n ≤ 0x04F then some (1, 1)
  else if n = 0x0F0 then (if fed then some (0, 0) else none)
  else if n = 0x0F1 then some (0, 0)
  else if n = 0x0F2 then some (0, 3)
  else none

/-- SCC_CYCLE_LO is read: the low word, and the high word is latched (R186). -/
def State.cycleLo (s : State) (c : Nat) : Word × State :=
  ((s.core c).cycle.setWidth 32, s.modCore c fun k => { k with cycleHi := (k.cycle >>> 32).setWidth 32 })

/-- Read control register `n`. -/
def State.scrRead (s : State) (c n : Nat) : Word × State :=
  let k := s.core c
  if n = 0x000 then (BitVec.ofNat 32 (c + 8 * b2n (s.locked c)), s)
  else if n = 0x001 then (k.bay.setWidth 32, s)
  else if n = 0x002 then s.cycleLo c
  else if n = 0x003 then (k.cycleHi, s)
  else if n = 0x004 then (k.timecmp.setWidth 32, s)
  else if n = 0x005 then ((k.timecmp >>> 32).setWidth 32, s)
  else if n = 0x016 then (k.ie.setWidth 32, s)
  else if n = 0x017 then (BitVec.ofNat 32 (2 * b2n (s.extPending c) + b2n k.timerPending), s)
  else if n < 0x016 then (k.sx.read (n - 0x010), s)
  else if n < 0x026 then (k.fx.read (n - 0x020), s)
  else if n < 0x048 then ((vget k.rgn (n - 0x040)).word, s)
  else if n < 0x050 then ((vget k.rgn (n - 0x048)).last ++ 0#5, s)
  else if n = 0x0F0 then (s.reg (Reg.DBG_DATA c), s)
  else if n = 0x0F1 then (s.vtStatus c, s)
  else s.vtIn c

/-- Write control register `n`. -/
def State.scrWrite (s : State) (c n : Nat) (w : Word) : State :=
  if n = 0x001 then s.setBay c (w.setWidth 3)
  else if n = 0x004 then s.modCore c fun k => { k with timecmp := (k.timecmp >>> 32).setWidth 32 ++ w }
  else if n = 0x005 then s.modCore c fun k => { k with timecmp := w ++ k.timecmp.setWidth 32 }
  else if n = 0x016 then s.modCore c fun k => { k with ie := w.setWidth 2 }
  else if n < 0x016 then s.modCore c fun k => { k with sx := k.sx.write (n - 0x010) false w }
  else if n < 0x026 then s.modCore c fun k => { k with fx := k.fx.write (n - 0x020) true w }
  else if n < 0x048 then s.modCore c fun k => { k with rgn := vmod k.rgn (n - 0x040) fun r =>
    { r with base := w.extractLsb' 5 27, en := w.getLsbD 3, x := w.getLsbD 2, w := w.getLsbD 1, r := w.getLsbD 0 } }
  else if n < 0x050 then s.modCore c fun k => { k with rgn := vmod k.rgn (n - 0x048) fun r => { r with last := w.extractLsb' 5 27 } }
  else if n = 0x0F0 then s.setReg (Reg.DBG_DATA c) w
  else s.vtOut c (w.setWidth 8)

/-! ### One instruction -/

/-- How an instruction ends: it retires, waits for an access, or raises a synchronous exception with its ADDR. -/
inductive Retired where
  | done (s : State)
  | wait (s : State)
  | trap (s : State) (code : Nat) (addr : Word)

/-- Retire: the pc goes on to the next instruction. -/
def State.advance (s : State) (c : Nat) : State := s.modCore c fun k => { k with pc := k.pc + 1 }

/-- Retire with a result. -/
def State.result (s : State) (c : Nat) (rd : BitVec 5) (v : Word) : Retired := .done ((s.setG c rd v).advance c)

/-- The core is below level `n`. -/
def State.below (s : State) (c n : Nat) : Bool := (s.core c).level.rank < n

/-- Address of a load or store. -/
def State.effAddr (s : State) (c : Nat) (ra : BitVec 5) (i : BitVec 16) : Word := s.greg c ra + i.signExtend 32

/-- Loads (R172, R173, R190). -/
def State.doLoad (s : State) (c : Nat) (f : Load) (rd ra : BitVec 5) (i : BitVec 16) : Retired :=
  let a := s.effAddr c ra i
  let p := s.placeFor c .load a.toNat
  let resvable := match p with | .sram _ => true | .ddr _ => true | .rom _ => false | .bkf _ => false | .reg _ => false | .hole => false
  if a.toNat % f.size ≠ 0 then .trap s xLOAD_ALIGN a
  else if !(s.core c).region Rgn.r a.toNat || (f = .ll && !resvable) then .trap s xLOAD_ACCESS a
  else match s.coreLoad c a.toNat f.size with
    | (.wait, s1) => .wait s1
    | (.error, s1) => .trap s1 xLOAD_ACCESS a
    | (.data l, s1) =>
      let s2 := if f = .ll then s1.modCore c fun k => { k with resv := some (p.key / 32) } else s1
      s2.result c rd (f.val l)

/-- Stores. -/
def State.doStore (s : State) (c : Nat) (f : Store) (rs ra : BitVec 5) (i : BitVec 16) : Retired :=
  let a := s.effAddr c ra i
  if a.toNat % f.size ≠ 0 then .trap s xSTORE_ALIGN a
  else if !(s.core c).region Rgn.w a.toNat then .trap s xSTORE_ACCESS a
  else match s.coreStore c a.toNat (natLe f.size (s.greg c rs).toNat) with
    | (.wait, s1) => .wait s1
    | (.error, s1) => .trap s1 xSTORE_ACCESS a
    | (.data _, s1) => .done (s1.advance c)

/-- An SC of core `c` has been asked of the bus matrix (R173). -/
def Core.scAsked (k : Core) : Bool := k.loaded.any (·.ask = .sc)

/-- SC (R173): it stores if the reservation is still set. -/
def State.doSc (s : State) (c : Nat) (rd ra rb : BitVec 5) : Retired :=
  let a := s.greg c ra
  let p := s.placeFor c .sc a.toNat
  let resvable := match p with | .sram _ => true | .ddr _ => true | .rom _ => false | .bkf _ => false | .reg _ => false | .hole => false
  let free (s : State) : State := s.modCore c fun k => { k with resv := none }
  if a.toNat % 4 ≠ 0 then .trap s xSTORE_ALIGN a
  else if !(s.core c).region Rgn.w a.toNat || !resvable then .trap s xSTORE_ACCESS a
  else if (s.core c).resv.isNone && !(s.core c).scAsked then (free s).result c rd 0
  else if !(s.core c).scAsked && !s.coreMay c p 4 true then .trap (free (s.refuse c a.toNat p 4 true)) xSTORE_ACCESS a
  else
    let l := natLe 4 (s.greg c rb).toNat
    match s.askPort c .sc a.toNat p 4 l with
    | (.wait, s1) => .wait s1
    | (.error, s1) => .trap (free s1) xSTORE_ACCESS a
    | (.data x, s1) => if x = [1] then ((free s1).cacheStore c p.key l).result c rd 1 else (free s1).result c rd 0

/-- CTLR and CTLW (R167): an unlisted number is ILLEGAL, a level too low is PRIVILEGE. -/
def State.doCtlr (s : State) (c : Nat) (fed : Bool) (rd : BitVec 5) (n : BitVec 12) : Retired :=
  let w := (CoreOp.ctlr rd n).encode
  match scrLevels n.toNat fed with
  | none => .trap s xILLEGAL w
  | some (r, _) =>
    if s.below c r then .trap s xPRIVILEGE w
    else
      let (v, s1) := s.scrRead c n.toNat
      s1.result c rd v

def State.doCtlw (s : State) (c : Nat) (fed : Bool) (n : BitVec 12) (ra : BitVec 5) : Retired :=
  let w := (CoreOp.ctlw n ra).encode
  match scrLevels n.toNat fed with
  | none => .trap s xILLEGAL w
  | some (_, r) => if s.below c r then .trap s xPRIVILEGE w else .done ((s.scrWrite c n.toNat (s.greg c ra)).advance c)

/-- ERET (R177) at level S or F. -/
def State.doEret (s : State) (c : Nat) : State :=
  let k := s.core c
  let f := k.level = .f
  let x := k.exc f
  let x' := { x with ien := x.pien, inexc := false }
  let s1 := s.modCore c fun k =>
    let k1 := { k with level := x.ppl, pc := x.epc, resv := none }
    if f then { k1 with fx := x' } else { k1 with sx := x' }
  s1.traceMoved c k.level

/-- The interrupt that ends rest at core `c` or keeps it from resting: one that it would take, or PLATFORM (R187). -/
def State.wakeIrq (s : State) (c : Nat) : Option Nat := if (s.core c).platform then some xPLATFORM else s.irq c

/-- REST (R186, R187): with such an interrupt pending a NOP; else it waits until the write buffer is empty. -/
def State.doRest (s : State) (c : Nat) : Retired :=
  if (s.wakeIrq c).isSome then .done (s.advance c)
  else if s.busy c then .wait s
  else
    let s1 := (s.advance c).traceStop c 0x58
    .done (s1.each (s.mates c) fun s i => s.put (Fd.SYS_CORECTL_STATE i) 2)

/-- BRK (R507): a halt where halting is authorised, else BREAK. -/
def State.doBrk (s : State) (c : Nat) : Retired :=
  if s.levelEnabled c false then .done ((s.advance c).enterHalt c 3 ((s.core c).pc + 1)) else .trap s xBREAK 0

/-- A privileged instruction without operands. -/
def State.atS (s : State) (c : Nat) (op : CoreOp) (f : State → State) : Retired :=
  if s.below c 1 then .trap s xPRIVILEGE op.encode else .done (f s)

/-- The effect of one instruction at core `c` (R190); `fed`: given by a debugger. -/
def State.execOp (s : State) (c : Nat) (fed : Bool) (op : CoreOp) : Retired :=
  match op with
  | .alu f rd ra rb => s.result c rd (f.val (s.greg c ra) (s.greg c rb))
  | .imm f rd ra i => s.result c rd (f.val (s.greg c ra) i)
  | .shift f rd ra sh => s.result c rd (f.val (s.greg c ra) sh)
  | .lui rd i => s.result c rd (i ++ 0#16)
  | .load f rd ra i => s.doLoad c f rd ra i
  | .store f rs ra i => s.doStore c f rs ra i
  | .sc rd ra rb => s.doSc c rd ra rb
  | .branch f ra rb off =>
    let t := f.holds (s.greg c ra) (s.greg c rb)
    .done ((s.modCore c fun k => { k with pc := if t then k.pc + off.signExtend 30 else k.pc + 1 }).traceBranch c t)
  | .j off => .done (s.modCore c fun k => { k with pc := k.pc + off.signExtend 30 })
  | .jal off => .done ((s.setG c 31 (((s.core c).pc + 1) ++ 0#2)).modCore c fun k => { k with pc := k.pc + off.signExtend 30 })
  | .jalr rd ra i =>
    let t := (s.effAddr c ra i).extractLsb' 2 30
    .done (((s.setG c rd (((s.core c).pc + 1) ++ 0#2)).modCore c fun k => { k with pc := t }).traceAddr c (4 * t.toNat))
  | .ctlr rd n => s.doCtlr c fed rd n
  | .ctlw n ra => s.doCtlw c fed n ra
  | .ecall =>
    match (s.core c).level with
    | .u => .trap s xECALL_U 0
    | .s => .trap s xECALL_S 0
    | .f => .trap s xILLEGAL op.encode
  | .eret => s.atS c op fun s => s.doEret c
  | .fence => if s.busy c then .wait s else .done (s.advance c)
  | .ifence => s.atS c op fun s => (s.modCore c fun k => { k with icache := [] }).advance c
  | .dinv ra =>
    let k := (s.place c (s.greg c ra).toNat).key
    .done ((s.modCore c fun x => { x with dcache := x.dcache.filter fun l => l.line ≠ k / 32 }).advance c)
  | .rest => if s.below c 1 then .trap s xPRIVILEGE op.encode else s.doRest c
  | .brk => s.doBrk c

/-! ### The instruction boundary (R180, R510) -/

/-- The fetch at the core's pc succeeds (R168, R174, R175): a memory that the core's bay may read, and at U a region with X; none while it
waits. -/
def State.fetchOk (s : State) (c : Nat) : Option Bool × State :=
  let k := s.core c
  let a := 4 * k.pc.toNat
  let p := s.placeFor c .fetch a
  let under := k.fetched.any (·.addr = a)
  let s0 := if s.cached c a p && !under then s.parity c p.key true else s
  if !k.region Rgn.x a then (some false, s)
  else if (lineAt p.key (s0.core c).icache).isSome then (some true, s0)
  else if !under && !s.coreMay c p 4 false then (some false, s0.refuse c a p 4 false)
  else if s.cached c a p then
    match s0.askPort c .fetch a (keyPlace (p.key / 32 * 32)) 32 [] with
    | (.data l, s1) => (some true, s1.fillI c { line := p.key / 32, data := l })
    | (.error, s1) => (some false, s1)
    | (.wait, s1) => (none, s1)
  else
    match s0.askPort c .fetch a p 4 [] with
    | (.data _, s1) => (some true, s1)
    | (.error, s1) => (some false, s1)
    | (.wait, s1) => (none, s1)

/-- The access under way takes effect where it is made: an SC, or one to a register. -/
def Core.bound (k : Core) : Bool := k.loaded.any fun x => x.ask = .sc || x.ask = .put || (match keyPlace x.key with | .reg _ => true | _ => false)

/-- Core `c` executes: it is running and has its clock. -/
def State.coreRuns (s : State) (c : Nat) : Bool := s.coreState c = 1 && s.clocksRun

/-- A step under DBG_CTL.STEP without STEP_IRQ takes nothing else first (R510). -/
def State.quietStep (s : State) (c : Nat) : Bool := (s.core c).stepping && !s.bit (Fd.DBG_CTL_STEP_IRQ c)

/-- After an instruction or an entry: a step ends in a halt, a halt request acts (R507, R510); the pair's higher core follows. -/
def State.boundary (s0 : State) (c : Nat) (stepped : Bool) : State :=
  let s := s0.modCore c fun k => { k with fetched := none, loaded := none }
  let s1 := if stepped && s.coreState c = 1 then s.enterHalt c 4 (s.core c).pc else s.haltPoll c
  s1.mirror c

/-- The exception that a word raises or the instruction it stands for (R180: FETCH_ACCESS first). -/
def State.attempt (s : State) (c : Nat) (op : Except Word CoreOp) : Retired :=
  match s.fetchOk c with
  | (none, s1) => .wait s1
  | (some false, s1) => .trap s1 xFETCH_ACCESS (BitVec.ofNat 32 (4 * (s.core c).pc.toNat))
  | (some true, s1) =>
    match op with
    | .error w => .trap s1 xILLEGAL w
    | .ok op => s1.execOp c false op

/-- The core unit of `c` comes to the boundary before an instruction and goes on as R180 gives: STORE_ASYNC, the instruction's own
exception, an interrupt, or the instruction. While an access of the instruction under way has no answer the core waits. An instruction
whose access takes effect where it is made is asked only once nothing comes before it, and then retires before anything else is taken
(R173). -/
def State.isa (s : State) (c : Nat) (op : Except Word CoreOp) : State :=
  let c := s.lead c
  if !s.coreRuns c || (s.core c).waits then s
  else
    let k := s.core c
    let step := k.stepping
    match (if s.quietStep c || k.bound then none else k.asyncAt) with
    | some i => (s.takeAsync c i).boundary c false
    | none =>
      match s.attempt c op with
      | .wait s1 =>
        match (if s.quietStep c || k.bound || !(s1.core c).bound then none else s.irq c) with
        | some code => (s.takeIrq c code).boundary c false
        | none => s1
      | .trap s1 code addr => (s1.takeExc c code addr (code = xECALL_S)).boundary c step
      | .done s1 =>
        match (if s.quietStep c || isRest op || k.bound then none else s.irq c) with
        | some code => (s.takeIrq c code).boundary c false
        | none => s1.boundary c step

/-- A pending cause other than an instruction's is taken at a boundary: `codes` says which. -/
def State.takePending (s : State) (c : Nat) (codes : List Nat) : State :=
  let c := s.lead c
  if !s.coreRuns c || (s.core c).waits || (s.core c).bound then s
  else match (s.core c).asyncAt with
    | some i => if codes.contains xSTORE_ASYNC then (s.takeAsync c i).boundary c false else s
    | none =>
      match s.irq c with
      | some code => if codes.contains code then (s.takeIrq c code).boundary c false else s
      | none => s

/-- CORE_WAKE (R187): a resting core with an interrupt that it would take, or PLATFORM, wakes and takes it, after a STORE_ASYNC report that it
can take (R180); outside a slice it waits (R201). -/
def State.wakeCore (s : State) (c : Nat) : State :=
  let c := s.lead c
  if s.coreState c ≠ 2 || (s.core c).idle ≠ .no then s
  else match s.wakeIrq c with
    | none => s
    | some code =>
      let s1 := (s.each (s.mates c) fun s i => s.put (Fd.SYS_CORECTL_STATE i) 1).traceWake c
      match (s.core c).asyncAt with
      | some i => (s1.takeAsync c i).boundary c false
      | none => (s1.takeIrq c code).boundary c false

/-! ### Fed words (R509) -/

/-- The word waiting at DBG_FEEDn executes on the halted core unit; one whose access waits goes on waiting. -/
def State.runFeed (s : State) (n : Nat) : State :=
  match vget s.dbg.feed n with
  | none => s
  | some w =>
    let c := s.lead n
    let ended (s : State) : State :=
      ({ s with dbg := { s.dbg with feed := vmod s.dbg.feed n fun _ => none } }).put (Fd.DBG_STAT_FEED_BUSY n) 0
    let fail (s : State) (code : Nat) : State := (ended s).put (Fd.DBG_STAT_FEED_ERR n) code
    if s.coreState n ≠ 3 then fail s 1
    else match decodeCore w with
      | none => fail s 1
      | some op =>
        if !op.feedable then fail s 1
        else
          let pc := (s.core c).pc
          let at_ := s.modCore c fun k => { k with pc := (s.reg (Reg.DBG_PC c)).extractLsb' 2 30 }
          match at_.execOp c true op with
          | .wait s1 => s1.modCore c fun k => { k with pc := pc }
          | .trap s1 code _ => fail (s1.modCore c fun _ => { s.core c with fetched := none, loaded := none }) code
          | .done s1 => ended ((s1.modCore c fun k => { k with pc := pc, fetched := none, loaded := none }).mirror c)

/-- Every waiting word executes. -/
def State.runFeeds (s : State) : State := s.each (List.range 6) State.runFeed

end Sys2Proof.Machine
end

