-- ==== Sys2Proof/Machine/Snapshots.lean ====
section
/-! DEFINITION. The snap port (R231 to R239): the word map, the two snapshots and their latches. -/

namespace Sys2Proof.Machine

/-- Words 0x0010 to 0x0016 of a time snapshot made now, with `seq` (R237). The time engine has no readiness bit but the port's own
(R472; DEDUCED, log entry 36). -/
def State.timeWords (s : State) (seq : BitVec 8) : List (BitVec 16) :=
  let head := 2 ^ 15 * b2n (s.bit Fd.PLB_STATE_VALID) + 2 ^ 13 * s.plbState + 2 ^ 12 * b2n (s.bit Fd.PLB_STATE_SLOPE_ACTIVE) + seq.toNat
  [head, s.sec, s.sec / 2 ^ 16, s.sec / 2 ^ 32, s.nsInSec, s.nsInSec / 2 ^ 16, s.tme.t % 2 ^ 48 / 2 ^ 32].map (BitVec.ofNat 16)

/-- Words 0x0020 to 0x0023 of a position snapshot made now, with `seq` (R238); zeros until ODO is ready (R234). -/
def State.posWords (s : State) (seq : BitVec 8) : List (BitVec 16) :=
  if !s.ready rODO then List.replicate 4 0
  else
    let p := unsigned 48 s.unitPos
    let head := 2 ^ 15 * b2n s.odoValid + 2 ^ 14 * b2n (s.bit Fd.ODO_SEL_STALLED) + 2 ^ 13 * b2n s.odoPredicted + 2 ^ 12 * b2n s.odoRev +
      2 ^ 10 * (s.odo.sel % 4) + 2 ^ 9 * b2n s.odoUnreliable + seq.toNat
    [head, p, p / 2 ^ 16, p / 2 ^ 32].map (BitVec.ofNat 16)

/-- Latch the time snapshot: SEQ counts, and the words are those of the present step (R236, R237). -/
def State.latchTime (s : State) : State :=
  let q := s.snap.timeSeq + 1
  { s with snap := { s.snap with timeSeq := q, time := s.timeWords q } }

/-- Latch the position snapshot (R236, R238). -/
def State.latchPos (s : State) : State :=
  let q := s.snap.posSeq + 1
  { s with snap := { s.snap with posSeq := q, pos := s.posWords q } }

/-- The 16 peg bits of word `w` of bay `b`: 1 where the peg is HOST (R235). -/
def State.pegWord (s : State) (b w : Nat) : Nat :=
  (List.range 16).foldl (fun n i => n + 2 ^ i * b2n (s.peg b (16 * w + i) = pHOST)) 0

/-- What the snap word map shows at `w`; of a snapshot, the latched copy (R234 to R238). -/
def State.snapWord (s : State) (w : Nat) : BitVec 16 :=
  if w < 4 then BitVec.ofNat 16 ((s.reg (if w < 2 then Reg.RDY_BOARD_LO else Reg.RDY_BOARD_HI)).toNat / 2 ^ (16 * (w % 2)))
  else if 0x10 ≤ w ∧ w < 0x17 then s.snap.time.getD (w - 0x10) 0
  else if 0x20 ≤ w ∧ w < 0x24 then s.snap.pos.getD (w - 0x20) 0
  else if 0x100 ≤ w ∧ w < 0x900 then BitVec.ofNat 16 (s.pegWord ((w - 0x100) / 256) ((w - 0x100) % 256))
  else if 0x1000 ≤ w ∧ w < 0x1008 then (if s.ready rMBX then BitVec.ofNat 16 (b2n ((s.reg Reg.MBX_DBLATCH).getLsbD (w - 0x1000))) else 0)
  else if w = 0x1100 then (if s.ready rPLB then BitVec.ofNat 16 (s.reg Reg.PLB_STATE).toNat else 0)
  else if w = 0x1200 then BitVec.ofNat 16 (s.reg Reg.SYS_FLTSUM).toNat
  else if w = 0x1300 then BitVec.ofNat 16 (s.reg Reg.SYS_REMAP).toNat
  else 0

/-- A read of word `w`: a latching word latches first; before AON the port does not answer (R231, R236). -/
def State.snapRead (s : State) (w : Nat) : State :=
  if !s.ready rAON then s.drive .highZ
  else
    let s1 := if w = 0x10 then s.latchTime else if w = 0x20 then s.latchPos else s
    s1.drive (.snap (s1.snapWord w))

/-- A write to word `w`: a doorbell sets its bay's latch, any other is ignored and counted (R233, R234, R239). -/
def State.snapWrite (s : State) (w : Nat) : State :=
  if !s.ready rAON then s
  else if 0x1000 ≤ w ∧ w < 0x1008 then s.ringBell (w - 0x1000)
  else s.bump Fd.SNP_STAT_IGNORED

end Sys2Proof.Machine
end

