-- ==== Sys2Proof/Machine/HostEvents.lean ====
section
/-! DEFINITION. Slice switches (07), PCIe requests and window accesses (08), and the TAP (22, 23). -/

namespace Sys2Proof.Machine

/-! ### Slices (R199 to R201, R512) -/

/-- The bays that core `c`'s unit serves: those granted it (R199). -/
def State.servedBays (s : State) (c : Nat) : List Nat :=
  (List.range 8).filter fun b => b ≠ 0 && s.bayState b ≠ bEMPTY && (unitCores (s.bayRec b).coreUnit).contains c

/-- The RUNNING bay whose slice the present sixteenth is, or 0 for none. -/
def State.sliceBay (s : State) (c : Nat) : Nat :=
  let x := s.sixteenth
  ((s.servedBays c).find? fun b => s.bayState b = bRUNNING && (s.bayRec b).sliceFirst ≤ x && x < (s.bayRec b).sliceFirst + (s.bayRec b).sliceLen).getD 0

/-- The monitor is in its handler with PLATFORM (R200). -/
def Core.atPlatform (k : Core) : Bool := k.level = .f && k.fx.inexc && k.fx.intr && k.fx.code.toNat = xPLATFORM

/-- What the monitor saves of core `c` for the bay it serves (R200; R176's pending STORE_ASYNC with it). -/
def Core.context (k : Core) : SliceCtx :=
  { g := k.g.toList, pc := if k.atPlatform then k.fx.epc else k.pc, level := if k.atPlatform then k.fx.ppl else k.level, sx := k.sx, ie := k.ie, timecmp := k.timecmp, rgn := k.rgn.toList, async := k.async }

/-- Core `k` with a saved context in place; it has returned from PLATFORM to it. -/
def Core.restore (k : Core) (x : SliceCtx) : Core :=
  { k with g := Vector.ofFn fun (i : Fin 32) => x.g.getD i.val 0, pc := x.pc, level := x.level, sx := x.sx, ie := x.ie, timecmp := x.timecmp
           rgn := Vector.ofFn fun (i : Fin 8) => x.rgn.getD i.val {}, async := x.async
           fx := { k.fx with epc := x.pc, ppl := x.level, intr := true, code := BitVec.ofNat 6 xPLATFORM } }

/-- A granted sixteenth begins: a unit that rested for want of a bay goes on (R199). -/
def State.busyUnit (s : State) (l : Nat) : State :=
  match (s.core l).idle with
  | .no => s
  | was =>
    let s1 := s.each (s.mates l) fun s i => s.modCore i fun k => { k with idle := .no }
    if was = .ran && s.coreState l = 2 then
      ((s1.each (s.mates l) fun s i => s.put (Fd.SYS_CORECTL_STATE i) 1).traceWake l).haltPoll l
    else s1

/-- The platform firmware requests core `l`'s unit (R175). -/
def State.raisePlatform (s : State) (l : Nat) : State := s.each (s.mates l) fun s i => s.modCore i fun k => { k with platform := true }

/-- The monitor can take PLATFORM at core `l` now, or has taken it (R179, R187, R200). -/
def State.platformOpen (s : State) (l : Nat) : Bool :=
  let k := s.core l
  s.coreState l = 2 || k.level ≠ .f || k.fx.ien || k.atPlatform

/-- The monitor's switch of core `l`'s unit to bay `b`, 0 for none: save, invalidate, write SCC_BAY, restore; rest where no bay is served
(R199, R200). -/
def State.switchBay (s : State) (l b : Nat) : State :=
  let old := (s.core l).bay.toNat
  let s1 := s.when (old ≠ 0) fun s => s.modBay old fun r => { r with ctx := some (s.core l).context }
  let s2 := (s1.each (s.mates l) fun s i => s.modCore i fun k => { k with icache := [], dcache := [], resv := none, platform := false, level := .f }).setBay
    l (BitVec.ofNat 3 b)
  if b = 0 then s2.idleUnit l
  else
    let x := (s.bayRec b).ctx.getD (freshCtx (s.bayRec b).entry (s.bayRec b).reason)
    ((s2.each (s.mates l) fun s i => (s.put (Fd.SYS_CORECTL_STATE i) 1).modCore i fun k => { k.restore x with idle := .no }).traceSync l).haltPoll l

/-- SLICE_SWITCH of core `c`'s unit: the platform firmware requests it with PLATFORM, and the monitor acts once it has taken that and the
outgoing bay's accesses have completed, so that their errors are saved with its state (R175, R176, R200; log entry 29). A unit that serves
one bay never switches, and rests outside that bay's slice (R199). A halted unit does not switch, and loses the slice (R512). -/
def State.sliceSwitch (s : State) (c : Nat) : State :=
  let l := s.lead c
  let b := s.sliceBay l
  let n := (s.servedBays l).length
  let moves : Bool := n ≥ 2 && b ≠ (s.core l).bay.toNat
  let rests : Bool := !moves && b = 0 && (s.core l).idle = .no
  if l < 2 || n = 0 || s.coreState l = 0 then s
  else if s.coreState l = 3 then (if moves then s.bump (Fd.DBG_STAT_SLICES_LOST l) else s)
  else if moves || rests then
    let s1 := if (s.core l).atPlatform then s else s.raisePlatform l
    if !s.platformOpen l || s.busy l || (s.core l).waits then s1
    else if moves then s1.switchBay l b
    else s1.idleUnit l
  else if b = 0 then s
  else s.busyUnit l

/-! ### PCIe configuration and register access (R212 to R221) -/

/-- The word of base address register `i` of function `fn` (8 is the PF) once software has written `w` to it: the size's bits read 0, bits
3:0 tell a 64-bit BAR and whether it is prefetchable; the PF has no BAR4 (R215). -/
def barWord (fn i : Nat) (w : Word) : Word :=
  if i = 4 && fn = 8 || i = 5 && fn = 8 then 0
  else if i % 2 = 1 then w
  else if i = 0 then (w &&& 0xFF800000) ||| 4
  else if i = 2 then (w &&& 0xFFFF0000) ||| 4
  else (w &&& 0xF0000000) ||| 0xC

/-- A Configuration Request that reads. -/
def isConfigRead : ConfigReq → Bool
  | .readId | .readClass | .readCommand | .readSriov _ | .readBar _ | .readControl | .readLink | .readAer => true
  | .writeCommand _ | .msixControl _ _ | .vfEnable _ | .writeBar _ _ | .maxPayload _ | .power _ | .aspm _ | .clearAer _ => false

/-- VF Enable is written: clearing it resets every VF (R221), and VFs that come to be have no vector pending. -/
def State.setVfEnable (s : State) (on : Bool) : State :=
  let s1 :=
    if s.pcie.vfEnable && !on then s.each (List.range 8) State.vfReset
    else if !s.pcie.vfEnable && on then s.each (List.range 8) fun s n => s.modFn n fun f => { f with pend := 0 }
    else s
  { s1 with pcie := { s1.pcie with vfEnable := on } }

/-- A Configuration Request of function `fn` (8 is the PF): Retry Status until PCIE sets (R214); a VF that does not exist answers
Unsupported Request (PRESUMED, PCI, log entry 12). -/
def State.configRequest (s : State) (fn : Nat) (q : ConfigReq) : State :=
  if !s.ready rPCIE then s.emit .retry
  else if !s.fnThere fn then (if isConfigRead q then s.emit .unsupported else s)
  else match q with
    | .readId => s.emit (.word (BitVec.ofNat 32 ((if fn = 8 then 0x7480 else 0x7481) * 65536 + Config.vendorId % 65536)))
    | .readClass => s.emit (.word 0x048000B0)
    | .readCommand => s.emit (.word ((vget s.pcie.fns fn).command.setWidth 32))
    | .writeCommand w => s.modFn fn fun f => { f with command := w }
    | .msixControl en mask => (s.modFn fn fun f => { f with msixEn := en, msixMask := mask }).msixFlush fn
    | .vfEnable on =>
      if fn ≠ 8 then s else s.setVfEnable on
    | .readSriov offsets => s.emit (.word (if fn ≠ 8 then 0 else if offsets then 0x00010001 else 0x00080008))
    | .readBar i => s.emit (.word (barWord fn i.val (vget (vget s.pcie.fns fn).bars i.val)))
    | .writeBar i w => s.modFn fn fun f => { f with bars := vmod f.bars i.val fun _ => w }
    | .maxPayload code => if code.toNat ≤ 2 then s.modFn fn fun f => { f with maxPayload := code } else s
    | .power d3 => (s.modFn fn fun f => { f with d3 := d3 }).msixFlush fn
    | .aspm l1 => s.modFn fn fun f => { f with aspmL1 := l1 }
    | .readControl =>
      let f := vget s.pcie.fns fn
      s.emit (.word (BitVec.ofNat 32 (f.maxPayload.toNat * 2 ^ 5 + b2n f.aspmL1 * 2 ^ 17 + (if f.d3 then 3 else 0) * 2 ^ 30)))
    | .readLink => s.emit (.word (BitVec.ofNat 32 (if s.pcie.link then 2 ^ s.pcie.width * 16 + s.pcie.gen + 1 else 0)))
    | .readAer => s.emit (.word (vget s.pcie.fns fn).aer)
    | .clearAer w => s.modFn fn fun f => { f with aer := f.aer &&& ~~~w }

/-- A write through BAR0 at offset `o` changes nothing; it is counted (R216). -/
def State.bar0Write (s : State) (fn o : Nat) : State :=
  if fn < 8 then s.violation fn (0x40000000 + o) 1 else s.bump Fd.PCI_ERR_WR_DROP

/-- A BAR2 access that is not an aligned 32-bit access (R217). -/
def State.bar2Bad (s : State) (read : Bool) : State :=
  let s1 := s.bump Fd.PCI_ERR_BAD_ACCESS
  if read then s1.emit .abort else s1

/-- PCIE_HOT_RESET, or link down: an FLR of the PF; an image on its way from the host begins anew (R221, R457). -/
def State.hotReset (s : State) : State :=
  let s1 := s.pfReset
  { s1 with pcie := { s1.pcie with link := false }, fw := { s1.fw with hostBuf := [] } }

/-- PCIE_LINK_UP at a speed and a width; boot ROM that waits for the host sets PCIE (R213, R457). -/
def State.pcieLinkUp (s : State) (gen width : Nat) : State :=
  let s1 := { s with pcie := { s.pcie with link := true, gen := gen, width := width } }
  if s.fw.hostPhase = 1 || s.fw.hostPhase = 2 then s1.setReady rPCIE else s1

/-! ### TAP (R500 to R502, R537) -/

/-- An instruction is loaded: what the 5-bit instruction register captured, 0b00001, goes out (R500). -/
def State.setIr (s : State) (i : TapIr) : State := ({ s with dbg := { s.dbg with ir := i, tck := s.dbg.tck + 1 } }).emit (.tdo 1 5)

/-- An instruction whose data register is the 1-bit bypass register, which captures 0 (PRESUMED, IEEE 1149.1, log entry 14). -/
def State.bypassScan (s : State) (i : TapIr) : State := (s.setIr i).emit (.tdo 0 1)

/-- TAP_DBGACC: the register captured for the last access goes out, then the new access is made, unless that access is still under way
(R501). It goes through the bus matrix, which has its clock while the derived clocks run; else it reaches the debug blocks at once (DESIGN
CHOICE, log entry 10). -/
def State.dbgAcc (s : State) (write : Bool) (word : Nat) (data : Word) : State :=
  let s1 := (s.setIr .dbgacc).emit (.tdo (s.dbg.accData.toNat + 2 ^ 32 * b2n s.dbg.accErr + 2 ^ 33 * b2n s.dbg.accBusy) 51)
  if s.dbg.accBusy then s1
  else
    let r := s1.regReq .tap .tap (0x40600000 + 4 * word) (if write then some data else none)
    (if s.clocksRun then ({ s1 with dbg := { s1.dbg with accBusy := true } }).request r else s1.deliverReg r).when write State.runFeeds

/-! ### Cross-trigger inputs (R513) -/

/-- The level of XTR_IN0 or XTR_IN1; a rising edge is a source. -/
def State.xtrPin (s : State) (pin : Nat) (high : Bool) : State :=
  let was := if pin = 0 then s.dbg.in0 else s.dbg.in1
  let s1 : State := if pin = 0 then { s with dbg := { s.dbg with in0 := high } } else { s with dbg := { s.dbg with in1 := high } }
  if high && !was then s1.xtrSource (4 + pin) none else s1

end Sys2Proof.Machine
end

