-- ==== Sys2Proof/Machine/Agents.lean ====
section
/-! DEFINITION. The masters of the bus matrix beside the cores (05, 08, 19): window accesses of the host with what waits behind them, and crypto
jobs. -/

namespace Sys2Proof.Machine

/-! ### Requests of the PCIe endpoint and of the crypto engines (R156) -/

/-- The request of master `m` to read `n` bytes, or to write `l`, at place `p`. -/
def State.agentReq (s : State) (m : Nat) (ask : Asker) (p : Place) (n : Nat) (l : List Byte) : BusReq :=
  { master := m, core := 7, level := .f, target := p.target, addr := 0, key := p.key, data := l, since := s.clk.now, ask := ask
    read := if l.isEmpty then n else 0 }

/-- The answer to request `id`, if it has come. -/
def State.answerTo (s : State) (id : Nat) : Option (Option (List Byte)) := (s.bxm.answers.find? (·.1 = id)).map (·.2)

/-! ### The shared window (R222 to R225, R229) -/

/-- Change or end the oldest access of function `fn`. -/
def askMod (fn : Nat) (f : HostAsk → Option HostAsk) : List HostAsk → List HostAsk
  | [] => []
  | q :: l => if q.fn = fn then (f q).toList ++ l else q :: askMod fn f l

def State.modAsk (s : State) (fn : Nat) (f : HostAsk → Option HostAsk) : State :=
  { s with pcie := { s.pcie with asks := askMod fn f s.pcie.asks } }

def State.firstAsk (s : State) (fn : Nat) : Option HostAsk := s.pcie.asks.find? (·.fn = fn)

/-- A host read at BAR2 offset `o` answers (R217). -/
def State.bar2Answer (s : State) (n o : Nat) : State :=
  match s.bar2Read n o with
  | (some w, s1) => s1.emit (.word w)
  | (none, s1) => s1.abortTo n

/-- A host read at BAR2 offset `o` of function `n`, behind the window accesses that the function made before (R217, R229). -/
def State.bar2Out (s : State) (n o : Nat) : State := if s.hostBehind n then s.pushAsk { fn := n, op := .bar2Read o } else s.bar2Answer n o

/-- Bytes of the window from offset `o` on that one access to a block takes of `n`. -/
def blockRun (o n : Nat) : Nat := min n (65536 - o % 65536)

/-- The oldest access of function `fn` goes on with its next block, or ends (R223, R224). -/
def State.hostStep (s : State) (fn : Nat) (q : HostAsk) : State :=
  let ask (s : State) (k : Nat) (l : List Byte) : State :=
    let r := s.agentReq 5 .host (s.windowPlace fn q.ofs) k l
    (s.request r).modAsk fn fun x => some { x with wait := some (s.bxm.next, k) }
  let ends (s : State) : State := s.modAsk fn fun _ => none
  match q.op with
  | .bar2Read o => (ends s).bar2Answer fn o
  | .bar2Write o w => (ends s).bar2Write fn o w
  | .read 0 got => (ends s).emit (.bytes got)
  | .read n _ =>
    let k := blockRun q.ofs n
    match s.windowCheck fn q.ofs k false with
    | (.make, s1) => ask s1 k []
    | (_, s1) => (ends s1).abortTo fn
  | .write [] => ends s
  | .write l =>
    let k := blockRun q.ofs l.length
    match s.windowCheck fn q.ofs k true with
    | (.make, s1) => ask s1 k (l.take k)
    | (_, s1) => s1.modAsk fn fun x => some { x with op := .write (l.drop k), ofs := q.ofs + k }

/-- The accesses of function `fn` go on, in order, until one waits for memory. `fuel` bounds their parts. -/
def State.hostGo : Nat → State → Nat → State
  | 0, s, _ => s
  | f + 1, s, fn =>
    match s.firstAsk fn with
    | none => s
    | some q => if q.wait.isSome then s else State.hostGo f (s.hostStep fn q) fn

/-- Parts that the accesses under way may have. -/
def State.hostParts (s : State) : Nat :=
  s.pcie.asks.foldl (fun n q => n + 4 + (match q.op with | .read k _ => k | .write l => l.length | .bar2Read _ | .bar2Write _ _ => 0) / 65536) 1

/-- The answer for the oldest access of function `fn`: a read takes its bytes, a write goes on, and either stops at an error response, a read
with a Completer Abort (R225, R562). -/
def State.hostAnswer (s : State) (fn : Nat) : State :=
  match s.firstAsk fn with
  | none => s
  | some q =>
    match q.wait with
    | none => s
    | some (id, k) =>
      match s.answerTo id with
      | none => s
      | some res =>
        let s1 := match q.op, res with
          | .read n got, some l => s.modAsk fn fun x => some { x with op := .read (n - k) (got ++ l), ofs := q.ofs + k, wait := none }
          | .read _ _, none => (s.modAsk fn fun _ => none).abortTo fn
          | .write l, some _ => s.modAsk fn fun x => some { x with op := .write (l.drop k), ofs := q.ofs + k, wait := none }
          | _, _ => s.modAsk fn fun _ => none
        State.hostGo s1.hostParts s1 fn

/-- A window access comes behind those that the function made before, and goes on at once where there are none. -/
def State.windowAsk (s : State) (n o : Nat) (op : HostOp) : State :=
  let s1 := s.pushAsk { fn := n, op := op, ofs := o, since := s.runNs }
  State.hostGo s1.hostParts s1 n

/-- A read of `k` bytes at window offset `o` of bay `n`: the bay's state counts it also until MBX sets, before which every read aborts
(R223, R474). -/
def State.windowRead (s : State) (n o k : Nat) : State :=
  if s.windowAbsent n then (s.bump Fd.PCI_ERR_ABSENT).abortTo n
  else if !s.ready rMBX then s.abortTo n
  else s.windowAsk n o (.read k [])

/-- A write of bytes at window offset `o` of bay `n` (R223, R224, R474). -/
def State.windowWrite (s : State) (n o : Nat) (l : List Byte) : State :=
  if s.windowAbsent n then s.bump Fd.PCI_ERR_ABSENT
  else if !s.ready rMBX then s
  else s.windowAsk n o (.write l)

/-- Host access `q` is a window read of function `n` that has not completed within PCI_CTO.TIMEOUT, in µs (R225). -/
def State.overdue (s : State) (n : Nat) (q : HostAsk) : Bool :=
  q.fn = n && q.since + 1000 * s.get Fd.PCI_CTO_TIMEOUT ≤ s.runNs && (match q.op with | .read _ _ => true | _ => false)

/-- The oldest window read of VF `n` that has not completed in time, be it under way or still behind the function's writes: a Completer
Abort, and what waits behind it goes on (R225). -/
def State.windowTimeout (s : State) (n : Nat) : State :=
  if s.pcie.asks.any (s.overdue n) then
    let s1 := (({ s with pcie := { s.pcie with asks := s.pcie.asks.eraseP (s.overdue n) } }).bump Fd.PCI_ERR_TIMEOUT).abortTo n
    State.hostGo s1.hostParts s1 n
  else s

/-! ### Crypto jobs (R454) -/

def State.modRun (s : State) (f : JobRun → JobRun) : State := s.modKeys fun k => { k with run := k.run.map f }

/-- The job ends with a STATUS. -/
def State.jobEnd (s : State) (b st : Nat) : State :=
  (s.jobStatus b st).modKeys fun k => { k with jobs := k.jobs &&& ~~~ (1#8 <<< b), next := b, run := none }

/-- One access of the job of bay `b`, `n` bytes to read or `l` to write at platform address `a` (R196, R454): its answer, the newest, where it has one
at once; ADDRESS is none. -/
def State.jobAccess (s : State) (b a n : Nat) (l : List Byte) : Option (Option (List Byte)) × State :=
  let p := s.bayPlace b a
  let write := !l.isEmpty
  let len := if write then l.length else n
  if len = 0 then (some (some []), s)
  else if b ≠ 0 && !s.granted b p len write then (some none, s.violation b a 0)
  else
    let s1 := (s.modRun fun r => { r with wait := some s.bxm.next }).request (s.agentReq 6 .job p n l)
    (if s1.bxm.answers.length = s.bxm.answers.length then none else s1.bxm.answers.getLast?.map (·.2), s1)

/-- The engines' job takes an answer: what it has read, or the end of its write. -/
def State.jobTake (s : State) (r : JobRun) (res : Option (List Byte)) : State :=
  match res with
  | none => s.jobEnd r.bay 3
  | some l => match r.ends with
    | some st => s.jobEnd r.bay st
    | none => s.modRun fun r => { r with got := r.got ++ [l], wait := none }

/-- The engines go on with the job they work on, or with the next busy bay's, in rotation by bay, until an access waits or the job ends
(R454). -/
def State.jobGo : Nat → State → State
  | 0, s => s
  | f + 1, s =>
    match s.keys.run with
    | none =>
      match ((List.range 8).map fun i => (s.keys.next + 1 + i) % 8).find? fun b => s.keys.jobs.getLsbD b with
      | none => s
      | some b => if b ≠ 0 && s.bayState b ≠ bRUNNING then s.jobEnd b 3 else State.jobGo f (s.modKeys fun k => { k with run := some { bay := b } })
    | some r =>
      let take (s : State) (res : Option (List Byte)) : State :=
        let s1 := s.jobTake r res
        if s1.keys.run.isNone then s1 else State.jobGo f s1
      match r.wait with
      | some id =>
        match s.answerTo id with
        | none => s
        | some res => take s res
      | none =>
        match s.jobNeeds r.bay r.got with
        | some (a, n) =>
          match s.jobAccess r.bay a n [] with
          | (none, s1) => s1
          | (some res, s1) => take s1 res
        | none =>
          match s.runJob r.bay r.got with
          | ((st, none), s1) => s1.jobEnd r.bay st
          | ((st, some l), s1) =>
            match (s1.modRun fun r => { r with ends := some st }).jobAccess r.bay (s.jobWord r.bay 4) 0 l with
            | (none, s2) => s2
            | (some res, s2) => s2.jobEnd r.bay (if res.isSome then st else 3)

/-- CRY_JOB_DONE: the job that the engines work on comes to its end, unless an access of it still waits (R454). -/
def State.jobDone (s : State) : State := State.jobGo 8 s

/-! ### Answers -/

/-- Answers reach the host's accesses; those that nobody awaits any more go. -/
def State.hostTick (s : State) : State :=
  if s.bxm.answers.isEmpty then s
  else
    let s1 := s.each (List.range 9) State.hostAnswer
    let wanted := s1.pcie.asks.filterMap (fun q => q.wait.map (·.1)) ++ (s1.keys.run.bind (·.wait)).toList
    s1.modBxm fun b => { b with answers := b.answers.filter fun a => wanted.contains a.1 }

end Sys2Proof.Machine
end

