-- ==== Sys2Proof/Machine/Balls.lean ====
section
/-! DEFINITION. The signal balls (23): where each lies, what it does at reset, what the device does at it now, and the boundary-scan chain. -/

namespace Sys2Proof.Machine

/-! ### Directions and states (R524) -/

/-- Direction of a ball: input, push-pull output, both, open drain. -/
inductive Dir where
  | input | output | both | openDrain
deriving DecidableEq, Repr

/-- What the device does at a ball: nothing, a level driven, a weak pull alone, a differential receiver off, a differential transmitter in
electrical idle; `func`: what the chapter of its block says. -/
inductive Drive where
  | z | low | high | pullDown | pullUp | off | idle | func
deriving DecidableEq, Repr

def Drive.level (b : Bool) : Drive := if b then .high else .low

/-! ### Single-ended signals (R530 to R534) -/

/-- A single-ended signal ball outside LPDDR5X. -/
inductive Sig where
  | camTrig (r : Nat) | hpd (c : Nat) | perst
  | snpD (n : Nat) | snpCs | snpOe | snpA (n : Nat) | snpWe | snpClk
  /-- Port and place in the order TX_BCLK, TX_FS, TX_D, RX_BCLK, RX_FS, RX_D. -/
  | tdm (p k : Nat)
  | mdc | mdio | oscSel (n : Nat) | bootSel (n : Nat) | snpSync | por | sysRst
  | axl (a : Nat) (b : Bool) | posEvt (n : Nat) | oscIn | ref (n : Nat) | gnssPps
  | clkout (n : Nat) | ppsOut | plbSt (n : Nat) | plbAlm
  | pwm (c : Nat) (low : Bool) | pwmFlt (n : Nat)
  | tck | tms | tdi | tdo | dbgRst
  | trcClk | trcSof | trcD (n : Nat) | xtrIn (n : Nat) | xtrOut (n : Nat)
  /-- CLK, CS_N, DQS, RESET_N. -/
  | xspi (k : Nat)
  | xspiIo (n : Nat)
deriving DecidableEq, Repr

/-- Row index and column of a ball (R523, R530, R531, R532, R534). -/
def Sig.place : Sig → Nat × Nat
  | .camTrig r => (7, 2 * r + 2)
  | .hpd c => (18, 26 + 2 * c)
  | .perst => (12, 4)
  | .snpD n => (8, 8 + n)
  | .snpCs => (8, 24)
  | .snpOe => (8, 25)
  | .snpA n => (9, 8 + n)
  | .snpWe => (9, 24)
  | .snpClk => (9, 25)
  | .tdm p k => if p < 3 then (23, 8 + 6 * p + k) else (24, 8 + k)
  | .mdc => (24, 14)
  | .mdio => (24, 15)
  | .oscSel n => (24, 16 + n)
  | .bootSel n => (24, 18 + n)
  | .snpSync => (24, 20)
  | .por => (24, 21)
  | .sysRst => (24, 22)
  | .axl a b => (11 + 2 * a + (if b then 1 else 0), 8)
  | .posEvt n => if n < 4 then (19 + n, 8) else (7 + n, 9)
  | .oscIn => (15, 9)
  | .ref n => (17 + n, 9)
  | .gnssPps => (21, 9)
  | .clkout n => (11 + n, 10)
  | .ppsOut => (13, 10)
  | .plbSt n => (14 + n, 10)
  | .plbAlm => (16, 10)
  | .pwm c low => if c < 6 then (11 + 2 * c + (if low then 1 else 0), 23) else (2 * c - 1 + (if low then 1 else 0), 24)
  | .pwmFlt n => (11 + n, 25)
  | .tck => (19, 26)
  | .tms => (19, 27)
  | .tdi => (19, 28)
  | .tdo => (19, 29)
  | .dbgRst => (19, 30)
  | .trcClk => (20, 26)
  | .trcSof => (20, 27)
  | .trcD n => if n < 4 then (20, 28 + n) else (21, 22 + n)
  | .xtrIn n => (22, 26 + n)
  | .xtrOut n => (22, 28 + n)
  | .xspi k => (23, 26 + k)
  | .xspiIo n => if n < 4 then (24, 26 + n) else (25, 22 + n)

def Sig.dir : Sig → Dir
  | .camTrig _ | .mdc | .posEvt _ | .clkout _ | .ppsOut | .plbSt _ | .pwm _ _ | .tdo | .trcClk | .trcSof | .trcD _ | .xtrOut _ => .output
  | .plbAlm => .openDrain
  | .snpD _ | .mdio | .xspiIo _ => .both
  | .tdm _ k => if k = 2 then .output else if k = 5 then .input else .both
  | .xspi k => if k = 2 then .input else .output
  | _ => .input

/-- The reset state of a ball (R530, R531, R534; PCIE_PERST_N as R532 gives). -/
def Sig.reset : Sig → Drive
  | .camTrig _ | .mdc | .posEvt _ | .clkout _ | .ppsOut | .plbSt _ | .plbAlm | .pwm _ _ | .trcClk | .trcSof | .trcD _ | .xtrOut _ => .low
  | .snpD _ | .tdo | .por | .oscIn | .axl _ _ | .ref _ | .pwmFlt _ => .z
  | .snpCs | .snpOe | .snpWe | .mdio | .sysRst | .tms | .tdi => .pullUp
  | .tdm _ k => if k = 2 then .low else .pullDown
  | .xspi k => if k = 1 then .high else if k = 2 then .pullDown else .low
  | _ => .pullDown

/-! ### What the functions do (R474, R525) -/

/-- What the function that owns a ball does there now: its reset state until its readiness bit sets (R474, R525). -/
def State.fnDrive (s : State) (b : Sig) : Drive :=
  match b with
  | .camTrig r => if s.ready rVID then .level (4 * s.clk.now < vget s.vid.trigEnd r) else b.reset
  | .posEvt n => if s.ready rODO then .level (s.evtHigh n) else b.reset
  | .clkout n => if s.ready rCLK && !s.stands && s.clocksRun && s.bit (outEnable n) &&
      !(s.bit (outSquelch n) && s.plbState = sFREERUN) then .level (vget s.plb.half n % 2 = 0) else .low
  | .ppsOut => if s.ready rCLK && !s.stands then .level s.plb.ppsHigh else .low
  | .plbSt n => if s.ready rPLB then .level (bitAt s.plbState n) else b.reset
  | .plbAlm => if s.ready rPLB && !s.bit Fd.PLB_STATE_ALARM then .z else .low
  | .pwm c low =>
    if s.ready rPWM then .level ((if low then (s.pwmOn c).2 else (s.pwmOn c).1) != (s.pwmNow c).inv) else b.reset
  | .xtrOut n => .level (s.clk.now < if n = 0 then s.dbg.out0 else s.dbg.out1)
  | .trcClk | .trcSof | .trcD _ => if s.bit Fd.TRC_CTL_PORT_EN then .func else b.reset
  | .tdm p k =>
    if !s.ready rAUD || k = 5 then b.reset
    else if k = 2 then .func
    else if (s.tdm p (3 ≤ k)).run && (s.tdm p (3 ≤ k)).master then
      .level (if k % 3 = 0 then (s.tdmLevels p (3 ≤ k)).1 else (s.tdmLevels p (3 ≤ k)).2)
    else b.reset
  | .xspi k => if s.ready rXSPI then (if k = 3 then .high else .func) else b.reset
  | .xspiIo _ => if s.ready rXSPI then .func else b.reset
  | .mdc | .mdio => if s.ready rNET then .func else b.reset
  | _ => b.reset

/-! ### The boundary-scan chain (R537) -/

/-- The two switch balls of PWM channel `c` in column 23 or 24 of a row. -/
def pwmRow (c : Nat) (low : Bool) : List Sig := [.pwm c low, .pwm (c + 6) low]

/-- The 164 balls of the chain in ascending row index, and within a row in ascending column. -/
def chain : List Sig :=
  (List.range 12).map .camTrig ++ (List.range 16).map .snpD ++ [.snpCs, .snpOe] ++ (List.range 16).map .snpA ++ [.snpWe, .snpClk] ++
  [.axl 0 false, .posEvt 4, .clkout 0] ++ pwmRow 0 false ++ [.pwmFlt 0] ++
  [.perst, .axl 0 true, .posEvt 5, .clkout 1] ++ pwmRow 0 true ++ [.pwmFlt 1] ++
  [.axl 1 false, .posEvt 6, .ppsOut] ++ pwmRow 1 false ++
  [.axl 1 true, .posEvt 7, .plbSt 0] ++ pwmRow 1 true ++
  [.axl 2 false, .plbSt 1] ++ pwmRow 2 false ++
  [.axl 2 true, .plbAlm] ++ pwmRow 2 true ++
  [.axl 3 false, .ref 0] ++ pwmRow 3 false ++
  [.axl 3 true, .ref 1] ++ pwmRow 3 true ++ (List.range 4).map .hpd ++
  [.posEvt 0, .ref 2] ++ pwmRow 4 false ++
  [.posEvt 1, .ref 3] ++ pwmRow 4 true ++ [.trcClk, .trcSof] ++ (List.range 4).map .trcD ++
  [.posEvt 2, .gnssPps] ++ pwmRow 5 false ++ (List.range 4).map (fun n => .trcD (4 + n)) ++
  [.posEvt 3] ++ pwmRow 5 true ++ [.xtrIn 0, .xtrIn 1, .xtrOut 0, .xtrOut 1] ++
  (List.range 3).flatMap (fun p => (List.range 6).map (.tdm p)) ++ (List.range 4).map .xspi ++
  (List.range 6).map (.tdm 3) ++ [.mdc, .mdio, .oscSel 0, .oscSel 1, .bootSel 0, .bootSel 1, .snpSync, .sysRst] ++ (List.range 4).map .xspiIo ++
  (List.range 4).map fun n => .xspiIo (4 + n)

/-- What happens at ball `i` of the chain, which is `b`: the boundary register under EXTEST and CLAMP, with the fault path of the PWM balls
above it; nothing under HIGHZ; else its function (R537). -/
def State.ballDrive (s : State) (i : Nat) (b : Sig) : Drive :=
  if s.dbg.ir = .highz then .z
  else if !s.scanDriven then s.fnDrive b
  else
    let fault := s.bit Fd.PWM_FLTSTAT_FLT0_LOW || s.bit Fd.PWM_FLTSTAT_FLT1_LOW
    let data := s.dbg.boundary.getLsbD (3 * i + 1)
    let cell : Drive :=
      if b.dir = .input || !s.dbg.boundary.getLsbD (3 * i + 2) then .z
      else if b.dir = .openDrain then (if data then .z else .low)
      else .level data
    match b with
    | .pwm c _ => if fault then .level (s.pwmOffLevel c) else cell
    | _ => cell

/-- Levels of the chain's balls: what the device drives, and elsewhere what the board holds there, `outer`. -/
def State.ballLevels (s : State) (outer : BitVec 164) : List Bool :=
  chain.zipIdx.map fun x => match s.ballDrive x.2 x.1 with
    | .high => true
    | .low => false
    | _ => outer.getLsbD x.2

/-- What Capture-DR puts into the boundary register: ball levels in cells 3i, the other cells as they are (R537). -/
def captured (levels : List Bool) (cells : BitVec 492) : Nat :=
  levels.zipIdx.foldl (fun n x => n + 8 ^ x.2 * (b2n x.1 + 2 * bitsOf cells.toNat (3 * x.2 + 2) (3 * x.2 + 1))) 0

/-- A boundary scan under instruction `i`, the board holding `outer`: the captured register goes out, `data` goes in (R500, R537). -/
def State.boundaryScan (s : State) (i : TapIr) (outer : BitVec 164) (data : BitVec 492) : State :=
  let s1 := s.setIr i
  let s2 := s1.emit (.tdo (captured (s1.ballLevels outer) s.dbg.boundary) 492)
  { s2 with dbg := { s2.dbg with boundary := data } }

/-! ### Differential and LPDDR5X balls (R526, R530 to R533) -/

/-- A differential pair or an LPDDR5X ball. -/
inductive Phy where
  /-- Receiver and pair: 0 the clock, 1 to 4 the data lanes. -/
  | csi (r m : Nat)
  | dpLane (c k : Nat) | dpAux (c : Nat)
  | pcieTx (l : Nat) | pcieRx (l : Nat) | pcieRef
  | macTx (m : Nat) | macRx (m : Nat)
  | jncTx (p k : Nat) | jncRx (p k : Nat)
  | ddrDq (c n : Nat) | ddrDmi (c y : Nat) | ddrRdqs (c y : Nat) | ddrWck (c y : Nat)
  | ddrCk (c h : Nat) | ddrCa (c n : Nat) | ddrCs (c h : Nat) | ddrResetN
  /-- DDR_CAL, a calibration ball without a reset state. -/
  | ddrCal
deriving DecidableEq, Repr

/-- The reset state; PCIe receivers keep their termination once VDD_PHY is in range (R530 to R533). -/
def Phy.reset : Phy → Drive
  | .csi _ _ | .pcieRx _ | .pcieRef | .macRx _ | .jncRx _ _ | .ddrRdqs _ _ => .off
  | .dpLane _ _ | .pcieTx _ | .macTx _ | .jncTx _ _ => .idle
  | .dpAux _ | .ddrDq _ _ | .ddrDmi _ _ => .z
  | .ddrWck _ _ | .ddrCk _ _ | .ddrCa _ _ | .ddrCs _ _ | .ddrResetN => .low
  | .ddrCal => .func

/-- A pair in slot `s` of two columns of pairs, whose first row has index `row` (R531, R532). -/
def pairAt (even odd row s : Nat) : List (Nat × Nat) :=
  let c := if s % 2 = 0 then even else odd
  [(row + s / 2, c), (row + s / 2, c + 1)]

/-- Place of byte lane `y`'s DQ number `k` within its four columns and five rows (R533). -/
def dqPlace (k : Nat) : Nat × Nat := [(28, 1), (28, 2), (28, 4), (29, 1), (31, 1), (31, 2), (31, 4), (32, 2)].getD k (28, 1)

/-- The balls of a pair, _P first, or of an LPDDR5X signal (R530 to R533). -/
def Phy.places : Phy → List (Nat × Nat)
  | .csi r m => let q := 5 * r + m; [(1 + q / 10, 3 * (q % 10) + 1), (1 + q / 10, 3 * (q % 10) + 2)]
  | .dpLane c k => pairAt 31 28 8 (5 * c + k)
  | .dpAux c => pairAt 31 28 8 (5 * c + 4)
  | .pcieTx l => pairAt 1 4 8 (2 * l)
  | .pcieRx l => pairAt 1 4 8 (2 * l + 1)
  | .pcieRef => pairAt 1 4 8 8
  | .macTx m => pairAt 1 4 8 (10 + 2 * m)
  | .macRx m => pairAt 1 4 8 (11 + 2 * m)
  | .jncTx p k => pairAt 1 4 8 (18 + 4 * p + 2 * k)
  | .jncRx p k => pairAt 1 4 8 (19 + 4 * p + 2 * k)
  | .ddrDq c n => let d := dqPlace (n % 8); [(d.1, 16 * c + 4 * (n / 8) + d.2)]
  | .ddrDmi c y => [(30, 16 * c + 4 * y + 1)]
  | .ddrRdqs c y => [(30, 16 * c + 4 * y + 3), (30, 16 * c + 4 * y + 4)]
  | .ddrWck c y => [(29, 16 * c + 4 * y + 3), (29, 16 * c + 4 * y + 4)]
  | .ddrCk c h => [(26 + h, 16 * c + 1), (26 + h, 16 * c + 2)]
  | .ddrCs c h => [(26 + h, 16 * c + 4)]
  | .ddrCa c n => [(26 + n / 7, 16 * c + if n % 7 < 3 then 5 + n % 7 else 6 + n % 7)]
  | .ddrResetN => [(26, 16)]
  | .ddrCal => [(26, 32)]

/-- The readiness bit at which the function first takes a ball (R472, R474, R525). -/
def Phy.bit : Phy → Nat
  | .csi _ _ | .dpLane _ _ | .dpAux _ => rVID
  | .pcieTx _ | .pcieRx _ | .pcieRef => rPCIE
  | .macTx _ | .macRx _ => rNET
  | .jncTx _ _ | .jncRx _ _ => rJNC
  | _ => rDDR

/-- What happens at a differential or LPDDR5X ball: its reset state until its function takes it and under EXTEST, CLAMP and HIGHZ;
DDR_RESET_N is high once training has succeeded (R525, R526, R533, R537). -/
def State.phyDrive (s : State) (b : Phy) : Drive :=
  if s.scanHeld || !s.ready b.bit then b.reset
  else match b with
    | .ddrResetN => .high
    | _ => .func

end Sys2Proof.Machine
end

