-- ==== Sys2Proof/Machine/Mailbox.lean ====
section
/-! DEFINITION. The mailbox (09): command and response layouts, the table of commands with their senders, classes, needs and payload
lengths (10), the journal, and what a command's meaning is given and answers. -/

namespace Sys2Proof.Machine

/-! ### Layouts (R251, R252) -/

/-- The 64 bytes of a command with opcode `op`. -/
def mailBytes (op : Nat) (m : Mail) : List Byte :=
  natLe 2 op ++ [m.flags] ++ natLe 1 m.pay.length ++ natLe 4 m.seq.toNat ++ natLe 4 m.tag.toNat ++ [m.bay] ++ [0, 0, 0] ++ fixLen 0 48 m.pay

def cOp (c : List Byte) : Nat := fieldAt c 0 2
def cFlags (c : List Byte) : Nat := fieldAt c 2 1
def cLen (c : List Byte) : Nat := fieldAt c 3 1
def cSeq (c : List Byte) : Word := BitVec.ofNat 32 (fieldAt c 4 4)
def cTag (c : List Byte) : Nat := fieldAt c 8 4
def cBay (c : List Byte) : Nat := fieldAt c 12 1
def cPay (c : List Byte) : List Byte := fixLen 0 48 (c.drop 16)

/-- The 64 bytes of a response to command `c` (R252, R265). -/
def rspBytes (c : List Byte) (flags status : Nat) (pay : List Byte) : List Byte :=
  natLe 2 (cOp c) ++ natLe 1 flags ++ natLe 1 pay.length ++ natLe 4 (cSeq c).toNat ++ natLe 4 (cTag c) ++ natLe 2 status ++ [0, 0] ++ fixLen 0 48 pay

/-- A response with other FLAGS. -/
def withFlags (r : List Byte) (f : Nat) : List Byte := r.take 2 ++ [BitVec.ofNat 8 f] ++ r.drop 3

/-! ### Status codes (R256) -/

def stOK : Nat := 0
def stUNKNOWN_OPCODE : Nat := 0x10
def stNOT_PERMITTED : Nat := 0x11
def stNOT_READY : Nat := 0x12
def stSEQ_BAD : Nat := 0x14
def stINTERRUPTED : Nat := 0x15
def stDOMAIN_DOWN : Nat := 0x17
def stAUTH_REQUIRED : Nat := 0x18
def stVERIFY_FAILED : Nat := 0x19
def stCOMMIT_TOO_LATE : Nat := 0x161
def stBAY_ABSENT : Nat := 0x200
def stBAY_ASLEEP : Nat := 0x201
def stBAY_FAULTED : Nat := 0x202
def stGRANT_STARVES : Nat := 0x203
def stGRANT_OVERLAP : Nat := 0x205
def stSHARE_IN_USE : Nat := 0x206
def stSHARE_FULL : Nat := 0x207

/-! ### The command table (R264 to R267, R273 to R281) -/

/-- Who may send a command (R266): the PF naming no bay, the PF naming a bay, the bay itself, everyone. -/
inductive On where
  | pf | pfBay | own | any
deriving DecidableEq, Repr

/-- Idempotency classes (R261). -/
inductive Cls where
  | i | c | n
deriving DecidableEq, Repr

/-- A command's opcode, senders, class, readiness bits, payload length and the payload bytes its fields cover (offset, size). -/
structure Cmd where
  op : Nat
  on : On
  cls : Cls
  needs : List Nat
  len : Nat
  fields : List (Nat × Nat)
deriving DecidableEq, Repr

def cmdsBay : List Cmd :=
  [⟨0x0100, .any, .i, [], 0, []⟩,
   ⟨0x0101, .any, .i, [], 0, []⟩,
   ⟨0x0110, .pf, .c, [rKEY, rXSPI], 8, [(0, 2), (2, 2), (4, 4)]⟩,
   ⟨0x0111, .pf, .i, [rXSPI], 4, [(0, 1)]⟩,
   ⟨0x0200, .pfBay, .c, [], 28, [(0, 4), (4, 1), (5, 1), (6, 1), (7, 1), (8, 2), (10, 2), (12, 2), (14, 2), (16, 2), (18, 2), (20, 2), (22, 2), (24, 1)]⟩,
   ⟨0x0201, .pfBay, .i, [rFGE], 20, [(0, 2), (2, 2), (4, 8), (12, 8)]⟩,
   ⟨0x0202, .pfBay, .i, [rVID], 20, [(0, 6), (6, 6), (12, 8)]⟩,
   ⟨0x0203, .pfBay, .i, [rNET], 20, [(0, 1), (1, 1), (2, 1), (3, 1), (4, 2), (6, 2), (8, 1), (9, 1), (12, 8)]⟩,
   ⟨0x0204, .pfBay, .i, [rKEY], 16, [(0, 8), (8, 8)]⟩,
   ⟨0x0205, .pfBay, .i, [], 4, [(0, 1)]⟩,
   ⟨0x0210, .own, .c, [rFGE], 0, []⟩,
   ⟨0x0211, .own, .c, [rFGE], 8, [(0, 8)]⟩,
   ⟨0x0212, .own, .c, [rFGE], 0, []⟩,
   ⟨0x0213, .own, .c, [rFGE], 0, []⟩,
   ⟨0x0214, .pfBay, .c, [rFGE], 8, [(0, 8)]⟩,
   ⟨0x0220, .own, .i, [], 0, []⟩,
   ⟨0x0230, .pfBay, .c, [rFGE], 24, [(0, 1), (1, 1), (2, 1), (3, 1), (4, 4), (8, 4), (16, 8)]⟩,
   ⟨0x0231, .pf, .c, [rFGE], 16, [(0, 1), (8, 8)]⟩,
   ⟨0x0240, .own, .i, [], 4, [(0, 2)]⟩,
   ⟨0x0241, .pfBay, .i, [], 8, [(0, 1), (4, 4)]⟩]

def cmdsFigure : List Cmd :=
  [⟨0x0300, .own, .c, [rFGE], 8, [(0, 2), (2, 2), (4, 4)]⟩,
   ⟨0x0301, .own, .c, [rFGE], 8, [(0, 8)]⟩,
   ⟨0x0302, .own, .i, [rFGE], 4, [(0, 1)]⟩,
   ⟨0x0303, .own, .i, [rFGE], 0, []⟩,
   ⟨0x0310, .own, .i, [rFGE], 44, [(0, 1), (1, 1), (2, 1), (3, 1), (4, 40)]⟩,
   ⟨0x0400, .own, .i, [rFGE, rVID], 16, [(0, 1), (1, 1), (2, 1), (4, 4), (8, 8)]⟩,
   ⟨0x0401, .own, .i, [rVID], 4, [(0, 1)]⟩,
   ⟨0x0402, .own, .i, [rVID], 4, [(0, 1)]⟩,
   ⟨0x0410, .own, .i, [rVID], 44, [(0, 4), (4, 40)]⟩,
   ⟨0x0420, .own, .i, [rVID], 44, [(0, 1), (4, 40)]⟩,
   ⟨0x0421, .own, .i, [rVID], 44, [(0, 1), (4, 40)]⟩,
   ⟨0x0500, .own, .i, [rVID], 44, [(0, 1), (1, 1), (4, 40)]⟩,
   ⟨0x0501, .own, .i, [rVID], 16, [(0, 1), (1, 1), (8, 8)]⟩]

def cmdsUnits : List Cmd :=
  [⟨0x0600, .pf, .i, [rAUD], 12, [(0, 1), (1, 1), (2, 1), (3, 1), (4, 1), (5, 1), (8, 4)]⟩,
   ⟨0x0601, .pf, .i, [rAUD], 16, [(0, 2), (2, 2), (4, 2), (8, 8)]⟩,
   ⟨0x0602, .pf, .i, [rAUD], 8, [(0, 2), (4, 4)]⟩,
   ⟨0x0700, .pf, .i, [rODO], 16, [(0, 1), (1, 1), (2, 2), (4, 2), (8, 4), (12, 1)]⟩,
   ⟨0x0701, .pf, .i, [rODO], 32, [(0, 1), (1, 1), (2, 1), (3, 1), (4, 8), (12, 8), (20, 4), (24, 4), (28, 1), (29, 1)]⟩,
   ⟨0x0702, .pf, .i, [rODO], 4, [(0, 1)]⟩,
   ⟨0x0703, .pf, .n, [rODO], 8, [(0, 8)]⟩,
   ⟨0x0704, .any, .i, [rODO], 0, []⟩,
   ⟨0x0800, .pf, .i, [rPWM], 20, [(0, 1), (1, 1), (2, 2), (4, 4), (8, 4), (12, 2), (14, 2), (16, 1), (17, 1)]⟩,
   ⟨0x0801, .pf, .i, [rPWM], 8, [(0, 1), (1, 1), (4, 4)]⟩,
   ⟨0x0802, .pf, .n, [rPWM], 4, [(0, 2)]⟩,
   ⟨0x0900, .pf, .i, [rPLB], 16, [(0, 1), (1, 1), (4, 4), (8, 4), (12, 2)]⟩,
   ⟨0x0901, .pf, .i, [rPLB], 4, [(0, 1), (1, 1)]⟩,
   ⟨0x0902, .pf, .i, [rPLB], 4, [(0, 4)]⟩,
   ⟨0x0903, .pf, .n, [rPLB], 16, [(0, 8), (8, 4), (12, 2)]⟩,
   ⟨0x0904, .any, .i, [rPLB], 0, []⟩,
   ⟨0x0A00, .pf, .i, [rNET], 16, [(0, 1), (1, 1), (2, 1), (3, 1), (4, 6), (12, 2)]⟩,
   ⟨0x0A01, .own, .i, [rNET], 12, [(0, 1), (1, 1), (2, 1), (4, 4), (8, 4)]⟩,
   ⟨0x0A02, .own, .i, [rNET], 20, [(0, 1), (1, 1), (4, 4), (8, 4), (12, 2), (16, 4)]⟩,
   ⟨0x0A03, .own, .i, [rNET], 20, [(0, 2), (2, 1), (3, 1), (4, 4), (8, 4), (12, 4), (16, 2)]⟩,
   ⟨0x0A04, .own, .n, [rNET, rKEY], 40, [(0, 1), (1, 1), (2, 1), (3, 1), (4, 1), (5, 1), (8, 8), (16, 8), (24, 4), (28, 12)]⟩,
   ⟨0x0B00, .pf, .i, [rJNC], 16, [(0, 4), (4, 1), (5, 1), (8, 4), (12, 2)]⟩,
   ⟨0x0B01, .pf, .i, [rJNC], 0, []⟩,
   ⟨0x0B02, .any, .i, [rJNC], 0, []⟩]

def cmdsKeys : List Cmd :=
  [⟨0x0C00, .own, .c, [rKEY], 4, [(0, 1), (1, 1), (2, 2)]⟩,
   ⟨0x0C01, .own, .c, [rKEY], 8, [(0, 2), (4, 1)]⟩,
   ⟨0x0C02, .own, .i, [rKEY], 8, [(0, 2), (4, 1)]⟩,
   ⟨0x0C03, .own, .c, [rKEY], 36, [(0, 1), (1, 1), (2, 2), (4, 32)]⟩,
   ⟨0x0C04, .own, .i, [rKEY], 4, [(0, 1), (1, 1)]⟩,
   ⟨0x0C05, .own, .i, [rKEY], 4, [(0, 1)]⟩,
   ⟨0x0C06, .any, .n, [rKEY], 4, [(0, 1)]⟩,
   ⟨0x0D00, .own, .c, [rSEAL, rKEY], 24, [(0, 1), (1, 1), (2, 2), (8, 8), (16, 8)]⟩,
   ⟨0x0D01, .own, .c, [rSEAL], 16, [(0, 1), (8, 8)]⟩,
   ⟨0x0D02, .own, .i, [rSEAL], 4, [(0, 1)]⟩,
   ⟨0x0E00, .own, .i, [], 8, [(0, 4), (4, 1)]⟩,
   ⟨0x0E01, .own, .n, [], 0, []⟩,
   ⟨0x0F00, .own, .n, [rDBG, rKEY], 4, [(0, 1), (1, 1)]⟩,
   ⟨0x0F01, .own, .n, [rDBG, rKEY], 4, [(0, 2)]⟩,
   ⟨0x0F02, .own, .i, [rDBG], 16, [(0, 1), (1, 1), (2, 1), (4, 4)]⟩,
   ⟨0x0F03, .own, .i, [rDBG], 0, []⟩]

/-- Every command of chapter 10. -/
def cmdTable : List Cmd := cmdsBay ++ cmdsFigure ++ cmdsUnits ++ cmdsKeys

def findCmd (op : Nat) : Option Cmd := cmdTable.find? (·.op = op)

/-- Every byte of the payload that no field covers, and every byte from LEN on, is 0 (R251, R265). -/
def Cmd.clear (k : Cmd) (p : List Byte) : Bool :=
  (List.range 48).all fun i => p.getD i 0 = 0 || (k.fields.any fun f => f.1 ≤ i && i < f.1 + f.2)

/-! ### What a command's meaning is given and answers -/

/-- The sender's ring set, the bay named, the flags, the payload, and who to report to. -/
structure Cx where
  ring : Nat
  bay : Nat
  force : Bool
  pay : List Byte
  o : Origin
deriving DecidableEq, Repr

/-- Field of `k` bytes at payload offset `o`. -/
def Cx.f (c : Cx) (o k : Nat) : Nat := fieldAt c.pay o k

/-- Status, response payload, and the state after. -/
abbrev Reply := Nat × List Byte × State

/-- A refused command has no effect (R255). -/
def State.refuses (s : State) (st : Nat) : Reply := (st, [], s)

/-- Done, with the given response payload. -/
def State.answers (s : State) (l : List Byte) : Reply := (0, l, s)

/-- An effect for the measure that field MEASURE of a command names (R70, R270), by the period `p`. -/
def State.scheduled (s : State) (p m : Nat) (e : Effect) (o : Origin) : Reply :=
  match s.chooseMeasure p m with
  | none => s.refuses stCOMMIT_TOO_LATE
  | some k => (s.schedule p k e (some o)).answers (natLe 8 k)

/-! ### Blocks of the shared window (R274) -/

/-- Blocks `first` to `first + n − 1` are in DEVICE. -/
def State.blocksReady (s : State) (b first n : Nat) : Bool := 1 ≤ n && first + n ≤ 4096 && (List.range n).all fun i => s.peg b (first + i) = pDEVICE

/-- The `len` bytes that the blocks hold, if they can be read. -/
def State.blockBytes (s : State) (b first len : Nat) : Option (List Byte) × State :=
  (blockRuns (len / 65536 + 2) (65536 * first) len).foldl (fun acc r =>
    match acc with
    | (some l, s) =>
      match s.readPlace (s.windowPlace b r.1) r.2 with
      | (some m, s1) => (some (l ++ m), s1)
      | (none, s1) => (none, s1)
    | x => x) (some [], s)

/-- The pegs of the blocks go to IDLE with the response. -/
def State.blocksIdle (s : State) (b first n : Nat) : State :=
  s.each (List.range n) fun s i => if first + i < 4096 then s.put (pegFld b (first + i)) pIDLE else s

/-- The blocks that command `c` on ring set `r` has data read from: bay, first block, number; none for a command that reads none, or that names
no window its sender may name (R211, R274; DEDUCED, log entry 9). -/
def dataBlocks (r : Nat) (c : List Byte) : Option (Nat × Nat × Nat) :=
  let b := if r < 8 then r else cBay c
  let p := cPay c
  if 7 < b then none
  else if cOp c = 0x0110 then (if r = 8 then some (0, fieldAt p 0 2, fieldAt p 2 2) else none)
  else if cOp c = 0x0300 then some (b, fieldAt p 0 2, fieldAt p 2 2)
  else if cOp c = 0x0C01 || cOp c = 0x0F01 then some (b, fieldAt p 0 2, 1)
  else none

/-- With the response to command `c`, whatever its status, the pegs of the blocks it names go to IDLE (R274). -/
def State.freeBlocks (s : State) (r : Nat) (c : List Byte) : State :=
  match dataBlocks r c with
  | some (b, first, n) => s.blocksIdle b first n
  | none => s

/-! ### Rings and the journal (R243, R246, R252, R260) -/

/-- Change the journal entry of `seq` on ring `r`. -/
def State.modEntry (s : State) (r : Nat) (seq : Word) (f : JEntry → JEntry) : State :=
  s.modRing r fun q => { q with journal := q.journal.map fun e => if e.seq = seq then f e else e }

/-- Write a response into ring `r`'s response ring; vector 0 fires while the host consumes it (R218, R263). -/
def State.writeRsp (s : State) (r : Nat) (l : List Byte) : State :=
  let s1 := s.modRing r fun q => { q with mem := writeBytes zeroByte l (0x800 + 64 * (q.rspPi.toNat % 32)) q.mem, rspPi := q.rspPi + 1 }
  if s.hostRing r then s1.msix r 0 else s1

/-- Answer command `c` of ring `r`: DONE in the journal, written, DELIVERED (R260). -/
def State.respond (s : State) (r : Nat) (c : List Byte) (flags status : Nat) (pay : List Byte) : State :=
  let l := rspBytes c flags status pay
  ((s.modEntry r (cSeq c) fun e => { e with state := .done, rsp := rspBytes c 0 status pay }).writeRsp r l).modEntry r (cSeq c)
    fun e => { e with state := .delivered }

/-- Journal a command as TAKEN, dropping the oldest of 32 entries, and step over it (R260). -/
def State.take (s : State) (r : Nat) (c : List Byte) : State :=
  s.modRing r fun q =>
    let j := if q.journal.length < 32 then q.journal else q.journal.drop 1
    { q with journal := j ++ [{ seq := cSeq c, cmd := c, state := .taken, rsp := [] }], cmdCi := q.cmdCi + 1, expSeq := q.expSeq + 1 }

end Sys2Proof.Machine
end

