-- ==== Sys2Proof/Machine/CmdBay.lean ====
section
/-! DEFINITION. The system, bay, share and peg commands (R273 to R276): their meaning once the checks of R255 have passed. -/

namespace Sys2Proof.Machine

/-- Bay `b`'s running part and its accepted commits (R195). -/
def State.partsOf (s : State) (b : Nat) : List Part := (s.part b).toList ++ (s.fig.commits.filter (·.1 = b)).map (·.2.2)

/-- A grant effect of bay `b` for measure MEASURE, after the checks that R192, R194 and R195 ask of the grants that would then stand, at that
measure and after each grant that has been accepted for a later one. `uses`: a shrink would take away what the bay uses. -/
def State.grantCmd (s : State) (c : Cx) (e : Effect) (uses : State → Bool) : Reply :=
  let p := s.periodUs
  let m := c.f (if c.o.opcode = 0x0204 then 8 else 12) 8
  match s.chooseMeasure p m with
  | none => s.refuses stCOMMIT_TOO_LATE
  | some k =>
    let g := s.grantsAt p k
    let g1 := g.grantEffect e
    let later := s.laterGrants p k
    if g.grantClash e || g1.laterFault State.grantClash later then s.refuses stGRANT_OVERLAP
    else if g1.starved e || g1.laterFault (fun g x => (g.grantEffect x).starved x) later then s.refuses stGRANT_STARVES
    else if uses g1 then s.refuses stGRANT_IN_USE
    else (s.schedule p k e (some c.o)).answers (natLe 8 k)

/-! ### System commands (R273) -/

def State.doSysInfo (s : State) (_ : Cx) : Reply :=
  s.answers ([Reg.SYS_CHIP_ID, Reg.SYS_FWVER, Reg.RDY_BOARD_LO, Reg.RDY_BOARD_HI, Reg.SYS_PAIR, Reg.SYS_CLKSTAT].flatMap fun a => natLe 4 (s.reg a).toNat)

def State.doSysNop (s : State) (_ : Cx) : Reply := s.answers []

/-- SYS_FW_STAGE: the image goes to the inactive bank once it verifies; COMMAND_DONE follows. -/
def State.doSysFwStage (s : State) (c : Cx) : Reply :=
  let b := c.f 0 2
  let n := c.f 2 2
  let len := c.f 4 4
  let s1 := s.blocksIdle 0 b n
  if !s.blocksReady 0 b n || len > 65536 * n || len > 0x100000 then s1.refuses stPAYLOAD_BAD
  else match s.blockBytes 0 b len with
    | (none, s2) => (s2.blocksIdle 0 b n).refuses stVERIFY_FAILED
    | (some l, s2) =>
      let s3 := s2.blocksIdle 0 b n
      if !imageOk s.otp.rollback l then s3.refuses stVERIFY_FAILED
      else ((s3.flashWrite (bankBase (1 - s.get Fd.SYS_FWVER_BANK)) l).finish (some c.o) 0).answers (natLe 3 (fieldAt l 4 3) ++ [0])

/-- SYS_FW_SELECT: the boot record names the bank for the next power-on reset. -/
def State.doSysFwSelect (s : State) (c : Cx) : Reply :=
  let b := c.f 0 1
  if b > 1 then s.refuses stPAYLOAD_BAD
  else if !imageOk s.otp.rollback (s.bankImage b) then s.refuses stVERIFY_FAILED
  else ((s.flashWrite 0 (natLe 1 b)).put Fd.SYS_FWVER_NEXT b).answers []

/-! ### Creating and granting (R191 to R195, R275) -/

/-- Another bay's slice on the core unit `u` overlaps sixteenths `f` to `f + n − 1`, or it uses the unit's cores in another pairing (R275); or
four other bays share the unit already (R199; the status DESIGN CHOICE, log entry 31). -/
def State.unitClash (s : State) (b u f n : Nat) : Bool :=
  let users := (List.range 8).filter fun i =>
    i ≠ b && s.bayState i ≠ bEMPTY && (unitCores (s.bayRec i).coreUnit).any (fun x => (unitCores u).contains x)
  users.length ≥ 4 || users.any fun i => (s.bayRec i).coreUnit ≠ u || Load.overlaps f n (s.bayRec i).sliceFirst (s.bayRec i).sliceLen

/-- A memory range overlaps another bay's grant of the same kind. -/
def State.rangeClash (s : State) (b : Nat) (base len : Nat → Fld) (o n : Nat) : Bool :=
  (List.range 8).any fun i => i ≠ b && Load.overlaps o n (s.get (base i)) (s.get (len i))

/-- BAY_CREATE (R191 to R193, R275, R446): CREATED at once. A grant of the figure key's slots that has been accepted for another bay counts as
theirs (R192). -/
def State.doBayCreate (s : State) (c : Cx) : Reply :=
  let b := c.bay
  let entry := c.f 0 4
  let u := c.f 4 1
  let sf := c.f 5 1
  let sl := c.f 6 1
  let sr := (c.f 8 2, c.f 10 2)
  let bk := (c.f 12 2, c.f 14 2)
  let dd := (c.f 16 2, c.f 18 2)
  let key := c.f 24 1
  let cs := unitCores u
  let inSram := Load.overlaps (entry - 0x08000000) 1 (0x40000 + 4096 * sr.1) (4096 * sr.2) && 0x08040000 ≤ entry && entry < 0x08080000
  let inDdr := match s.place (cs.headD 2) entry with
    | .ddr a => 16777216 * dd.1 ≤ a && a < 16777216 * (dd.1 + dd.2)
    | _ => false
  let ddrIn := dd.2 = 0 || ((dd.1 + dd.2) * 16777216 ≤ 2 * s.ddrChan && (List.range dd.2).all fun i => s.ddrOk ((dd.1 + i) * 16777216) && s.ddrOk ((dd.1 + i + 1) * 16777216 - 1))
  let bad := entry % 4 ≠ 0 || !(inSram || inDdr) || (u ≠ 0xFF && cs.isEmpty) || sr.1 > 63 || sr.1 + sr.2 > 64 || bk.1 > 511 || bk.1 + bk.2 > 512 || dd.1 > 2047 || dd.1 + dd.2 > 2048 || !ddrIn ||
    (if u = 0xFF then sf ≠ 0 || sl ≠ 0 else sf > 15 || sl < 1 || sl > 16 || sf + sl > 16) || c.f 7 1 > 1 || c.f 20 2 > 4096 || c.f 22 2 > 4096 ||
    key > 63 || s.keyOwner key ≠ 0 || s.keyType key ≠ 3 || !bitAt (s.keyUsage key) uFIGURE || key % 2 = 1
  if bad then s.refuses stPAYLOAD_BAD
  else if (s.fw.sched.any fun e => match e.eff with
        | .grantKeys x l => x ≠ b && (l.getLsbD key || l.getLsbD (key + 1))
        | _ => false) || s.rangeClash b Fd.BXM_SRAM_BASE Fd.BXM_SRAM_LEN sr.1 sr.2 || s.rangeClash b Fd.BXM_BKF_BASE Fd.BXM_BKF_LEN bk.1 bk.2 ||
      s.rangeClash b Fd.BXM_DDR_BASE Fd.BXM_DDR_LEN dd.1 dd.2 || s.unitClash b u sf sl then s.refuses stGRANT_OVERLAP
  else
    let s1 := (((((s.put (Fd.BXM_SRAM_BASE b) sr.1).put (Fd.BXM_SRAM_LEN b) sr.2).put (Fd.BXM_BKF_BASE b) bk.1).put (Fd.BXM_BKF_LEN b) bk.2).put
      (Fd.BXM_DDR_BASE b) dd.1).put (Fd.BXM_DDR_LEN b) dd.2
    let s2 := ((s1.put (Fd.FGE_ACT_QUOTA b) (c.f 20 2)).put (Fd.FGE_DESC_QUOTA b) (c.f 22 2)).put (Fd.MBX_CFG_PRODUCER b) (c.f 7 1)
    let s3 := s2.modBay b fun _ => { entry := BitVec.ofNat 32 entry, coreUnit := u, sliceFirst := sf, sliceLen := sl, figKey := key }
    (((s3.moveSlot key b).moveSlot (key + 1) b).setBayState b bCREATED).answers []

/-- BAY_GRANT_PHASE. -/
def State.doBayGrantPhase (s : State) (c : Cx) : Reply :=
  let first := c.f 0 2
  let n := c.f 2 2
  let mask := BitVec.ofNat 64 (c.f 4 8)
  let rs := (List.range n).map (first + ·)
  if n < 1 || n > 512 || !(rs.all fun r => r < 512 && Load.phased r) then s.refuses stPAYLOAD_BAD
  else s.grantCmd c (.grantPhase c.bay first n mask) fun _ =>
    (s.partsOf c.bay).any fun p => p.allot.any fun x => rs.contains x.1 && BitVec.ofNat 64 x.2 &&& ~~~ mask ≠ 0

/-- What bay `b`'s parts use would no longer be granted (R195). -/
def State.takesAway (s g : State) (b : Nat) : Bool :=
  (s.partsOf b).any fun p => (Load.checkOwned g b p).isSome && (Load.checkOwned s b p).isNone

/-- A receive filter entry of bay `b` that a MAC-receive MOVE of its parts reads from would cover fewer ports in `g`, or be gone (R195). -/
def State.filtersLost (s g : State) (b : Nat) : Bool :=
  (s.partsOf b).any fun q => q.acts.any fun a => a.kind = 1 && (List.range 4).any fun p =>
    a.res = 0x1BC + p && s.net.filters.any fun e =>
      e.2.bay = b && bitAt e.2.ports p &&
      ((Load.actAccs (s.get Fd.DDR_CFG_RATE) q a).any fun x => e.2.buf ≤ x.addr && x.addr < e.2.buf + e.2.span) &&
      !g.net.filters.any fun f => f.1 = e.1 && f.2.bay = b && bitAt f.2.ports p

/-- A class queue of port `p` that the grants `g` no longer list, while a MOVE of bay `b`'s parts serves the port's MAC DMA: the records name
their class as they pass, so that such a part uses every class it has (R195; DESIGN CHOICE, log entry 55). -/
def State.queuesLost (s g : State) (b p : Nat) : Bool :=
  (vget (s.bayRec b).net p).queues &&& ~~~ (vget (g.bayRec b).net p).queues ≠ 0 &&
  (s.partsOf b).any fun q => q.acts.any fun a => a.kind = 1 && (a.res = 0x1B8 + p || a.res = 0x1BC + p)

/-- BAY_GRANT_PORTS. -/
def State.doBayGrantPorts (s : State) (c : Cx) : Reply :=
  s.grantCmd c (.grantPorts c.bay (c.f 0 6) (c.f 6 6)) fun g => s.takesAway g c.bay

/-- BAY_GRANT_NET. -/
def State.doBayGrantNet (s : State) (c : Cx) : Reply :=
  let p := c.f 0 1
  let n : NetGrant := { queues := BitVec.ofNat 8 (c.f 1 1), trdpFirst := c.f 2 1, trdpCount := c.f 3 1, filtFirst := c.f 4 2, filtCount := c.f 6 2
                        saFirst := c.f 8 1, saCount := c.f 9 1 }
  if p > 3 || n.trdpFirst + n.trdpCount > 256 || n.filtFirst + n.filtCount > 1024 || n.saFirst + n.saCount > 32 then s.refuses stPAYLOAD_BAD
  else s.grantCmd c (.grantNet c.bay p n) fun g =>
      s.takesAway g c.bay || s.filtersLost g c.bay || s.queuesLost g c.bay p || (s.macPort p).sas.any fun a => a.2.bay = c.bay && !(n.saFirst ≤ a.1 && a.1 < n.saFirst + n.saCount)

/-- Slot `n` is in use by a seal chain or a secure association (R281). -/
def State.slotBusy (s : State) (n : Nat) : Bool :=
  (List.range 4).any (fun i => (s.seal_ i).active && (s.seal_ i).slot = n) || (List.range 4).any fun p => (s.macPort p).sas.any fun a => a.2.slot = n

/-- BAY_GRANT_KEYS. -/
def State.doBayGrantKeys (s : State) (c : Cx) : Reply :=
  let l := BitVec.ofNat 64 (c.f 0 8)
  s.grantCmd c (.grantKeys c.bay l)
    fun g => (List.range 64).any fun n => s.keyOwner n = c.bay && g.keyOwner n ≠ c.bay && s.slotBusy n

/-- BAY_PRODUCER: only with both rings empty. -/
def State.doBayProducer (s : State) (c : Cx) : Reply :=
  let q := s.ring c.bay
  let p := c.f 0 1
  if p > 1 || (c.bay = 0 && p = 1) then s.refuses stPAYLOAD_BAD
  else if q.cmdPi ≠ q.cmdCi || q.rspPi ≠ q.rspCi then s.refuses stGRANT_IN_USE
  else (s.put (Fd.MBX_CFG_PRODUCER c.bay) p).answers []

/-! ### Bay states (R206 to R210) -/

/-- Firmware writes SYS_PAIR for core unit `u` before its cores are released; it takes effect while both are held (R163, R275). -/
def State.setPairing (s : State) (u : Nat) : State :=
  let held (c : Nat) : Bool := s.coreState c = 0 && s.coreState (c + 1) = 0
  if u = 0x82 || u = 2 || u = 3 then
    let s1 := s.putB Fd.SYS_PAIR_LOCK23 (u = 0x82)
    if held 2 then { s1 with lock23 := u = 0x82 } else s1
  else if u = 0x84 || u = 4 || u = 5 then
    let s1 := s.putB Fd.SYS_PAIR_LOCK45 (u = 0x84)
    if held 4 then { s1 with lock45 := u = 0x84 } else s1
  else s

/-- BAY_START: CREATED to RUNNING at once. -/
def State.doBayStart (s : State) (c : Cx) : Reply :=
  if s.bayState c.bay ≠ bCREATED then s.refuses stNOT_PERMITTED
  else ((s.setPairing (s.bayRec c.bay).coreUnit).bayRun c.bay 0).answers []

/-- BAY_SLEEP (R209). -/
def State.doBaySleep (s : State) (c : Cx) : Reply :=
  if s.bayState c.bay ≠ bRUNNING || c.bay = 0 then s.refuses stNOT_PERMITTED
  else s.scheduled s.periodUs (c.f 0 8) (.bayPark c.bay) c.o

/-- The period by which bay `b`'s part takes effect: the running figure's, else the part's own. -/
def State.partPeriod (s : State) (p : Option Part) : Nat :=
  match s.fig.geom, p with
  | some g, _ => g.period
  | none, some p => p.geom.period
  | none, none => 1000

/-- A wake of bay `b` starts: its part is re-committed at the first measure that R70 allows (R210). -/
def State.startWake (s : State) (b : Nat) (o : Option Origin) : State :=
  if (s.bayRec b).waking then s
  else
    let p := s.partPeriod ((s.bayRec b).parked.map (·.1))
    match s.chooseMeasure p 0 with
    | some k => (s.modBay b fun r => { r with waking := true }).schedule p k (.bayWake b) o
    | none => s

/-- BAY_WAKE of a bay that is RUNNING again: the measure of the re-commit (R210, R250). -/
def State.doBayWake (s : State) (c : Cx) : Reply :=
  if s.bayState c.bay ≠ bRUNNING then s.refuses stNOT_PERMITTED else s.answers (natLe 8 (s.bayRec c.bay).wakeAt)

/-- BAY_RESUME (R207). -/
def State.doBayResume (s : State) (c : Cx) : Reply :=
  if s.bayState c.bay ≠ bFAULTED then s.refuses stNOT_PERMITTED else s.scheduled s.periodUs 0 (.bayResume c.bay) c.o

/-- The borrower's running or committed part uses share `h` (R204). -/
def State.shareUsed (s : State) (h : Share) : Bool :=
  (s.partsOf h.borrower).any fun p =>
    if h.memory then
      let unit := if h.target = 0 then 65536 else 16777216
      let lo := h.base * unit
      let hi := lo + h.len * unit
      if h.target = 0 then p.acts.any fun a => (Load.actAccs (s.get Fd.DDR_CFG_RATE) p a).any fun x => lo ≤ x.addr && x.addr < hi
      else p.acts.any fun a => a.kind = 3 && (List.range (Load.ringPos a)).any fun i => lo ≤ Load.ddrAddr a i && Load.ddrAddr a i < hi
    else p.routes.any fun e => e.source = h.source

/-- BAY_DELETE (R208). Bay 0 never leaves RUNNING (R206). -/
def State.doBayDelete (s : State) (c : Cx) : Reply :=
  if c.bay = 0 then s.refuses stNOT_PERMITTED
  else if !c.force && s.shares.any fun h => h.owner = c.bay && s.shareUsed h then s.refuses stSHARE_IN_USE
  else s.scheduled s.periodUs (c.f 0 8) (.bayDelete c.bay c.force) c.o

/-- PART_ID of a part, 0 for none. -/
def partId (p : Option Part) : Nat := match p with | some p => p.partId | none => 0

def State.doBayStatus (s : State) (c : Cx) : Reply :=
  let r := s.bayRec c.bay
  s.answers (natLe 1 (s.bayState c.bay) ++ natLe 1 r.coreUnit ++ natLe 1 r.sliceFirst ++ natLe 1 r.sliceLen ++ natLe 4 r.entry.toNat ++
    natLe 8 (partId (s.part c.bay)) ++ natLe 8 (partId (vget s.fig.staged c.bay)) ++ natLe 2 (s.get (Fd.BXM_VIOL_COUNT c.bay)) ++
    natLe 1 (s.get (Fd.MBX_CFG_PRODUCER c.bay)) ++ natLe 5 0)

/-! ### Shares and pegs (R202 to R204, R227) -/

/-- SHARE_GRANT: BAY names the owner. -/
def State.doShareGrant (s : State) (c : Cx) : Reply :=
  let h : Share := { memory := c.f 0 1 = 1, owner := c.bay, borrower := c.f 1 1, source := c.f 2 1, target := c.f 3 1, base := c.f 4 4, len := c.f 8 4 }
  if c.f 0 1 > 1 || h.borrower > 7 || h.borrower = h.owner || s.bayState h.borrower = bEMPTY || s.bayState h.borrower = bDRAINING ||
      (if h.memory then h.target > 1 || h.len = 0 else h.source > 47) then s.refuses stPAYLOAD_BAD
  else match s.chooseMeasure s.periodUs (c.f 16 8) with
    | none => s.refuses stCOMMIT_TOO_LATE
    | some k =>
      let g := s.grantsAt s.periodUs k
      let holds :=
        if !h.memory then g.sourceOwner h.source = h.owner
        else
          let (b, n) := if h.target = 0 then (s.get (Fd.BXM_BKF_BASE h.owner), s.get (Fd.BXM_BKF_LEN h.owner))
            else (s.get (Fd.BXM_DDR_BASE h.owner), s.get (Fd.BXM_DDR_LEN h.owner))
          b ≤ h.base && h.base + h.len ≤ b + n
      let pending := s.fw.sched.filterMap fun e => match e.eff with
        | .shareMake i _ => some i
        | _ => none
      match (List.range 16).find? fun i => (vget g.fw.shares i).isNone && (vget s.fw.shares i).isNone && !pending.contains i with
      | none => if holds then s.refuses stSHARE_FULL else s.refuses stNOT_OWNED
      | some i =>
        if !holds then s.refuses stNOT_OWNED
        else (s.schedule s.periodUs k (.shareMake i h) (some c.o)).answers (natLe 8 k ++ natLe 1 i ++ natLe 7 0)

/-- SHARE_REVOKE. -/
def State.doShareRevoke (s : State) (c : Cx) : Reply :=
  let i := c.f 0 1
  match vget s.fw.shares i with
  | none => s.refuses stPAYLOAD_BAD
  | some h => if s.shareUsed h then s.refuses stSHARE_IN_USE else s.scheduled s.periodUs (c.f 8 8) (.shareRevoke i) c.o

/-- PEG_CLEAR: FAULT to IDLE; the previous state. -/
def State.doPegClear (s : State) (c : Cx) : Reply :=
  let p := c.f 0 2
  if p > 4095 then s.refuses stPAYLOAD_BAD
  else
    let was := s.peg c.bay p
    (s.when (was = pFAULT) fun s => s.put (pegFld c.bay p) pIDLE).answers (natLe 1 was ++ natLe 3 0)

/-- PEG_WINDOW: only while every peg of the bay is IDLE. -/
def State.doPegWindow (s : State) (c : Cx) : Reply :=
  if c.f 0 1 > 1 || c.f 4 4 ≥ 2 ^ 19 then s.refuses stPAYLOAD_BAD
  else if (List.range 256).any fun k => s.reg (Reg.PEG_STATE c.bay k) ≠ 0 then s.refuses stGRANT_IN_USE
  else ((s.put (Fd.PEG_WIN_TARGET c.bay) (c.f 0 1)).put (Fd.PEG_WIN_BASE c.bay) (c.f 4 4)).answers []

end Sys2Proof.Machine
end

