-- ==== Sys2Proof/Machine/CmdKeys.lean ====
section
/-! DEFINITION. The key, seal, telemetry and debug commands (R281): their meaning once the checks of R255 have passed, and the
expiry of debug authorisations (R506). -/

namespace Sys2Proof.Machine

/-! ### Keys (R446 to R454) -/

/-- Slot `n` lies outside bay `b`'s grant, or its partner does when the key takes two (R281). -/
def State.slotForeign (s : State) (b n : Nat) (wide : Bool) : Bool := s.keyOwner n ≠ b || (wide && s.keyOwner (n + 1) ≠ b)

/-- What refuses slot `n` as the destination of a key of TYPE `ty` for bay `b`: 0 if nothing (R281, R447). -/
def State.destStatus (s : State) (b n ty : Nat) : Nat :=
  let wide := wideType ty
  if n > 63 || (wide && n % 2 = 1) then stPAYLOAD_BAD
  else if s.slotForeign b n wide then stNOT_OWNED
  else if s.keyBad n || (wide && s.keyBad (n + 1)) then stSLOT_BAD
  else if s.keyType n ≠ 0xF || (wide && s.keyType (n + 1) ≠ 0xF) then stPAYLOAD_BAD
  else 0

/-- A key enters slot `n` of bay `b`, and the key area follows if it persists (R449). -/
def State.storeKey (s : State) (b n ty usage key : Nat) : State := (s.putKey n ty usage b key).savePersist (bitAt usage uPERSIST)

def State.doKeyGenerate (s : State) (c : Cx) : Reply :=
  let ty := c.f 1 1
  let usage := c.f 2 2
  if ty > 2 || !usageOk ty usage then s.refuses stPAYLOAD_BAD
  else if s.destStatus c.bay (c.f 0 1) ty ≠ 0 then s.refuses (s.destStatus c.bay (c.f 0 1) ty)
  else if s.noEntropy then s.refuses stSLOT_BAD
  else
    let (v, s1) := s.draw
    (s1.storeKey c.bay (c.f 0 1) ty usage (keyValue ty (natBe (kdfBits ty / 8) v))).answers []

/-- KEY_IMPORT: the blob at the block's start (R453). -/
def State.doKeyImport (s : State) (c : Cx) : Reply :=
  let k := c.f 0 2
  let n := c.f 4 1
  if !s.blocksReady c.bay k 1 || n > 63 then (s.blocksIdle c.bay k 1).refuses stPAYLOAD_BAD
  else
    let (r, s1) := s.blockBytes c.bay k 144
    let s2 := s1.blocksIdle c.bay k 1
    if s2.keyOwner n ≠ c.bay then s2.refuses stNOT_OWNED
    else match r.bind (s2.openBlob c.bay) with
      | none => s2.refuses stVERIFY_FAILED
      | some (ty, usage, key) =>
        if !usageOk ty usage then s2.refuses stPAYLOAD_BAD
        else if s2.destStatus c.bay n ty ≠ 0 then s2.refuses (s2.destStatus c.bay n ty)
        else (s2.storeKey c.bay n ty usage key).answers []

/-- KEY_EXPORT: the blob at the block's start, whose peg then goes to HOST (R453). -/
def State.doKeyExport (s : State) (c : Cx) : Reply :=
  let k := c.f 0 2
  let n := c.f 4 1
  if !s.blocksReady c.bay k 1 || n > 63 then s.refuses stPAYLOAD_BAD
  else if s.keyOwner n ≠ c.bay then s.refuses stNOT_OWNED
  else if s.noEntropy && s.keyType n ≠ 3 then s.refuses stSLOT_BAD
  else match s.useKey n uEXPORTABLE with
    | (.error bad, s1) => s1.refuses (if bad then stSLOT_BAD else stKEY_USAGE)
    | (.ok key, s1) =>
      let (iv, s2) := s1.drawBytes 12
      let l := s2.blobOf c.bay (s.keyType n) (s.keyUsage n) key iv
      match s2.writePlace none (s2.windowPlace c.bay (65536 * k)) l with
      | (false, s3) => s3.refuses stPAYLOAD_BAD
      | (true, s3) => (s3.pegRequest c.bay false (BitVec.ofNat 32 (65536 * pHOST + k))).answers (natLe 4 l.length)

/-- The TYPE of a derived key: the first that its USAGE suits, as the command names none (DEDUCED, log entry 34). -/
def derivedType (usage : Nat) : Option Nat := [0, 1, 2].find? fun ty => usageOk ty usage

def State.doKeyDerive (s : State) (c : Cx) : Reply :=
  let src := c.f 0 1
  let dst := c.f 1 1
  let usage := c.f 2 2
  match derivedType usage with
  | none => s.refuses stPAYLOAD_BAD
  | some ty =>
    if src > 63 || dst > 63 || (wideType ty && dst % 2 = 1) then s.refuses stPAYLOAD_BAD
    else if s.keyOwner src ≠ c.bay then s.refuses stNOT_OWNED
    else if s.destStatus c.bay dst ty ≠ 0 then s.refuses (s.destStatus c.bay dst ty)
    else if bitAt usage uEXPORTABLE && !bitAt (s.keyUsage src) uEXPORTABLE then s.refuses stKEY_USAGE
    else match s.useKey src uDERIVE with
      | (.error bad, s1) => s1.refuses (if bad then stSLOT_BAD else stKEY_USAGE)
      | (.ok key, s1) =>
        let l := kdf (natBe 32 key) lblCKDF c.bay ty usage src ((c.pay.drop 4).take 32) (kdfBits ty)
        (s1.storeKey c.bay dst ty usage (keyValue ty l)).answers []

/-- Half of a public key's X then Y, right-aligned in 48 bytes. -/
def coordinate (p : List Byte) (part : Nat) : List Byte :=
  let h := p.length / 2
  List.replicate (48 - h) 0 ++ (p.drop (part * h)).take h

def State.doKeyPublic (s : State) (c : Cx) : Reply :=
  let n := c.f 0 1
  if c.f 1 1 > 1 || (n > 63 && n ≠ 0xFF) then s.refuses stPAYLOAD_BAD
  else if n = 0xFF then
    (if s.hasIdentity then s.answers (coordinate (bytesN 96 (Config.ecPublic true identityKey)) (c.f 1 1)) else s.refuses stSLOT_BAD)
  else if wideType (s.keyType n) && n % 2 = 1 then s.refuses stPAYLOAD_BAD
  else if s.keyOwner n ≠ c.bay then s.refuses stNOT_OWNED
  else if s.keyBad n then s.refuses stSLOT_BAD
  else if s.keyType n = 0 || s.keyType n > 3 then s.refuses stKEY_USAGE
  else match s.takeKey n with
    | (none, s1) => s1.refuses stSLOT_BAD
    | (some key, s1) => s1.answers (coordinate (bytesN (if s.keyType n = 1 then 64 else 96) (publicOf (s.keyType n) key)) (c.f 1 1))

def State.doKeyZeroise (s : State) (c : Cx) : Reply :=
  let n := c.f 0 1
  if n > 63 || (wideType (s.keyType n) && n % 2 = 1) then s.refuses stPAYLOAD_BAD
  else if s.keyOwner n ≠ c.bay then s.refuses stNOT_OWNED
  else if s.slotBusy n then s.refuses stGRANT_IN_USE
  else ((s.clearKey n).savePersist (bitAt (s.keyUsage n) uPERSIST)).answers []

def State.doKeyRandom (s : State) (c : Cx) : Reply :=
  if !(1 ≤ c.f 0 1 && c.f 0 1 ≤ 48) then s.refuses stPAYLOAD_BAD
  else if s.noEntropy then s.refuses stSLOT_BAD
  else
    let (l, s1) := s.drawBytes (c.f 0 1)
    s1.answers l

/-! ### Seals (R459 to R461) -/

def State.doSealStart (s : State) (c : Cx) : Reply :=
  let i := c.f 0 1
  let slot := c.f 1 1
  let p := s.periodUs
  if i > 3 || slot > 63 || c.f 2 2 < 1 || c.f 2 2 > 3600 then s.refuses stPAYLOAD_BAD
  else match s.chooseMeasure p (c.f 16 8) with
    | none => s.refuses stCOMMIT_TOO_LATE
    | some k =>
      let g := s.grantsAt p k
      if g.phaseOf c.bay (0x1C4 + i) = 0 || g.keyOwner slot ≠ c.bay then s.refuses stNOT_OWNED
      else if s.keyType slot ≠ 1 || !bitAt (s.keyUsage slot) uSEAL then s.refuses stKEY_USAGE
      else if s.noEntropy then s.refuses stSLOT_BAD
      else s.scheduled p k (.sealStart c.bay i slot (c.f 2 2) (c.f 8 8)) c.o

def State.doSealStop (s : State) (c : Cx) : Reply :=
  let i := c.f 0 1
  if i > 3 then s.refuses stPAYLOAD_BAD
  else if s.phaseOf c.bay (0x1C4 + i) = 0 && !((s.seal_ i).active && (s.seal_ i).bay = c.bay) then s.refuses stNOT_OWNED
  else if (s.seal_ i).active && (s.seal_ i).bay ≠ c.bay then s.refuses stNOT_OWNED
  else s.scheduled s.periodUs (c.f 8 8) (.sealStop i) c.o

def State.doSealStatus (s : State) (c : Cx) : Reply :=
  let i := c.f 0 1
  if i > 3 then s.refuses stPAYLOAD_BAD
  else if (s.seal_ i).bay ≠ c.bay && s.phaseOf c.bay (0x1C4 + i) = 0 then s.refuses stNOT_OWNED
  else s.answers (natLe 8 (s.seal_ i).chainId ++ natLe 8 (s.seal_ i).emitted ++ natLe 8 (s.seal_ i).lastMeasure)

/-! ### Telemetry (R67, R499) -/

/-- TLM_READ: the boundary copies of COUNT registers from ADDR on. -/
def State.doTlmRead (s : State) (c : Cx) : Reply :=
  let a := c.f 0 4
  let n := c.f 4 1
  if n < 1 || n > 12 || a % 4 ≠ 0 || !((List.range n).all fun i => listedBlocks.contains ((a + 4 * i) / 65536)) then s.refuses stPAYLOAD_BAD
  else if !((List.range n).all fun i => s.bayReads c.bay none (a + 4 * i)) then s.refuses stNOT_OWNED
  else s.answers ((List.range n).flatMap fun i => natLe 4 (s.shadowReg (a + 4 * i)).toNat)

def State.doTlmReadClear (s : State) (c : Cx) : Reply :=
  (s.modBay c.bay fun r => { r with counters := Vector.replicate 12 0 }).answers ((s.bayRec c.bay).counters.toList.flatMap (natLe 4))

/-! ### Debug (R503 to R506, R516, R519) -/

/-- Core `c` serves bay `b`: it belongs to the bay's unit; for bay 0, to no bay's. -/
def State.serves (s : State) (c b : Nat) : Bool :=
  if b = 0 then !((List.range 8).any fun i => i ≠ 0 && (unitCores (s.bayRec i).coreUnit).contains c && s.bayState i ≠ bEMPTY)
  else (unitCores (s.bayRec b).coreUnit).contains c

/-- The cores of a mask. -/
def maskCores (m : Nat) : List Nat := (List.range 6).filter (bitAt m)

def State.setChallenge (s : State) (b : Nat) (x : Option Challenge) : State :=
  { s with dbg := { s.dbg with challenges := s.dbg.challenges.filter (·.1 ≠ b) ++ (x.map fun y => (b, y)).toList } }

def State.doDbgChallenge (s : State) (c : Cx) : Reply :=
  let lv := c.f 0 1
  let m := c.f 1 1
  if !(lv = 1 || lv = 2) || m = 0 || m ≥ 64 then s.refuses stPAYLOAD_BAD
  else if !((maskCores m).all fun n => s.serves n c.bay) then s.refuses stNOT_OWNED
  else if lv = 2 && (c.ring ≠ 8 || c.bay ≠ 0) then s.refuses stNOT_PERMITTED
  else if s.noEntropy then s.refuses stSLOT_BAD
  else
    let (l, s1) := s.drawBytes 32
    (s1.setChallenge c.bay (some { level := lv, cores := m, nonce := l })).answers l

/-- The authorisation record holds against bay `b`'s challenge (R505). -/
def State.authHolds (s : State) (b : Nat) (x : Challenge) (l : List Byte) : Bool × State :=
  let slot := fieldAt l 7 1
  let fields := l.take 4 = [0x43, 0x44, 0x41, 0x31] && fieldAt l 4 1 = x.level && fieldAt l 5 1 = x.cores && fieldAt l 6 1 = b &&
    fieldAt l 8 4 = (s.reg Reg.SYS_CHIP_ID).toNat && (l.drop 0x10).take 32 = x.nonce
  let live := s.bit Fd.PLB_STATE_VALID && s.sec < fieldAt l 0x30 8 % 2 ^ 48
  if !fields || !live || slot > 63 || s.keyType slot ≠ 3 || s.keyOwner slot ≠ b then (false, s)
  else match s.useKey slot uDEBUG with
    | (.error _, s1) => (false, s1)
    | (.ok key, s1) => (verifyWith 3 key (bytesN 48 (Config.sha384 (l.take 0x40))) ((l.drop 0x40).take 96), s1)

/-- The field of DBG_EN (or DBG_TEN) of core `n` for level 1 (S of bay `b`) or 2 (F). -/
def enableFld (reg : Nat) (b level : Nat) : Fld := if level = 2 then ⟨reg, 16, 16⟩ else ⟨reg, 8 + b, 8 + b⟩

def State.doDbgAuthorise (s : State) (c : Cx) : Reply :=
  let k := c.f 0 2
  if !s.blocksReady c.bay k 1 then (s.blocksIdle c.bay k 1).refuses stPAYLOAD_BAD
  else
    let (r, s1) := s.blockBytes c.bay k 160
    let s2 := s1.blocksIdle c.bay k 1
    match s.dbg.challenges.find? (·.1 = c.bay), r with
    | some (_, x), some l =>
      if x.level = 2 && c.ring ≠ 8 then s2.refuses stVERIFY_FAILED
      else
        let (ok, s3) := (s2.setChallenge c.bay none).authHolds c.bay x l
        if !ok then s3.refuses stVERIFY_FAILED
        else
          let s4 := s3.each (maskCores x.cores) fun s n => s.put (enableFld (Reg.DBG_EN (s.lead n)) c.bay x.level) 1
          let a : Auth := { bay := c.bay, level := x.level, cores := x.cores, expiry := fieldAt l 0x30 8 % 2 ^ 48 }
          State.answers { s4 with dbg := { s4.dbg with auths := s4.dbg.auths ++ [a] } } []
    | _, _ => (s2.setChallenge c.bay none).refuses stVERIFY_FAILED

/-- DBG_TRACE_CFG (R504, R516, R519). -/
def State.doDbgTraceCfg (s : State) (c : Cx) : Reply :=
  let m := c.f 0 1
  let lv := c.f 1 1
  let sink := c.f 2 1
  let filt := c.f 4 4
  let b := c.bay
  let leads := ((maskCores m).map s.lead).eraseDups
  let others (n : Nat) : Bool := (s.reg (Reg.DBG_TEN n)).toNat &&& (0x1FFFF - 2 ^ b - 2 ^ (8 + b) - (if c.ring = 8 ∧ b = 0 then 2 ^ 16 else 0)) ≠ 0
  if m ≥ 64 || lv > 7 || sink > 2 || filt ≥ 256 || filt % 16 > 8 then s.refuses stPAYLOAD_BAD
  else if !((maskCores m).all fun n => s.serves n b) then s.refuses stNOT_OWNED
  else if !(leads.all fun n => (!bitAt lv 1 || s.bit (enableFld (Reg.DBG_EN n) b 1)) &&
      (!bitAt lv 2 || (c.ring = 8 && b = 0 && s.bit (enableFld (Reg.DBG_EN n) b 2)))) then s.refuses stAUTH_REQUIRED
  else if leads.any fun n => others n && s.get (Fd.DBG_SINK_SINK n) ≠ 0 && s.get (Fd.DBG_SINK_SINK n) ≠ sink then s.refuses stGRANT_IN_USE
  else
    (s.each leads fun s n =>
      let s0 := (s.emitBranches n).flushFrame n
      let s1 := s0.when (bitAt lv 0) fun s => s.put ⟨Reg.DBG_EN n, b, b⟩ 1
      let s2 := (s1.putB ⟨Reg.DBG_TEN n, b, b⟩ (bitAt lv 0)).putB ⟨Reg.DBG_TEN n, 8 + b, 8 + b⟩ (bitAt lv 1)
      let s3 := s2.when (c.ring = 8 && b = 0) fun s => s.putB ⟨Reg.DBG_TEN n, 16, 16⟩ (bitAt lv 2)
      ((s3.put (Fd.DBG_SINK_SINK n) sink).put (Fd.DBG_FILT_FILTER n) filt).each (s.mates n) State.traceSync).answers []

/-- The F enable and F trace of every core end (R506). -/
def State.endF (s : State) : State :=
  let s1 := s.each (List.range 6) fun s n => (s.put ⟨Reg.DBG_EN n, 16, 16⟩ 0).put ⟨Reg.DBG_TEN n, 16, 16⟩ 0
  { s1 with dbg := { s1.dbg with auths := s1.dbg.auths.filter (·.level ≠ 2) } }.enablesEnded

def State.doDbgRevoke (s : State) (c : Cx) : Reply :=
  ((s.endEnables c.bay).when (c.ring = 8 && c.bay = 0) State.endF).answers []

/-- DEBUG_EXPIRY_CHECK: the enables of every authorisation whose EXPIRY has passed end, unless another still gives them (R506). -/
def State.expiryCheck (s : State) : State :=
  let (gone, live) := s.dbg.auths.partition fun a => a.expiry ≤ s.sec
  let s1 := { s with dbg := { s.dbg with auths := live } }
  (s1.each gone fun s a => s.each (maskCores a.cores) fun s n =>
    if live.any fun x => x.level = a.level && (x.level = 2 || x.bay = a.bay) && bitAt x.cores n then s
    else (s.put (enableFld (Reg.DBG_EN (s.lead n)) a.bay a.level) 0).put (enableFld (Reg.DBG_TEN (s.lead n)) a.bay a.level) 0).enablesEnded

end Sys2Proof.Machine
end

