-- ==== Sys2Proof/Machine/CmdFigure.lean ====
section
/-! DEFINITION. The figure, route, video port and layer commands (R277, R278): their meaning once the checks of R255 have passed. -/

namespace Sys2Proof.Machine

/-! ### Figures (R69 to R78, R105, R106, R277) -/

/-- The slot with bay `b`'s figure key; bay 0's is the lowest of its own that holds one (log entry 33). -/
def State.figKeySlot (s : State) (b : Nat) : Nat :=
  if b = 0 then ((List.range 64).find? fun n => s.keyOwner n = 0 && s.keyType n = 3 && bitAt (s.keyUsage n) uFIGURE).getD 0 else (s.bayRec b).figKey

/-- The signature of an image holds under bay `b`'s figure key (R105, R106). -/
def State.figVerifies (s : State) (b : Nat) (img : List Byte) : Bool × State :=
  let n := s.figKeySlot b
  let sig := Load.u32 img 0x60
  match s.useKey n uFIGURE with
  | (.ok key, s1) => (verifyWith 3 key (bytesN 48 (Config.sha384 (img.take sig))) ((img.drop sig).take 96), s1)
  | (.error _, s1) => (false, s1)

/-- Bay `b`'s staging slot holds `p`. -/
def State.setStaged (s : State) (b : Nat) (p : Option Part) : State :=
  (s.modFig fun f => { f with staged := vmod f.staged b fun _ => p }).putB ⟨Reg.FGE_STATUS, 16 + b, 16 + b⟩ p.isSome

/-- FGE_STATUS shows whether bay `b` has an accepted commit. -/
def State.showCommit (s : State) (b : Nat) : State := s.putB ⟨Reg.FGE_STATUS, 24 + b, 24 + b⟩ (s.fig.commits.any (·.1 = b))

/-- PART_ID of an image whose header can be read (DEDUCED, log entry 35). -/
def headerPart (img : List Byte) : Nat :=
  if img.length < 128 || img.take 4 ≠ [0x46, 0x49, 0x47, 0x44] || Load.u16 img 4 ≠ 0x0100 then 0 else Load.u64 img 0x20

/-- FIG_STAGE: the status is the loader's code. -/
def State.doFigStage (s : State) (c : Cx) : Reply :=
  let b := c.bay
  let first := c.f 0 2
  let n := c.f 2 2
  let len := c.f 4 4
  if !s.blocksReady b first n || len > 65536 * n then (s.blocksIdle b first n).refuses stPAYLOAD_BAD
  else match s.blockBytes b first len with
    | (none, s1) => (s1.blocksIdle b first n).refuses stPAYLOAD_BAD
    | (some img, s1) =>
      let (ok, s2) := if s.ready rKEY then s1.figVerifies b img else (false, s1)
      let s3 := s2.blocksIdle b first n
      match Load.checks s2 b img ⟨s.ready rKEY, ok⟩ (s.otherParts b) with
      | none =>
        let p := Load.readPart img
        ((s3.loadResult b none).setStaged b (some p)).answers (natLe 16 0 ++ natLe 8 p.partId)
      | some f => (f.code, natLe 4 f.ofs ++ natLe 4 f.res ++ natLe 8 f.step ++ natLe 8 (headerPart img), s3.loadResult b (some f))

/-- How a commit of part `p` for measure `k` of period `per` changes the geometry that is in force there: the failure it would be at any
time point but a whole second (R75). -/
def State.geometryChange (s : State) (per k : Nat) (p : Part) : Option Load.Fail := (s.geomAt per k).bind (Load.geomFail p.geom)

/-- Grant effects accepted for measures after `k` of period `p` that bay `b` will meet with the part it runs from `k` on: those before the next
effect that ends or replaces it. -/
def State.grantsMet (s : State) (p k b : Nat) : List Effect :=
  let ends (e : Sched) : Bool := match e.eff with
    | .commit x | .bayPark x | .partRemove x | .bayDelete x _ => x = b
    | _ => false
  ((s.fw.sched.filter fun e => e.eff.rank = 0 && !e.by p k && !s.fw.sched.any fun q => ends q && !q.by p k && q.by e.period e.measure).foldl
    (fun l e => insertSched e l) []).map (·.eff)

/-- The failure of part `m` of bay `b` under some of the grants that the effects `l` leave, one after the other, from those of `g` on. -/
def State.laterFail (g : State) (b : Nat) (m : Load.Mate) : List Effect → Option Load.Fail
  | [] => none
  | e :: l => match Load.grantChecks (g.grantEffect e) b m with
    | some f => some f
    | none => State.laterFail (g.grantEffect e) b m l

/-- FIG_COMMIT (R70, R71, R75): the part suits the grants of its measure and those that later effects, accepted already, leave it (R191, R211;
DESIGN CHOICE, log entry 55). -/
def State.doFigCommit (s : State) (c : Cx) : Reply :=
  let b := c.bay
  match vget s.fig.staged b with
  | none => s.refuses stPAYLOAD_BAD
  | some p =>
    let per := s.partPeriod (some p)
    match s.chooseMeasure per (c.f 0 8) with
    | none => (stCOMMIT_TOO_LATE, [], s.loadResult b (some ⟨stCOMMIT_TOO_LATE, 0, 0, 0⟩))
    | some k =>
      let bad : Option Load.Fail :=
        if p.acts.isEmpty then none
        else if (s.geometryChange per k p).isSome && k * per % 1000000 ≠ 0 then s.geometryChange per k p
        else
          let m := Load.mateOf p (vget s.fig.carry b)
          let g := s.grantsAt per k
          match Load.commitChecks g b m (s.partsAt per k b) with
          | some f => some f
          | none => g.laterFail b m (s.grantsMet per k b)
      match bad with
      | some f => (f.code, [], s.loadResult b (some f))
      | none =>
        let s1 := ((s.setStaged b none).modFig fun f => { f with commits := f.commits ++ [(b, k, p)] }).wakeEngines p
        let s1 := s1.each p.routes fun s e => s.wakeCodec e.dest (routeOf b e)
        (((s1.showCommit b).loadResult b none).schedule per k (.commit b) (some c.o)).answers (natLe 8 k)

/-- An effect that has less than 100 µs to its measure (R76). -/
def State.tooClose (s : State) (e : Sched) : Bool := timePoint e.period e.measure < s.tme.t + mergeTime

/-- FIG_WITHDRAW (R76). -/
def State.doFigWithdraw (s : State) (c : Cx) : Reply :=
  let b := c.bay
  if c.f 0 1 = 0 then (s.setStaged b none).answers []
  else if c.f 0 1 > 1 then s.refuses stPAYLOAD_BAD
  else match s.fig.commits.reverse.find? (·.1 = b) with
    | none => s.answers []
    | some (_, m, p) =>
      match s.fw.sched.find? fun e => e.eff = .commit b && e.measure = m with
      | none => s.answers []
      | some e =>
        if s.tooClose e then s.refuses stCOMMIT_TOO_LATE
        else
          let s1 := (s.modFig fun f => { f with commits := f.commits.erase (b, m, p) }).modFw fun f => { f with sched := f.sched.erase e }
          ((s1.showCommit b).setStaged b (some p)).answers []

def State.doFigStatus (s : State) (c : Cx) : Reply :=
  let m := match s.fig.commits.find? (·.1 = c.bay) with
    | some x => x.2.1
    | none => 0
  s.answers (natLe 8 (partId (s.part c.bay)) ++ natLe 8 (partId (vget s.fig.staged c.bay)) ++ natLe 8 m ++ natLe 2 (s.get (Fd.FGE_LOAD_CODE c.bay)) ++ natLe 6 0)

/-- FIG_LUT: the bay's shadow table of one engine or all (R116). -/
def State.doFigLut (s : State) (c : Cx) : Reply :=
  let e := c.f 0 1
  let first := c.f 1 1
  let n := c.f 2 1
  let es := if e = 0xFF then List.range 4 else [e]
  if (e > 3 && e ≠ 0xFF) || n < 1 || n > 10 || c.f 3 1 > 1 || first + n > 256 then s.refuses stPAYLOAD_BAD
  else if !(es.all fun i => s.domOn (8 + i)) then s.countDown.refuses stDOMAIN_DOWN
  else
    (s.each es fun s i =>
      let s1 := s.each (List.range n) fun s k => s.setReg (Reg.SE_LUT i c.bay (first + k)) (BitVec.ofNat 32 (c.f (4 + 4 * k) 4))
      s1.when (c.f 3 1 = 1) fun s => s.flag ⟨Reg.SE_LUTSWAP i, c.bay, c.bay⟩).answers []

/-! ### Routes (R272, R278) -/

/-- ROUTE_SET. -/
def State.doRouteSet (s : State) (c : Cx) : Reply :=
  let d := c.f 0 1
  let src := c.f 1 1
  let p := s.periodUs
  if d > 47 || (src > 47 && src ≠ 0xFF) || c.f 2 1 > 1 || c.f 4 4 > 63 then s.refuses stPAYLOAD_BAD
  else match s.chooseMeasure p (c.f 8 8) with
    | none => s.refuses stCOMMIT_TOO_LATE
    | some k =>
      let g := s.grantsAt p k
      if g.destOwner d ≠ c.bay || (src ≠ 0xFF && !g.maySource c.bay src) then s.refuses stNOT_OWNED
      else
        let r : Route := { source := src, replay := c.f 2 1 = 1, profile := c.f 4 4, bay := c.bay }
        (((s.schedule p k (.routeSet d r) (some c.o)).wakeCodec d r).showDest d).answers (natLe 8 k)

/-- A scheduled ROUTE_SET for destination `d`. -/
def Sched.routes (d : Nat) (e : Sched) : Bool := match e.eff with
  | .routeSet x _ => x = d
  | _ => false

/-- ROUTE_CANCEL. -/
def State.doRouteCancel (s : State) (c : Cx) : Reply :=
  let d := c.f 0 1
  if d > 47 then s.refuses stPAYLOAD_BAD
  else if s.destOwner d ≠ c.bay then s.refuses stNOT_OWNED
  else
    let es := s.fw.sched.filter (Sched.routes d)
    let armed := (s.dest d).pend.any fun p => p.2.2.2.isSome
    if armed || es.any s.tooClose then s.refuses stCOMMIT_TOO_LATE
    else ((s.modFw fun f => { f with sched := f.sched.filter fun e => !e.routes d }).showDest d).answers []

def State.doRouteStatus (s : State) (c : Cx) : Reply :=
  let d := c.f 0 1
  if d > 47 then s.refuses stPAYLOAD_BAD
  else if s.destOwner d ≠ c.bay then s.refuses stNOT_OWNED
  else
    let x := s.dest d
    let pend : Nat × Nat := match x.pend, s.fw.sched.find? (Sched.routes d) with
      | some p, _ => (p.1.source, p.2.1)
      | none, some e => (match e.eff with | .routeSet _ r => r.source | _ => 0xFE, e.measure)
      | none, none => (0xFE, 0)
    s.answers (natLe 1 x.route.source ++ natLe 1 (b2n x.route.replay) ++ natLe 1 pend.1 ++ natLe 1 (b2n x.override.isSome) ++ natLe 4 x.route.profile ++ natLe 8 pend.2)

/-- ROUTE_PROFILE (R305, R306). -/
def State.doRouteProfile (s : State) (c : Cx) : Reply :=
  let p := (c.pay.drop 4).take 40
  if c.f 0 4 > 63 || !profileOk p then s.refuses stPAYLOAD_BAD
  else
    let s1 := s.modVid fun v => { v with profs := sset (fun _ => List.replicate 40 (0 : Byte)) (c.bay * 64 + c.f 0 4) p v.profs }
    (s1.each (List.range 48) fun s d => s.wakeCodec d (s.dest d).route).answers []

/-! ### Video ports and layers (R278) -/

/-- Bytes of a CONFIG page that it lays out (R300). -/
def vinCovered (page i : Nat) : Bool :=
  page = 0 || i = 0 || (page = 1 && 4 ≤ i && i < 28) || (page = 2 && 4 ≤ i) || (page = 3 && 4 ≤ i && i < 34)

/-- VIN_CFG (R285, R293, R300, R301). -/
def State.doVinCfg (s : State) (c : Cx) : Reply :=
  let i := c.f 0 1
  let l := (c.pay.drop 4).take 40
  let page := fieldAt l 0 1
  if i > 23 then s.refuses stPAYLOAD_BAD
  else match vinPage ((s.conf i).shadow.getD (s.conf i).cfg) l with
    | none => s.refuses stPAYLOAD_BAD
    | some n =>
      if !((List.range 40).all fun k => vinCovered page k || l.getD k 0 = 0) || (page = 0 && s.vinClash i n) then s.refuses stPAYLOAD_BAD
      else if s.sourceOwner i ≠ c.bay || (page = 0 && n.holdSrc ≠ 0xFF && s.sourceOwner (40 + n.holdSrc) ≠ c.bay) then s.refuses stNOT_OWNED
      else (s.vinCfg i n page).answers []

/-- VOUT_CFG (R324, R325). -/
def State.doVoutCfg (s : State) (c : Cx) : Reply :=
  let p := c.f 0 1
  let l := (c.pay.drop 4).take 40
  if p > 3 || !Tim.ok l then s.refuses stPAYLOAD_BAD
  else if !((List.range 4).all fun k => s.destOwner (4 * p + k) = c.bay) then s.refuses stNOT_OWNED
  else (s.voutCfg p l).answers []

/-- Bay `b` owns layer `l` of compositor `c` (R278). -/
def State.ownsLayer (s : State) (b c l : Nat) : Bool := if l < 4 then s.destOwner (4 * c + l) = b else s.phaseOf b (0x198 + 4 * c + (l - 4)) ≠ 0

/-- LAYER_SET: the shadow only (R334). -/
def State.doLayerSet (s : State) (c : Cx) : Reply :=
  let m := c.f 0 1
  let l := c.f 1 1
  let p := (c.pay.drop 4).take 40
  if m > 3 || l > 7 || !Lay.ok l p then s.refuses stPAYLOAD_BAD
  else if !s.ownsLayer c.bay m l then s.refuses stNOT_OWNED
  else (s.modComp m fun x => { x with shadow := vmod x.shadow l fun _ => p }).answers []

/-- LAYER_COMMIT (R335 to R337). -/
def State.doLayerCommit (s : State) (c : Cx) : Reply :=
  let m := c.f 0 1
  let group := c.f 1 1
  let ls := (List.range 8).filter fun l => bitAt group l
  let p := s.periodUs
  if m > 3 then s.refuses stPAYLOAD_BAD
  else match s.chooseMeasure p (c.f 8 8) with
    | none => s.refuses stCOMMIT_TOO_LATE
    | some k =>
      let sets := ls.map fun l => (l, vget (s.comp m).shadow l)
      if zClash (s.layersAfter m p k sets) then s.refuses stPAYLOAD_BAD
      else if !(ls.all fun l => (s.grantsAt p k).ownsLayer c.bay m l) then s.refuses stNOT_OWNED
      else (((s.modComp m fun x => { x with commits := x.commits ++ [⟨k, none, sets, some c.o⟩] }).showComp m).schedule p k (.layerCommit m group) none).answers (natLe 8 k)

end Sys2Proof.Machine
end

