-- ==== Sys2Proof/Machine/CmdUnits.lean ====
section
/-! DEFINITION. The audio, odometry, PWM, plumb, network and junction commands (R279, R280): their meaning once the checks of R255
have passed. -/

namespace Sys2Proof.Machine

/-- A value lies in a range. -/
def within (n lo hi : Nat) : Bool := decide (lo ≤ n ∧ n ≤ hi)

/-- The answer of a command that returns nothing. -/
def State.statusOnly (r : Nat × State) : Reply := (r.1, [], r.2)

/-! ### Audio (R342 to R347, R357) -/

/-- The payload of AUD_TDM_CFG may be carried out (R279, R347). -/
def tdmOk (c : Cx) : Bool :=
  let f := c.f 2 1 * c.f 3 1
  c.f 0 1 ≤ 3 && c.f 1 1 ≤ 1 && within (c.f 2 1) 1 32 && within (c.f 3 1) 8 32 && c.f 4 1 ≤ 31 && c.f 5 1 ≤ 3 &&
    within (c.f 8 4) 8000 192000 && c.f 4 1 < f && c.f 8 4 * f ≤ 50000000

def State.doAudTdmCfg (s : State) (c : Cx) : Reply :=
  if !tdmOk c then s.refuses stPAYLOAD_BAD
  else (s.tdmCfg (c.f 0 1) (c.f 1 1 = 1)
    { slots := c.f 2 1, width := c.f 3 1, offset := c.f 4 1, master := bitAt (c.f 5 1) 0, falling := bitAt (c.f 5 1) 1, rate := c.f 8 4 }).answers []

/-- The effects accepted for measures after `k` of period `p`, in the order in which they take place. -/
def State.dueAfter (s : State) (p k : Nat) : List Sched := (s.fw.sched.filter fun e => !e.by p k).foldl (fun l e => insertSched e l) []

/-- AUD_ROUTE: the store is reckoned with every AUD_ROUTE already accepted, at the measure that the command targets and after it (R271,
R357). -/
def State.doAudRoute (s : State) (c : Cx) : Reply :=
  let p := s.periodUs
  let k := s.chooseMeasure p (c.f 8 8)
  let g := (s.audAfter (k.elim [] (s.dueBy p))).modRoute (c.f 0 2) fun r => { r with inp := c.f 2 2, pend := none }
  if !(s.audAfter s.fw.sched).audRouteOk (c.f 0 2) (c.f 2 2) || !g.audFits (k.elim [] (s.dueAfter p)) then s.refuses stPAYLOAD_BAD
  else s.scheduled s.periodUs (c.f 8 8) (.audRoute (c.f 0 2) (c.f 2 2) (signed 16 (c.f 4 2))) c.o

def State.doAudDelay (s : State) (c : Cx) : Reply :=
  let out := c.f 0 2
  let g := s.modRoute out fun r => { r with delay := c.f 4 4 }
  if (outDomain out).isNone || c.f 4 4 > 500000 || !g.audFits (s.fw.sched.foldl (fun l e => insertSched e l) []) then s.refuses stPAYLOAD_BAD
  else (s.audDelay out (c.f 4 4)).answers []

/-! ### Odometry (R362, R366, R371, R378, R279) -/

def State.doOdoAxleCfg (s : State) (c : Cx) : Reply :=
  if c.f 0 1 > 3 || c.f 1 1 > 15 || !within (c.f 2 2) 0x40 0xF0 || !within (c.f 4 2) 0x110 0x400 || !within (c.f 8 4) 100 60000 || c.f 12 1 > 1 then
    s.refuses stPAYLOAD_BAD
  else (s.axleCfg (c.f 0 1) (c.f 1 1) (c.f 2 2) (c.f 4 2) (c.f 8 4) (c.f 12 1 = 1)).answers []

/-- The payload of ODO_EVENT_ARM may be carried out (R371). -/
def armOk (c : Cx) : Bool :=
  let kind := c.f 1 1
  let flags := c.f 3 1
  let pos := signed 64 (c.f 4 8)
  c.f 0 1 ≤ 63 && kind ≤ 3 && c.f 2 1 ≤ 2 && !bitAt flags 7 && bitsOf flags 2 1 ≠ 3 && decide (-(2 ^ 47) ≤ pos ∧ pos < 2 ^ 47) &&
    (kind < 2 || within (c.f 12 8) 1 (2 ^ 40)) && (c.f 28 1 ≤ 7 || c.f 28 1 = 0xFF) && (c.f 29 1 ≤ 11 || c.f 29 1 = 0xFF) &&
    !(bitsOf flags 2 1 = 2 && c.f 24 4 < 100)

def State.doOdoEventArm (s : State) (c : Cx) : Reply :=
  if !armOk c then s.refuses stPAYLOAD_BAD else (s.armSlot (c.pay.take 32)).answers []

def State.doOdoEventDisarm (s : State) (c : Cx) : Reply :=
  if c.f 0 1 > 63 then s.refuses stPAYLOAD_BAD else (s.clearSlot (c.f 0 1)).answers []

def State.doOdoSetPos (s : State) (c : Cx) : Reply := (s.setPos (signed 48 (c.f 0 8 % 2 ^ 48))).answers []

def State.doOdoStatus (s : State) (_ : Cx) : Reply :=
  let s1 := s.odoShow
  s1.answers ((s1.posWords s1.snap.posSeq).flatMap (fun w => natLe 2 w.toNat) ++ (List.range 4).flatMap (fun a => natLe 1 (s1.axState a)) ++
    natLe 4 (s1.reg Reg.ODO_SEL).toNat)

/-! ### PWM (R383, R390, R391) -/

/-- The payload of PWM_CFG may be carried out (R383); DEAD and BOOT_PW are as wide as their register fields. -/
def pwmCfgOk (c : Cx) : Bool :=
  c.f 0 1 ≤ 11 && c.f 1 1 ≤ 3 && within (c.f 4 4) 256 536870911 && c.f 8 4 ≤ c.f 4 4 && c.f 16 1 ≤ 2 &&
    !(c.f 16 1 = 1 && c.f 17 1 > 63) && !(c.f 16 1 = 2 && c.f 17 1 > 23) && !(c.f 14 2 ≠ 0 && c.f 12 2 = 0)

def State.doPwmCfg (s : State) (c : Cx) : Reply :=
  let n := c.f 0 1
  if !pwmCfgOk c then s.refuses stPAYLOAD_BAD
  else
    let s1 := (((s.putB (Fd.PWM_CTL_ENABLE n) (bitAt (c.f 1 1) 0)).putB (Fd.PWM_CTL_INVERT n) (bitAt (c.f 1 1) 1)).put (Fd.PWM_CTL_SYNC n) (c.f 16 1)).put
      (Fd.PWM_CTL_SYNC_ARG n) (c.f 17 1)
    let s2 := ((s1.put (Fd.PWM_PER_PERIOD n) (c.f 4 4)).put (Fd.PWM_DUTY_DUTY n) (c.f 8 4)).put (Fd.PWM_DEAD_DEAD n) (c.f 2 2)
    let s3 := (s2.put (Fd.PWM_BOOT_BOOT_PW n) (c.f 12 2)).put (Fd.PWM_BOOT_BOOT_HOLD n) (c.f 14 2)
    ((s3.when (s.pwmIdle n) fun s => s.modPch n fun p => { p with from_ := max p.from_ s.unit }).pwmWritten).answers []

def State.doPwmLimit (s : State) (c : Cx) : Reply :=
  if c.f 0 1 > 11 || c.f 1 1 > 1 || !within (c.f 4 4) 1 10000000 then s.refuses stPAYLOAD_BAD
  else ((s.put (Fd.PWM_LIM_ENABLE (c.f 0 1)) (c.f 1 1)).put (Fd.PWM_LIM_MAX_ON_US (c.f 0 1)) (c.f 4 4)).answers []

def State.doPwmFaultClear (s : State) (c : Cx) : Reply :=
  if c.f 0 2 ≥ 4096 then s.refuses stPAYLOAD_BAD
  else
    let (held, s1) := s.pwmClear (c.f 0 2)
    s1.answers (natLe 2 held ++ natLe 2 0)

/-! ### Plumb (R395, R399, R403, R405, R408) -/

/-- The payload of PLB_REF_CFG may be carried out (R395). -/
def refCfgOk (c : Cx) : Bool :=
  let r := c.f 0 1
  let hz := c.f 4 4
  let tol := c.f 8 4
  let q := c.f 12 2
  r ≤ 6 && c.f 1 1 ≤ 15 && (if r < 4 then within hz 1 156250000 else if r = 4 then hz = 1 else within hz 1 1000) &&
    1 ≤ q && q ≤ 100 * hz && within tol 1 1000000 && hz ≤ tol * q

def State.doPlbRefCfg (s : State) (c : Cx) : Reply :=
  let r := c.f 0 1
  if !refCfgOk c then s.refuses stPAYLOAD_BAD
  else
    let s1 := ((((s.put (Fd.PLB_REFCFG_PRIORITY r) (c.f 1 1)).put (Fd.PLB_REFFREQ_FREQ_HZ r) (c.f 4 4)).put (Fd.PLB_REFTOL_TOL_PPB r) (c.f 8 4)).put
      (Fd.PLB_REFQUAL_QUAL_CYCLES r) (c.f 12 2))
    ((s1.refWritten r).reselect).answers []

def State.doPlbSelect (s : State) (c : Cx) : Reply :=
  let r := c.f 0 1
  if (r > 6 && r ≠ 0xFF) || c.f 1 1 > 1 || (r ≤ 6 && s.priority r = 0) then s.refuses stPAYLOAD_BAD
  else
    let s1 := (s.putB Fd.PLB_CTL_AUTO (r = 0xFF)).put Fd.PLB_CTL_REVERTIVE (c.f 1 1)
    ((s1.when (r ≠ 0xFF) fun s => s.put Fd.PLB_CTL_MANUAL_REF r).reselect).answers []

def State.doPlbSlope (s : State) (c : Cx) : Reply :=
  if !within (c.f 0 4) 100 100000000 then s.refuses stPAYLOAD_BAD else (s.setSlope (c.f 0 4)).answers []

def State.doPlbSetTime (s : State) (c : Cx) : Reply :=
  if c.f 0 8 ≥ 2 ^ 48 || c.f 8 4 ≥ 1000000000 then s.refuses stPAYLOAD_BAD
  else (s.setTimeCmd (c.f 0 8) (c.f 8 4) (c.f 12 2)).answers []

def State.doPlbStatus (s : State) (_ : Cx) : Reply :=
  s.answers (natLe 2 (s.reg Reg.PLB_STATE).toNat ++ natLe 1 (s.get Fd.PLB_STATE_SELECTED) ++ natLe 1 0 ++ natLe 4 (s.reg Reg.PLB_PHASE).toNat ++
    natLe 4 (unsigned 32 s.freqF) ++ natLe 4 0)

/-! ### Network and junction (R280) -/

def State.doNetPortCfg (s : State) (c : Cx) : Reply := State.statusOnly (s.netPortCfg c.pay)
def State.doNetQueueCfg (s : State) (c : Cx) : Reply := State.statusOnly (s.netQueueCfg c.bay c.pay)
def State.doNetTrdpTx (s : State) (c : Cx) : Reply := State.statusOnly (s.netTrdpTx c.bay c.pay)
def State.doNetTrdpFilter (s : State) (c : Cx) : Reply := State.statusOnly (s.netTrdpFilter c.bay c.pay)
def State.doNetMacsecSa (s : State) (c : Cx) : Reply := State.statusOnly (s.netMacsecSa c.bay c.pay)
def State.doJncCfg (s : State) (c : Cx) : Reply := State.statusOnly (s.jncCfg c.pay)
def State.doJncDiscover (s : State) (c : Cx) : Reply := (s.jncDiscover c.o).answers s.ringReport
def State.doJncStatus (s : State) (_ : Cx) : Reply := s.answers (s.jncReport (ePs s.plb.lastE6))

end Sys2Proof.Machine
end

