-- ==== Sys2Proof/Machine/Serve.lean ====
section
/-! DEFINITION. Serving the mailbox (09): the checks of R255, sequence numbers, the rotation, commands that wait for a bay, replay after
a platform-pair reset, and COMMAND_DONE. -/

namespace Sys2Proof.Machine

/-- The meaning of opcode `op` once its checks have passed. -/
def State.cmdRun (s : State) (op : Nat) (c : Cx) : Reply :=
  match op with
  | 0x0100 => s.doSysInfo c
  | 0x0101 => s.doSysNop c
  | 0x0110 => s.doSysFwStage c
  | 0x0111 => s.doSysFwSelect c
  | 0x0200 => s.doBayCreate c
  | 0x0201 => s.doBayGrantPhase c
  | 0x0202 => s.doBayGrantPorts c
  | 0x0203 => s.doBayGrantNet c
  | 0x0204 => s.doBayGrantKeys c
  | 0x0205 => s.doBayProducer c
  | 0x0210 => s.doBayStart c
  | 0x0211 => s.doBaySleep c
  | 0x0212 => s.doBayWake c
  | 0x0213 => s.doBayResume c
  | 0x0214 => s.doBayDelete c
  | 0x0220 => s.doBayStatus c
  | 0x0230 => s.doShareGrant c
  | 0x0231 => s.doShareRevoke c
  | 0x0240 => s.doPegClear c
  | 0x0241 => s.doPegWindow c
  | 0x0300 => s.doFigStage c
  | 0x0301 => s.doFigCommit c
  | 0x0302 => s.doFigWithdraw c
  | 0x0303 => s.doFigStatus c
  | 0x0310 => s.doFigLut c
  | 0x0400 => s.doRouteSet c
  | 0x0401 => s.doRouteCancel c
  | 0x0402 => s.doRouteStatus c
  | 0x0410 => s.doRouteProfile c
  | 0x0420 => s.doVinCfg c
  | 0x0421 => s.doVoutCfg c
  | 0x0500 => s.doLayerSet c
  | 0x0501 => s.doLayerCommit c
  | 0x0600 => s.doAudTdmCfg c
  | 0x0601 => s.doAudRoute c
  | 0x0602 => s.doAudDelay c
  | 0x0700 => s.doOdoAxleCfg c
  | 0x0701 => s.doOdoEventArm c
  | 0x0702 => s.doOdoEventDisarm c
  | 0x0703 => s.doOdoSetPos c
  | 0x0704 => s.doOdoStatus c
  | 0x0800 => s.doPwmCfg c
  | 0x0801 => s.doPwmLimit c
  | 0x0802 => s.doPwmFaultClear c
  | 0x0900 => s.doPlbRefCfg c
  | 0x0901 => s.doPlbSelect c
  | 0x0902 => s.doPlbSlope c
  | 0x0903 => s.doPlbSetTime c
  | 0x0904 => s.doPlbStatus c
  | 0x0A00 => s.doNetPortCfg c
  | 0x0A01 => s.doNetQueueCfg c
  | 0x0A02 => s.doNetTrdpTx c
  | 0x0A03 => s.doNetTrdpFilter c
  | 0x0A04 => s.doNetMacsecSa c
  | 0x0B00 => s.doJncCfg c
  | 0x0B01 => s.doJncDiscover c
  | 0x0B02 => s.doJncStatus c
  | 0x0C00 => s.doKeyGenerate c
  | 0x0C01 => s.doKeyImport c
  | 0x0C02 => s.doKeyExport c
  | 0x0C03 => s.doKeyDerive c
  | 0x0C04 => s.doKeyPublic c
  | 0x0C05 => s.doKeyZeroise c
  | 0x0C06 => s.doKeyRandom c
  | 0x0D00 => s.doSealStart c
  | 0x0D01 => s.doSealStop c
  | 0x0D02 => s.doSealStatus c
  | 0x0E00 => s.doTlmRead c
  | 0x0E01 => s.doTlmReadClear c
  | 0x0F00 => s.doDbgChallenge c
  | 0x0F01 => s.doDbgAuthorise c
  | 0x0F02 => s.doDbgTraceCfg c
  | 0x0F03 => s.doDbgRevoke c
  | _ => s.refuses stUNKNOWN_OPCODE

/-! ### Checks (R255, R265 to R269) -/

/-- Step 2: ring set `r` may send a command of senders `on` that names bay `b` (R251, R266). -/
def mayServe (on : On) (r b : Nat) : Bool :=
  match on with
  | .pf => r = 8 && b = 0
  | .pfBay => r = 8 && b ≤ 7
  | .own | .any => if r = 8 then b ≤ 7 else b = r

/-- Step 3's verdict: go on, answer a status, or wait until the bay has woken. -/
inductive Gate where
  | go
  | no (status : Nat)
  | wake
deriving DecidableEq, Repr

/-- Step 3: the bay's state allows the command (R206, R257, R269). -/
def bayGate (on : On) (op st : Nat) (wake : Bool) : Gate :=
  if on = .pf then .go
  else if op = 0x0200 then (if st = bEMPTY then .go else .no stNOT_PERMITTED)
  else if st = bEMPTY ∨ st = bDRAINING then .no stBAY_ABSENT
  else if st = bFAULTED then (if op = 0x0213 ∨ op = 0x0214 then .go else .no stBAY_FAULTED)
  else if st = bASLEEP ∧ op ≠ 0x0212 ∧ op ≠ 0x0214 then (if wake then .wake else .no stBAY_ASLEEP)
  else .go

/-- Step 5's part that every command shares: LEN, FLAGS, reserved bytes (R251, R265). -/
def Cmd.payloadOk (k : Cmd) (c : List Byte) : Bool :=
  cLen c = k.len && cFlags c < 4 && fieldAt c 13 3 = 0 && k.clear (cPay c)

/-- What becomes of a command: an answer, or a wait for its bay. -/
inductive Judged where
  | answer (r : Reply)
  | waits (s : State)

/-- Statuses of a check that waking the bay cannot change: the payload's values and the bay's grant (R255 step 5, R268). -/
def lasting (st : Nat) : Bool := st = stPAYLOAD_BAD || st = stNOT_OWNED

/-- Judge and execute command `c` of ring set `r`; `waited` once a wait for its bay is over (R255). A command that wakes its bay passes
the checks of readiness, payload and ownership first; its other conditions are those of the bay awake, when it executes (R257; DEDUCED,
log entry 32). -/
def State.judge (s : State) (r : Nat) (c : List Byte) (waited : Bool) : Judged :=
  let b := cBay c
  match findCmd (cOp c) with
  | none => .answer (s.refuses stUNKNOWN_OPCODE)
  | some k =>
    if !mayServe k.on r b then .answer (s.refuses stNOT_PERMITTED)
    else match bayGate k.on k.op (s.bayState b) (bitAt (cFlags c) 0) with
      | .no st => .answer (s.refuses st)
      | gate =>
        let cx : Cx := { ring := r, bay := b, force := bitAt (cFlags c) 1, pay := cPay c, o := ⟨r, cSeq c, cOp c⟩ }
        match k.needs.find? fun i => !s.ready i with
        | some i => .answer (stNOT_READY, natLe 1 i, s)
        | none =>
          if !k.payloadOk c then .answer (s.refuses stPAYLOAD_BAD)
          else if gate = .wake then
            (if lasting (s.cmdRun k.op cx).1 then .answer (s.refuses (s.cmdRun k.op cx).1) else .waits (s.startWake b none))
          else if k.op = 0x0212 && s.bayState b = bASLEEP then .waits (s.startWake b (some ⟨r, cSeq c, cOp c⟩))
          else if k.op = 0x0212 && !waited then .answer (s.refuses stNOT_PERMITTED)
          else .answer (s.cmdRun k.op cx)

/-- A response answers a replayed command with REPLAYED set (R252, R261). -/
def State.replayFlag (s : State) (r : Nat) (seq : Word) : Nat :=
  if ((s.ring r).journal.reverse.find? fun e => e.seq = seq).any (·.replaying) then 2 else 0

/-- The journal of ring set `r` holds `c` as TAKEN; it does not once the ring set has been reset (R259, R260). -/
def State.journalled (s : State) (r : Nat) (c : List Byte) : Bool := (s.ring r).journal.any fun e => e.cmd = c && e.state = .taken

/-- Serve a command that has been journalled: answer it, or let it hold its ring until its bay runs (R250, R257). What a reset of the
ring set has taken out of the journal completes without a response (R259). -/
def State.serve (s : State) (r : Nat) (c : List Byte) (waited : Bool) : State :=
  match s.judge r c waited with
  | .answer (st, l, s1) =>
    let s2 := s1.freeBlocks r c
    if s.journalled r c then
      (s2.modEntry r (cSeq c) fun e => { e with did := some (st, l) }).respond r c (s.replayFlag r (cSeq c)) st l
    else s2
  | .waits s1 => { s1 with mbx := { s1.mbx with waiting := s1.mbx.waiting ++ [(r, c)] } }

/-! ### Taking commands (R245, R246, R249, R254) -/

/-- The command in the slot of MBX_CMD_CI. -/
def State.slotCmd (s : State) (r : Nat) : List Byte := readBytes zeroByte (s.ring r).mem (64 * ((s.ring r).cmdCi.toNat % 32)) 64

/-- Entries in ring set `r`'s command ring (R243). -/
def State.waitingCmds (s : State) (r : Nat) : Nat := ((s.ring r).cmdPi - (s.ring r).cmdCi).toNat

/-- Step over a command without executing it. -/
def State.stepOver (s : State) (r : Nat) : State := s.modRing r fun q => { q with cmdCi := q.cmdCi + 1 }

/-- Answer SEQ_BAD with MBX_EXPSEQ (R254, R265). -/
def State.seqBad (s : State) (r : Nat) (c : List Byte) : State :=
  (s.stepOver r).writeRsp r (rspBytes c 0 stSEQ_BAD (natLe 4 (s.ring r).expSeq.toNat))

/-- Take the next command of ring set `r`, if there is one and a response slot is free for it. -/
def State.takeFrom (s : State) (r : Nat) : State :=
  let q := s.ring r
  let n := s.waitingCmds r
  if s.mbx.waiting.any (·.1 = r) || n = 0 then s
  else if n > 32 then
    ((s.modRing r fun q => { q with cmdCi := q.cmdPi, overrun := true }).mark (rstatAt r) 2#32).post r 0x0002 (natLe 2 n)
  else if (q.rspPi - q.rspCi).toNat ≥ 32 then s.modRing r fun q => { q with rspStall := true }
  else
    let c := s.slotCmd r
    let back := (q.expSeq - cSeq c).toNat
    if back = 0 then (s.take r c).serve r c false
    else if back ≤ 32 then
      match q.journal.find? fun e => e.seq = cSeq c && e.state ≠ .taken with
      | some e => (s.stepOver r).writeRsp r (withFlags e.rsp 1)
      | none => s.seqBad r c
    else s.seqBad r c

/-- Ring set at position `p` of the rotation: the PF, then bays 0 to 7 (R249). -/
def rotRing (p : Nat) : Nat := if p % 9 = 0 then 8 else p % 9 - 1

/-- Ring set `r` is latched or stays in the rotation. -/
def State.inRotation (s : State) (r : Nat) : Bool := (s.reg Reg.MBX_DBLATCH).getLsbD r || s.mbx.active.getLsbD r

/-- Visit ring set `r`: clear its latch, take one command, keep it in the rotation while its ring is not empty (R249). -/
def State.visit (s : State) (r : Nat) : State :=
  let s1 := (s.clearBell r).takeFrom r
  let more := s1.waitingCmds r ≠ 0
  { s1 with mbx := { s1.mbx with active := if more then s1.mbx.active ||| (1#9 <<< r) else s1.mbx.active &&& ~~~(1#9 <<< r) } }

/-- COMMAND_TAKE: the next ring set of the rotation is visited; none while the mailbox bit is clear (R249, R258). -/
def State.commandTake (s : State) : State :=
  if !s.ready rMBX then s
  else match (List.range 9).find? fun i => s.inRotation (rotRing (s.mbx.next + i)) with
    | none => s
    | some i =>
      let p := (s.mbx.next + i) % 9
      ({ s with mbx := { s.mbx with next := (p + 1) % 9 } }).visit (rotRing p)

/-- No ring set is latched or in the rotation. -/
def State.quiet (s : State) : Bool := (List.range 9).all fun r => !s.inRotation r

/-- A producer writes a command into its ring and rings the doorbell (R244, R248). If no ring set waits for service, it is visited at
once; else it waits its turn (R249, log entry 9). -/
def State.mail (s : State) (op : Nat) (m : Mail) : State :=
  let r := m.ring.val
  let s1 := (s.modRing r fun q => { q with mem := writeBytes zeroByte (mailBytes op m) (64 * (q.cmdPi.toNat % 32)) q.mem, cmdPi := q.cmdPi + 1 }).ringBell r
  if s.waitingCmds r = 0 && s.quiet then s1.commandTake else s1

/-- Commands that waited for a bay which is awake, or whose wake has come to nothing, are judged again (R250, R257). -/
def State.serveWaiting (s : State) : State :=
  if !s.ready rMBX then s
  else
    let ended (s : State) (x : Nat × List Byte) : Bool := !(s.bayState (cBay x.2) = bASLEEP && (s.bayRec (cBay x.2)).waking)
    s.each (s.mbx.waiting.filter (ended s)) fun s x =>
      ({ s with mbx := { s.mbx with waiting := s.mbx.waiting.erase x } }).serve x.1 x.2 true

/-! ### Completion and replay (R250, R260 to R262) -/

/-- COMMAND_DONE: the oldest completion is posted. -/
def State.commandDone (s : State) : State :=
  match s.fw.done with
  | [] => s
  | d :: t =>
    ({ s with fw := { s.fw with done := t } }).post d.origin.ring 0x000B (natLe 4 d.origin.seq.toNat ++ natLe 2 d.origin.opcode ++ natLe 2 d.status)

/-- Replay one TAKEN entry of ring set `r`: INTERRUPTED for class N and for a replay cut short; of class C the response is rebuilt where the
effect has taken place; else the command is judged anew (R261, R262). -/
def State.replayOne (s : State) (r : Nat) (e : JEntry) : State :=
  let is (x : Cls) : Bool := match findCmd (cOp e.cmd) with
    | some k => k.cls = x
    | none => false
  let n := is .n
  let cnt (s : State) (i : Nat) : State := if r < 8 then s.countBay r i else s.countBay 0 i
  if n || e.replaying then ((cnt s 6).freeBlocks r e.cmd).respond r e.cmd 2 stINTERRUPTED []
  else if is .c && e.did.isSome then
    let a := e.did.getD (stOK, [])
    (cnt s 7).respond r e.cmd 2 a.1 a.2
  else (cnt (s.modEntry r e.seq fun x => { x with replaying := true }) 7).serve r e.cmd true

/-- Replay ring set `r`: its TAKEN entries, then its DONE ones; the number of commands replayed, which counts every TAKEN entry, those answered
INTERRUPTED too, and no DONE one (R261; DESIGN CHOICE, log entry 32). -/
def State.replayRing (s : State) (r : Nat) : Nat × State :=
  let taken := (s.ring r).journal.filter (·.state = .taken)
  let s1 := s.each taken fun s e => s.replayOne r e
  let due := (s1.ring r).journal.filter (·.state = .done)
  (taken.length, s1.each due fun s e => (s.writeRsp r (withFlags e.rsp 2)).modEntry r e.seq fun x => { x with state := .delivered })

/-- MAILBOX_REPLAY after a platform-pair reset: replay, PLATFORM_RESTART, of bay 0 also to the PF, and the mailbox readiness bit (R253a,
R258, R261). -/
def State.mailboxReplay (s : State) : State :=
  if s.ready rMBX || s.fw.stage < 2 then s
  else
    let s0 := { s with mbx := { s.mbx with waiting := [] } }
    let (ns, s1) := (List.range 9).foldl (fun (acc : List (Nat × Nat) × State) p =>
      let r := rotRing p
      let (n, s) := acc.2.replayRing r
      (acc.1 ++ [(r, n)], s)) ([], s0)
    let s2 := s1.each ns fun s x =>
      if x.1 = 8 || s.bayState x.1 ≠ bEMPTY then
        let arg := natLe 2 (s.get Fd.SYS_PAIR_RESETS_01) ++ natLe 2 x.2
        (s.postRaw x.1 0x0001 0 s.fig.measure arg true).when (x.1 = 0) fun s => s.postRaw 8 0x0001 0 s.fig.measure arg true
      else s
    s2.setReady rMBX

end Sys2Proof.Machine
end

