-- ==== Sys2Proof/Machine/Tick.lean ====
section
/-! DEFINITION. What one FCLK step does by itself, whatever is commanded (log entry 1), and what units take from released endpoints. -/

namespace Sys2Proof.Machine

/-- The audio router takes what its record endpoint holds (R355). -/
def State.audPull (s : State) : State :=
  let e := s.endp 0x1C0
  if e.fifo.isEmpty then s
  else (s.modEnd 0x1C0 fun e => { e with fifo := [] }).modAud fun a => { a with part := a.part ++ e.fifo.flatMap (·.bytes) }

/-- Units take what inbound endpoints hold (R97). -/
def State.pulls (s : State) : State := s.readersPull.decodersPull.sealsPull.macPull.audPull

/-- SCC_CYCLE of core `c` over one step, eight cycles in five steps; not in reset, nor halted with STOPCNT (R186, R512). -/
def State.countCycles (s : State) (c : Nat) : State :=
  if s.coreState c = 0 || (s.coreState c = 3 && s.bit (Fd.DBG_CTL_STOPCNT (s.lead c))) then s
  else s.modCore c fun k => { k with cycle := k.cycle + BitVec.ofNat 64 ((s.clk.now + 1 - s.clk.beat0) * 8 / 5 - (s.clk.now - s.clk.beat0) * 8 / 5) }

/-- The trace port sends 4 bytes a beat (R522). -/
def State.portDrain (s : State) : State :=
  let s1 := if s.bit Fd.TRC_CTL_PORT_EN && (s.clk.now - s.clk.beat0) % 5 = 4 then { s with dbg := { s.dbg with port := s.dbg.port.drop 4 } } else s
  s1.when ((List.range 7).any fun i => !(s1.src i).wait.isEmpty) State.sendWaiting

/-- The platform monitor finds bay core `c` at its handler with DOUBLE: it stops the core, and the bay has a fault of cause 2 (R178, R496;
log entry 19). -/
def State.monitorDouble (s : State) (c : Nat) : State :=
  let k := s.core c
  if c < 2 || s.follows c || s.coreState c ≠ 1 || k.level ≠ .f || !k.fx.inexc || k.fx.intr || k.fx.code.toNat ≠ xDOUBLE || k.pc ≠ k.fx.vec then s
  else s.bayFault k.bay.toNat 2

/-- One FCLK step of every clocked unit. -/
def State.clockStep (s : State) : State :=
  let s1 := (s.each (List.range 6) State.countCycles).portDrain
  let s2 := ({ s1 with clk := { s1.clk with now := s1.clk.now + 1 } }).tickTime.padCheck.doJobs.busLand.ddrFlight.heldTick.hostTick.pulls.netTick.audTick.videoTick.dpTick.jncTick
  (s2.each (List.range 6) State.monitorDouble).runFeeds.pwmFollow.serveWaiting

/-- One step: keep-alive time always runs; the clocked units while the derived clocks run, which a loss of lock gates at a beat boundary
(R23, R24). -/
def State.tick (s : State) : State :=
  let s1 := ({ s with clk := { s.clk with ka := s.clk.ka + 2 } }).pegRelease
  if !s.clocksRun then s1
  else
    let s2 := s1.clockStep
    if s2.clk.gateAt = some s2.clk.now then s2.gateClocks else s2

end Sys2Proof.Machine
end

