-- ==== Sys2Proof/Machine/RowOps.lean ====
section
/-! DEFINITION. What single rows of the table do with the operations of the units: actions of the schedule that are due, register accesses
with their answers, and outputs. -/

namespace Sys2Proof.Machine

/-! ### Actions (R53, R65, R89) -/

/-- Do `f` with the action of bay `b` on resource `r` at `step`, if it is due now (log entry 8). -/
def State.withDue (s : State) (b r step kind : Nat) (f : State → Act → State) : State :=
  match s.dueAct b r step kind with
  | some a => f s a
  | none => s

def State.moveAt (s : State) (b r step : Nat) : State := s.withDue b r step 1 fun s a => s.moveAct b a
def State.seAt (s : State) (b e step : Nat) : State := s.withDue b (0x100 + e) step 2 fun s a => s.seStart b a
def State.xferAt (s : State) (b ch step : Nat) : State := s.withDue b (0x104 + ch) step 3 fun s a => s.ddrXfer b a
def State.gateAt (s : State) (b p step : Nat) : State :=
  s.withDue b (0x1D0 + p) step 4 fun s a => if s.badWord b a.ofs then s.storeFault else s.gateAct b p (a.arg0 % 256)
def State.trdpAt (s : State) (b p step : Nat) : State :=
  s.withDue b (0x1D4 + p) step 5 fun s a => if s.badWord b a.ofs then s.storeFault else s.trdpAct b p (a.a1 % 256)
def State.notifyAt (s : State) (b step : Nat) : State := s.withDue b 0x1D8 step 6 fun s a => s.notifyAct b a

/-! ### Register accesses (R6 to R11, R197, R216) -/

/-- Drive out the word that an access answers. -/
def State.wordOut (_ : State) (x : Word × State) : State := x.2.emit (.word x.1)

/-- The master of a path can reach registers: every one but the debug port needs the derived clocks (log entry 50). -/
def State.reaches (s : State) (p : Path) : Bool := !s.stands || p = .tap

/-- A register read on a path, through the bus matrix. -/
def State.readOut (s : State) (p : Path) (a : Nat) : State :=
  let ask (s : State) : State := s.request (s.regReq .row p a none)
  if !s.reaches p then s
  else if let .host fn := p then s.memRequest fn.val true ask
  else ask s

/-- A register write on a path, through the bus matrix; a core's waits for its earlier stores, and one of BAR2 goes behind the function's
window accesses (R171, R229). Words fed to a halted core then execute. -/
def State.writeOut (s : State) (p : Path) (a : Nat) (w : Word) : State :=
  if !s.reaches p then s
  else if let .host fn := p then s.memRequest fn.val false fun s => s.hostWrite fn.val a w
  else (s.requestAfter (s.earlier (pathCore p).toList) (s.regReq .row p a (some w))).runFeeds

/-- The odometry registers whose read latches another: the unit position, the offset, the four axles (R365). -/
def odoLo (n : Nat) : Nat := if n = 0 then Reg.ODO_POS_LO else if n = 1 then Reg.ODO_OFFSET_LO else Reg.ODO_AXPOS_LO (n - 2)

/-- Core `c` reads SCC_CYCLE_LO (R186). -/
def State.cycleOut (s : State) (c : Nat) : State := s.wordOut (s.cycleLo c)

/-- A read of PEG_DQn (R230). -/
def State.dqOut (s : State) (n : Nat) : State := s.wordOut (s.popDq n)

/-! ### Debug and network -/

/-- DBG_CTLn.HALT_REQ is written (R507). -/
def State.haltRequest (s : State) (n : Nat) (on : Bool) : State := (s.putB (Fd.DBG_CTL_HALT_REQ n) on).showPending n

/-- TAP IDCODE: the identification register goes out (R500). -/
def State.idScan (s : State) : State := (s.setIr .idcode).emit (.tdo 0xB7480C6B 32)

/-- TX_RECORD of port `p`: as many granules as its DMA holds are looked at. -/
def State.txRecordRow (s : State) (p : Nat) : State := s.txRecord p ((s.macPort p).dma.length + 1)

end Sys2Proof.Machine
end

