-- ==== Sys2Proof/WellFormed.lean ====
section
/-! DEFINITION. Which commands are well formed: operand values that some board, host or figure can present. -/

namespace Sys2Proof

/-- A payload that LEN can state (R251). -/
def Mail.wellFormed (m : Mail) : Bool := decide (m.pay.length ≤ 48)

/-- The command can be presented: a mailbox payload of at most 48 bytes, an access inside the window (R222), an undefined word for
ILLEGAL_INSTRUCTION (R189), a doorbell its path can ring (R242, R248), a snap word that is no doorbell (R233), CSI samples of 16 bits, an
audio group with records (R356). -/
def Instr.wellFormed : Instr → Bool
  | .powerOnReset _ _ _ _ => true
  | .supplyMonitorTrip _ _ _ _ _ => true
  | .systemReset => true
  | .debugReset => true
  | .mdllLock _ => true
  | .dividerChainStart => true
  | .mdllLossOfLock _ _ => true
  | .readinessTimer => true
  | .bootRomStart _ _ => true
  | .hostBootChunk => true
  | .boardRecordApply => true
  | .keyStoreRestore => true
  | .ddrTraining _ _ => true
  | .staticResetRecovery => true
  | .pwrResetSystem => true
  | .pwrResetStatic => true
  | .powerDownRequest _ => true
  | .powerUpRequest _ => true
  | .domainDrainEnd _ => true
  | .domainPowerOff _ => true
  | .domainWakeDone _ => true
  | .measureBoundary => true
  | .measureSlipEarly => true
  | .figureMerge => true
  | .move _ _ _ => true
  | .seStart _ _ _ => true
  | .ddrXfer _ _ _ => true
  | .gate _ _ _ => true
  | .trdpTx _ _ _ => true
  | .notify _ _ => true
  | .turnEnd => true
  | .outputRelease => true
  | .turnFault _ => true
  | .turnReplay => true
  | .forcedCarrySwap => true
  | .storeWordRewrite _ _ => true
  | .patrolScrub _ => true
  | .eccWriteBack _ => true
  | .bankPortAccess => true
  | .ddrPortAccess => true
  | .busMatrixGrant _ => true
  | .lpddr5xRefresh _ => true
  | .zqCalibration => true
  | .phyRecalibration _ _ => true
  | .add _ _ _ _ => true
  | .sub _ _ _ _ => true
  | .and _ _ _ _ => true
  | .or _ _ _ _ => true
  | .xor _ _ _ _ => true
  | .sll _ _ _ _ => true
  | .srl _ _ _ _ => true
  | .sra _ _ _ _ => true
  | .slt _ _ _ _ => true
  | .sltu _ _ _ _ => true
  | .mul _ _ _ _ => true
  | .mulh _ _ _ _ => true
  | .mulhu _ _ _ _ => true
  | .div _ _ _ _ => true
  | .divu _ _ _ _ => true
  | .rem _ _ _ _ => true
  | .remu _ _ _ _ => true
  | .addi _ _ _ _ => true
  | .andi _ _ _ _ => true
  | .ori _ _ _ _ => true
  | .xori _ _ _ _ => true
  | .slli _ _ _ _ => true
  | .srli _ _ _ _ => true
  | .srai _ _ _ _ => true
  | .slti _ _ _ _ => true
  | .sltiu _ _ _ _ => true
  | .lui _ _ _ => true
  | .lb _ _ _ _ => true
  | .lbu _ _ _ _ => true
  | .lh _ _ _ _ => true
  | .lhu _ _ _ _ => true
  | .lw _ _ _ _ => true
  | .ll _ _ _ _ => true
  | .sb _ _ _ _ => true
  | .sh _ _ _ _ => true
  | .sw _ _ _ _ => true
  | .sc _ _ _ _ => true
  | .beq _ _ _ _ => true
  | .bne _ _ _ _ => true
  | .blt _ _ _ _ => true
  | .bge _ _ _ _ => true
  | .bltu _ _ _ _ => true
  | .bgeu _ _ _ _ => true
  | .j _ _ => true
  | .jal _ _ => true
  | .jalr _ _ _ _ => true
  | .ctlr _ _ _ => true
  | .ctlw _ _ _ => true
  | .ecall _ => true
  | .eret _ => true
  | .fence _ => true
  | .ifence _ => true
  | .dinv _ _ => true
  | .rest _ => true
  | .brk _ => true
  | .illegalInstruction _ w => decide (decodeCore w = none)
  | .storeAsync _ => true
  | .interruptTake _ _ => true
  | .timerInterrupt _ => true
  | .coreWake _ => true
  | .lockstepMismatch _ => true
  | .platformPairReset => true
  | .mailboxReplay => true
  | .coreRunControl _ _ => true
  | .sliceSwitch _ => true
  | .sysRemapSwap => true
  | .watchdogKick _ => true
  | .watchdogExpiry => true
  | .registerWrite _ _ _ => true
  | .fgeMeasureLoRead _ => true
  | .tmeSecLoRead _ => true
  | .odoLoRead _ _ => true
  | .sccCycleLoRead _ => true
  | .seLutswapWrite _ _ _ => true
  | .pcieConfigRequest _ _ => true
  | .bar0Write _ _ => true
  | .bar2BadAccess _ => true
  | .windowRead _ ofs len => decide (1 ≤ len.val ∧ ofs.toNat + len.val ≤ 2 ^ 28)
  | .windowWrite _ ofs l => decide (1 ≤ l.length ∧ ofs.toNat + l.length ≤ 2 ^ 28)
  | .windowReadTimeout _ => true
  | .hostPegRequest _ _ => true
  | .devicePegRequest _ _ => true
  | .pegHqRead _ => true
  | .pegDqRead _ => true
  | .pciRaise _ _ => true
  | .vfFunctionLevelReset _ => true
  | .pfFunctionLevelReset => true
  | .pcieHotReset => true
  | .snapTimeLatch => true
  | .snapPositionLatch => true
  | .snapDoorbell _ => true
  | .snapWriteIgnored w => decide (¬ (0x1000 ≤ w.toNat ∧ w.toNat < 0x1008))
  | .doorbellRing ring byHost => decide (byHost = true ∨ (1 ≤ ring.val ∧ ring.val ≤ 7))
  | .commandTake => true
  | .commandDone => true
  | .plbHistService => true
  | .pwmTripReport => true
  | .faultSummaryReport => true
  | .sysInfo m => m.wellFormed
  | .sysNop m => m.wellFormed
  | .sysFwStage m => m.wellFormed
  | .sysFwSelect m => m.wellFormed
  | .bayCreate m => m.wellFormed
  | .bayGrantPhase m => m.wellFormed
  | .bayGrantPorts m => m.wellFormed
  | .bayGrantNet m => m.wellFormed
  | .bayGrantKeys m => m.wellFormed
  | .bayProducer m => m.wellFormed
  | .bayStart m => m.wellFormed
  | .baySleep m => m.wellFormed
  | .bayWake m => m.wellFormed
  | .bayResume m => m.wellFormed
  | .bayDelete m => m.wellFormed
  | .bayZeroingDone _ => true
  | .bayStatus m => m.wellFormed
  | .shareGrant m => m.wellFormed
  | .shareRevoke m => m.wellFormed
  | .pegClear m => m.wellFormed
  | .pegWindow m => m.wellFormed
  | .figStage m => m.wellFormed
  | .figCommit m => m.wellFormed
  | .figWithdraw m => m.wellFormed
  | .figStatus m => m.wellFormed
  | .figLut m => m.wellFormed
  | .routeSet m => m.wellFormed
  | .routeCancel m => m.wellFormed
  | .routeStatus m => m.wellFormed
  | .routeProfile m => m.wellFormed
  | .vinCfg m => m.wellFormed
  | .voutCfg m => m.wellFormed
  | .layerSet m => m.wellFormed
  | .layerCommit m => m.wellFormed
  | .audTdmCfg m => m.wellFormed
  | .audRoute m => m.wellFormed
  | .audDelay m => m.wellFormed
  | .odoAxleCfg m => m.wellFormed
  | .odoEventArm m => m.wellFormed
  | .odoEventDisarm m => m.wellFormed
  | .odoSetPos m => m.wellFormed
  | .odoStatus m => m.wellFormed
  | .pwmCfg m => m.wellFormed
  | .pwmLimit m => m.wellFormed
  | .pwmFaultClear m => m.wellFormed
  | .plbRefCfg m => m.wellFormed
  | .plbSelect m => m.wellFormed
  | .plbSlope m => m.wellFormed
  | .plbSetTime m => m.wellFormed
  | .plbStatus m => m.wellFormed
  | .netPortCfg m => m.wellFormed
  | .netQueueCfg m => m.wellFormed
  | .netTrdpTx m => m.wellFormed
  | .netTrdpFilter m => m.wellFormed
  | .netMacsecSa m => m.wellFormed
  | .jncCfg m => m.wellFormed
  | .jncDiscover m => m.wellFormed
  | .jncStatus m => m.wellFormed
  | .keyGenerate m => m.wellFormed
  | .keyImport m => m.wellFormed
  | .keyExport m => m.wellFormed
  | .keyDerive m => m.wellFormed
  | .keyPublic m => m.wellFormed
  | .keyZeroise m => m.wellFormed
  | .keyRandom m => m.wellFormed
  | .sealStart m => m.wellFormed
  | .sealStop m => m.wellFormed
  | .sealStatus m => m.wellFormed
  | .tlmRead m => m.wellFormed
  | .tlmReadClear m => m.wellFormed
  | .dbgChallenge m => m.wellFormed
  | .dbgAuthorise m => m.wellFormed
  | .dbgTraceCfg m => m.wellFormed
  | .dbgRevoke m => m.wellFormed
  | .csiPacket _ _ _ _ _ _ samples => decide (samples.length ≤ 65535 ∧ samples.all (· < 65536))
  | .csiFrameStart _ _ => true
  | .conformerFrameStart _ => true
  | .conformerLine _ _ _ => true
  | .camTrigger _ => true
  | .scarfSwitch _ => true
  | .decoderFrameStart _ => true
  | .dpFrameStart _ => true
  | .dpHpdHigh _ _ => true
  | .dpHpdLow _ => true
  | .dpIrqHpd _ _ _ => true
  | .dpTrainRetry _ _ => true
  | .layerCommitApply _ => true
  | .cacheRebuildEnd _ => true
  | .cacheError _ _ => true
  | .tdmRxFrame _ _ _ _ => true
  | .tdmTxFrame _ => true
  | .tdmClockLost _ _ => true
  | .tdmRateCheck _ _ _ => true
  | .audioOutputFrame _ => true
  | .ncoLoopUpdate _ => true
  | .audioCaptureEmit x => decide (8 ≤ x.val)
  | .audioRecordIn => true
  | .st211030PacketIn => true
  | .toothMark _ _ _ => true
  | .axleMiss _ => true
  | .stall => true
  | .positionCrossing _ => true
  | .eventQueuedPulse _ => true
  | .eventTimeExpiry _ => true
  | .pwmPeriodStart _ => true
  | .pwmStrobe _ => true
  | .pwmBootstrapRefresh _ => true
  | .pwmFaultInput _ _ => true
  | .pwmLimiterTrip _ _ => true
  | .referenceSample _ _ _ _ => true
  | .referenceLos _ => true
  | .revertiveSwitch => true
  | .moveEnd => true
  | .holdoverLimitExpiry => true
  | .fiHistoryRecord => true
  | .macFrameReceive _ _ => true
  | .txRecord _ => true
  | .macTransmitSelect _ => true
  | .netLinkChange _ _ => true
  | .jncFrameReceive _ _ => true
  | .jncResendTimeout _ => true
  | .jncAckTimer _ => true
  | .jncTimeSend => true
  | .jncDiscoverTimeout _ _ => true
  | .jncRxFrameStart _ => true
  | .cryGo _ => true
  | .cryJobDone => true
  | .entropyHealthFail => true
  | .sealFrameEnd _ => true
  | .sealSign _ => true
  | .sealAbort _ => true
  | .debugExpiryCheck => true
  | .tempSensorRead _ => true
  | .tapExtest _ _ => true
  | .tapSamplePreload _ _ => true
  | .tapIdcode => true
  | .tapClamp => true
  | .tapHighz => true
  | .tapBypass => true
  | .tapDbgacc _ _ _ => true
  | .dbgHaltRequest _ _ => true
  | .coreHalt _ => true
  | .dbgFeed _ _ => true
  | .dbgResume _ => true
  | .xtrFire _ => true
  | .xtrResume _ => true
  | .xtrGroupSource _ _ => true
  | .vtCoreWrite _ _ => true
  | .vtCoreRead _ => true
  | .dbgVtoutRead _ => true
  | .dbgVtinWrite _ _ => true
  | .trcRdataRead => true
  | .pcieLinkUp _ _ => true
  | .jncLinkChange _ _ => true
  | .clockOutputEdge _ => true
  | .memoryReaderFrameStart _ => true

end Sys2Proof
end

