-- ==== Sys2Proof/Machine/AccessRows.lean ====
section
/-! DEFINITION. Register accesses (01, 02, 06, 15, 17): the meaning of each row. -/

namespace Sys2Proof.Machine

/-- REGISTER_WRITE (R8). -/
def execRegisterWrite (path : Path) (addr : BitVec 32) (v : BitVec 32) (s : State) : Host.Outcome State Fault Refusal :=
  run s fun s => s.writeOut path addr.toNat v

/-- FGE_MEASURE_LO_READ (R41). -/
def execFgeMeasureLoRead (path : Path) (s : State) : Host.Outcome State Fault Refusal :=
  runClk s fun s => s.readOut path Reg.FGE_MEASURE_LO

/-- TME_SEC_LO_READ (R407). -/
def execTmeSecLoRead (path : Path) (s : State) : Host.Outcome State Fault Refusal :=
  runClk s fun s => s.readOut path Reg.TME_SEC_LO

/-- ODO_LO_READ (R365). -/
def execOdoLoRead (path : Path) (n : Fin 6) (s : State) : Host.Outcome State Fault Refusal :=
  runClk s fun s => s.readOut path (odoLo n.val)

/-- SCC_CYCLE_LO_READ (R186). -/
def execSccCycleLoRead (c : Fin 6) (s : State) : Host.Outcome State Fault Refusal := runClk s fun s => s.cycleOut c.val

/-- SE_LUTSWAP_WRITE (R116). -/
def execSeLutswapWrite (path : Path) (engine : Fin 4) (bays : BitVec 8) (s : State) : Host.Outcome State Fault Refusal :=
  runClk s fun s => s.writeOut path (Reg.SE_LUTSWAP engine.val) (bays.setWidth 32)

end Sys2Proof.Machine
end

