-- ==== Sys2Proof/Machine/AudioRows.lean ====
section
/-! DEFINITION. Audio (14): the meaning of each row. -/

namespace Sys2Proof.Machine

/-- TDM_RX_FRAME (R348). -/
def execTdmRxFrame (p : Fin 4) (clocks : Nat) (ago : Nat) (slots : List (BitVec 32)) (s : State) : Host.Outcome State Fault Refusal :=
  runClk s fun s => s.tdmRx p.val clocks ago (slots.map (·.toNat))

/-- TDM_TX_FRAME (R347). -/
def execTdmTxFrame (p : Fin 4) (s : State) : Host.Outcome State Fault Refusal := runClk s fun s => s.tdmTx p.val

/-- TDM_CLOCK_LOST (R348). -/
def execTdmClockLost (p : Fin 4) (rx : Bool) (s : State) : Host.Outcome State Fault Refusal :=
  runClk s fun s => s.tdmLost p.val rx

/-- TDM_RATE_CHECK (R348). -/
def execTdmRateCheck (p : Fin 4) (rx : Bool) (mhz : Nat) (s : State) : Host.Outcome State Fault Refusal :=
  runClk s fun s => s.tdmRate p.val rx mhz

/-- AUDIO_OUTPUT_FRAME (R346). -/
def execAudioOutputFrame (x : Fin 24) (s : State) : Host.Outcome State Fault Refusal :=
  runClk s fun s => s.outputFrame x.val

/-- NCO_LOOP_UPDATE (R352). -/
def execNcoLoopUpdate (d : Fin 12) (s : State) : Host.Outcome State Fault Refusal := runClk s fun s => s.oscLoop d.val

/-- AUDIO_CAPTURE_EMIT (R356). -/
def execAudioCaptureEmit (x : Fin 24) (s : State) : Host.Outcome State Fault Refusal :=
  runIfClk (8 ≤ x.val) s fun s => s.captureEmit x.val

/-- AUDIO_RECORD_IN (R356). -/
def execAudioRecordIn (s : State) : Host.Outcome State Fault Refusal := runClk s fun s => s.recordIn

/-- ST2110_30_PACKET_IN (R354). -/
def execSt211030PacketIn (s : State) : Host.Outcome State Fault Refusal := runClk s fun s => s.packetIn

end Sys2Proof.Machine
end

