-- ==== Sys2Proof/Machine/BayCommands.lean ====
section
/-! DEFINITION. System, bay, share and peg commands (10): the meaning of each row. -/

namespace Sys2Proof.Machine

/-- SYS_INFO (R273). -/
def execSysInfo (m : Mail) (s : State) : Host.Outcome State Fault Refusal :=
  runIfClk m.wellFormed s fun s => s.mail 0x0100 m

/-- SYS_NOP (R273). -/
def execSysNop (m : Mail) (s : State) : Host.Outcome State Fault Refusal :=
  runIfClk m.wellFormed s fun s => s.mail 0x0101 m

/-- SYS_FW_STAGE (R273). -/
def execSysFwStage (m : Mail) (s : State) : Host.Outcome State Fault Refusal :=
  runIfClk m.wellFormed s fun s => s.mail 0x0110 m

/-- SYS_FW_SELECT (R273). -/
def execSysFwSelect (m : Mail) (s : State) : Host.Outcome State Fault Refusal :=
  runIfClk m.wellFormed s fun s => s.mail 0x0111 m

/-- BAY_CREATE (R276). -/
def execBayCreate (m : Mail) (s : State) : Host.Outcome State Fault Refusal :=
  runIfClk m.wellFormed s fun s => s.mail 0x0200 m

/-- BAY_GRANT_PHASE (R276). -/
def execBayGrantPhase (m : Mail) (s : State) : Host.Outcome State Fault Refusal :=
  runIfClk m.wellFormed s fun s => s.mail 0x0201 m

/-- BAY_GRANT_PORTS (R276). -/
def execBayGrantPorts (m : Mail) (s : State) : Host.Outcome State Fault Refusal :=
  runIfClk m.wellFormed s fun s => s.mail 0x0202 m

/-- BAY_GRANT_NET (R276). -/
def execBayGrantNet (m : Mail) (s : State) : Host.Outcome State Fault Refusal :=
  runIfClk m.wellFormed s fun s => s.mail 0x0203 m

/-- BAY_GRANT_KEYS (R276). -/
def execBayGrantKeys (m : Mail) (s : State) : Host.Outcome State Fault Refusal :=
  runIfClk m.wellFormed s fun s => s.mail 0x0204 m

/-- BAY_PRODUCER (R276). -/
def execBayProducer (m : Mail) (s : State) : Host.Outcome State Fault Refusal :=
  runIfClk m.wellFormed s fun s => s.mail 0x0205 m

/-- BAY_START (R207). -/
def execBayStart (m : Mail) (s : State) : Host.Outcome State Fault Refusal :=
  runIfClk m.wellFormed s fun s => s.mail 0x0210 m

/-- BAY_SLEEP (R209). -/
def execBaySleep (m : Mail) (s : State) : Host.Outcome State Fault Refusal :=
  runIfClk m.wellFormed s fun s => s.mail 0x0211 m

/-- BAY_WAKE (R210). -/
def execBayWake (m : Mail) (s : State) : Host.Outcome State Fault Refusal :=
  runIfClk m.wellFormed s fun s => s.mail 0x0212 m

/-- BAY_RESUME (R207). -/
def execBayResume (m : Mail) (s : State) : Host.Outcome State Fault Refusal :=
  runIfClk m.wellFormed s fun s => s.mail 0x0213 m

/-- BAY_DELETE (R208). -/
def execBayDelete (m : Mail) (s : State) : Host.Outcome State Fault Refusal :=
  runIfClk m.wellFormed s fun s => s.mail 0x0214 m

/-- BAY_ZEROING_DONE (R208). -/
def execBayZeroingDone (b : Fin 8) (s : State) : Host.Outcome State Fault Refusal := runClk s fun s => s.zeroingDone b.val

/-- BAY_STATUS (R276). -/
def execBayStatus (m : Mail) (s : State) : Host.Outcome State Fault Refusal :=
  runIfClk m.wellFormed s fun s => s.mail 0x0220 m

/-- SHARE_GRANT (R202). -/
def execShareGrant (m : Mail) (s : State) : Host.Outcome State Fault Refusal :=
  runIfClk m.wellFormed s fun s => s.mail 0x0230 m

/-- SHARE_REVOKE (R204). -/
def execShareRevoke (m : Mail) (s : State) : Host.Outcome State Fault Refusal :=
  runIfClk m.wellFormed s fun s => s.mail 0x0231 m

/-- PEG_CLEAR (R227). -/
def execPegClear (m : Mail) (s : State) : Host.Outcome State Fault Refusal :=
  runIfClk m.wellFormed s fun s => s.mail 0x0240 m

/-- PEG_WINDOW (R222). -/
def execPegWindow (m : Mail) (s : State) : Host.Outcome State Fault Refusal :=
  runIfClk m.wellFormed s fun s => s.mail 0x0241 m

end Sys2Proof.Machine
end

