-- ==== Sys2Proof/Machine/CoreEvents.lean ====
section
/-! DEFINITION. Exceptions, interrupts, resets and slices of the cores (06, 07, 21): the meaning of each row. -/

namespace Sys2Proof.Machine

/-- STORE_ASYNC (R176). -/
def execStoreAsync (c : Fin 6) (s : State) : Host.Outcome State Fault Refusal :=
  runClk s fun s => s.takePending c.val [xSTORE_ASYNC]

/-- INTERRUPT_TAKE (R179). -/
def execInterruptTake (c : Fin 6) (platform : Bool) (s : State) : Host.Outcome State Fault Refusal :=
  runClk s fun s => s.takePending c.val [if platform then xPLATFORM else xEXTERNAL]

/-- TIMER_INTERRUPT (R175). -/
def execTimerInterrupt (c : Fin 6) (s : State) : Host.Outcome State Fault Refusal :=
  runClk s fun s => s.takePending c.val [xTIMER]

/-- CORE_WAKE (R187). -/
def execCoreWake (c : Fin 6) (s : State) : Host.Outcome State Fault Refusal := runClk s fun s => s.wakeCore c.val

/-- LOCKSTEP_MISMATCH (R165). -/
def execLockstepMismatch (pair : Fin 3) (s : State) : Host.Outcome State Fault Refusal :=
  runClk s fun s => s.mismatch pair.val

/-- PLATFORM_PAIR_RESET (R495). -/
def execPlatformPairReset (s : State) : Host.Outcome State Fault Refusal := runClk s fun s => s.pairResetCounted

/-- MAILBOX_REPLAY (R261). -/
def execMailboxReplay (s : State) : Host.Outcome State Fault Refusal := runClk s fun s => s.mailboxReplay

/-- CORE_RUN_CONTROL (R161). -/
def execCoreRunControl (c : Fin 6) (on : Bool) (s : State) : Host.Outcome State Fault Refusal :=
  runClk s fun s => s.runControl c.val on

/-- SLICE_SWITCH (R200). -/
def execSliceSwitch (c : Fin 6) (s : State) : Host.Outcome State Fault Refusal := runClk s fun s => s.sliceSwitch c.val

/-- SYS_REMAP_SWAP (R160). -/
def execSysRemapSwap (s : State) : Host.Outcome State Fault Refusal := runClk s fun s => s.remapSwap

/-- WATCHDOG_KICK (R494). -/
def execWatchdogKick (v : BitVec 32) (s : State) : Host.Outcome State Fault Refusal := runClk s fun s => s.wdogKick v

/-- WATCHDOG_EXPIRY (R494). -/
def execWatchdogExpiry (s : State) : Host.Outcome State Fault Refusal := runClk s fun s => s.wdogExpiry

end Sys2Proof.Machine
end

