-- ==== Sys2Proof/Machine/CoreRows.lean ====
section
/-! DEFINITION. Steward core instructions (06): the meaning of each row. -/

namespace Sys2Proof.Machine

/-- ADD (R190). -/
def execAdd (c : Fin 6) (rd : BitVec 5) (ra : BitVec 5) (rb : BitVec 5) (s : State) : Host.Outcome State Fault Refusal :=
  runClk s fun s => s.isa c.val (.ok (.alu .add rd ra rb))

/-- SUB (R190). -/
def execSub (c : Fin 6) (rd : BitVec 5) (ra : BitVec 5) (rb : BitVec 5) (s : State) : Host.Outcome State Fault Refusal :=
  runClk s fun s => s.isa c.val (.ok (.alu .sub rd ra rb))

/-- AND (R190). -/
def execAnd (c : Fin 6) (rd : BitVec 5) (ra : BitVec 5) (rb : BitVec 5) (s : State) : Host.Outcome State Fault Refusal :=
  runClk s fun s => s.isa c.val (.ok (.alu .and rd ra rb))

/-- OR (R190). -/
def execOr (c : Fin 6) (rd : BitVec 5) (ra : BitVec 5) (rb : BitVec 5) (s : State) : Host.Outcome State Fault Refusal :=
  runClk s fun s => s.isa c.val (.ok (.alu .or rd ra rb))

/-- XOR (R190). -/
def execXor (c : Fin 6) (rd : BitVec 5) (ra : BitVec 5) (rb : BitVec 5) (s : State) : Host.Outcome State Fault Refusal :=
  runClk s fun s => s.isa c.val (.ok (.alu .xor rd ra rb))

/-- SLL (R190). -/
def execSll (c : Fin 6) (rd : BitVec 5) (ra : BitVec 5) (rb : BitVec 5) (s : State) : Host.Outcome State Fault Refusal :=
  runClk s fun s => s.isa c.val (.ok (.alu .sll rd ra rb))

/-- SRL (R190). -/
def execSrl (c : Fin 6) (rd : BitVec 5) (ra : BitVec 5) (rb : BitVec 5) (s : State) : Host.Outcome State Fault Refusal :=
  runClk s fun s => s.isa c.val (.ok (.alu .srl rd ra rb))

/-- SRA (R190). -/
def execSra (c : Fin 6) (rd : BitVec 5) (ra : BitVec 5) (rb : BitVec 5) (s : State) : Host.Outcome State Fault Refusal :=
  runClk s fun s => s.isa c.val (.ok (.alu .sra rd ra rb))

/-- SLT (R190). -/
def execSlt (c : Fin 6) (rd : BitVec 5) (ra : BitVec 5) (rb : BitVec 5) (s : State) : Host.Outcome State Fault Refusal :=
  runClk s fun s => s.isa c.val (.ok (.alu .slt rd ra rb))

/-- SLTU (R190). -/
def execSltu (c : Fin 6) (rd : BitVec 5) (ra : BitVec 5) (rb : BitVec 5) (s : State) : Host.Outcome State Fault Refusal :=
  runClk s fun s => s.isa c.val (.ok (.alu .sltu rd ra rb))

/-- MUL (R190). -/
def execMul (c : Fin 6) (rd : BitVec 5) (ra : BitVec 5) (rb : BitVec 5) (s : State) : Host.Outcome State Fault Refusal :=
  runClk s fun s => s.isa c.val (.ok (.alu .mul rd ra rb))

/-- MULH (R190). -/
def execMulh (c : Fin 6) (rd : BitVec 5) (ra : BitVec 5) (rb : BitVec 5) (s : State) : Host.Outcome State Fault Refusal :=
  runClk s fun s => s.isa c.val (.ok (.alu .mulh rd ra rb))

/-- MULHU (R190). -/
def execMulhu (c : Fin 6) (rd : BitVec 5) (ra : BitVec 5) (rb : BitVec 5) (s : State) : Host.Outcome State Fault Refusal :=
  runClk s fun s => s.isa c.val (.ok (.alu .mulhu rd ra rb))

/-- DIV (R190). -/
def execDiv (c : Fin 6) (rd : BitVec 5) (ra : BitVec 5) (rb : BitVec 5) (s : State) : Host.Outcome State Fault Refusal :=
  runClk s fun s => s.isa c.val (.ok (.alu .div rd ra rb))

/-- DIVU (R190). -/
def execDivu (c : Fin 6) (rd : BitVec 5) (ra : BitVec 5) (rb : BitVec 5) (s : State) : Host.Outcome State Fault Refusal :=
  runClk s fun s => s.isa c.val (.ok (.alu .divu rd ra rb))

/-- REM (R190). -/
def execRem (c : Fin 6) (rd : BitVec 5) (ra : BitVec 5) (rb : BitVec 5) (s : State) : Host.Outcome State Fault Refusal :=
  runClk s fun s => s.isa c.val (.ok (.alu .rem rd ra rb))

/-- REMU (R190). -/
def execRemu (c : Fin 6) (rd : BitVec 5) (ra : BitVec 5) (rb : BitVec 5) (s : State) : Host.Outcome State Fault Refusal :=
  runClk s fun s => s.isa c.val (.ok (.alu .remu rd ra rb))

/-- ADDI (R190). -/
def execAddi (c : Fin 6) (rd : BitVec 5) (ra : BitVec 5) (i : BitVec 16) (s : State) : Host.Outcome State Fault Refusal :=
  runClk s fun s => s.isa c.val (.ok (.imm .addi rd ra i))

/-- ANDI (R190). -/
def execAndi (c : Fin 6) (rd : BitVec 5) (ra : BitVec 5) (i : BitVec 16) (s : State) : Host.Outcome State Fault Refusal :=
  runClk s fun s => s.isa c.val (.ok (.imm .andi rd ra i))

/-- ORI (R190). -/
def execOri (c : Fin 6) (rd : BitVec 5) (ra : BitVec 5) (i : BitVec 16) (s : State) : Host.Outcome State Fault Refusal :=
  runClk s fun s => s.isa c.val (.ok (.imm .ori rd ra i))

/-- XORI (R190). -/
def execXori (c : Fin 6) (rd : BitVec 5) (ra : BitVec 5) (i : BitVec 16) (s : State) : Host.Outcome State Fault Refusal :=
  runClk s fun s => s.isa c.val (.ok (.imm .xori rd ra i))

/-- SLLI (R190). -/
def execSlli (c : Fin 6) (rd : BitVec 5) (ra : BitVec 5) (sh : BitVec 5) (s : State) : Host.Outcome State Fault Refusal :=
  runClk s fun s => s.isa c.val (.ok (.shift .slli rd ra sh))

/-- SRLI (R190). -/
def execSrli (c : Fin 6) (rd : BitVec 5) (ra : BitVec 5) (sh : BitVec 5) (s : State) : Host.Outcome State Fault Refusal :=
  runClk s fun s => s.isa c.val (.ok (.shift .srli rd ra sh))

/-- SRAI (R190). -/
def execSrai (c : Fin 6) (rd : BitVec 5) (ra : BitVec 5) (sh : BitVec 5) (s : State) : Host.Outcome State Fault Refusal :=
  runClk s fun s => s.isa c.val (.ok (.shift .srai rd ra sh))

/-- SLTI (R190). -/
def execSlti (c : Fin 6) (rd : BitVec 5) (ra : BitVec 5) (i : BitVec 16) (s : State) : Host.Outcome State Fault Refusal :=
  runClk s fun s => s.isa c.val (.ok (.imm .slti rd ra i))

/-- SLTIU (R190). -/
def execSltiu (c : Fin 6) (rd : BitVec 5) (ra : BitVec 5) (i : BitVec 16) (s : State) : Host.Outcome State Fault Refusal :=
  runClk s fun s => s.isa c.val (.ok (.imm .sltiu rd ra i))

/-- LUI (R190). -/
def execLui (c : Fin 6) (rd : BitVec 5) (i : BitVec 16) (s : State) : Host.Outcome State Fault Refusal :=
  runClk s fun s => s.isa c.val (.ok (.lui rd i))

/-- LB (R190). -/
def execLb (c : Fin 6) (rd : BitVec 5) (ra : BitVec 5) (i : BitVec 16) (s : State) : Host.Outcome State Fault Refusal :=
  runClk s fun s => s.isa c.val (.ok (.load .lb rd ra i))

/-- LBU (R190). -/
def execLbu (c : Fin 6) (rd : BitVec 5) (ra : BitVec 5) (i : BitVec 16) (s : State) : Host.Outcome State Fault Refusal :=
  runClk s fun s => s.isa c.val (.ok (.load .lbu rd ra i))

/-- LH (R190). -/
def execLh (c : Fin 6) (rd : BitVec 5) (ra : BitVec 5) (i : BitVec 16) (s : State) : Host.Outcome State Fault Refusal :=
  runClk s fun s => s.isa c.val (.ok (.load .lh rd ra i))

/-- LHU (R190). -/
def execLhu (c : Fin 6) (rd : BitVec 5) (ra : BitVec 5) (i : BitVec 16) (s : State) : Host.Outcome State Fault Refusal :=
  runClk s fun s => s.isa c.val (.ok (.load .lhu rd ra i))

/-- LW (R190). -/
def execLw (c : Fin 6) (rd : BitVec 5) (ra : BitVec 5) (i : BitVec 16) (s : State) : Host.Outcome State Fault Refusal :=
  runClk s fun s => s.isa c.val (.ok (.load .lw rd ra i))

/-- LL (R173). -/
def execLl (c : Fin 6) (rd : BitVec 5) (ra : BitVec 5) (i : BitVec 16) (s : State) : Host.Outcome State Fault Refusal :=
  runClk s fun s => s.isa c.val (.ok (.load .ll rd ra i))

/-- SB (R190). -/
def execSb (c : Fin 6) (rs : BitVec 5) (ra : BitVec 5) (i : BitVec 16) (s : State) : Host.Outcome State Fault Refusal :=
  runClk s fun s => s.isa c.val (.ok (.store .sb rs ra i))

/-- SH (R190). -/
def execSh (c : Fin 6) (rs : BitVec 5) (ra : BitVec 5) (i : BitVec 16) (s : State) : Host.Outcome State Fault Refusal :=
  runClk s fun s => s.isa c.val (.ok (.store .sh rs ra i))

/-- SW (R190). -/
def execSw (c : Fin 6) (rs : BitVec 5) (ra : BitVec 5) (i : BitVec 16) (s : State) : Host.Outcome State Fault Refusal :=
  runClk s fun s => s.isa c.val (.ok (.store .sw rs ra i))

/-- SC (R173). -/
def execSc (c : Fin 6) (rd : BitVec 5) (ra : BitVec 5) (rb : BitVec 5) (s : State) : Host.Outcome State Fault Refusal :=
  runClk s fun s => s.isa c.val (.ok (.sc rd ra rb))

/-- BEQ (R190). -/
def execBeq (c : Fin 6) (ra : BitVec 5) (rb : BitVec 5) (off : BitVec 16) (s : State) : Host.Outcome State Fault Refusal :=
  runClk s fun s => s.isa c.val (.ok (.branch .beq ra rb off))

/-- BNE (R190). -/
def execBne (c : Fin 6) (ra : BitVec 5) (rb : BitVec 5) (off : BitVec 16) (s : State) : Host.Outcome State Fault Refusal :=
  runClk s fun s => s.isa c.val (.ok (.branch .bne ra rb off))

/-- BLT (R190). -/
def execBlt (c : Fin 6) (ra : BitVec 5) (rb : BitVec 5) (off : BitVec 16) (s : State) : Host.Outcome State Fault Refusal :=
  runClk s fun s => s.isa c.val (.ok (.branch .blt ra rb off))

/-- BGE (R190). -/
def execBge (c : Fin 6) (ra : BitVec 5) (rb : BitVec 5) (off : BitVec 16) (s : State) : Host.Outcome State Fault Refusal :=
  runClk s fun s => s.isa c.val (.ok (.branch .bge ra rb off))

/-- BLTU (R190). -/
def execBltu (c : Fin 6) (ra : BitVec 5) (rb : BitVec 5) (off : BitVec 16) (s : State) : Host.Outcome State Fault Refusal :=
  runClk s fun s => s.isa c.val (.ok (.branch .bltu ra rb off))

/-- BGEU (R190). -/
def execBgeu (c : Fin 6) (ra : BitVec 5) (rb : BitVec 5) (off : BitVec 16) (s : State) : Host.Outcome State Fault Refusal :=
  runClk s fun s => s.isa c.val (.ok (.branch .bgeu ra rb off))

/-- J (R190). -/
def execJ (c : Fin 6) (off : BitVec 26) (s : State) : Host.Outcome State Fault Refusal :=
  runClk s fun s => s.isa c.val (.ok (.j off))

/-- JAL (R190). -/
def execJal (c : Fin 6) (off : BitVec 26) (s : State) : Host.Outcome State Fault Refusal :=
  runClk s fun s => s.isa c.val (.ok (.jal off))

/-- JALR (R190). -/
def execJalr (c : Fin 6) (rd : BitVec 5) (ra : BitVec 5) (i : BitVec 16) (s : State) : Host.Outcome State Fault Refusal :=
  runClk s fun s => s.isa c.val (.ok (.jalr rd ra i))

/-- CTLR (R190). -/
def execCtlr (c : Fin 6) (rd : BitVec 5) (num : BitVec 12) (s : State) : Host.Outcome State Fault Refusal :=
  runClk s fun s => s.isa c.val (.ok (.ctlr rd num))

/-- CTLW (R181). -/
def execCtlw (c : Fin 6) (num : BitVec 12) (ra : BitVec 5) (s : State) : Host.Outcome State Fault Refusal :=
  runClk s fun s => s.isa c.val (.ok (.ctlw num ra))

/-- ECALL (R175). -/
def execEcall (c : Fin 6) (s : State) : Host.Outcome State Fault Refusal := runClk s fun s => s.isa c.val (.ok .ecall)

/-- ERET (R177). -/
def execEret (c : Fin 6) (s : State) : Host.Outcome State Fault Refusal := runClk s fun s => s.isa c.val (.ok .eret)

/-- FENCE (R171). -/
def execFence (c : Fin 6) (s : State) : Host.Outcome State Fault Refusal := runClk s fun s => s.isa c.val (.ok .fence)

/-- IFENCE (R170). -/
def execIfence (c : Fin 6) (s : State) : Host.Outcome State Fault Refusal := runClk s fun s => s.isa c.val (.ok .ifence)

/-- DINV (R170). -/
def execDinv (c : Fin 6) (ra : BitVec 5) (s : State) : Host.Outcome State Fault Refusal :=
  runClk s fun s => s.isa c.val (.ok (.dinv ra))

/-- REST (R186). -/
def execRest (c : Fin 6) (s : State) : Host.Outcome State Fault Refusal := runClk s fun s => s.isa c.val (.ok .rest)

/-- BRK (R507). -/
def execBrk (c : Fin 6) (s : State) : Host.Outcome State Fault Refusal := runClk s fun s => s.isa c.val (.ok .brk)

/-- ILLEGAL_INSTRUCTION (R189). -/
def execIllegalInstruction (c : Fin 6) (w : BitVec 32) (s : State) : Host.Outcome State Fault Refusal :=
  runIfClk (decodeCore w = none) s fun s => s.isa c.val (.error w)

end Sys2Proof.Machine
end

