-- ==== Sys2Proof/Machine/DebugRows.lean ====
section
/-! DEFINITION. Debug, trace and the TAP (22, 23): the meaning of each row. -/

namespace Sys2Proof.Machine

/-- DEBUG_EXPIRY_CHECK (R506). -/
def execDebugExpiryCheck (s : State) : Host.Outcome State Fault Refusal := runClk s fun s => s.expiryCheck

/-- TEMP_SENSOR_READ (R557). -/
def execTempSensorRead (t : BitVec 16) (s : State) : Host.Outcome State Fault Refusal := runClk s fun s => s.tempRead t

/-- TAP_EXTEST (R537). -/
def execTapExtest (levels : BitVec 164) (data : BitVec 492) (s : State) : Host.Outcome State Fault Refusal :=
  run s fun s => s.boundaryScan .extest levels data

/-- TAP_SAMPLE_PRELOAD (R500). -/
def execTapSamplePreload (levels : BitVec 164) (data : BitVec 492) (s : State) : Host.Outcome State Fault Refusal :=
  run s fun s => s.boundaryScan .samplePreload levels data

/-- TAP_IDCODE (R500). -/
def execTapIdcode (s : State) : Host.Outcome State Fault Refusal := run s fun s => s.idScan

/-- TAP_CLAMP (R537). -/
def execTapClamp (s : State) : Host.Outcome State Fault Refusal := run s fun s => s.bypassScan .clamp

/-- TAP_HIGHZ (R537). -/
def execTapHighz (s : State) : Host.Outcome State Fault Refusal := run s fun s => s.bypassScan .highz

/-- TAP_BYPASS (R500). -/
def execTapBypass (s : State) : Host.Outcome State Fault Refusal := run s fun s => s.bypassScan .bypass

/-- TAP_DBGACC (R501). -/
def execTapDbgacc (write : Bool) (word : BitVec 18) (data : BitVec 32) (s : State) : Host.Outcome State Fault Refusal :=
  run s fun s => s.dbgAcc write word.toNat data

/-- DBG_HALT_REQUEST (R507). -/
def execDbgHaltRequest (n : Fin 6) (on : Bool) (s : State) : Host.Outcome State Fault Refusal :=
  run s fun s => s.haltRequest n.val on

/-- CORE_HALT (R508). -/
def execCoreHalt (c : Fin 6) (s : State) : Host.Outcome State Fault Refusal := runClk s fun s => s.haltPoll c.val

/-- DBG_FEED (R509). -/
def execDbgFeed (n : Fin 6) (w : BitVec 32) (s : State) : Host.Outcome State Fault Refusal :=
  runClk s fun s => (s.dbgFeed n.val w).runFeed n.val

/-- DBG_RESUME (R510). -/
def execDbgResume (n : Fin 6) (s : State) : Host.Outcome State Fault Refusal := runClk s fun s => s.resumeCore n.val

/-- XTR_FIRE (R513). -/
def execXtrFire (groups : BitVec 8) (s : State) : Host.Outcome State Fault Refusal :=
  run s fun s => s.fireGroups groups.toNat

/-- XTR_RESUME (R514). -/
def execXtrResume (groups : BitVec 8) (s : State) : Host.Outcome State Fault Refusal :=
  run s fun s => s.resumeGroups groups.toNat

/-- XTR_GROUP_SOURCE (R514). -/
def execXtrGroupSource (pin : Fin 2) (high : Bool) (s : State) : Host.Outcome State Fault Refusal :=
  run s fun s => s.xtrPin pin.val high

/-- VT_CORE_WRITE (R515). -/
def execVtCoreWrite (c : Fin 6) (b : BitVec 8) (s : State) : Host.Outcome State Fault Refusal :=
  runClk s fun s => s.vtOut c.val b

/-- VT_CORE_READ (R515). -/
def execVtCoreRead (c : Fin 6) (s : State) : Host.Outcome State Fault Refusal :=
  runClk s fun s => s.wordOut (s.vtIn c.val)

/-- DBG_VTOUT_READ (R515). -/
def execDbgVtoutRead (n : Fin 6) (s : State) : Host.Outcome State Fault Refusal :=
  run s fun s => s.wordOut (s.vtPop n.val)

/-- DBG_VTIN_WRITE (R515). -/
def execDbgVtinWrite (n : Fin 6) (b : BitVec 8) (s : State) : Host.Outcome State Fault Refusal :=
  run s fun s => s.vtPush n.val b

/-- TRC_RDATA_READ (R522). -/
def execTrcRdataRead (s : State) : Host.Outcome State Fault Refusal := run s fun s => s.wordOut s.traceRead

end Sys2Proof.Machine
end

