-- ==== Sys2Proof/Machine/FigureCommands.lean ====
section
/-! DEFINITION. Figure, route, video port and layer commands (10): the meaning of each row. -/

namespace Sys2Proof.Machine

/-- FIG_STAGE (R69). -/
def execFigStage (m : Mail) (s : State) : Host.Outcome State Fault Refusal :=
  runIfClk m.wellFormed s fun s => s.mail 0x0300 m

/-- FIG_COMMIT (R70). -/
def execFigCommit (m : Mail) (s : State) : Host.Outcome State Fault Refusal :=
  runIfClk m.wellFormed s fun s => s.mail 0x0301 m

/-- FIG_WITHDRAW (R76). -/
def execFigWithdraw (m : Mail) (s : State) : Host.Outcome State Fault Refusal :=
  runIfClk m.wellFormed s fun s => s.mail 0x0302 m

/-- FIG_STATUS (R277). -/
def execFigStatus (m : Mail) (s : State) : Host.Outcome State Fault Refusal :=
  runIfClk m.wellFormed s fun s => s.mail 0x0303 m

/-- FIG_LUT (R116). -/
def execFigLut (m : Mail) (s : State) : Host.Outcome State Fault Refusal :=
  runIfClk m.wellFormed s fun s => s.mail 0x0310 m

/-- ROUTE_SET (R272). -/
def execRouteSet (m : Mail) (s : State) : Host.Outcome State Fault Refusal :=
  runIfClk m.wellFormed s fun s => s.mail 0x0400 m

/-- ROUTE_CANCEL (R278). -/
def execRouteCancel (m : Mail) (s : State) : Host.Outcome State Fault Refusal :=
  runIfClk m.wellFormed s fun s => s.mail 0x0401 m

/-- ROUTE_STATUS (R278). -/
def execRouteStatus (m : Mail) (s : State) : Host.Outcome State Fault Refusal :=
  runIfClk m.wellFormed s fun s => s.mail 0x0402 m

/-- ROUTE_PROFILE (R306). -/
def execRouteProfile (m : Mail) (s : State) : Host.Outcome State Fault Refusal :=
  runIfClk m.wellFormed s fun s => s.mail 0x0410 m

/-- VIN_CFG (R300). -/
def execVinCfg (m : Mail) (s : State) : Host.Outcome State Fault Refusal :=
  runIfClk m.wellFormed s fun s => s.mail 0x0420 m

/-- VOUT_CFG (R327). -/
def execVoutCfg (m : Mail) (s : State) : Host.Outcome State Fault Refusal :=
  runIfClk m.wellFormed s fun s => s.mail 0x0421 m

/-- LAYER_SET (R335). -/
def execLayerSet (m : Mail) (s : State) : Host.Outcome State Fault Refusal :=
  runIfClk m.wellFormed s fun s => s.mail 0x0500 m

/-- LAYER_COMMIT (R337). -/
def execLayerCommit (m : Mail) (s : State) : Host.Outcome State Fault Refusal :=
  runIfClk m.wellFormed s fun s => s.mail 0x0501 m

end Sys2Proof.Machine
end

