-- ==== Sys2Proof/Machine/FigureRows.lean ====
section
/-! DEFINITION. The measure, the actions of a figure and the background accesses (02 to 05): the meaning of each row. -/

namespace Sys2Proof.Machine

/-- MEASURE_BOUNDARY (R42). -/
def execMeasureBoundary (s : State) : Host.Outcome State Fault Refusal := runClk s fun s => s.measureBoundary.serveWaiting

/-- MEASURE_SLIP_EARLY (R47). -/
def execMeasureSlipEarly (s : State) : Host.Outcome State Fault Refusal := runClk s fun s => s.slipEarly.serveWaiting

/-- FIGURE_MERGE (R107). -/
def execFigureMerge (s : State) : Host.Outcome State Fault Refusal := runClk s fun s => s.merge

/-- MOVE (R92). -/
def execMove (bay : Fin 8) (res : Fin 512) (step : Nat) (s : State) : Host.Outcome State Fault Refusal :=
  runClk s fun s => s.moveAt bay.val res.val step

/-- SE_START (R124). -/
def execSeStart (bay : Fin 8) (engine : Fin 4) (step : Nat) (s : State) : Host.Outcome State Fault Refusal :=
  runClk s fun s => s.seAt bay.val engine.val step

/-- DDR_XFER (R93). -/
def execDdrXfer (bay : Fin 8) (ch : Fin 2) (step : Nat) (s : State) : Host.Outcome State Fault Refusal :=
  runClk s fun s => s.xferAt bay.val ch.val step

/-- GATE (R423). -/
def execGate (bay : Fin 8) (port : Fin 4) (step : Nat) (s : State) : Host.Outcome State Fault Refusal :=
  runClk s fun s => s.gateAt bay.val port.val step

/-- TRDP_TX (R427). -/
def execTrdpTx (bay : Fin 8) (port : Fin 4) (step : Nat) (s : State) : Host.Outcome State Fault Refusal :=
  runClk s fun s => s.trdpAt bay.val port.val step

/-- NOTIFY (R95). -/
def execNotify (bay : Fin 8) (step : Nat) (s : State) : Host.Outcome State Fault Refusal :=
  runClk s fun s => s.notifyAt bay.val step

/-- TURN_END (R63). -/
def execTurnEnd (s : State) : Host.Outcome State Fault Refusal := runClk s fun s => s.turnEnd

/-- OUTPUT_RELEASE (R488). -/
def execOutputRelease (s : State) : Host.Outcome State Fault Refusal := runClk s fun s => s.release.pulls

/-- TURN_FAULT (R485). -/
def execTurnFault (d : Detector) (s : State) : Host.Outcome State Fault Refusal := runClk s fun s => s.turnFault d

/-- TURN_REPLAY (R64). -/
def execTurnReplay (s : State) : Host.Outcome State Fault Refusal := runClk s fun s => s.turnReplay

/-- FORCED_CARRY_SWAP (R492). -/
def execForcedCarrySwap (s : State) : Host.Outcome State Fault Refusal := runClk s fun s => s.forcedSwap

/-- STORE_WORD_REWRITE (R485). -/
def execStoreWordRewrite (bay : Fin 8) (ofs : Nat) (s : State) : Host.Outcome State Fault Refusal :=
  runClk s fun s => s.rewriteWord bay.val ofs

/-- PATROL_SCRUB (R139). -/
def execPatrolScrub (bank : Fin 256) (s : State) : Host.Outcome State Fault Refusal := runClk s fun s => s.scrub bank.val

/-- ECC_WRITE_BACK (R140). -/
def execEccWriteBack (bank : Fin 256) (s : State) : Host.Outcome State Fault Refusal :=
  runClk s fun s => s.writeBack bank.val

/-- BANK_PORT_ACCESS (R141). -/
def execBankPortAccess (s : State) : Host.Outcome State Fault Refusal := runClk s fun s => s.bankPort

/-- DDR_PORT_ACCESS (R155). -/
def execDdrPortAccess (s : State) : Host.Outcome State Fault Refusal := runClk s fun s => s.ddrPort

/-- BUS_MATRIX_GRANT (R157). -/
def execBusMatrixGrant (target : Fin 8) (s : State) : Host.Outcome State Fault Refusal :=
  runClk s fun s => s.busGrant target.val

/-- LPDDR5X_REFRESH (R152). -/
def execLpddr5xRefresh (ch : Fin 2) (s : State) : Host.Outcome State Fault Refusal := runClk s fun s => s.refresh ch.val

/-- ZQ_CALIBRATION (R153). -/
def execZqCalibration (s : State) : Host.Outcome State Fault Refusal := runClk s fun s => s.zqCal

/-- PHY_RECALIBRATION (R68). -/
def execPhyRecalibration (unit : Nat) (steps : Nat) (s : State) : Host.Outcome State Fault Refusal :=
  runClk s fun s => s.phyCal unit steps

end Sys2Proof.Machine
end

