-- ==== Sys2Proof/Machine/HostRows.lean ====
section
/-! DEFINITION. PCIe, the shared window, pegs, the snap port and doorbells (08, 09): the meaning of each row. -/

namespace Sys2Proof.Machine

/-- PCIE_CONFIG_REQUEST (R214). -/
def execPcieConfigRequest (fn : Fin 9) (q : ConfigReq) (s : State) : Host.Outcome State Fault Refusal :=
  runReady rPCIE s fun s => s.configRequest fn.val q

/-- BAR0_WRITE (R216). -/
def execBar0Write (fn : Fin 9) (ofs : BitVec 23) (s : State) : Host.Outcome State Fault Refusal :=
  runClk s fun s => s.memRequest fn.val false fun s => s.bar0Write fn.val ofs.toNat

/-- BAR2_BAD_ACCESS (R217). -/
def execBar2BadAccess (read : Bool) (s : State) : Host.Outcome State Fault Refusal := runReady rPCIE s fun s => s.bar2Bad read

/-- WINDOW_READ (R223). -/
def execWindowRead (n : Fin 8) (ofs : BitVec 28) (len : Fin 4097) (s : State) : Host.Outcome State Fault Refusal :=
  runIf (1 ≤ len.val ∧ ofs.toNat + len.val ≤ 2 ^ 28) s fun s => if s.stands && s.ready rMBX then s
    else s.memRequest n.val true fun s => s.windowRead n.val ofs.toNat len.val

/-- WINDOW_WRITE (R224). -/
def execWindowWrite (n : Fin 8) (ofs : BitVec 28) (l : List (BitVec 8)) (s : State) : Host.Outcome State Fault Refusal :=
  runIf (1 ≤ l.length ∧ ofs.toNat + l.length ≤ 2 ^ 28) s fun s => if s.stands && s.ready rMBX then s
    else s.memRequest n.val false fun s => s.windowWrite n.val ofs.toNat l

/-- WINDOW_READ_TIMEOUT (R225). -/
def execWindowReadTimeout (n : Fin 8) (s : State) : Host.Outcome State Fault Refusal :=
  runClk s fun s => s.windowTimeout n.val

/-- HOST_PEG_REQUEST (R226). -/
def execHostPegRequest (n : Fin 8) (w : BitVec 32) (s : State) : Host.Outcome State Fault Refusal :=
  runReady rMBX s fun s => s.memRequest n.val false fun s => s.hostWrite n.val 0x2400 w

/-- DEVICE_PEG_REQUEST (R226). -/
def execDevicePegRequest (n : Fin 8) (w : BitVec 32) (s : State) : Host.Outcome State Fault Refusal :=
  runClk s fun s => s.deviceRequest n.val w

/-- PEG_HQ_READ (R230). -/
def execPegHqRead (n : Fin 8) (s : State) : Host.Outcome State Fault Refusal := runClk s fun s => s.memRequest n.val true fun s => s.bar2Out n.val 0x2408

/-- PEG_DQ_READ (R230). -/
def execPegDqRead (n : Fin 8) (s : State) : Host.Outcome State Fault Refusal := runClk s fun s => s.dqOut n.val

/-- PCI_RAISE (R219). -/
def execPciRaise (n : Fin 8) (w : BitVec 32) (s : State) : Host.Outcome State Fault Refusal :=
  runClk s fun s => s.raise n.val w

/-- VF_FUNCTION_LEVEL_RESET (R220). -/
def execVfFunctionLevelReset (n : Fin 8) (s : State) : Host.Outcome State Fault Refusal :=
  runClk s fun s => s.vfReset n.val

/-- PF_FUNCTION_LEVEL_RESET (R221). -/
def execPfFunctionLevelReset (s : State) : Host.Outcome State Fault Refusal := runClk s fun s => s.pfReset

/-- PCIE_HOT_RESET (R221). -/
def execPcieHotReset (s : State) : Host.Outcome State Fault Refusal := runClk s fun s => s.hotReset

/-- SNAP_TIME_LATCH (R237). -/
def execSnapTimeLatch (s : State) : Host.Outcome State Fault Refusal := run s fun s => s.snapRead 0x10

/-- SNAP_POSITION_LATCH (R238). -/
def execSnapPositionLatch (s : State) : Host.Outcome State Fault Refusal := run s fun s => s.snapRead 0x20

/-- SNAP_DOORBELL (R239). -/
def execSnapDoorbell (b : Fin 8) (s : State) : Host.Outcome State Fault Refusal :=
  runReady rMBX s fun s => s.snapWrite (0x1000 + b.val)

/-- SNAP_WRITE_IGNORED (R234). -/
def execSnapWriteIgnored (w : BitVec 16) (s : State) : Host.Outcome State Fault Refusal :=
  runIf (¬ (0x1000 ≤ w.toNat ∧ w.toNat < 0x1008)) s fun s => s.snapWrite w.toNat

/-- DOORBELL_RING (R248). -/
def execDoorbellRing (ring : Fin 9) (byHost : Bool) (s : State) : Host.Outcome State Fault Refusal :=
  runIf (byHost = true ∨ (1 ≤ ring.val ∧ ring.val ≤ 7)) s fun s => if s.stands && s.ready rMBX then s
    else if byHost then s.memRequest ring.val false fun s => s.hostWrite ring.val 0x1818 0 else s.ringWrite ring.val 0x1818 false 0

/-- PCIE_LINK_UP (R457). -/
def execPcieLinkUp (s : State) (gen : Fin 4 := 3) (width : Fin 3 := 2) : Host.Outcome State Fault Refusal :=
  runClk s fun s => s.pcieLinkUp gen.val width.val

end Sys2Proof.Machine
end

