-- ==== Sys2Proof/Machine/KeyCommands.lean ====
section
/-! DEFINITION. Key, seal, telemetry and debug commands (10): the meaning of each row. -/

namespace Sys2Proof.Machine

/-- KEY_GENERATE (R281). -/
def execKeyGenerate (m : Mail) (s : State) : Host.Outcome State Fault Refusal :=
  runIfClk m.wellFormed s fun s => s.mail 0x0C00 m

/-- KEY_IMPORT (R453). -/
def execKeyImport (m : Mail) (s : State) : Host.Outcome State Fault Refusal :=
  runIfClk m.wellFormed s fun s => s.mail 0x0C01 m

/-- KEY_EXPORT (R453). -/
def execKeyExport (m : Mail) (s : State) : Host.Outcome State Fault Refusal :=
  runIfClk m.wellFormed s fun s => s.mail 0x0C02 m

/-- KEY_DERIVE (R452). -/
def execKeyDerive (m : Mail) (s : State) : Host.Outcome State Fault Refusal :=
  runIfClk m.wellFormed s fun s => s.mail 0x0C03 m

/-- KEY_PUBLIC (R281). -/
def execKeyPublic (m : Mail) (s : State) : Host.Outcome State Fault Refusal :=
  runIfClk m.wellFormed s fun s => s.mail 0x0C04 m

/-- KEY_ZEROISE (R447). -/
def execKeyZeroise (m : Mail) (s : State) : Host.Outcome State Fault Refusal :=
  runIfClk m.wellFormed s fun s => s.mail 0x0C05 m

/-- KEY_RANDOM (R454). -/
def execKeyRandom (m : Mail) (s : State) : Host.Outcome State Fault Refusal :=
  runIfClk m.wellFormed s fun s => s.mail 0x0C06 m

/-- SEAL_START (R460). -/
def execSealStart (m : Mail) (s : State) : Host.Outcome State Fault Refusal :=
  runIfClk m.wellFormed s fun s => s.mail 0x0D00 m

/-- SEAL_STOP (R461). -/
def execSealStop (m : Mail) (s : State) : Host.Outcome State Fault Refusal :=
  runIfClk m.wellFormed s fun s => s.mail 0x0D01 m

/-- SEAL_STATUS (R281). -/
def execSealStatus (m : Mail) (s : State) : Host.Outcome State Fault Refusal :=
  runIfClk m.wellFormed s fun s => s.mail 0x0D02 m

/-- TLM_READ (R281). -/
def execTlmRead (m : Mail) (s : State) : Host.Outcome State Fault Refusal :=
  runIfClk m.wellFormed s fun s => s.mail 0x0E00 m

/-- TLM_READ_CLEAR (R499). -/
def execTlmReadClear (m : Mail) (s : State) : Host.Outcome State Fault Refusal :=
  runIfClk m.wellFormed s fun s => s.mail 0x0E01 m

/-- DBG_CHALLENGE (R504). -/
def execDbgChallenge (m : Mail) (s : State) : Host.Outcome State Fault Refusal :=
  runIfClk m.wellFormed s fun s => s.mail 0x0F00 m

/-- DBG_AUTHORISE (R505). -/
def execDbgAuthorise (m : Mail) (s : State) : Host.Outcome State Fault Refusal :=
  runIfClk m.wellFormed s fun s => s.mail 0x0F01 m

/-- DBG_TRACE_CFG (R516). -/
def execDbgTraceCfg (m : Mail) (s : State) : Host.Outcome State Fault Refusal :=
  runIfClk m.wellFormed s fun s => s.mail 0x0F02 m

/-- DBG_REVOKE (R506). -/
def execDbgRevoke (m : Mail) (s : State) : Host.Outcome State Fault Refusal :=
  runIfClk m.wellFormed s fun s => s.mail 0x0F03 m

end Sys2Proof.Machine
end

