-- ==== Sys2Proof/Machine/KeyRows.lean ====
section
/-! DEFINITION. Crypto jobs and seals (19): the meaning of each row. -/

namespace Sys2Proof.Machine

/-- CRY_GO (R454). -/
def execCryGo (b : Fin 8) (s : State) : Host.Outcome State Fault Refusal := runClk s fun s => s.cryGo b.val

/-- CRY_JOB_DONE (R454). -/
def execCryJobDone (s : State) : Host.Outcome State Fault Refusal := runClk s fun s => s.jobDone

/-- ENTROPY_HEALTH_FAIL (R454). -/
def execEntropyHealthFail (s : State) : Host.Outcome State Fault Refusal := runClk s fun s => s.entropyFail

/-- SEAL_FRAME_END (R461). -/
def execSealFrameEnd (i : Fin 4) (s : State) : Host.Outcome State Fault Refusal := runClk s fun s => s.sealFrameEnd i.val

/-- SEAL_SIGN (R464). -/
def execSealSign (i : Fin 4) (s : State) : Host.Outcome State Fault Refusal := runClk s fun s => s.sealSign i.val

/-- SEAL_ABORT (R464). -/
def execSealAbort (i : Fin 4) (s : State) : Host.Outcome State Fault Refusal := runClk s fun s => s.sealAbort i.val

end Sys2Proof.Machine
end

