-- ==== Sys2Proof/Machine/NetRows.lean ====
section
/-! DEFINITION. Ethernet and the junction (18): the meaning of each row. -/

namespace Sys2Proof.Machine

/-- MAC_FRAME_RECEIVE (R417). -/
def execMacFrameReceive (p : Fin 4) (l : List (BitVec 8)) (s : State) : Host.Outcome State Fault Refusal :=
  runReady rNET s fun s => s.macFrame p.val l

/-- TX_RECORD (R419). -/
def execTxRecord (p : Fin 4) (s : State) : Host.Outcome State Fault Refusal := runClk s fun s => s.txRecordRow p.val

/-- MAC_TRANSMIT_SELECT (R424). -/
def execMacTransmitSelect (p : Fin 4) (s : State) : Host.Outcome State Fault Refusal :=
  runClk s fun s => s.macSelect p.val

/-- NET_LINK_CHANGE (R415). -/
def execNetLinkChange (p : Fin 4) (up : Bool) (s : State) : Host.Outcome State Fault Refusal :=
  runClk s fun s => s.netLink p.val up

/-- JNC_FRAME_RECEIVE (R434). -/
def execJncFrameReceive (p : Fin 2) (l : List (BitVec 8)) (s : State) : Host.Outcome State Fault Refusal :=
  runClk s fun s => s.jncReceive p.val l

/-- JNC_RESEND_TIMEOUT (R434). -/
def execJncResendTimeout (p : Fin 2) (s : State) : Host.Outcome State Fault Refusal :=
  runClk s fun s => s.resendTimeout p.val

/-- JNC_ACK_TIMER (R434). -/
def execJncAckTimer (p : Fin 2) (s : State) : Host.Outcome State Fault Refusal := runClk s fun s => s.ackTimer p.val

/-- JNC_TIME_SEND (R440). -/
def execJncTimeSend (s : State) : Host.Outcome State Fault Refusal := runClk s fun s => s.timeSend

/-- JNC_DISCOVER_TIMEOUT (R437). -/
def execJncDiscoverTimeout (arm0 : BitVec 6) (arm1 : BitVec 6) (s : State) : Host.Outcome State Fault Refusal :=
  runClk s fun s => s.discTimeout arm0.toNat arm1.toNat

/-- JNC_RX_FRAME_START (R438). -/
def execJncRxFrameStart (i : Fin 8) (s : State) : Host.Outcome State Fault Refusal := runClk s fun s => s.jncStart i.val

/-- JNC_LINK_CHANGE (R434). -/
def execJncLinkChange (p : Fin 2) (up : Bool) (s : State) : Host.Outcome State Fault Refusal :=
  runClk s fun s => s.jncLink p.val up

end Sys2Proof.Machine
end

