-- ==== Sys2Proof/Machine/OdoPwmRows.lean ====
section
/-! DEFINITION. Odometry and PWM (15, 16): the meaning of each row. -/

namespace Sys2Proof.Machine

/-- TOOTH_MARK (R362). -/
def execToothMark (a : Fin 4) (pa : Bool) (pb : Bool) (s : State) : Host.Outcome State Fault Refusal :=
  runClk s fun s => s.toothMark a.val pa pb

/-- AXLE_MISS (R363). -/
def execAxleMiss (a : Fin 4) (s : State) : Host.Outcome State Fault Refusal := runClk s fun s => s.axleMiss a.val

/-- STALL (R370). -/
def execStall (s : State) : Host.Outcome State Fault Refusal := runClk s fun s => s.stall

/-- POSITION_CROSSING (R372). -/
def execPositionCrossing (slot : Fin 64) (s : State) : Host.Outcome State Fault Refusal :=
  runClk s fun s => s.posCross slot.val

/-- EVENT_QUEUED_PULSE (R374). -/
def execEventQueuedPulse (slot : Fin 64) (s : State) : Host.Outcome State Fault Refusal :=
  runClk s fun s => s.queuedPulse slot.val

/-- EVENT_TIME_EXPIRY (R376). -/
def execEventTimeExpiry (slot : Fin 64) (s : State) : Host.Outcome State Fault Refusal :=
  runClk s fun s => s.timeExpiry slot.val

/-- PWM_PERIOD_START (R385). -/
def execPwmPeriodStart (c : Fin 12) (s : State) : Host.Outcome State Fault Refusal :=
  runClk s fun s => s.periodStart c.val

/-- PWM_STROBE (R386). -/
def execPwmStrobe (c : Fin 12) (s : State) : Host.Outcome State Fault Refusal := runClk s fun s => s.strobe c.val

/-- PWM_BOOTSTRAP_REFRESH (R387). -/
def execPwmBootstrapRefresh (c : Fin 12) (s : State) : Host.Outcome State Fault Refusal :=
  runClk s fun s => s.bootRefresh c.val

/-- PWM_FAULT_INPUT (R389). -/
def execPwmFaultInput (k : Fin 2) (low : Bool) (s : State) : Host.Outcome State Fault Refusal :=
  run s fun s => s.faultInput k.val low

/-- PWM_LIMITER_TRIP (R390). -/
def execPwmLimiterTrip (c : Fin 12) (high : Bool) (s : State) : Host.Outcome State Fault Refusal :=
  run s fun s => s.limiterTrip c.val high

end Sys2Proof.Machine
end

