-- ==== Sys2Proof/Machine/PlumbRows.lean ====
section
/-! DEFINITION. Plumb and the clock outputs (17): the meaning of each row. -/

namespace Sys2Proof.Machine

/-- REFERENCE_SAMPLE (R405). -/
def execReferenceSample (r : Fin 7) (cycles : Nat) (sub : Nat) (master : Nat) (s : State) : Host.Outcome State Fault Refusal :=
  runClk s fun s => s.refSample r.val cycles sub master

/-- REFERENCE_LOS (R397). -/
def execReferenceLos (r : Fin 7) (s : State) : Host.Outcome State Fault Refusal := runClk s fun s => s.refLos r.val

/-- REVERTIVE_SWITCH (R398). -/
def execRevertiveSwitch (s : State) : Host.Outcome State Fault Refusal := runClk s fun s => s.revert

/-- MOVE_END (R405). -/
def execMoveEnd (s : State) : Host.Outcome State Fault Refusal := runClk s fun s => s.moveEndAct

/-- HOLDOVER_LIMIT_EXPIRY (R406). -/
def execHoldoverLimitExpiry (s : State) : Host.Outcome State Fault Refusal := runClk s fun s => s.holdLimit

/-- FI_HISTORY_RECORD (R406). -/
def execFiHistoryRecord (s : State) : Host.Outcome State Fault Refusal := runClk s fun s => s.recordFi

/-- CLOCK_OUTPUT_EDGE (R411). -/
def execClockOutputEdge (n : Fin 3) (s : State) : Host.Outcome State Fault Refusal := runClk s fun s => s.clockEdge n.val

end Sys2Proof.Machine
end

