-- ==== Sys2Proof/Machine/PowerRows.lean ====
section
/-! DEFINITION. Start-up, resets and power (20): the meaning of each row. -/

namespace Sys2Proof.Machine

/-- POWER_ON_RESET (R465). -/
def execPowerOnReset (osc : BitVec 2) (boot : BitVec 2) (snp : Bool) (vio : Sensed) (s : State) : Host.Outcome State Fault Refusal :=
  run s fun s => s.powerOn osc boot snp vio

/-- SUPPLY_MONITOR_TRIP (R542). -/
def execSupplyMonitorTrip (debugRail : Bool) (osc : BitVec 2) (boot : BitVec 2) (snp : Bool) (vio : Sensed) (s : State) : Host.Outcome State Fault Refusal :=
  run s fun s => s.supplyTrip debugRail osc boot snp vio

/-- SYSTEM_RESET (R465). -/
def execSystemReset (s : State) : Host.Outcome State Fault Refusal := run s fun s => s.sysReset 1 0

/-- DEBUG_RESET (R465). -/
def execDebugReset (s : State) : Host.Outcome State Fault Refusal := run s fun s => s.debugReset

/-- MDLL_LOCK (R21). -/
def execMdllLock (s : State) (errs : List Int := []) : Host.Outcome State Fault Refusal := run s fun s => s.mdllLock errs

/-- DIVIDER_CHAIN_START (R22). -/
def execDividerChainStart (s : State) : Host.Outcome State Fault Refusal := run s fun s => s.dividerStart

/-- MDLL_LOSS_OF_LOCK (R23). -/
def execMdllLossOfLock (s : State) (err : Int := 0) (late : Nat := 0) : Host.Outcome State Fault Refusal :=
  run s fun s => s.lossOfLock err late

/-- READINESS_TIMER (R472). -/
def execReadinessTimer (s : State) : Host.Outcome State Fault Refusal := runClk s fun s => s.readinessTimer

/-- BOOT_ROM_START (R455). -/
def execBootRomStart (pufOk : Bool) (cut : Fin 4) (s : State) : Host.Outcome State Fault Refusal :=
  runClk s fun s => s.bootRom pufOk cut.val

/-- HOST_BOOT_CHUNK (R457). -/
def execHostBootChunk (s : State) : Host.Outcome State Fault Refusal := runClk s fun s => s.hostChunk

/-- BOARD_RECORD_APPLY (R476). -/
def execBoardRecordApply (s : State) : Host.Outcome State Fault Refusal := runClk s fun s => s.applyBoard

/-- KEY_STORE_RESTORE (R449). -/
def execKeyStoreRestore (s : State) : Host.Outcome State Fault Refusal := runClk s fun s => s.keyRestore

/-- DDR_TRAINING (R145). -/
def execDdrTraining (fitted : Fin 4) (s : State) (rates : BitVec 4 := 15) : Host.Outcome State Fault Refusal :=
  runClk s fun s => s.ddrTrain fitted.val rates

/-- STATIC_RESET_RECOVERY (R563). -/
def execStaticResetRecovery (s : State) : Host.Outcome State Fault Refusal := runClk s fun s => s.staticRecover

/-- PWR_RESET_SYSTEM (R471). -/
def execPwrResetSystem (s : State) : Host.Outcome State Fault Refusal := runClk s fun s => s.sysReset 2 10000

/-- PWR_RESET_STATIC (R468). -/
def execPwrResetStatic (s : State) : Host.Outcome State Fault Refusal := runClk s fun s => s.staticRestart

/-- POWER_DOWN_REQUEST (R478). -/
def execPowerDownRequest (d : Fin 14) (s : State) : Host.Outcome State Fault Refusal :=
  runClk s fun s => s.powerDown d.val

/-- POWER_UP_REQUEST (R478). -/
def execPowerUpRequest (d : Fin 14) (s : State) : Host.Outcome State Fault Refusal := runClk s fun s => s.powerUp d.val

/-- DOMAIN_DRAIN_END (R479). -/
def execDomainDrainEnd (d : Fin 14) (s : State) : Host.Outcome State Fault Refusal := run s fun s => s.drainEnd d.val

/-- DOMAIN_POWER_OFF (R478). -/
def execDomainPowerOff (d : Fin 14) (s : State) : Host.Outcome State Fault Refusal := run s fun s => s.powerOff d.val

/-- DOMAIN_WAKE_DONE (R478). -/
def execDomainWakeDone (d : Fin 14) (s : State) : Host.Outcome State Fault Refusal := run s fun s => s.wakeDone d.val

end Sys2Proof.Machine
end

