-- ==== Sys2Proof/Machine/ServiceRows.lean ====
section
/-! DEFINITION. Firmware taking commands and reporting (09, 16, 17, 21): the meaning of each row. -/

namespace Sys2Proof.Machine

/-- COMMAND_TAKE (R249). -/
def execCommandTake (s : State) : Host.Outcome State Fault Refusal := runClk s fun s => s.commandTake

/-- COMMAND_DONE (R250). -/
def execCommandDone (s : State) : Host.Outcome State Fault Refusal := runClk s fun s => s.commandDone

/-- PLB_HIST_SERVICE (R404). -/
def execPlbHistService (s : State) : Host.Outcome State Fault Refusal := runClk s fun s => s.histService

/-- PWM_TRIP_REPORT (R392). -/
def execPwmTripReport (s : State) : Host.Outcome State Fault Refusal := runClk s fun s => s.tripReport

/-- FAULT_SUMMARY_REPORT (R498). -/
def execFaultSummaryReport (s : State) : Host.Outcome State Fault Refusal := runClk s fun s => s.faultReport

end Sys2Proof.Machine
end

