-- ==== Sys2Proof/Machine/UnitCommands.lean ====
section
/-! DEFINITION. Audio, odometry, PWM, plumb, network and junction commands (10): the meaning of each row. -/

namespace Sys2Proof.Machine

/-- AUD_TDM_CFG (R347). -/
def execAudTdmCfg (m : Mail) (s : State) : Host.Outcome State Fault Refusal :=
  runIfClk m.wellFormed s fun s => s.mail 0x0600 m

/-- AUD_ROUTE (R343). -/
def execAudRoute (m : Mail) (s : State) : Host.Outcome State Fault Refusal :=
  runIfClk m.wellFormed s fun s => s.mail 0x0601 m

/-- AUD_DELAY (R357). -/
def execAudDelay (m : Mail) (s : State) : Host.Outcome State Fault Refusal :=
  runIfClk m.wellFormed s fun s => s.mail 0x0602 m

/-- ODO_AXLE_CFG (R362). -/
def execOdoAxleCfg (m : Mail) (s : State) : Host.Outcome State Fault Refusal :=
  runIfClk m.wellFormed s fun s => s.mail 0x0700 m

/-- ODO_EVENT_ARM (R378). -/
def execOdoEventArm (m : Mail) (s : State) : Host.Outcome State Fault Refusal :=
  runIfClk m.wellFormed s fun s => s.mail 0x0701 m

/-- ODO_EVENT_DISARM (R378). -/
def execOdoEventDisarm (m : Mail) (s : State) : Host.Outcome State Fault Refusal :=
  runIfClk m.wellFormed s fun s => s.mail 0x0702 m

/-- ODO_SET_POS (R366). -/
def execOdoSetPos (m : Mail) (s : State) : Host.Outcome State Fault Refusal :=
  runIfClk m.wellFormed s fun s => s.mail 0x0703 m

/-- ODO_STATUS (R279). -/
def execOdoStatus (m : Mail) (s : State) : Host.Outcome State Fault Refusal :=
  runIfClk m.wellFormed s fun s => s.mail 0x0704 m

/-- PWM_CFG (R383). -/
def execPwmCfg (m : Mail) (s : State) : Host.Outcome State Fault Refusal :=
  runIfClk m.wellFormed s fun s => s.mail 0x0800 m

/-- PWM_LIMIT (R390). -/
def execPwmLimit (m : Mail) (s : State) : Host.Outcome State Fault Refusal :=
  runIfClk m.wellFormed s fun s => s.mail 0x0801 m

/-- PWM_FAULT_CLEAR (R391). -/
def execPwmFaultClear (m : Mail) (s : State) : Host.Outcome State Fault Refusal :=
  runIfClk m.wellFormed s fun s => s.mail 0x0802 m

/-- PLB_REF_CFG (R395). -/
def execPlbRefCfg (m : Mail) (s : State) : Host.Outcome State Fault Refusal :=
  runIfClk m.wellFormed s fun s => s.mail 0x0900 m

/-- PLB_SELECT (R399). -/
def execPlbSelect (m : Mail) (s : State) : Host.Outcome State Fault Refusal :=
  runIfClk m.wellFormed s fun s => s.mail 0x0901 m

/-- PLB_SLOPE (R405). -/
def execPlbSlope (m : Mail) (s : State) : Host.Outcome State Fault Refusal :=
  runIfClk m.wellFormed s fun s => s.mail 0x0902 m

/-- PLB_SET_TIME (R408). -/
def execPlbSetTime (m : Mail) (s : State) : Host.Outcome State Fault Refusal :=
  runIfClk m.wellFormed s fun s => s.mail 0x0903 m

/-- PLB_STATUS (R280). -/
def execPlbStatus (m : Mail) (s : State) : Host.Outcome State Fault Refusal :=
  runIfClk m.wellFormed s fun s => s.mail 0x0904 m

/-- NET_PORT_CFG (R415). -/
def execNetPortCfg (m : Mail) (s : State) : Host.Outcome State Fault Refusal :=
  runIfClk m.wellFormed s fun s => s.mail 0x0A00 m

/-- NET_QUEUE_CFG (R416). -/
def execNetQueueCfg (m : Mail) (s : State) : Host.Outcome State Fault Refusal :=
  runIfClk m.wellFormed s fun s => s.mail 0x0A01 m

/-- NET_TRDP_TX (R427). -/
def execNetTrdpTx (m : Mail) (s : State) : Host.Outcome State Fault Refusal :=
  runIfClk m.wellFormed s fun s => s.mail 0x0A02 m

/-- NET_TRDP_FILTER (R428). -/
def execNetTrdpFilter (m : Mail) (s : State) : Host.Outcome State Fault Refusal :=
  runIfClk m.wellFormed s fun s => s.mail 0x0A03 m

/-- NET_MACSEC_SA (R431). -/
def execNetMacsecSa (m : Mail) (s : State) : Host.Outcome State Fault Refusal :=
  runIfClk m.wellFormed s fun s => s.mail 0x0A04 m

/-- JNC_CFG (R280). -/
def execJncCfg (m : Mail) (s : State) : Host.Outcome State Fault Refusal :=
  runIfClk m.wellFormed s fun s => s.mail 0x0B00 m

/-- JNC_DISCOVER (R437). -/
def execJncDiscover (m : Mail) (s : State) : Host.Outcome State Fault Refusal :=
  runIfClk m.wellFormed s fun s => s.mail 0x0B01 m

/-- JNC_STATUS (R441). -/
def execJncStatus (m : Mail) (s : State) : Host.Outcome State Fault Refusal :=
  runIfClk m.wellFormed s fun s => s.mail 0x0B02 m

end Sys2Proof.Machine
end

