-- ==== Sys2Proof/Machine/VideoRows.lean ====
section
/-! DEFINITION. Video inputs, routes, outputs and composition (11 to 13): the meaning of each row. -/

namespace Sys2Proof.Machine

/-- CSI_PACKET (R283). -/
def execCsiPacket (rx : Fin 12) (hdr : Fin 4) (vcx : BitVec 2) (vc : BitVec 2) (dt : BitVec 6) (crc : Bool) (samples : List Nat) (s : State) : Host.Outcome State Fault Refusal :=
  runIfClk (samples.length ≤ 65535 ∧ samples.all (· < 65536)) s fun s => s.csiPacket rx.val hdr.val vcx.toNat vc.toNat dt.toNat crc samples

/-- CSI_FRAME_START (R289). -/
def execCsiFrameStart (rx : Fin 12) (vc : BitVec 2) (s : State) : Host.Outcome State Fault Refusal :=
  runClk s fun s => s.csiFrameStart rx.val vc.toNat

/-- CONFORMER_FRAME_START (R287). -/
def execConformerFrameStart (i : Fin 24) (s : State) : Host.Outcome State Fault Refusal :=
  runClk s fun s => s.confFrame i.val

/-- CONFORMER_LINE (R292). -/
def execConformerLine (i : Fin 24) (fault : BitVec 48) (again : BitVec 48) (s : State) : Host.Outcome State Fault Refusal :=
  runClk s fun s => s.confLine i.val fault.toNat again.toNat

/-- CAM_TRIGGER (R299). -/
def execCamTrigger (rx : Fin 12) (s : State) : Host.Outcome State Fault Refusal := runClk s fun s => s.camTrigger rx.val

/-- SCARF_SWITCH (R312). -/
def execScarfSwitch (d : Fin 48) (s : State) : Host.Outcome State Fault Refusal := runClk s fun s => s.scarf d.val

/-- DECODER_FRAME_START (R321). -/
def execDecoderFrameStart (i : Fin 8) (s : State) : Host.Outcome State Fault Refusal := runClk s fun s => s.decFrame i.val

/-- DP_FRAME_START (R326). -/
def execDpFrameStart (c : Fin 4) (s : State) : Host.Outcome State Fault Refusal := runClk s fun s => s.dpFrame c.val

/-- DP_HPD_HIGH (R327). -/
def execDpHpdHigh (c : Fin 4) (sink : BitVec 4) (s : State) : Host.Outcome State Fault Refusal :=
  runClk s fun s => s.hpdHigh c.val sink

/-- DP_HPD_LOW (R327). -/
def execDpHpdLow (c : Fin 4) (s : State) : Host.Outcome State Fault Refusal := runClk s fun s => s.hpdLow c.val

/-- DP_IRQ_HPD (R327). -/
def execDpIrqHpd (c : Fin 4) (lost : Bool) (sink : BitVec 4) (s : State) : Host.Outcome State Fault Refusal :=
  runClk s fun s => s.irqHpd c.val lost sink

/-- DP_TRAIN_RETRY (R327). -/
def execDpTrainRetry (c : Fin 4) (sink : BitVec 4) (s : State) : Host.Outcome State Fault Refusal :=
  runClk s fun s => s.trainRetry c.val sink

/-- LAYER_COMMIT_APPLY (R336). -/
def execLayerCommitApply (c : Fin 4) (s : State) : Host.Outcome State Fault Refusal :=
  runClk s fun s => s.layersApply c.val

/-- CACHE_REBUILD_END (R340). -/
def execCacheRebuildEnd (c : Fin 4) (s : State) : Host.Outcome State Fault Refusal := runClk s fun s => s.rebuildEnd c.val

/-- CACHE_ERROR (R341). -/
def execCacheError (c : Fin 4) (tile : Nat) (s : State) : Host.Outcome State Fault Refusal :=
  runClk s fun s => s.cacheError c.val tile

/-- MEMORY_READER_FRAME_START (R311). -/
def execMemoryReaderFrameStart (d : Fin 48) (s : State) : Host.Outcome State Fault Refusal :=
  runClk s fun s => s.readerFrame d.val

end Sys2Proof.Machine
end

