-- ==== Sys2Proof/Machine/Dispatch.lean ====
section
/-! DEFINITION. Every command's meaning, by its constructor. -/

namespace Sys2Proof.Machine

def exec (i : Instr) (s : State) : Host.Outcome State Fault Refusal :=
  match i with
  | .powerOnReset osc boot snp vio => Sys2Proof.Machine.execPowerOnReset osc boot snp vio s
  | .supplyMonitorTrip debugRail osc boot snp vio => Sys2Proof.Machine.execSupplyMonitorTrip debugRail osc boot snp vio s
  | .systemReset => Sys2Proof.Machine.execSystemReset s
  | .debugReset => Sys2Proof.Machine.execDebugReset s
  | .mdllLock errs => Sys2Proof.Machine.execMdllLock s errs
  | .dividerChainStart => Sys2Proof.Machine.execDividerChainStart s
  | .mdllLossOfLock err late => Sys2Proof.Machine.execMdllLossOfLock s err late
  | .readinessTimer => Sys2Proof.Machine.execReadinessTimer s
  | .bootRomStart pufOk cut => Sys2Proof.Machine.execBootRomStart pufOk cut s
  | .hostBootChunk => Sys2Proof.Machine.execHostBootChunk s
  | .boardRecordApply => Sys2Proof.Machine.execBoardRecordApply s
  | .keyStoreRestore => Sys2Proof.Machine.execKeyStoreRestore s
  | .ddrTraining fitted rates => Sys2Proof.Machine.execDdrTraining fitted s rates
  | .staticResetRecovery => Sys2Proof.Machine.execStaticResetRecovery s
  | .pwrResetSystem => Sys2Proof.Machine.execPwrResetSystem s
  | .pwrResetStatic => Sys2Proof.Machine.execPwrResetStatic s
  | .powerDownRequest d => Sys2Proof.Machine.execPowerDownRequest d s
  | .powerUpRequest d => Sys2Proof.Machine.execPowerUpRequest d s
  | .domainDrainEnd d => Sys2Proof.Machine.execDomainDrainEnd d s
  | .domainPowerOff d => Sys2Proof.Machine.execDomainPowerOff d s
  | .domainWakeDone d => Sys2Proof.Machine.execDomainWakeDone d s
  | .measureBoundary => Sys2Proof.Machine.execMeasureBoundary s
  | .measureSlipEarly => Sys2Proof.Machine.execMeasureSlipEarly s
  | .figureMerge => Sys2Proof.Machine.execFigureMerge s
  | .move bay res step => Sys2Proof.Machine.execMove bay res step s
  | .seStart bay engine step => Sys2Proof.Machine.execSeStart bay engine step s
  | .ddrXfer bay ch step => Sys2Proof.Machine.execDdrXfer bay ch step s
  | .gate bay port step => Sys2Proof.Machine.execGate bay port step s
  | .trdpTx bay port step => Sys2Proof.Machine.execTrdpTx bay port step s
  | .notify bay step => Sys2Proof.Machine.execNotify bay step s
  | .turnEnd => Sys2Proof.Machine.execTurnEnd s
  | .outputRelease => Sys2Proof.Machine.execOutputRelease s
  | .turnFault d => Sys2Proof.Machine.execTurnFault d s
  | .turnReplay => Sys2Proof.Machine.execTurnReplay s
  | .forcedCarrySwap => Sys2Proof.Machine.execForcedCarrySwap s
  | .storeWordRewrite bay ofs => Sys2Proof.Machine.execStoreWordRewrite bay ofs s
  | .patrolScrub bank => Sys2Proof.Machine.execPatrolScrub bank s
  | .eccWriteBack bank => Sys2Proof.Machine.execEccWriteBack bank s
  | .bankPortAccess => Sys2Proof.Machine.execBankPortAccess s
  | .ddrPortAccess => Sys2Proof.Machine.execDdrPortAccess s
  | .busMatrixGrant target => Sys2Proof.Machine.execBusMatrixGrant target s
  | .lpddr5xRefresh ch => Sys2Proof.Machine.execLpddr5xRefresh ch s
  | .zqCalibration => Sys2Proof.Machine.execZqCalibration s
  | .phyRecalibration unit steps => Sys2Proof.Machine.execPhyRecalibration unit steps s
  | .add c rd ra rb => Sys2Proof.Machine.execAdd c rd ra rb s
  | .sub c rd ra rb => Sys2Proof.Machine.execSub c rd ra rb s
  | .and c rd ra rb => Sys2Proof.Machine.execAnd c rd ra rb s
  | .or c rd ra rb => Sys2Proof.Machine.execOr c rd ra rb s
  | .xor c rd ra rb => Sys2Proof.Machine.execXor c rd ra rb s
  | .sll c rd ra rb => Sys2Proof.Machine.execSll c rd ra rb s
  | .srl c rd ra rb => Sys2Proof.Machine.execSrl c rd ra rb s
  | .sra c rd ra rb => Sys2Proof.Machine.execSra c rd ra rb s
  | .slt c rd ra rb => Sys2Proof.Machine.execSlt c rd ra rb s
  | .sltu c rd ra rb => Sys2Proof.Machine.execSltu c rd ra rb s
  | .mul c rd ra rb => Sys2Proof.Machine.execMul c rd ra rb s
  | .mulh c rd ra rb => Sys2Proof.Machine.execMulh c rd ra rb s
  | .mulhu c rd ra rb => Sys2Proof.Machine.execMulhu c rd ra rb s
  | .div c rd ra rb => Sys2Proof.Machine.execDiv c rd ra rb s
  | .divu c rd ra rb => Sys2Proof.Machine.execDivu c rd ra rb s
  | .rem c rd ra rb => Sys2Proof.Machine.execRem c rd ra rb s
  | .remu c rd ra rb => Sys2Proof.Machine.execRemu c rd ra rb s
  | .addi c rd ra ix => Sys2Proof.Machine.execAddi c rd ra ix s
  | .andi c rd ra ix => Sys2Proof.Machine.execAndi c rd ra ix s
  | .ori c rd ra ix => Sys2Proof.Machine.execOri c rd ra ix s
  | .xori c rd ra ix => Sys2Proof.Machine.execXori c rd ra ix s
  | .slli c rd ra sh => Sys2Proof.Machine.execSlli c rd ra sh s
  | .srli c rd ra sh => Sys2Proof.Machine.execSrli c rd ra sh s
  | .srai c rd ra sh => Sys2Proof.Machine.execSrai c rd ra sh s
  | .slti c rd ra ix => Sys2Proof.Machine.execSlti c rd ra ix s
  | .sltiu c rd ra ix => Sys2Proof.Machine.execSltiu c rd ra ix s
  | .lui c rd ix => Sys2Proof.Machine.execLui c rd ix s
  | .lb c rd ra ix => Sys2Proof.Machine.execLb c rd ra ix s
  | .lbu c rd ra ix => Sys2Proof.Machine.execLbu c rd ra ix s
  | .lh c rd ra ix => Sys2Proof.Machine.execLh c rd ra ix s
  | .lhu c rd ra ix => Sys2Proof.Machine.execLhu c rd ra ix s
  | .lw c rd ra ix => Sys2Proof.Machine.execLw c rd ra ix s
  | .ll c rd ra ix => Sys2Proof.Machine.execLl c rd ra ix s
  | .sb c rs ra ix => Sys2Proof.Machine.execSb c rs ra ix s
  | .sh c rs ra ix => Sys2Proof.Machine.execSh c rs ra ix s
  | .sw c rs ra ix => Sys2Proof.Machine.execSw c rs ra ix s
  | .sc c rd ra rb => Sys2Proof.Machine.execSc c rd ra rb s
  | .beq c ra rb off => Sys2Proof.Machine.execBeq c ra rb off s
  | .bne c ra rb off => Sys2Proof.Machine.execBne c ra rb off s
  | .blt c ra rb off => Sys2Proof.Machine.execBlt c ra rb off s
  | .bge c ra rb off => Sys2Proof.Machine.execBge c ra rb off s
  | .bltu c ra rb off => Sys2Proof.Machine.execBltu c ra rb off s
  | .bgeu c ra rb off => Sys2Proof.Machine.execBgeu c ra rb off s
  | .j c off => Sys2Proof.Machine.execJ c off s
  | .jal c off => Sys2Proof.Machine.execJal c off s
  | .jalr c rd ra ix => Sys2Proof.Machine.execJalr c rd ra ix s
  | .ctlr c rd num => Sys2Proof.Machine.execCtlr c rd num s
  | .ctlw c num ra => Sys2Proof.Machine.execCtlw c num ra s
  | .ecall c => Sys2Proof.Machine.execEcall c s
  | .eret c => Sys2Proof.Machine.execEret c s
  | .fence c => Sys2Proof.Machine.execFence c s
  | .ifence c => Sys2Proof.Machine.execIfence c s
  | .dinv c ra => Sys2Proof.Machine.execDinv c ra s
  | .rest c => Sys2Proof.Machine.execRest c s
  | .brk c => Sys2Proof.Machine.execBrk c s
  | .illegalInstruction c w => Sys2Proof.Machine.execIllegalInstruction c w s
  | .storeAsync c => Sys2Proof.Machine.execStoreAsync c s
  | .interruptTake c platform => Sys2Proof.Machine.execInterruptTake c platform s
  | .timerInterrupt c => Sys2Proof.Machine.execTimerInterrupt c s
  | .coreWake c => Sys2Proof.Machine.execCoreWake c s
  | .lockstepMismatch pair => Sys2Proof.Machine.execLockstepMismatch pair s
  | .platformPairReset => Sys2Proof.Machine.execPlatformPairReset s
  | .mailboxReplay => Sys2Proof.Machine.execMailboxReplay s
  | .coreRunControl c on => Sys2Proof.Machine.execCoreRunControl c on s
  | .sliceSwitch c => Sys2Proof.Machine.execSliceSwitch c s
  | .sysRemapSwap => Sys2Proof.Machine.execSysRemapSwap s
  | .watchdogKick v => Sys2Proof.Machine.execWatchdogKick v s
  | .watchdogExpiry => Sys2Proof.Machine.execWatchdogExpiry s
  | .registerWrite path addr v => Sys2Proof.Machine.execRegisterWrite path addr v s
  | .fgeMeasureLoRead path => Sys2Proof.Machine.execFgeMeasureLoRead path s
  | .tmeSecLoRead path => Sys2Proof.Machine.execTmeSecLoRead path s
  | .odoLoRead path n => Sys2Proof.Machine.execOdoLoRead path n s
  | .sccCycleLoRead c => Sys2Proof.Machine.execSccCycleLoRead c s
  | .seLutswapWrite path engine bays => Sys2Proof.Machine.execSeLutswapWrite path engine bays s
  | .pcieConfigRequest fn q => Sys2Proof.Machine.execPcieConfigRequest fn q s
  | .bar0Write fn ofs => Sys2Proof.Machine.execBar0Write fn ofs s
  | .bar2BadAccess read => Sys2Proof.Machine.execBar2BadAccess read s
  | .windowRead n ofs len => Sys2Proof.Machine.execWindowRead n ofs len s
  | .windowWrite n ofs l => Sys2Proof.Machine.execWindowWrite n ofs l s
  | .windowReadTimeout n => Sys2Proof.Machine.execWindowReadTimeout n s
  | .hostPegRequest n w => Sys2Proof.Machine.execHostPegRequest n w s
  | .devicePegRequest n w => Sys2Proof.Machine.execDevicePegRequest n w s
  | .pegHqRead n => Sys2Proof.Machine.execPegHqRead n s
  | .pegDqRead n => Sys2Proof.Machine.execPegDqRead n s
  | .pciRaise n w => Sys2Proof.Machine.execPciRaise n w s
  | .vfFunctionLevelReset n => Sys2Proof.Machine.execVfFunctionLevelReset n s
  | .pfFunctionLevelReset => Sys2Proof.Machine.execPfFunctionLevelReset s
  | .pcieHotReset => Sys2Proof.Machine.execPcieHotReset s
  | .snapTimeLatch => Sys2Proof.Machine.execSnapTimeLatch s
  | .snapPositionLatch => Sys2Proof.Machine.execSnapPositionLatch s
  | .snapDoorbell b => Sys2Proof.Machine.execSnapDoorbell b s
  | .snapWriteIgnored w => Sys2Proof.Machine.execSnapWriteIgnored w s
  | .doorbellRing ring byHost => Sys2Proof.Machine.execDoorbellRing ring byHost s
  | .commandTake => Sys2Proof.Machine.execCommandTake s
  | .commandDone => Sys2Proof.Machine.execCommandDone s
  | .plbHistService => Sys2Proof.Machine.execPlbHistService s
  | .pwmTripReport => Sys2Proof.Machine.execPwmTripReport s
  | .faultSummaryReport => Sys2Proof.Machine.execFaultSummaryReport s
  | .sysInfo m => Sys2Proof.Machine.execSysInfo m s
  | .sysNop m => Sys2Proof.Machine.execSysNop m s
  | .sysFwStage m => Sys2Proof.Machine.execSysFwStage m s
  | .sysFwSelect m => Sys2Proof.Machine.execSysFwSelect m s
  | .bayCreate m => Sys2Proof.Machine.execBayCreate m s
  | .bayGrantPhase m => Sys2Proof.Machine.execBayGrantPhase m s
  | .bayGrantPorts m => Sys2Proof.Machine.execBayGrantPorts m s
  | .bayGrantNet m => Sys2Proof.Machine.execBayGrantNet m s
  | .bayGrantKeys m => Sys2Proof.Machine.execBayGrantKeys m s
  | .bayProducer m => Sys2Proof.Machine.execBayProducer m s
  | .bayStart m => Sys2Proof.Machine.execBayStart m s
  | .baySleep m => Sys2Proof.Machine.execBaySleep m s
  | .bayWake m => Sys2Proof.Machine.execBayWake m s
  | .bayResume m => Sys2Proof.Machine.execBayResume m s
  | .bayDelete m => Sys2Proof.Machine.execBayDelete m s
  | .bayZeroingDone b => Sys2Proof.Machine.execBayZeroingDone b s
  | .bayStatus m => Sys2Proof.Machine.execBayStatus m s
  | .shareGrant m => Sys2Proof.Machine.execShareGrant m s
  | .shareRevoke m => Sys2Proof.Machine.execShareRevoke m s
  | .pegClear m => Sys2Proof.Machine.execPegClear m s
  | .pegWindow m => Sys2Proof.Machine.execPegWindow m s
  | .figStage m => Sys2Proof.Machine.execFigStage m s
  | .figCommit m => Sys2Proof.Machine.execFigCommit m s
  | .figWithdraw m => Sys2Proof.Machine.execFigWithdraw m s
  | .figStatus m => Sys2Proof.Machine.execFigStatus m s
  | .figLut m => Sys2Proof.Machine.execFigLut m s
  | .routeSet m => Sys2Proof.Machine.execRouteSet m s
  | .routeCancel m => Sys2Proof.Machine.execRouteCancel m s
  | .routeStatus m => Sys2Proof.Machine.execRouteStatus m s
  | .routeProfile m => Sys2Proof.Machine.execRouteProfile m s
  | .vinCfg m => Sys2Proof.Machine.execVinCfg m s
  | .voutCfg m => Sys2Proof.Machine.execVoutCfg m s
  | .layerSet m => Sys2Proof.Machine.execLayerSet m s
  | .layerCommit m => Sys2Proof.Machine.execLayerCommit m s
  | .audTdmCfg m => Sys2Proof.Machine.execAudTdmCfg m s
  | .audRoute m => Sys2Proof.Machine.execAudRoute m s
  | .audDelay m => Sys2Proof.Machine.execAudDelay m s
  | .odoAxleCfg m => Sys2Proof.Machine.execOdoAxleCfg m s
  | .odoEventArm m => Sys2Proof.Machine.execOdoEventArm m s
  | .odoEventDisarm m => Sys2Proof.Machine.execOdoEventDisarm m s
  | .odoSetPos m => Sys2Proof.Machine.execOdoSetPos m s
  | .odoStatus m => Sys2Proof.Machine.execOdoStatus m s
  | .pwmCfg m => Sys2Proof.Machine.execPwmCfg m s
  | .pwmLimit m => Sys2Proof.Machine.execPwmLimit m s
  | .pwmFaultClear m => Sys2Proof.Machine.execPwmFaultClear m s
  | .plbRefCfg m => Sys2Proof.Machine.execPlbRefCfg m s
  | .plbSelect m => Sys2Proof.Machine.execPlbSelect m s
  | .plbSlope m => Sys2Proof.Machine.execPlbSlope m s
  | .plbSetTime m => Sys2Proof.Machine.execPlbSetTime m s
  | .plbStatus m => Sys2Proof.Machine.execPlbStatus m s
  | .netPortCfg m => Sys2Proof.Machine.execNetPortCfg m s
  | .netQueueCfg m => Sys2Proof.Machine.execNetQueueCfg m s
  | .netTrdpTx m => Sys2Proof.Machine.execNetTrdpTx m s
  | .netTrdpFilter m => Sys2Proof.Machine.execNetTrdpFilter m s
  | .netMacsecSa m => Sys2Proof.Machine.execNetMacsecSa m s
  | .jncCfg m => Sys2Proof.Machine.execJncCfg m s
  | .jncDiscover m => Sys2Proof.Machine.execJncDiscover m s
  | .jncStatus m => Sys2Proof.Machine.execJncStatus m s
  | .keyGenerate m => Sys2Proof.Machine.execKeyGenerate m s
  | .keyImport m => Sys2Proof.Machine.execKeyImport m s
  | .keyExport m => Sys2Proof.Machine.execKeyExport m s
  | .keyDerive m => Sys2Proof.Machine.execKeyDerive m s
  | .keyPublic m => Sys2Proof.Machine.execKeyPublic m s
  | .keyZeroise m => Sys2Proof.Machine.execKeyZeroise m s
  | .keyRandom m => Sys2Proof.Machine.execKeyRandom m s
  | .sealStart m => Sys2Proof.Machine.execSealStart m s
  | .sealStop m => Sys2Proof.Machine.execSealStop m s
  | .sealStatus m => Sys2Proof.Machine.execSealStatus m s
  | .tlmRead m => Sys2Proof.Machine.execTlmRead m s
  | .tlmReadClear m => Sys2Proof.Machine.execTlmReadClear m s
  | .dbgChallenge m => Sys2Proof.Machine.execDbgChallenge m s
  | .dbgAuthorise m => Sys2Proof.Machine.execDbgAuthorise m s
  | .dbgTraceCfg m => Sys2Proof.Machine.execDbgTraceCfg m s
  | .dbgRevoke m => Sys2Proof.Machine.execDbgRevoke m s
  | .csiPacket rx hdr vcx vc dt crc samples => Sys2Proof.Machine.execCsiPacket rx hdr vcx vc dt crc samples s
  | .csiFrameStart rx vc => Sys2Proof.Machine.execCsiFrameStart rx vc s
  | .conformerFrameStart ix => Sys2Proof.Machine.execConformerFrameStart ix s
  | .conformerLine ix fault again => Sys2Proof.Machine.execConformerLine ix fault again s
  | .camTrigger rx => Sys2Proof.Machine.execCamTrigger rx s
  | .scarfSwitch d => Sys2Proof.Machine.execScarfSwitch d s
  | .decoderFrameStart ix => Sys2Proof.Machine.execDecoderFrameStart ix s
  | .dpFrameStart c => Sys2Proof.Machine.execDpFrameStart c s
  | .dpHpdHigh c sink => Sys2Proof.Machine.execDpHpdHigh c sink s
  | .dpHpdLow c => Sys2Proof.Machine.execDpHpdLow c s
  | .dpIrqHpd c lost sink => Sys2Proof.Machine.execDpIrqHpd c lost sink s
  | .dpTrainRetry c sink => Sys2Proof.Machine.execDpTrainRetry c sink s
  | .layerCommitApply c => Sys2Proof.Machine.execLayerCommitApply c s
  | .cacheRebuildEnd c => Sys2Proof.Machine.execCacheRebuildEnd c s
  | .cacheError c tile => Sys2Proof.Machine.execCacheError c tile s
  | .tdmRxFrame p clocks ago slots => Sys2Proof.Machine.execTdmRxFrame p clocks ago slots s
  | .tdmTxFrame p => Sys2Proof.Machine.execTdmTxFrame p s
  | .tdmClockLost p rx => Sys2Proof.Machine.execTdmClockLost p rx s
  | .tdmRateCheck p rx mhz => Sys2Proof.Machine.execTdmRateCheck p rx mhz s
  | .audioOutputFrame x => Sys2Proof.Machine.execAudioOutputFrame x s
  | .ncoLoopUpdate d => Sys2Proof.Machine.execNcoLoopUpdate d s
  | .audioCaptureEmit x => Sys2Proof.Machine.execAudioCaptureEmit x s
  | .audioRecordIn => Sys2Proof.Machine.execAudioRecordIn s
  | .st211030PacketIn => Sys2Proof.Machine.execSt211030PacketIn s
  | .toothMark a pa pb => Sys2Proof.Machine.execToothMark a pa pb s
  | .axleMiss a => Sys2Proof.Machine.execAxleMiss a s
  | .stall => Sys2Proof.Machine.execStall s
  | .positionCrossing slot => Sys2Proof.Machine.execPositionCrossing slot s
  | .eventQueuedPulse slot => Sys2Proof.Machine.execEventQueuedPulse slot s
  | .eventTimeExpiry slot => Sys2Proof.Machine.execEventTimeExpiry slot s
  | .pwmPeriodStart c => Sys2Proof.Machine.execPwmPeriodStart c s
  | .pwmStrobe c => Sys2Proof.Machine.execPwmStrobe c s
  | .pwmBootstrapRefresh c => Sys2Proof.Machine.execPwmBootstrapRefresh c s
  | .pwmFaultInput k low => Sys2Proof.Machine.execPwmFaultInput k low s
  | .pwmLimiterTrip c high => Sys2Proof.Machine.execPwmLimiterTrip c high s
  | .referenceSample r cycles sub master => Sys2Proof.Machine.execReferenceSample r cycles sub master s
  | .referenceLos r => Sys2Proof.Machine.execReferenceLos r s
  | .revertiveSwitch => Sys2Proof.Machine.execRevertiveSwitch s
  | .moveEnd => Sys2Proof.Machine.execMoveEnd s
  | .holdoverLimitExpiry => Sys2Proof.Machine.execHoldoverLimitExpiry s
  | .fiHistoryRecord => Sys2Proof.Machine.execFiHistoryRecord s
  | .macFrameReceive p l => Sys2Proof.Machine.execMacFrameReceive p l s
  | .txRecord p => Sys2Proof.Machine.execTxRecord p s
  | .macTransmitSelect p => Sys2Proof.Machine.execMacTransmitSelect p s
  | .netLinkChange p up => Sys2Proof.Machine.execNetLinkChange p up s
  | .jncFrameReceive p l => Sys2Proof.Machine.execJncFrameReceive p l s
  | .jncResendTimeout p => Sys2Proof.Machine.execJncResendTimeout p s
  | .jncAckTimer p => Sys2Proof.Machine.execJncAckTimer p s
  | .jncTimeSend => Sys2Proof.Machine.execJncTimeSend s
  | .jncDiscoverTimeout arm0 arm1 => Sys2Proof.Machine.execJncDiscoverTimeout arm0 arm1 s
  | .jncRxFrameStart ix => Sys2Proof.Machine.execJncRxFrameStart ix s
  | .cryGo b => Sys2Proof.Machine.execCryGo b s
  | .cryJobDone => Sys2Proof.Machine.execCryJobDone s
  | .entropyHealthFail => Sys2Proof.Machine.execEntropyHealthFail s
  | .sealFrameEnd ix => Sys2Proof.Machine.execSealFrameEnd ix s
  | .sealSign ix => Sys2Proof.Machine.execSealSign ix s
  | .sealAbort ix => Sys2Proof.Machine.execSealAbort ix s
  | .debugExpiryCheck => Sys2Proof.Machine.execDebugExpiryCheck s
  | .tempSensorRead t => Sys2Proof.Machine.execTempSensorRead t s
  | .tapExtest levels data => Sys2Proof.Machine.execTapExtest levels data s
  | .tapSamplePreload levels data => Sys2Proof.Machine.execTapSamplePreload levels data s
  | .tapIdcode => Sys2Proof.Machine.execTapIdcode s
  | .tapClamp => Sys2Proof.Machine.execTapClamp s
  | .tapHighz => Sys2Proof.Machine.execTapHighz s
  | .tapBypass => Sys2Proof.Machine.execTapBypass s
  | .tapDbgacc write word data => Sys2Proof.Machine.execTapDbgacc write word data s
  | .dbgHaltRequest n on => Sys2Proof.Machine.execDbgHaltRequest n on s
  | .coreHalt c => Sys2Proof.Machine.execCoreHalt c s
  | .dbgFeed n w => Sys2Proof.Machine.execDbgFeed n w s
  | .dbgResume n => Sys2Proof.Machine.execDbgResume n s
  | .xtrFire groups => Sys2Proof.Machine.execXtrFire groups s
  | .xtrResume groups => Sys2Proof.Machine.execXtrResume groups s
  | .xtrGroupSource pin high => Sys2Proof.Machine.execXtrGroupSource pin high s
  | .vtCoreWrite c b => Sys2Proof.Machine.execVtCoreWrite c b s
  | .vtCoreRead c => Sys2Proof.Machine.execVtCoreRead c s
  | .dbgVtoutRead n => Sys2Proof.Machine.execDbgVtoutRead n s
  | .dbgVtinWrite n b => Sys2Proof.Machine.execDbgVtinWrite n b s
  | .trcRdataRead => Sys2Proof.Machine.execTrcRdataRead s
  | .pcieLinkUp gen width => Sys2Proof.Machine.execPcieLinkUp s gen width
  | .jncLinkChange p up => Sys2Proof.Machine.execJncLinkChange p up s
  | .clockOutputEdge n => Sys2Proof.Machine.execClockOutputEdge n s
  | .memoryReaderFrameStart d => Sys2Proof.Machine.execMemoryReaderFrameStart d s

end Sys2Proof.Machine
end

