-- ==== Sys2Proof/Safety.lean ====
section
/-! DEFINITION. What a safe run is, and the terms that the statements use. -/

namespace Sys2Proof

open Machine

/-- A command as its meaning gets it. -/
def Mail.cx (m : Mail) (op : Nat) : Cx :=
  { ring := m.ring.val, bay := m.bay.toNat, force := bitAt m.flags.toNat 1, pay := fixLen 0 48 m.pay, o := ⟨m.ring.val, m.seq, op⟩ }

/-- The `k` bytes of the payload from offset `o` on, as a number. -/
def Mail.f (m : Mail) (o k : Nat) : Nat := fieldAt (fixLen 0 48 m.pay) o k

end Sys2Proof

namespace Sys2Proof.Machine

/-- Every store of the state is in canonical form, no reserved register bit is set and no byte lies beyond the end of its memory (R10,
R33). -/
abbrev State.Safe (s : State) : Prop := s.Sealed

/-! ### What stays -/

/-- Every register outside the blocks numbered in `bs` holds what it held (the block of address a is a / 65,536, R39). -/
def State.RegsKept (s t : State) (bs : List Nat) : Prop := ∀ a, a / 65536 ∉ bs → t.reg a = s.reg a

/-- Every register but those at `l` holds what it held. -/
def State.RegsBut (s t : State) (l : List Nat) : Prop := ∀ a, a ∉ l → t.reg a = s.reg a

/-- From `s` to `t`, one access has gone over the bus matrix and has been made (R156, R157): nothing else has changed but registers and the
outputs; requests that wait there wait on. -/
def State.ByBus (s t : State) : Prop :=
  ∃ r m b, t = { s with out := t.out, regs := r, marks := m, bxm := b } ∧ b.reqs.length = s.bxm.reqs.length ∧ b.held = s.bxm.held ∧
    b.answers = s.bxm.answers ∧ b.lands = s.bxm.lands

/-- Every byte of boot ROM, working SRAM, bank field, LPDDR5X and flash holds what it held. -/
def State.MemKept (s t : State) : Prop := t.rom = s.rom ∧ t.sram = s.sram ∧ t.bkf = s.bkf ∧ t.ddr = s.ddr ∧ t.flash = s.flash

/-- Nothing has changed but registers and the outputs, of which there are none; `m` marks the bits set in the present cycle (R8). -/
def State.OnlyRegs (s t : State) : Prop := ∃ r m, t = { s with out := [], regs := r, marks := m }

/-! ### Steward cores -/

/-- No access of core `c` is on its way: none waits at the bus matrix or at a port, or is in flight (R141, R155, R171), and none is held
behind others (R229). -/
structure State.Drained (s : State) (c : Nat) : Prop where
  noAsk : s.busy c = false
  noHeld : ∀ e ∈ s.bxm.held, e.2.core ≠ c

/-- A request is granted in the step in which it is asked: its target is none of the two ports, can grant now, and would pick it (R157). -/
def State.grantsNow (s : State) (r : BusReq) : Bool :=
  let x := s.busPost r
  r.target ≠ 2 && r.target ≠ 3 && x.busPick r.target = some { r with id := s.bxm.next } && (x.grantCycle r.target).isSome

/-- `s` with a request that waits at the bus matrix (R157). -/
def State.posting (s : State) (r : BusReq) : State :=
  { s with bxm := { s.bxm with reqs := s.bxm.reqs ++ [{ r with id := s.bxm.next }], next := s.bxm.next + 1 } }

/-- The fetch at core `c`'s pc moves nothing: its line is in the instruction cache and sound, or the access made for it has its answer
(R169, R174). -/
def State.fetchStill (s : State) (c : Nat) : Bool :=
  let a := 4 * (s.core c).pc.toNat
  let p := s.placeFor c .fetch a
  match lineAt p.key (s.core c).icache with
  | some l => !(l.bad || l.badFollower && s.locked c)
  | none => ((s.core c).asked .fetch a (if s.cached c a p then 32 else 4)).any fun x => x.ans.isSome

/-- The core unit led by `c` comes to the boundary before the instruction at its pc: it runs, its clock does not stand (R20, R23), it waits
for no access, its fetch succeeds (R168, R174), and neither a STORE_ASYNC report nor the debugger comes first (R180, R507, R510). The fetch
moves nothing: its line is in the instruction cache without a parity error, or its bytes have come (R169, R174). -/
structure State.Ready (s : State) (c : Nat) : Prop where
  leads : s.follows c = false
  runs : s.coreRuns c = true
  clocked : s.stands = false
  unwaiting : (s.core c).waits = false
  noAsync : (s.core c).asyncAt = none
  noStep : (s.core c).stepping = false
  noHalt : s.haltWanted c = false
  fetches : (s.clean.fetchOk c).1 = some true
  still : s.fetchStill c = true

/-- The core unit led by `c` executes the instruction at its pc next: it is ready, and no interrupt comes first (R180). -/
structure State.Issues (s : State) (c : Nat) : Prop extends s.Ready c where
  noIrq : s.irq c = none

/-- From `s` to `t`, an instruction of core unit `c` has had the effect `x` on everything outside the cores and has left core `c` as `k`
but for what the fetch put into the instruction cache and without an access under way, and the locked partner the same; nothing else has
changed but the counter of free values and the outputs, of which there are none. -/
def State.Leaves (s x t : State) (c : Nat) (k : Core) : Prop :=
  ∃ cs n ic, t = { x with out := [], cores := cs, free := n } ∧
    (∀ d, d < 6 → t.core d = if d ∈ s.mates c then { k with icache := ic, fetched := none, loaded := none } else s.core d)

/-- The instruction has changed core unit `c` alone. -/
def State.Retires (s t : State) (c : Nat) (k : Core) : Prop := s.Leaves s t c k

/-- No trace of core `c` goes anywhere (R516, R522). -/
structure State.Untraced (s : State) (c : Nat) : Prop where
  noRam : s.sinkRam c = false
  noPort : s.sinkPort c = false
  off : (s.src c).on = false

/-- Core registers after entry into level F (`f`) or S from the level and pc of `k` (R177). -/
def Core.entered (k : Core) (f intr : Bool) (code : Nat) (addr : Word) : Core :=
  let x := if f then k.fx else k.sx
  let y : ExcRegs :=
    { x with epc := k.pc, intr := intr, code := BitVec.ofNat 6 code, addr := addr, pien := x.ien, ien := false, ppl := k.level, inexc := true }
  { k with pc := x.vec, resv := none, level := if f then .f else .s, fx := if f then y else k.fx, sx := if f then k.sx else y }

/-! ### Mailbox commands -/

/-- Ring set `m.ring` takes a command at once: the mailbox is ready, its clock does not stand, no ring set is latched or in the rotation, the
ring is empty and holds no command that waits for its bay, a response slot is free, and the command carries the sequence number expected
(R249, R254). -/
structure State.Takes (s : State) (m : Mail) : Prop where
  fits : m.pay.length ≤ 48
  clocked : s.stands = false
  serving : s.ready rMBX = true
  quiet : s.quiet = true
  idle : (s.ring m.ring.val).cmdPi = (s.ring m.ring.val).cmdCi
  unheld : ∀ x ∈ s.mbx.waiting, x.1 ≠ m.ring.val
  room : ((s.ring m.ring.val).rspPi - (s.ring m.ring.val).rspCi).toNat < 32
  expected : m.seq = (s.ring m.ring.val).expSeq

/-- The checks of R255 that every command shares pass for command `m` with opcode `op`: its sender, its bay's state, the readiness bits it
needs, LEN, FLAGS and reserved bytes. -/
def State.Passes (s : State) (op : Nat) (m : Mail) : Prop :=
  ∃ k, findCmd op = some k ∧ mayServe k.on m.ring.val m.bay.toNat = true ∧
    bayGate k.on op (s.bayState m.bay.toNat) (bitAt m.flags.toNat 0) = .go ∧ (∀ i ∈ k.needs, s.ready i = true) ∧
    k.payloadOk (mailBytes op m) = true

/-- The ring set takes the command and its shared checks pass. -/
def State.Accepts (s : State) (op : Nat) (m : Mail) : Prop := s.Takes m ∧ s.Passes op m

/-- From `s` to `t`, command `m` with opcode `op` has been taken and answered with `status` and response payload `pay`, and journalled as
delivered (R252, R260); a host that consumes the responses is told (R218). -/
structure State.Responds (s t : State) (op : Nat) (m : Mail) (status : Nat) (pay : List Byte) : Prop where
  slot : readBytes zeroByte (t.ring m.ring.val).mem (64 * ((s.ring m.ring.val).cmdPi.toNat % 32)) 64 = mailBytes op m
  response : readBytes zeroByte (t.ring m.ring.val).mem (0x800 + 64 * ((s.ring m.ring.val).rspPi.toNat % 32)) 64 =
    rspBytes (mailBytes op m) 0 status pay
  produced : (t.ring m.ring.val).rspPi = (s.ring m.ring.val).rspPi + 1
  consumed : (t.ring m.ring.val).cmdCi = (s.ring m.ring.val).cmdPi + 1 ∧ (t.ring m.ring.val).cmdPi = (s.ring m.ring.val).cmdPi + 1
  next : (t.ring m.ring.val).expSeq = (s.ring m.ring.val).expSeq + 1
  journal : ∃ e ∈ (t.ring m.ring.val).journal, e.seq = m.seq ∧ e.cmd = mailBytes op m ∧ e.state = .delivered ∧
    e.rsp = rspBytes (mailBytes op m) 0 status pay
  told : s.hostRing m.ring.val = true → Out.msix m.ring.val 0 ∈ t.out ∨ (vget t.pcie.fns m.ring.val).pend.getLsbD 0 = true

/-- `s` with the rotation at the ring set after `r`: the PF, then bays 0 to 7 (R249). -/
def State.rotated (s : State) (r : Nat) : State := { s with mbx := { s.mbx with next := if r = 8 then 1 else (r + 2) % 9 } }

/-- The state in which the meaning of command `m` runs: the command stands in its slot, its doorbell has been answered, the rotation goes on
after its ring set, and it is journalled (R244, R248, R249, R260). -/
def State.given (s : State) (op : Nat) (m : Mail) : State :=
  ((((s.clean.modRing m.ring.val fun q =>
    { q with mem := writeBytes zeroByte (mailBytes op m) (64 * (q.cmdPi.toNat % 32)) q.mem, cmdPi := q.cmdPi + 1 }).ringBell m.ring.val).rotated
      m.ring.val).clearBell m.ring.val).take m.ring.val (mailBytes op m)

/-- Command `m` has been answered; `x` is the state that its effect leaves, and beside the answer nothing else has changed; reserved register
bits are 0 (R10). -/
structure State.Answers (s x t : State) (op : Nat) (m : Mail) (status : Nat) (pay : List Byte) : Prop where
  responds : s.Responds t op m status pay
  rest : ∃ o r q f k, t = { x with out := o, regs := r, mbx := q, pcie := { x.pcie with fns := f }, marks := k } ∧
    q.waiting = x.mbx.waiting
  regs : ∀ a, t.reg a = x.reg a &&& regMask a
  rings : ∀ i, i < 9 → (t.ring i).evtPi = (x.ring i).evtPi ∧ (t.ring i).evtSeq = (x.ring i).evtSeq ∧ (i ≠ m.ring.val → t.ring i = x.ring i)

/-- Command `m` has been answered OK with payload `pay`, and its effect leaves `x`. -/
abbrev State.Done (s x t : State) (op : Nat) (m : Mail) (pay : List Byte) : Prop := s.Answers x t op m stOK pay

/-! ### Counters, events and endpoints -/

/-- From `s` to `t`, the counter `f` has gone up by `n`, or stands at its largest value. -/
def State.Counts (s t : State) (f : Fld) (n : Nat := 1) : Prop := t.get f = min (2 ^ (f.hi + 1 - f.lo) - 1) (s.get f + n)

/-- From `s` to `t`, one event has been posted to ring set `r`: written to the next slot, or, where the mailbox is not ready or the ring
is full, lost, which is counted and marks the next event (R247, R253, R258). -/
structure State.Posts (s t : State) (r code kind measure : Nat) (arg : List Byte) : Prop where
  seq : (t.ring r).evtSeq = (s.ring r).evtSeq + 1
  written : s.ready rMBX = true → ((s.ring r).evtPi - (s.ring r).evtCi).toNat < 64 → (t.ring r).evtPi = (s.ring r).evtPi + 1 ∧
    readBytes zeroByte (t.ring r).mem (0x1000 + 32 * ((s.ring r).evtPi.toNat % 64)) 32 =
      eventBytes code kind (if (s.ring r).lostMark then 1 else 0) (s.ring r).evtSeq measure arg
  lost : s.ready rMBX = false ∨ 64 ≤ ((s.ring r).evtPi - (s.ring r).evtCi).toNat → (t.ring r).evtPi = (s.ring r).evtPi ∧
    (t.ring r).evtLost = min 65535 ((s.ring r).evtLost + 1) ∧ (t.ring r).lostMark = true

/-- No ring set has had an event from `s` to `t`. -/
def State.NoEvents (s t : State) : Prop := ∀ r, r < 9 → t.ring r = s.ring r

/-- No endpoint holds a granule that its unit could take. -/
def State.Still (s : State) : Prop := ∀ r, (s.endp r).fifo = [] ∧ (s.endp r).gap = false

/-- `t` is `s` with `x` in the bank field at the granule of address `a`, and nothing else in any memory changed (R138). -/
def State.BankHolds (s t : State) (a : Nat) (x : Granule) : Prop :=
  readBytes zeroByte t.bkf (a / 16 * 16) 16 = x.bytes ∧ t.eccOf (a / 16) = (if x.poison then Ecc.poison else Ecc.clean) ∧
  (∀ o, o / 16 ≠ a / 16 → sget zeroByte t.bkf o = sget zeroByte s.bkf o) ∧ t.ddr = s.ddr ∧ t.sram = s.sram ∧ t.rom = s.rom ∧ t.flash = s.flash

end Sys2Proof.Machine
end

