-- ==== Sys2Proof/Certificates/Slice0/Obligations.lean ====
section
/-! DEFINITION. The statements for the provers. -/

open Sys2Proof Sys2Proof.Machine

/-! ### Steward cores (06) -/

/-- R190, register-register and register-immediate results: the instruction's register gets its result, the pc goes on by one word, and nothing else of the unit
changes. Division is towards zero; ÷0 gives all ones and leaves the dividend; 0x8000_0000 ÷ −1 gives 0x8000_0000, remainder 0. IMM16 is
sign-extended but for ANDI, ORI and XORI. -/
def Obligations.AluResults : Prop :=
  ∀ (c : Fin 6) (rd ra rb sh : BitVec 5) (i : BitVec 16) (s : State), s.Sealed → s.Issues c →
  let x := s.greg c ra
  let y := s.greg c rb
  let q : Word := if y = 0 then 0xFFFFFFFF else if x = 0x80000000 ∧ y = 0xFFFFFFFF then 0x80000000 else BitVec.ofInt 32 (x.toInt.tdiv y.toInt)
  let u : Word := if y = 0 then 0xFFFFFFFF else BitVec.ofNat 32 (x.toNat / y.toNat)
  let Ends := fun (o : Instr) (v : Word) =>
    ∃ t, exec o s = .next t ∧ s.Retires t c { (s.core c).setReg rd v with pc := (s.core c).pc + 1 }
  Ends (.add c rd ra rb) (BitVec.ofNat 32 (x.toNat + y.toNat)) ∧
  Ends (.sub c rd ra rb) (x + ~~~y + 1) ∧
  Ends (.and c rd ra rb) (x &&& y) ∧
  Ends (.or c rd ra rb) (x ||| y) ∧
  Ends (.xor c rd ra rb) (x ^^^ y) ∧
  Ends (.sll c rd ra rb) (BitVec.ofNat 32 (x.toNat * 2 ^ (y.extractLsb' 0 5).toNat)) ∧
  Ends (.srl c rd ra rb) (BitVec.ofNat 32 (x.toNat / 2 ^ (y.extractLsb' 0 5).toNat)) ∧
  Ends (.sra c rd ra rb) (BitVec.ofInt 32 (x.toInt / 2 ^ (y.extractLsb' 0 5).toNat)) ∧
  Ends (.slt c rd ra rb) (if x.toInt < y.toInt then 1 else 0) ∧
  Ends (.sltu c rd ra rb) (if x.toNat < y.toNat then 1 else 0) ∧
  Ends (.mul c rd ra rb) (BitVec.ofNat 32 (x.toNat * y.toNat)) ∧
  Ends (.mulh c rd ra rb) ((x.signExtend 64 * y.signExtend 64).extractLsb' 32 32) ∧
  Ends (.mulhu c rd ra rb) ((x.setWidth 64 * y.setWidth 64).extractLsb' 32 32) ∧
  Ends (.div c rd ra rb) q ∧ Ends (.divu c rd ra rb) u ∧
  Ends (.rem c rd ra rb) (if y = 0 then x else x - q * y) ∧
  Ends (.remu c rd ra rb) (if y = 0 then x else x - u * y) ∧
  Ends (.addi c rd ra i) (BitVec.ofInt 32 (x.toInt + i.toInt)) ∧
  Ends (.andi c rd ra i) (x &&& BitVec.ofNat 32 i.toNat) ∧
  Ends (.ori c rd ra i) (x ||| BitVec.ofNat 32 i.toNat) ∧
  Ends (.xori c rd ra i) (x ^^^ BitVec.ofNat 32 i.toNat) ∧
  Ends (.slli c rd ra sh) (BitVec.ofNat 32 (x.toNat * 2 ^ sh.toNat)) ∧
  Ends (.srli c rd ra sh) (BitVec.ofNat 32 (x.toNat / 2 ^ sh.toNat)) ∧
  Ends (.srai c rd ra sh) (BitVec.ofInt 32 (x.toInt / 2 ^ sh.toNat)) ∧
  Ends (.slti c rd ra i) (if x.toInt < i.toInt then 1 else 0) ∧
  Ends (.sltiu c rd ra i) (if x.toNat < (BitVec.ofInt 32 i.toInt).toNat then 1 else 0) ∧
  Ends (.lui c rd i) (BitVec.ofNat 32 (i.toNat * 65536))


/-- R190, branches and jumps: a branch goes to pc + 4 × OFF16 where its condition holds, else on; JAL and JALR put pc + 4 into g31 and rd;
JALR's target is (ra + IMM16) with bits 1:0 cleared. Stated for a core that no trace sink takes. -/
def Obligations.BranchesAndJumps : Prop :=
  ∀ (c : Fin 6) (rd ra rb : BitVec 5) (i : BitVec 16) (off : BitVec 26) (s : State), s.Sealed → s.Issues c → s.Untraced c →
  let k := s.core c
  let x := s.greg c ra
  let y := s.greg c rb
  let Ends := fun (o : Instr) (k' : Core) => ∃ t, exec o s = .next t ∧ s.Retires t c k'
  let Goes := fun (b : Prop) [Decidable b] => { k with pc := if b then k.pc + i.signExtend 30 else k.pc + 1 }
  Ends (.beq c ra rb i) (Goes (x = y)) ∧
  Ends (.bne c ra rb i) (Goes (x ≠ y)) ∧
  Ends (.blt c ra rb i) (Goes (x.toInt < y.toInt)) ∧
  Ends (.bge c ra rb i) (Goes (x.toInt ≥ y.toInt)) ∧
  Ends (.bltu c ra rb i) (Goes (x.toNat < y.toNat)) ∧
  Ends (.bgeu c ra rb i) (Goes (x.toNat ≥ y.toNat)) ∧
  Ends (.j c off) { k with pc := k.pc + off.signExtend 30 } ∧
  Ends (.jal c off) { k.setReg 31 (4 * k.pc.setWidth 32 + 4) with pc := k.pc + off.signExtend 30 } ∧
  Ends (.jalr c rd ra i) { k.setReg rd (4 * k.pc.setWidth 32 + 4) with pc := (x + i.signExtend 32).extractLsb' 2 30 }

/-- CTLR puts the control register's value into rd (R190); reading SCC_CYCLE_LO latches the high word (R186). Each clause names the lowest
level that may read. -/
def Obligations.ControlReads : Prop :=
  ∀ (c : Fin 6) (rd : BitVec 5) (s : State), s.Sealed → s.Issues c →
  let k := s.core c
  let l := k.level.rank
  let Ends := fun (n : BitVec 12) (v : Word) =>
    ∃ t, exec (.ctlr c rd n) s = .next t ∧ s.Retires t c { k.setReg rd v with pc := k.pc + 1 }
  let Level := fun (n : BitVec 12) (x : ExcRegs) =>
    Ends n (BitVec.ofNat 32 (16 * x.inexc.toNat + 4 * x.ppl.code + 2 * x.pien.toNat + x.ien.toNat)) ∧
    Ends (n + 1) (x.epc ++ 0#2) ∧ Ends (n + 2) (BitVec.ofBool x.intr ++ 0#25 ++ x.code) ∧ Ends (n + 3) x.addr ∧
    Ends (n + 4) (x.vec ++ 0#2) ∧ Ends (n + 5) x.scratch
  Ends 0x000 (BitVec.ofNat 32 (c.val + if s.locked c then 8 else 0)) ∧
  Ends 0x001 (k.bay.setWidth 32) ∧
  (∃ t, exec (.ctlr c rd 0x002) s = .next t ∧
    s.Retires t c { k.setReg rd (k.cycle.extractLsb' 0 32) with pc := k.pc + 1, cycleHi := k.cycle.extractLsb' 32 32 }) ∧
  Ends 0x003 k.cycleHi ∧
  (1 ≤ l → Ends 0x004 (k.timecmp.extractLsb' 0 32) ∧ Ends 0x005 (k.timecmp.extractLsb' 32 32) ∧ Level 0x010 k.sx ∧
    Ends 0x016 (k.ie.setWidth 32) ∧
    Ends 0x017 (BitVec.ofNat 32 ((if s.extPending c then 2 else 0) + if k.timecmp ≤ k.cycle then 1 else 0)) ∧
    ∀ j : Fin 8, Ends (0x040 + BitVec.ofNat 12 j) (BitVec.ofNat 32
        (32 * k.rgn[j].base.toNat + 8 * k.rgn[j].en.toNat + 4 * k.rgn[j].x.toNat + 2 * k.rgn[j].w.toNat + k.rgn[j].r.toNat)) ∧
      Ends (0x048 + BitVec.ofNat 12 j) (k.rgn[j].last ++ 0#5)) ∧
  (2 ≤ l → Level 0x020 k.fx)

/-- CTLW gives the control register the value of ra (R190); reserved bits are dropped and a reserved PPL leaves the field (R11). Each clause
names the lowest level that may write. A change of SCC_BAY empties the core's virtual terminal (R515). -/
def Obligations.ControlWrites : Prop :=
  ∀ (c : Fin 6) (ra : BitVec 5) (s : State), s.Sealed → s.Issues c →
  let k := s.core c
  let v := s.greg c ra
  let l := k.level.rank
  let Ends := fun (n : BitVec 12) (k' : Core) => ∃ t, exec (.ctlw c n ra) s = .next t ∧ s.Retires t c { k' with pc := k.pc + 1 }
  let Level := fun (n : BitVec 12) (x : ExcRegs) (three : Level) (put : ExcRegs → Core) =>
    Ends n (put { x with
      inexc := v.getLsbD 4, pien := v.getLsbD 1, ien := v.getLsbD 0,
      ppl := if v.extractLsb' 2 2 = 0 then .u else if v.extractLsb' 2 2 = 1 then .s else if v.extractLsb' 2 2 = 3 then three else x.ppl }) ∧
    Ends (n + 1) (put { x with epc := v.extractLsb' 2 30 }) ∧
    Ends (n + 2) (put { x with intr := v.getLsbD 31, code := v.extractLsb' 0 6 }) ∧
    Ends (n + 3) (put { x with addr := v }) ∧
    Ends (n + 4) (put { x with vec := v.extractLsb' 2 30 }) ∧
    Ends (n + 5) (put { x with scratch := v })
  (1 ≤ l →
    Ends 0x004 { k with timecmp := k.timecmp.extractLsb' 32 32 ++ v } ∧
    Ends 0x005 { k with timecmp := v ++ k.timecmp.extractLsb' 0 32 } ∧
    Level 0x010 k.sx k.sx.ppl (fun x => { k with sx := x }) ∧
    Ends 0x016 { k with ie := v.extractLsb' 0 2 } ∧
    ∀ j : Fin 8,
      Ends (0x040 + BitVec.ofNat 12 j) { k with rgn := k.rgn.set j { k.rgn[j] with
        base := v.extractLsb' 5 27, en := v.getLsbD 3, x := v.getLsbD 2, w := v.getLsbD 1, r := v.getLsbD 0 } } ∧
      Ends (0x048 + BitVec.ofNat 12 j) { k with rgn := k.rgn.set j { k.rgn[j] with last := v.extractLsb' 5 27 } }) ∧
  (2 ≤ l → Level 0x020 k.fx .f (fun x => { k with fx := x })) ∧
  (l = 2 → k.bay = v.extractLsb' 0 3 → Ends 0x001 k) ∧
  (l = 2 → k.bay ≠ v.extractLsb' 0 3 → s.Untraced c → ∃ t, exec (.ctlw c 0x001 ra) s = .next t ∧
    s.Leaves { s with dbg := { s.dbg with vt := s.dbg.vt.set c {} } } t c { k with bay := v.extractLsb' 0 3, pc := k.pc + 1 })

/-- Exceptions of instructions (R175, R177): ECALL at U and S, ILLEGAL for an undefined word, ECALL at F and an unlisted control register,
PRIVILEGE for instructions and control registers that the level may not use, LOAD_ALIGN and STORE_ALIGN for addresses that are no multiple of
the size (R172), BREAK where no debugger may halt the core. Each enters F from F and for ECALL at S, else S, where no exception stands at
that level, and changes nothing but the core unit's exception registers, pc, level and reservation. -/
def Obligations.ExceptionEntry : Prop :=
  ∀ (c : Fin 6) (rd ra rb : BitVec 5) (i : BitVec 16) (n : BitVec 12) (s : State), s.Sealed → s.Issues c → s.Untraced c →
  let k := s.core c
  let a := s.greg c ra + i.signExtend 32
  let b := s.greg c ra
  let Enters := fun (o : Instr) (toF : Bool) (code : Nat) (addr : Word) =>
    (if toF then k.fx else k.sx).inexc = false → (k.level = .s → k.sx.inexc = false) →
    ∃ t, exec o s = .next t ∧ s.Retires t c (k.entered toF false code addr)
  let Raises := fun (o : Instr) (code : Nat) (addr : Word) => Enters o (k.level = .f) code addr
  (k.level = .u → Enters (.ecall c) false 0x09 0) ∧
  (k.level = .s → Enters (.ecall c) true 0x0A 0) ∧
  (k.level = .f → Enters (.ecall c) true 0x01 0xFC000000) ∧
  (∀ w : Word, decodeCore w = none → Raises (.illegalInstruction c w) 0x01 w) ∧
  (scrLevels n.toNat false = none → Raises (.ctlr c rd n) 0x01 (CoreOp.ctlr rd n).encode ∧ Raises (.ctlw c n ra) 0x01 (CoreOp.ctlw n ra).encode) ∧
  (∀ r w, scrLevels n.toNat false = some (r, w) →
    (k.level.rank < r → Raises (.ctlr c rd n) 0x02 (CoreOp.ctlr rd n).encode) ∧
    (k.level.rank < w → Raises (.ctlw c n ra) 0x02 (CoreOp.ctlw n ra).encode)) ∧
  (k.level = .u → Enters (.eret c) false 0x02 0xFC000001 ∧ Enters (.ifence c) false 0x02 0xFC000011 ∧ Enters (.rest c) false 0x02 0xFC000020) ∧
  (a.toNat % 2 ≠ 0 → Raises (.lh c rd ra i) 0x04 a ∧ Raises (.lhu c rd ra i) 0x04 a ∧ Raises (.sh c rd ra i) 0x05 a) ∧
  (a.toNat % 4 ≠ 0 → Raises (.lw c rd ra i) 0x04 a ∧ Raises (.ll c rd ra i) 0x04 a ∧ Raises (.sw c rd ra i) 0x05 a) ∧
  (b.toNat % 4 ≠ 0 → Raises (.sc c rd ra rb) 0x05 b) ∧
  (s.levelEnabled c false = false → Raises (.brk c) 0x0B 0)

/-- Entry at level X, F or S, by exception and by interrupt, and ERET (R177): EPC, CAUSE and ADDR of X are written, IEN goes to PIEN and is
cleared, the level left goes to PPL, INEXC is set, X is entered at its VEC, and nothing else changes but the LL reservation, which an entry
clears (R173). ERET enters the level in PPL, copies PIEN to IEN, clears INEXC and the LL reservation and goes on from EPC. -/
def Obligations.EntryAndReturn : Prop :=
  ∀ (c : Fin 6) (s : State), s.Sealed → s.Untraced c →
  let k := s.core c
  let Takes := fun (o : Instr) (k' : Core) => ∃ t, exec o s = .next t ∧ s.Retires t c k'
  let into := fun (x : ExcRegs) (intr : Bool) (code : BitVec 6) => { x with
    epc := k.pc, intr := intr, code := code, addr := 0, pien := x.ien, ien := false, ppl := k.level, inexc := true }
  (s.Issues c →
    (k.level = .u → k.sx.inexc = false →
      Takes (.ecall c) { k with level := .s, pc := k.sx.vec, resv := none, sx := into k.sx false 0x09 }) ∧
    (k.level = .s → k.sx.inexc = false → k.fx.inexc = false →
      Takes (.ecall c) { k with level := .f, pc := k.fx.vec, resv := none, fx := into k.fx false 0x0A }) ∧
    (k.level = .f → Takes (.eret c)
      { k with level := k.fx.ppl, pc := k.fx.epc, resv := none, fx := { k.fx with ien := k.fx.pien, inexc := false } }) ∧
    (k.level = .s → Takes (.eret c)
      { k with level := k.sx.ppl, pc := k.sx.epc, resv := none, sx := { k.sx with ien := k.sx.pien, inexc := false } })) ∧
  (s.follows c = false → s.coreRuns c = true → s.stands = false → k.waits = false → k.bound = false → s.haltWanted c = false → k.async = [] →
    (k.platform = true → (k.level = .f → k.fx.ien = true) →
      Takes (.interruptTake c true) { k with platform := false, level := .f, pc := k.fx.vec, resv := none, fx := into k.fx true 0x12 }) ∧
    (k.platform = false → (s.extPending c && k.ie.getLsbD 1) = false → k.ie.getLsbD 0 = true → k.timecmp ≤ k.cycle →
      k.level = .u ∨ (k.level = .s ∧ k.sx.ien = true) →
      Takes (.timerInterrupt c) { k with level := .s, pc := k.sx.vec, resv := none, sx := into k.sx true 0x10 }))

/-- Loads that hit the data cache, in a line without a parity error (R169, R172, R174, R190): the bytes of the line at the address, in
little-endian order, sign- or zero-extended; LL also reserves the line (R173), of working SRAM and LPDDR5X. At U the address lies in a region
that R allows (R168). -/
def Obligations.LoadsThatHit : Prop :=
  ∀ (c : Fin 6) (rd ra : BitVec 5) (i : BitVec 16) (s : State) (ln : CLine), s.Sealed → s.Issues c →
  let k := s.core c
  let a := (s.greg c ra + i.signExtend 32).toNat
  let p := s.place c a
  k.loaded = none → s.cached c a p = true → k.region Rgn.r a = true → k.hit p.key = some ln →
  (ln.bad || ln.badFollower && s.locked c) = false → p.key % 32 = a % 32 →
  let b := fun j => ln.data.getD (a % 32 + j) 0
  ln.data.length = 32 →
  let Ends := fun (o : Instr) (v : Word) =>
    ∃ t, exec o s = .next t ∧ s.Retires t c { k.setReg rd v with pc := k.pc + 1 }
  Ends (.lb c rd ra i) ((b 0).signExtend 32) ∧
  Ends (.lbu c rd ra i) ((b 0).setWidth 32) ∧
  (a % 2 = 0 → Ends (.lh c rd ra i) ((b 1 ++ b 0).signExtend 32) ∧ Ends (.lhu c rd ra i) ((b 1 ++ b 0).setWidth 32)) ∧
  (a % 4 = 0 → Ends (.lw c rd ra i) (b 3 ++ b 2 ++ b 1 ++ b 0) ∧
    ((∀ o, p ≠ .rom o) → ∃ t, exec (.ll c rd ra i) s = .next t ∧
      s.Retires t c { k.setReg rd (b 3 ++ b 2 ++ b 1 ++ b 0) with pc := k.pc + 1, resv := some (p.key / 32) }))

/-- Loads that read a memory (R141, R155, R157, R169, R172). A load first puts its request to the bus matrix, for a line of 32 bytes where
the data cache holds the address, else for its own bytes. While the request has no answer the core waits and no memory changes. One to boot
ROM or working SRAM that is granted in the same step ends at once; any other ends with the bytes of its answer, which the data cache then
holds where it asked for a line. An error response raises LOAD_ACCESS (R176). -/
def Obligations.LoadsFromMemory : Prop :=
  ∀ (c : Fin 6) (rd ra : BitVec 5) (i : BitVec 16) (s : State), s.Sealed → s.Issues c →
  let k := s.core c
  let w := s.greg c ra + i.signExtend 32
  let a := w.toNat
  let p := s.placeFor c .load a
  let line := s.cached c a p
  let size := fun (n : Nat) => if line then 32 else n
  let at_ := if line then p.key / 32 * 32 else p.key
  k.region Rgn.r a = true → k.hit p.key = none → (∀ r, p ≠ .reg r) →
  let Ended := fun (t : State) (v : Word) (more : Core → Core) (l : List Byte) =>
    ∃ d, t.core c = { more (k.setReg rd v) with pc := k.pc + 1, dcache := d, icache := (t.core c).icache, fetched := none, loaded := none } ∧
      (line = false → d = k.dcache) ∧ (line = true → ∃ x y, (t.core c).hit p.key = some { line := p.key / 32, data := l, bad := x, badFollower := y }) ∧
      (∀ d, d < 6 → d ∉ s.mates c → t.core d = s.core d)
  let q : Nat → BusReq := fun n =>
    { master := if c.val < 2 then 0 else c.val - 1, core := c.val, level := k.level, path := s.corePath c, target := p.target, addr := a, key := at_
      data := [], since := s.clk.now, ask := .load, read := size n }
  let Gives := fun (j : Instr) (n : Nat) (val : (Nat → Byte) → Word) (more : Core → Core) (l : List Byte) => ∃ t, exec j s = .next t ∧
    Ended t (val fun m => l.getD ((if line then p.key % 32 else 0) + m) 0) more l ∧ s.MemKept t ∧ t.regs = s.regs ∧
    t.bxm.reqs.length = s.bxm.reqs.length
  let One := fun (j : Instr) (n : Nat) (val : (Nat → Byte) → Word) (more : Core → Core) => a % n = 0 →
    let get := fun (l : List Byte) => val fun m => l.getD ((if line then p.key % 32 else 0) + m) 0
    (k.loaded = none → s.coreMay c p n false = true → s.grantsNow (q n) = false → ∃ t, exec j s = .next t ∧ t.bxm = (s.posting (q n)).bxm ∧
      t.core c = { k with icache := (t.core c).icache, loaded := some { ask := .load, addr := a, key := at_, n := size n, id := s.bxm.next } } ∧
      (∀ d, d < 6 → d ≠ c.val → t.core d = s.core d) ∧ s.MemKept t ∧ t.regs = s.regs) ∧
    (∀ o, p = .sram o → k.loaded = none → s.coreMay c p n false = true → s.grantsNow (q n) = true →
      Gives j n val more (readBytes zeroByte s.sram (at_ - 0x08000000) (size n))) ∧
    (∀ x, k.loaded = some x → x.ask = .load → x.addr = a → x.n = size n →
      (∀ l, x.ans = some (some l) → l.length = size n → ∃ t d, exec j s = .next t ∧
        s.Retires t c { more (k.setReg rd (get l)) with pc := k.pc + 1, dcache := d } ∧ Ended t (get l) more l) ∧
      (x.ans = some none → s.Untraced c → (k.exc (k.level = .f)).inexc = false →
        ∃ t, exec j s = .next t ∧ s.Retires t c (k.entered (k.level = .f) false 0x06 w)))
  let Plain := fun (j : Instr) (n : Nat) (val : (Nat → Byte) → Word) => One j n val id ∧
    (∀ o, p = .rom o → a % n = 0 → k.loaded = none → s.coreMay c p n false = true → s.grantsNow (q n) = true →
      Gives j n val id (readBytes zeroByte s.rom at_ (size n)))
  Plain (.lb c rd ra i) 1 (fun b => (b 0).signExtend 32) ∧ Plain (.lbu c rd ra i) 1 (fun b => (b 0).setWidth 32) ∧
  Plain (.lh c rd ra i) 2 (fun b => (b 1 ++ b 0).signExtend 32) ∧ Plain (.lhu c rd ra i) 2 (fun b => (b 1 ++ b 0).setWidth 32) ∧
  Plain (.lw c rd ra i) 4 (fun b => b 3 ++ b 2 ++ b 1 ++ b 0) ∧
  ((∃ o, p = .sram o ∨ p = .ddr o) →
    One (.ll c rd ra i) 4 (fun b => b 3 ++ b 2 ++ b 1 ++ b 0) fun k' => { k' with resv := some (p.key / 32) })

/-- Stores to memory that the core's bay may write (R157, R169, R171, R196): with fewer than four posted stores without a response, the store
goes to the bus matrix as a request with its address and bytes, and a cache line that holds the address takes them. No byte of any memory
changes while it waits there; one to working SRAM that is granted in the same step is written at once. Those of the platform pair to the
tightly coupled range (R159) write working SRAM without the bus matrix. At U the address lies in a region that W allows (R168). -/
def Obligations.StoresArePosted : Prop :=
  ∀ (c : Fin 6) (rs ra : BitVec 5) (i : BitVec 16) (s : State), s.Sealed → s.Issues c →
  let k := s.core c
  let a := (s.greg c ra + i.signExtend 32).toNat
  let p := s.place c a
  let v := s.greg c rs
  k.loaded = none → k.region Rgn.w a = true → (∀ r, p ≠ .reg r) →
  let Ends : Instr → List Byte → Prop := fun o l => a % l.length = 0 → s.coreMay c p l.length true = true →
    let q : BusReq := { master := if c.val < 2 then 0 else c.val - 1, core := c.val, level := k.level, target := p.target, addr := a,
                        key := p.key, data := l, since := s.clk.now }
    let k' := { k with pc := k.pc + 1, dcache := k.dcache.map fun x =>
      if x.line = p.key / 32 then { x with data := x.data.take (p.key % 32) ++ l ++ x.data.drop (p.key % 32 + l.length) } else x }
    (s.tcm c a = false → s.posted c < 4 → s.grantsNow q = false → ∃ t, exec o s = .next t ∧ s.Leaves (s.posting q) t c k') ∧
    (s.tcm c a = false → s.posted c < 4 → s.grantsNow q = true → ∀ m, p = .sram m → ∃ t, exec o s = .next t ∧
      t.sram = writeBytes zeroByte l m s.sram ∧ t.core c = { k' with icache := (t.core c).icache, fetched := none } ∧
      (∀ d, d < 6 → d ∉ s.mates c → (t.core d).resv ≠ some (p.key / 32) ∧ (t.core d).g = (s.core d).g ∧ (t.core d).pc = (s.core d).pc) ∧
      t.bxm.reqs.length = s.bxm.reqs.length ∧ t.rom = s.rom ∧ t.bkf = s.bkf ∧ t.ddr = s.ddr ∧ t.flash = s.flash ∧ t.regs = s.regs) ∧
    (s.tcm c a = true → ∃ t, exec o s = .next t ∧ t.sram = writeBytes zeroByte l a s.sram ∧
      t.core c = { k' with icache := (t.core c).icache, fetched := none } ∧
      t.bxm = s.bxm ∧ t.rom = s.rom ∧ t.bkf = s.bkf ∧ t.ddr = s.ddr ∧ t.flash = s.flash ∧ t.regs = s.regs)
  Ends (.sb c rs ra i) [v.extractLsb' 0 8] ∧
  Ends (.sh c rs ra i) [v.extractLsb' 0 8, v.extractLsb' 8 8] ∧
  Ends (.sw c rs ra i) [v.extractLsb' 0 8, v.extractLsb' 8 8, v.extractLsb' 16 8, v.extractLsb' 24 8]

/-- SC without a reservation stores nothing and writes 0. SC with one puts its request to the bus matrix (R173): to working SRAM, where it is
granted in the same step and the reservation is of its line, it stores its word, writes 1 and leaves no other core a reservation of that
line; elsewhere it waits, and then writes 1 or 0 as the answer says whether the word was stored. Each that ends clears the core's own
reservation. -/
def Obligations.StoreConditional : Prop :=
  ∀ (c : Fin 6) (rd ra rb : BitVec 5) (s : State), s.Sealed → s.Issues c →
  let k := s.core c
  let a := s.greg c ra
  let p := s.placeFor c .sc a.toNat
  let l := natLe 4 (s.greg c rb).toNat
  let q : BusReq := { master := if c.val < 2 then 0 else c.val - 1, core := c.val, level := k.level, path := s.corePath c, target := p.target
                      addr := a.toNat, key := p.key, data := l, since := s.clk.now, ask := .sc }
  let stored := k.dcache.map fun x =>
    if x.line = p.key / 32 then { x with data := x.data.take (p.key % 32) ++ l ++ x.data.drop (p.key % 32 + 4) } else x
  a.toNat % 4 = 0 → k.region Rgn.w a.toNat = true → (∃ o, p = .sram o ∨ p = .ddr o) →
  (k.resv = none → k.loaded = none → ∃ t, exec (.sc c rd ra rb) s = .next t ∧ s.Retires t c { k.setReg rd 0 with pc := k.pc + 1 }) ∧
  (k.resv ≠ none → k.loaded = none → s.coreMay c p 4 true = true → s.grantsNow q = false →
    ∃ t, exec (.sc c rd ra rb) s = .next t ∧ t.bxm = (s.posting q).bxm ∧
      t.core c = { k with icache := (t.core c).icache, loaded := some { ask := .sc, addr := a.toNat, key := p.key, n := 4, id := s.bxm.next } } ∧
      s.MemKept t) ∧
  (∀ o, p = .sram o → k.loaded = none → s.coreMay c p 4 true = true → s.grantsNow q = true →
    (k.resv = some (p.key / 32) → ∃ t, exec (.sc c rd ra rb) s = .next t ∧ t.sram = writeBytes zeroByte l o s.sram ∧
      t.core c = { k.setReg rd 1 with pc := k.pc + 1, resv := none, dcache := stored, icache := (t.core c).icache, fetched := none } ∧
      (∀ d, d < 6 → d ∉ s.mates c → (t.core d).resv ≠ some (p.key / 32) ∧ (t.core d).g = (s.core d).g ∧ (t.core d).pc = (s.core d).pc) ∧
      t.bkf = s.bkf ∧ t.ddr = s.ddr ∧ t.rom = s.rom ∧ t.flash = s.flash) ∧
    (k.resv ≠ some (p.key / 32) → k.resv ≠ none → ∃ t, exec (.sc c rd ra rb) s = .next t ∧ s.MemKept t ∧
      t.core c = { k.setReg rd 0 with pc := k.pc + 1, resv := none, icache := (t.core c).icache, fetched := none })) ∧
  (∀ x, k.loaded = some x → x.ask = .sc → x.addr = a.toNat → x.n = 4 →
    (∀ done : Bool, x.ans = some (some [if done then 1 else 0]) → ∃ t, exec (.sc c rd ra rb) s = .next t ∧
      s.Retires t c { k.setReg rd (if done then 1 else 0) with
        pc := k.pc + 1, resv := none, dcache := if done then stored else k.dcache }) ∧
    (x.ans = some none → s.Untraced c → (k.exc (k.level = .f)).inexc = false → ∃ t, exec (.sc c rd ra rb) s = .next t ∧
      s.Retires t c (k.entered (k.level = .f) false 0x07 a)))

/-- FENCE goes on once the core has no access on its way, and until then waits at its pc (R171); IFENCE empties the instruction cache and DINV drops the data cache line of its address (R170); REST stops the unit in
state 0b10 with nothing of it on its way, waits at its pc while it has an access on its way, and with PLATFORM pending or an interrupt
that it would take is a NOP (R186, R187). BRK halts the core unit at an enabled debug level, where no stop group is set to its halt (R507,
R508): state 0b11, cause BRK, the level shown, and DBG_PC at the instruction after it; general registers and memory stay. -/
def Obligations.FencesRestAndBreak : Prop :=
  ∀ (c : Fin 6) (ra : BitVec 5) (s : State), s.Sealed → s.Ready c → s.Untraced c →
  let k := s.core c
  let Waits := fun (j : Instr) => s.busy c = true → ∃ t, exec j s = .next t ∧ t.core c = { k with icache := (t.core c).icache } ∧
    (∀ d, d < 6 → d ≠ c.val → t.core d = s.core d) ∧ t.bxm = s.bxm ∧ s.MemKept t ∧ t.regs = s.regs
  Waits (.fence c) ∧
  (s.irq c = none → s.busy c = false → ∃ t, exec (.fence c) s = .next t ∧ s.Retires t c { k with pc := k.pc + 1 }) ∧
  (s.irq c = none → k.level ≠ .u → ∃ t, exec (.ifence c) s = .next t ∧ s.Retires t c { k with pc := k.pc + 1 } ∧ (t.core c).icache = []) ∧
  (s.irq c = none → ∃ t, exec (.dinv c ra) s = .next t ∧
    s.Retires t c { k with pc := k.pc + 1, dcache := k.dcache.filter fun x => x.line ≠ (s.place c (s.greg c ra).toNat).key / 32 }) ∧
  (k.level ≠ .u → k.platform = true ∨ s.irq c ≠ none → ∃ t, exec (.rest c) s = .next t ∧ s.Retires t c { k with pc := k.pc + 1 }) ∧
  (k.level ≠ .u → k.platform = false → s.irq c = none → Waits (.rest c) ∧
    (s.busy c = false → ∃ t, exec (.rest c) s = .next t ∧ t.busy c = false ∧
      t.core c = { k with pc := k.pc + 1, icache := (t.core c).icache, fetched := none, loaded := none } ∧ s.MemKept t ∧
      (∀ d, d ∈ s.mates c → t.get (Fd.SYS_CORECTL_STATE d) = 2) ∧ s.RegsBut t ((s.mates c).map Reg.SYS_CORECTL))) ∧
  (s.irq c = none → s.levelEnabled c false = true → (∀ m, s.groupsOn 0 m = 0) → ∃ t, exec (.brk c) s = .next t ∧
    (∀ d, d ∈ s.mates c → t.get (Fd.SYS_CORECTL_STATE d) = 3 ∧ t.get (Fd.DBG_STAT_HALTED d) = 1 ∧ t.get (Fd.DBG_STAT_CAUSE d) = 3 ∧
      t.get (Fd.DBG_STAT_LEVEL d) = k.level.code ∧ t.reg (Reg.DBG_PC d) = 4 * k.pc.setWidth 32 + 4) ∧
    (t.core c).g = k.g ∧ s.MemKept t)

/-- An instruction given to the higher core of a locked pair is the pair's (R163, R164): it does what the same instruction of the lower core
does. Stated for one instruction of each shape. -/
def Obligations.FollowerActsAsUnit : Prop :=
  ∀ (c l : Fin 6) (rd ra rb : BitVec 5) (i : BitVec 16) (off : BitVec 26) (n : BitVec 12) (w : Word) (s : State),
  s.follows c = true → l.val + 1 = c.val →
  exec (.add c rd ra rb) s = exec (.add l rd ra rb) s ∧ exec (.addi c rd ra i) s = exec (.addi l rd ra i) s ∧
  exec (.lui c rd i) s = exec (.lui l rd i) s ∧ exec (.lw c rd ra i) s = exec (.lw l rd ra i) s ∧
  exec (.sw c rd ra i) s = exec (.sw l rd ra i) s ∧ exec (.sc c rd ra rb) s = exec (.sc l rd ra rb) s ∧
  exec (.beq c ra rb i) s = exec (.beq l ra rb i) s ∧ exec (.j c off) s = exec (.j l off) s ∧
  exec (.jalr c rd ra i) s = exec (.jalr l rd ra i) s ∧ exec (.ctlr c rd n) s = exec (.ctlr l rd n) s ∧
  exec (.ctlw c n ra) s = exec (.ctlw l n ra) s ∧ exec (.ecall c) s = exec (.ecall l) s ∧ exec (.eret c) s = exec (.eret l) s ∧
  exec (.fence c) s = exec (.fence l) s ∧ exec (.rest c) s = exec (.rest l) s ∧ exec (.brk c) s = exec (.brk l) s ∧
  (decodeCore w = none → exec (.illegalInstruction c w) s = exec (.illegalInstruction l w) s)

/-- Interrupts and reports at a boundary (R175 to R180): a STORE_ASYNC report that the core can take comes first, one of a store issued at F at
F, another at S; PLATFORM goes to F and clears; EXTERNAL goes to F on the platform pair and to S on bay cores; TIMER goes to S. Each is entered with the pc as the next instruction,
and nothing but the core unit changes. -/
def Obligations.InterruptsAndReports : Prop :=
  ∀ (c : Fin 6) (s : State), s.Sealed → s.follows c = false → s.coreRuns c = true → s.stands = false → (s.core c).waits = false → (s.core c).bound = false →
  s.Untraced c → s.haltWanted c = false →
  let k := s.core c
  let Takes := fun (o : Instr) (k' : Core) => ∃ t, exec o s = .next t ∧ s.Retires t c k'
  (∀ lv ad rest, k.async = (lv, ad) :: rest →
    (lv ≠ .f → k.level ≠ .f → k.sx.inexc = false → Takes (.storeAsync c) ({ k with async := rest }.entered false false 0x08 ad)) ∧
    (lv = .f → k.fx.inexc = false → Takes (.storeAsync c) ({ k with async := rest }.entered true false 0x08 ad))) ∧
  (k.async = [] → k.platform = true → (k.level = .f → k.fx.ien = true) →
    Takes (.interruptTake c true) ({ k with platform := false }.entered true true 0x12 0)) ∧
  (k.async = [] → k.platform = false → s.extPending c = true → k.ie.getLsbD 1 = true →
    (c.val < 2 → k.level = .f → k.fx.ien = true → Takes (.interruptTake c false) (k.entered true true 0x11 0)) ∧
    (2 ≤ c.val → k.level = .u ∨ (k.level = .s ∧ k.sx.ien = true) → Takes (.interruptTake c false) (k.entered false true 0x11 0))) ∧
  (k.async = [] → k.platform = false → (s.extPending c && k.ie.getLsbD 1) = false → k.ie.getLsbD 0 = true → k.timecmp ≤ k.cycle →
    k.level = .u ∨ (k.level = .s ∧ k.sx.ien = true) → Takes (.timerInterrupt c) (k.entered false true 0x10 0))

/-- Cores and slices (R161, R163, R175, R187, R199, R200, R512): RUN releases a bay core at level F and pc 0, or a pair that LOCK locks, and
holds them in reset; a resting core wakes into PLATFORM or the interrupt it would take. A slice switch first raises PLATFORM while the monitor
cannot take it; else it saves the bay that was served and serves the slice's bay with its saved registers, with caches, reservation and
PLATFORM cleared; a unit rests in sixteenths of no bay and goes on after them; a halted one loses its slice. -/
def Obligations.CoresRunAndSwitch : Prop :=
  ∀ (c : Fin 6) (s : State), s.Sealed → s.stands = false → s.follows c = false → s.Untraced c →
  let k := s.core c
  let own := (s.mates c).map Reg.SYS_CORECTL ++ (s.mates c).map Reg.DBG_STAT
  let Others := fun (t : State) => (∀ d, d < 6 → d ∉ s.mates c → t.core d = s.core d) ∧ s.MemKept t ∧ t.fig = s.fig ∧ t.mbx = s.mbx
  (2 ≤ c.val → s.domOn (c + 2) = true → (∀ d : Nat, d < 6 → d / 2 = c.val / 2 → s.coreState d = 0) → s.bit (Fd.DBG_CTL_HALT_ON_RESET c) = false →
    (s.src c).ctxLost = false → s.bit (if c.val < 4 then Fd.SYS_PAIR_LOCK23 else Fd.SYS_PAIR_LOCK45) = false →
    ∃ t, exec (.coreRunControl c true) s = .next t ∧ t.coreState c = 1 ∧ t.bit (Fd.SYS_CORECTL_RUN c) = true ∧ t.core c = {} ∧ t.locked c = false ∧
      (∀ d : Nat, d < 6 → d ≠ c.val → t.core d = s.core d) ∧ s.RegsBut t [Reg.SYS_CORECTL c, Reg.DBG_STAT c] ∧ s.MemKept t) ∧
  (c.val = 2 ∨ c.val = 4 → s.domOn (c + 2) = true → (∀ d : Nat, d < 6 → d / 2 = c.val / 2 → s.coreState d = 0) →
    s.bit (Fd.DBG_CTL_HALT_ON_RESET c) = false → (s.src c).ctxLost = false →
    s.bit (if c.val < 4 then Fd.SYS_PAIR_LOCK23 else Fd.SYS_PAIR_LOCK45) = true →
    ∃ t, exec (.coreRunControl c true) s = .next t ∧ t.coreState c = 1 ∧ t.coreState (c + 1) = 1 ∧ t.core c = {} ∧ t.core (c + 1) = {} ∧
      t.locked c = true ∧ s.MemKept t) ∧
  (2 ≤ c.val → s.domOn (c + 2) = true → ∃ t, exec (.coreRunControl c false) s = .next t ∧ t.bit (Fd.SYS_CORECTL_RUN c) = false ∧
    (∀ d, d ∈ s.mates c → t.coreState d = 0 ∧ t.core d = {}) ∧ Others t ∧ s.RegsBut t own) ∧
  (∀ code, s.coreState c = 2 → k.idle = .no → k.asyncAt = none → (k.platform = true ∧ code = 0x12 ∨ k.platform = false ∧ s.irq c = some code) →
    s.haltWanted c = false →
    let k' : Core := if code = 0x12 then { k with platform := false } else k
    ∃ t, exec (.coreWake c) s = .next t ∧
      (∀ d, d ∈ s.mates c → t.coreState d = 1 ∧ t.core d =
        { k'.entered (code = 0x12 || (code = 0x11 && c.val < 2)) true code 0 with fetched := none, loaded := none }) ∧
      Others t ∧ s.RegsBut t ((s.mates c).map Reg.SYS_CORECTL)) ∧
  (2 ≤ c.val → ∀ b, s.sliceBay c = b →
    let serves := (s.servedBays c).length
    let moves := 2 ≤ serves ∧ b ≠ k.bay.toNat
    let Acts := s.platformOpen c = true ∧ s.Drained c ∧ k.waits = false ∧ s.haltWanted c = false
    (moves → b ≠ 0 → s.coreState c = 1 ∨ s.coreState c = 2 → Acts →
      let x := (s.bayRec b).ctx.getD (freshCtx (s.bayRec b).entry (s.bayRec b).reason)
      ∃ t, exec (.sliceSwitch c) s = .next t ∧
        (∀ d, d ∈ s.mates c → t.coreState d = 1 ∧ (t.core d).bay.toNat = b ∧ (∀ i, i < 32 → vget (t.core d).g i = x.g.getD i 0) ∧
          (t.core d).pc = x.pc ∧ (t.core d).level = x.level ∧ (t.core d).sx = x.sx ∧ (t.core d).ie = x.ie ∧ (t.core d).timecmp = x.timecmp ∧
          (∀ i, i < 8 → vget (t.core d).rgn i = x.rgn.getD i {}) ∧ (t.core d).async = x.async ∧ (t.core d).icache = [] ∧
          (t.core d).dcache = [] ∧ (t.core d).resv = none ∧ (t.core d).platform = false) ∧
        (k.bay ≠ 0 → (t.bayRec k.bay.toNat).ctx = some k.context) ∧ Others t ∧ s.RegsBut t ((s.mates c).map Reg.SYS_CORECTL)) ∧
    (1 ≤ serves → b = 0 → (moves ∨ k.idle = .no) → s.coreState c = 1 → Acts →
      ∃ t, exec (.sliceSwitch c) s = .next t ∧ (∀ d, d ∈ s.mates c → t.coreState d = 2 ∧ (t.core d).idle = .ran ∧ (t.core d).platform = false) ∧
        (∀ d, d ∈ s.mates c → (t.core d).g = (s.core d).g ∧ (t.core d).pc = (s.core d).pc) ∧ Others t) ∧
    (1 ≤ serves → ¬ moves → b ≠ 0 → k.idle = .ran → s.coreState c = 2 → s.haltWanted c = false →
      ∃ t, exec (.sliceSwitch c) s = .next t ∧ (∀ d, d ∈ s.mates c → t.coreState d = 1 ∧ (t.core d).pc = (s.core d).pc) ∧ Others t) ∧
    (moves → s.coreState c = 1 → s.platformOpen c = false →
      ∃ t, exec (.sliceSwitch c) s = .next t ∧ (∀ d, d ∈ s.mates c → t.core d = { s.core d with platform := true }) ∧ Others t ∧ s.RegsBut t []) ∧
    (moves → s.coreState c = 3 →
      ∃ t, exec (.sliceSwitch c) s = .next t ∧ t.get (Fd.DBG_STAT_SLICES_LOST c) = min 255 (s.get (Fd.DBG_STAT_SLICES_LOST c) + 1) ∧
        s.OnlyRegs t ∧ s.RegsBut t [Reg.DBG_STAT c]))

/-- Platform faults (R160, R165, R494 to R498): a mismatch of the platform pair and a missed watchdog deadline reset the pair alone, which
starts at F and pc 0 with the mailbox not ready; the fourth such reset within 10 s is a system reset with cause 3; a mismatch of a bay pair
under STOP makes its bay FAULTED and holds the pair, or lets it rest for another bay that shares it; the key kicks the watchdog; SWAP sets; new bits of SYS_FLTSUM are reported once. -/
def Obligations.PlatformFaults : Prop :=
  ∀ (s : State) (v : Word), s.Sealed → s.stands = false → s.Untraced 0 → s.bit (Fd.DBG_CTL_HALT_ON_RESET 0) = false → (s.src 0).ctxLost = false →
  let few := (s.fw.pairResets.filter fun t => s.ns - t < 10000000000).length < 3
  let count := fun (t : State) (i : Nat) => vget (t.bayRec 0).counters i
  let next := fun (i : Nat) => min (2 ^ 32 - 1) (count s i + 1)
  let PairReset := fun (i : Instr) (also : State → Prop) => ∃ t, exec i s = .next t ∧ t.core 0 = {} ∧ t.core 1 = {} ∧ t.coreState 0 = 1 ∧
    t.coreState 1 = 1 ∧ t.ready rMBX = false ∧ t.bit Fd.SYS_FLTSUM_PLATFORM = true ∧ count t 4 = next 4 ∧ t.fw.kick = s.runNs ∧
    (∀ d, 2 ≤ d → d < 6 → t.core d = s.core d ∧ t.coreState d = s.coreState d) ∧ t.fig = s.fig ∧ t.mbx = s.mbx ∧ t.keys = s.keys ∧
    t.fw.sched = s.fw.sched ∧ s.MemKept t ∧ s.RegsKept t [0x4000, 0x4002, 0x4060] ∧ also t
  let Escalates := fun (i : Instr) => ∃ t, exec i s = .next t ∧ t.get Fd.PWR_RSTCAUSE_CAUSE = 3 ∧ t.bit Fd.SYS_FLTSUM_ESCALATED = true ∧
    t.fig = {} ∧ t.mbx = {} ∧ t.cores = Vector.replicate 6 {} ∧ t.rom = s.rom ∧ t.flash = s.flash ∧ t.otp = s.otp
  let counted := fun (t : State) => t.get Fd.SYS_PAIR_RESETS_01 = min 255 (s.get Fd.SYS_PAIR_RESETS_01 + 1)
  let missed := fun (t : State) => t.bit Fd.SYS_FLTSUM_WATCHDOG = true ∧ count t 5 = next 5
  let due := s.coreState 0 ≠ 3 ∧ s.fw.kick + s.get Fd.SYS_WDOGCFG_WDOG_MS * 1000000 ≤ s.runNs
  (few → s.coreState 0 ≠ 0 → PairReset (.lockstepMismatch 0) fun t => counted t ∧ t.bit Fd.SYS_PAIR_MISMATCH_01 = true) ∧
  (few → PairReset .platformPairReset counted) ∧
  (few → due → PairReset .watchdogExpiry missed) ∧
  (few → v ≠ 0x00C0FFEE → PairReset (.watchdogKick v) missed) ∧
  (¬few → Escalates .platformPairReset ∧ (due → Escalates .watchdogExpiry)) ∧
  (∃ t, exec (.watchdogKick 0x00C0FFEE) s = .next t ∧ t = { s with out := [], fw := { s.fw with kick := s.runNs } }) ∧
  (∃ t, exec .sysRemapSwap s = .next t ∧ t.bit Fd.SYS_REMAP_SWAP = true ∧ s.OnlyRegs t ∧ s.RegsBut t [Reg.SYS_REMAP]) ∧
  (∀ b, s.lock23 = true → s.coreState 2 ≠ 0 → (∀ d, d < 6 → s.coreState d ≠ 3) → (s.core 2).bay.toNat = b → b ≠ 0 → s.bayState b = bRUNNING → (s.reg Reg.SYS_BAYPOL).getLsbD b = false →
    ∃ t, exec (.lockstepMismatch 1) s = .next t ∧ t.coreState 2 = (if s.unitShared b then 2 else 0) ∧
      t.coreState 3 = (if s.unitShared b then 2 else 0) ∧ t.bit Fd.SYS_PAIR_MISMATCH_23 = true ∧
      t.bayState b = bFAULTED ∧ t.ready (rBAY b) = false ∧ t.bit Fd.SYS_FLTSUM_BAY = true ∧ t.core 0 = s.core 0 ∧ t.core 1 = s.core 1 ∧
      s.MemKept t) ∧
  (let new := s.reg Reg.SYS_FLTSUM &&& ~~~ s.fw.fltSeen
    ∃ t, exec .faultSummaryReport s = .next t ∧ t.fw.fltSeen = s.reg Reg.SYS_FLTSUM ∧ t.regs = s.regs ∧
      ((t.ring 0).evtSeq = if new = 0 then (s.ring 0).evtSeq else (s.ring 0).evtSeq + 1) ∧
      (new ≠ 0 → s.ready rMBX = true → ((s.ring 0).evtPi - (s.ring 0).evtCi).toNat < 64 →
        (readBytes zeroByte (t.ring 0).mem (0x1000 + 32 * ((s.ring 0).evtPi.toNat % 64)) 2 = natLe 2 0x03C2 ∧
         readBytes zeroByte (t.ring 0).mem (0x1010 + 32 * ((s.ring 0).evtPi.toNat % 64)) 2 = natLe 2 (s.reg Reg.SYS_FLTSUM).toNat)))

/-! ### Start-up, resets, clocks and power (01, 20) -/

/-- Power-on reset, also by a supply monitor (R465, R466, R467, R542): every register outside the debug domain takes its reset value but those
that show the straps, which are sampled, the sensed VDDIO_AON and the live levels of the fault inputs (R389); debug registers, boot ROM, flash and OTP stay; cores, figures, mailboxes,
firmware and device time start anew, and t restarts at 0. -/
def Obligations.PowerOnReset : Prop :=
  ∀ (s : State) (osc boot : BitVec 2) (snp : Bool), s.Sealed →
  let Starts := fun (i : Instr) (volt : Option Nat) => ∃ t, exec i s = .next t ∧
    (∀ a, a / 65536 ∉ dbgBlocks → a ∉ [Reg.SYS_STRAP, Reg.SYS_CLKSTAT, Reg.SNP_STAT, Reg.PWM_FLTSTAT] → t.reg a = regReset a) ∧
    (∀ a, a / 65536 ∈ dbgBlocks → t.reg a = s.reg a) ∧ t.reg Reg.PWM_FLTSTAT = s.reg Reg.PWM_FLTSTAT &&& 3 ∧
    t.get Fd.SYS_STRAP_OSC_SEL = osc.toNat ∧ t.get Fd.SYS_STRAP_BOOT_SEL = boot.toNat ∧ t.bit Fd.SYS_STRAP_SNP_SYNC = snp ∧
    t.get Fd.SYS_CLKSTAT_OSC_SEL = osc.toNat ∧ (∀ v, volt = some v → t.get Fd.SYS_STRAP_VDDIO_AON_V = v) ∧
    t.get Fd.SYS_CLKSTAT_LOCK_COUNT = 0 ∧ t.bit Fd.SYS_CLKSTAT_MDLL_LOCK = false ∧
    t.cores = Vector.replicate 6 {} ∧ t.fig = {} ∧ t.mbx = {} ∧ t.fw = {} ∧ t.keys = {} ∧ t.vid = {} ∧ t.tme.t = 0 ∧
    t.clk.ka = s.clk.ka ∧ t.tline = 0 ∧ t.rom = s.rom ∧ t.flash = s.flash ∧ t.otp = s.otp ∧ t.pending = s.pending
  Starts (.powerOnReset osc boot snp .v18) (some 0x12) ∧ Starts (.powerOnReset osc boot snp .v33) (some 0x21) ∧
  Starts (.powerOnReset osc boot snp .outside) none ∧ Starts (.supplyMonitorTrip false osc boot snp .v18) (some 0x12) ∧
  Starts (.supplyMonitorTrip false osc boot snp .v33) (some 0x21) ∧ Starts (.supplyMonitorTrip false osc boot snp .outside) none

/-- System resets keep the straps and the live levels of the fault inputs (R389) and record their cause (R465, R467, R471): SYS_RST_N 1, PWR_RESET.SYSTEM 2, whose timeline starts 10 µs
later. Debug reset, also by a debug rail, resets the debug domain and the TAP, resumes halted cores and leaves everything else (R465, R506,
R542); the watchdog restarts with a platform pair that was halted (R512). -/
def Obligations.SystemAndDebugReset : Prop :=
  ∀ (s : State) (osc boot : BitVec 2) (snp : Bool) (v : Sensed), s.Sealed →
  let Resets := fun (i : Instr) (cause delay : Nat) => ∃ t, exec i s = .next t ∧
    (∀ a, a / 65536 ∉ dbgBlocks → a ∉ [Reg.SYS_STRAP, Reg.SYS_CLKSTAT, Reg.SNP_STAT, Reg.PWR_RSTCAUSE, Reg.PWM_FLTSTAT] → t.reg a = regReset a) ∧
    (∀ a, a / 65536 ∈ dbgBlocks → t.reg a = s.reg a) ∧ t.reg Reg.PWM_FLTSTAT = s.reg Reg.PWM_FLTSTAT &&& 3 ∧
    t.get Fd.SYS_STRAP_OSC_SEL = s.get Fd.SYS_STRAP_OSC_SEL ∧ t.get Fd.SYS_STRAP_BOOT_SEL = s.get Fd.SYS_STRAP_BOOT_SEL ∧
    t.get Fd.SYS_STRAP_SNP_SYNC = s.get Fd.SYS_STRAP_SNP_SYNC ∧ t.get Fd.SYS_STRAP_VDDIO_AON_V = s.get Fd.SYS_STRAP_VDDIO_AON_V ∧
    t.get Fd.PWR_RSTCAUSE_CAUSE = cause ∧ t.clk.timeline = s.clk.ka + delay ∧
    t.cores = Vector.replicate 6 {} ∧ t.fig = {} ∧ t.mbx = {} ∧ t.fw = {} ∧ t.rom = s.rom ∧ t.flash = s.flash ∧ t.otp = s.otp
  let Debug := fun (i : Instr) => ∃ t, exec i s = .next t ∧
    (∀ a, a / 65536 ∈ dbgBlocks → t.reg a = regReset a) ∧ s.RegsKept t (0x4000 :: dbgBlocks) ∧ t.dbg = {} ∧ s.MemKept t ∧
    t.fig = s.fig ∧ t.mbx = s.mbx ∧ t.fw = { s.fw with kick := if s.coreState 0 = 3 then s.runNs else s.fw.kick } ∧
    ∀ c, c < 6 → (t.core c).g = (s.core c).g ∧
      if s.coreState c = 3 then t.coreState c = 1 ∧ (t.core c).pc = (s.reg (Reg.DBG_PC c)).extractLsb' 2 30
      else t.coreState c = s.coreState c ∧ (t.core c).pc = (s.core c).pc
  Resets .systemReset 1 0 ∧ (s.stands = false → Resets .pwrResetSystem 2 10000) ∧ Debug .debugReset ∧ Debug (.supplyMonitorTrip true osc boot snp v)

/-- Static reset and its recovery (R465, R468, R563), where no seal chain runs: every register of the static domain takes its reset value and
its functions are not ready; figure, video, audio, network, junction and seal state is that of reset, and no commit, route or layer change is
scheduled any more; requests at the bank port and the DDR port get an error response (model choice, log entry 61); the cores' other state, bay
states, memories, mailboxes and keys stay. The recovery writes the board record and then the recorded grant
registers again, makes FGE, VID, AUD, NET, JNC and SEAL ready, and posts STATIC_RESET to bay 0, the PF and every bay that is not EMPTY. -/
def Obligations.StaticResetAndRecovery : Prop :=
  ∀ (s : State), s.Sealed → s.stands = false →
  ((∀ i, i < 4 → (vget s.seals i).active = false) → ∃ t, exec .pwrResetStatic s = .next t ∧
    (∀ a, a / 65536 ∈ staticBlocks → t.reg a = regReset a) ∧ s.RegsKept t (0x4002 :: staticBlocks) ∧
    (∀ r, r ∈ [rDDR, rFGE, rVID, rAUD, rNET, rJNC, rSEAL] → t.ready r = false) ∧
    (∀ r, r < 64 → r ∉ [rDDR, rFGE, rVID, rAUD, rNET, rJNC, rSEAL] → t.ready r = s.ready r) ∧
    t.fig = {} ∧ t.vid = {} ∧ t.aud = {} ∧ t.net = {} ∧ t.jnc = {} ∧ t.seals = Vector.replicate 4 {} ∧ t.ddrCtl = {} ∧
    t.field.head = none ∧ t.field.wb = [] ∧ s.MemKept t ∧ (s.portReqs = [] → t.cores = s.cores) ∧
    (∀ c, c < 6 → t.core c = { s.core c with fetched := (t.core c).fetched, loaded := (t.core c).loaded, async := (t.core c).async }) ∧
    (∀ q ∈ s.portReqs, q.core < 6 → (q.ask = .store → (t.core q.core).async.contains (q.level, BitVec.ofNat 32 q.addr)) ∧
      (∀ w, q.ask = .load → (s.core q.core).loaded = some w → w.id = q.id → (t.core q.core).loaded = some { w with ans := some none }) ∧
      ∀ w, q.ask = .fetch → (s.core q.core).fetched = some w → w.id = q.id → (t.core q.core).fetched = some { w with ans := some none }) ∧
   
    t.mbx = s.mbx ∧ t.keys = s.keys ∧ t.fw.bays = s.fw.bays ∧
    (∀ e, e ∈ t.fw.sched ↔ e ∈ s.fw.sched ∧ (∀ b, e.eff ≠ .commit b) ∧ (∀ d r, e.eff ≠ .routeSet d r) ∧ ∀ d i, e.eff ≠ .layerCommit d i) ∧
    t.fw.staticDue = true) ∧
  (s.fw.staticDue = true → (∀ e ∈ s.fw.board, boardMay e.1 = true) → (∀ p ∈ s.fw.saved, p.1 / 65536 ∈ staticBlocks) →
    (s.fw.saved.map (·.1)).Nodup → ∃ t, exec .staticResetRecovery s = .next t ∧
    (∀ r, r ∈ [rFGE, rVID, rAUD, rNET, rJNC, rSEAL] → t.ready r = true) ∧ t.fw.staticDue = false ∧ t.fw.saved = [] ∧ t.fw.lostPart = [] ∧
    (∀ p ∈ s.fw.saved, t.reg p.1 = p.2 &&& regMask p.1) ∧
    (∀ a, a / 65536 ≠ 0x4002 → (∀ p ∈ s.fw.saved, p.1 ≠ a) → t.reg a = (s.writeBoard s.fw.board).reg a &&& regMask a) ∧
    let x := s.writeBoard s.fw.board
    (∀ b, b < 8 → (t.ring b).evtSeq = (x.ring b).evtSeq + if b = 0 ∨ s.bayState b ≠ bEMPTY then 1 else 0) ∧
    (t.ring 8).evtSeq = (x.ring 8).evtSeq + 1 ∧ t.fig = x.fig ∧ t.cores = s.cores ∧ s.MemKept t)

/-- The clock root and the readiness timer (R20 to R23, R469, R472): the MDLL declares lock once 1,024 OSC_IN cycles have kept the phase error
within ±1/64 of a root period, and never with OSC_SEL 0b11; the divider chain starts a beat, sets CLK and, at the first start, gives SC0/SC1
their release and device time 0, while after a gap device time goes on; a phase error beyond ±1/16 of a root period, or two OSC_IN periods
without an edge, lose lock, which counts, reports a clock fault, clears CLK alone and sets the next beat boundary for the gating of the clocks;
0.5 ms and 2 ms into the timeline AON and ODO, then PLB set once CLK has. -/
def Obligations.ClockRoot : Prop :=
  ∀ (s : State) (errs : List Int) (err : Int) (late : Nat), s.Sealed →
  let locked := s.bit Fd.SYS_CLKSTAT_MDLL_LOCK
  let aligned := s.bit Fd.SYS_CLKSTAT_BEAT_ALIGNED
  let osc := 40 / 2 ^ s.get Fd.SYS_CLKSTAT_OSC_SEL
  let acquired := 1024 ≤ errs.length ∧ s.clk.mdllFrom + 1024 * osc ≤ s.clk.ka ∧ ∀ i, i < 1024 → -16 ≤ errs.getD i 0 ∧ errs.getD i 0 ≤ 16
  let lost := err < -64 ∨ 64 < err ∨ 2 * osc ≤ late
  (s.get Fd.SYS_CLKSTAT_OSC_SEL ≠ 3 → locked = false → s.clk.gateAt = none → acquired → ∃ t, exec (.mdllLock errs) s = .next t ∧ s.OnlyRegs t ∧
    t.bit Fd.SYS_CLKSTAT_MDLL_LOCK = true ∧ s.RegsBut t [Reg.SYS_CLKSTAT] ∧
    t.get Fd.SYS_CLKSTAT_LOCK_COUNT = s.get Fd.SYS_CLKSTAT_LOCK_COUNT) ∧
  (s.get Fd.SYS_CLKSTAT_OSC_SEL = 3 ∨ ¬ acquired → ∃ t, exec (.mdllLock errs) s = .next t ∧ t = { s with out := [] }) ∧
  (locked = true → aligned = false → ∃ t, exec .dividerChainStart s = .next t ∧
    t.bit Fd.SYS_CLKSTAT_BEAT_ALIGNED = true ∧ t.ready rCLK = true ∧
    t.clk = { s.clk with beat0 := s.clk.now, beats := s.clk.beats + (s.clk.now - s.clk.beat0 + 4) / 5, started := true, gated := false } ∧
    s.MemKept t ∧
    if s.clk.started then t.tme.t = s.tme.t
    else t.tme.t = 0 ∧ t.get (Fd.SYS_CORECTL_RUN 0) = 1 ∧ t.get (Fd.SYS_CORECTL_RUN 1) = 1) ∧
  (locked = true → lost → ∃ t, exec (.mdllLossOfLock err late) s = .next t ∧ t.bit Fd.SYS_CLKSTAT_MDLL_LOCK = false ∧
    t.bit Fd.SYS_CLKSTAT_LOCK_LOST = true ∧ t.get Fd.SYS_CLKSTAT_LOCK_COUNT = min 255 (s.get Fd.SYS_CLKSTAT_LOCK_COUNT + 1) ∧
    t.bit Fd.SYS_CLKSTAT_BEAT_ALIGNED = false ∧ t.ready rCLK = false ∧ t.bit Fd.SYS_FLTSUM_CLOCK = true ∧
    t.clk = { s.clk with mdllFrom := s.clk.ka
                         gateAt := if aligned then some (s.clk.now + (5 - (s.clk.now - s.clk.beat0) % 5)) else none } ∧
    t.cores = s.cores ∧ t.tme = s.tme ∧ s.MemKept t ∧ ∀ r, r < 64 → r ≠ rCLK → t.ready r = s.ready r) ∧
  (locked = false ∨ ¬ lost → ∃ t, exec (.mdllLossOfLock err late) s = .next t ∧ t = { s with out := [] }) ∧
  (s.stands = false → s.ready rCLK = true → s.ready rAON = false → 500000 ≤ s.tline → ∃ t, exec .readinessTimer s = .next t ∧
    t.ready rAON = true ∧ t.ready rODO = true ∧ t.cores = s.cores ∧ s.MemKept t ∧ (2000000 ≤ s.tline → t.ready rPLB = true))

/-- Boot and what firmware starts (R145, R193, R449, R455 to R457, R475, R476): a verified image of the flash bank named goes to working SRAM
and the pair to its ENTRY, host boot waits for chunks, and with no image the pair is held; a chunk is kept and its length echoed, and the image
that ends with length 0 is entered if it verifies; a valid board record of the boot source sets BOARD, an invalid one BOARD_BAD, and PWM and,
where there is a flash, XSPI follow; the key store comes back with KEY and DBG and no bay's debug enable; memory of at least the declared
capacity that runs at the declared rate sets DDR when it is trained, other memory does not. -/
def Obligations.BootAndBoard : Prop :=
  ∀ (s : State) (n : Nat), s.Sealed → s.stands = false →
  let fresh := s.ready rCLK = true ∧ s.fw.entered = none ∧ s.fw.hostPhase = 0 ∧ s.bit Fd.SYS_FLTSUM_BOOT_FAIL = false ∧ s.otp.provisioned = true
  let img := s.bankImage s.bootBank
  let host := s.get Fd.SYS_STRAP_BOOT_SEL = 2
  let Enters := fun (t : State) (l : List Byte) (bank : Nat) => t.fw.entered = some s.clk.ka ∧
    t.sram = writeBytes zeroByte (l.take (0x80 + imageLoadLen l)) 0 s.sram ∧ t.get Fd.SYS_FWVER_BANK = bank ∧
    (t.core 0).pc = BitVec.ofNat 30 ((0x08000000 + fieldAt l 16 4) / 4) ∧ (t.core 1).pc = (t.core 0).pc ∧ t.bkf = s.bkf ∧ t.ddr = s.ddr ∧
    t.flash = s.flash ∧ (0x40000 < 0x80 + imageLoadLen l → t.get (Fd.BXM_SRAM_BASE 0) = 0 ∧
      t.get (Fd.BXM_SRAM_LEN 0) = (0x80 + imageLoadLen l - 0x40000 + 4095) / 4096)
  let q := (s.ring 8).mem
  let chunk := leNat (readBytes zeroByte q 0x1800 4)
  let record := if host then s.fw.hostRecord
    else some (s.flashBytes 0x80000 (16 + 8 * min 4096 (fieldAt (s.flashBytes 0x80000 16) 4 4)))
  let probed := fun (t : State) => t.ready rPWM = true ∧ (¬host ∨ Config.flashFitted = true → t.ready rXSPI = true) ∧
    (host → Config.flashFitted = false → t.ready rXSPI = s.ready rXSPI)
  (fresh → ¬host → imageOk s.otp.rollback img = true → ∃ t, exec (.bootRomStart true 0) s = .next t ∧
    Enters t img s.bootBank ∧ t.bit Fd.KEY_STAT_PROVISIONED = true ∧ t.bit Fd.KEY_STAT_PUF_FAIL = false ∧ t.otp = s.otp) ∧
  (fresh → ¬host → imageOk s.otp.rollback img = false → imageOk s.otp.rollback (s.bankImage (1 - s.bootBank)) = false →
    ∃ t, exec (.bootRomStart true 0) s = .next t ∧ t.bit Fd.SYS_FLTSUM_BOOT_FAIL = true ∧ t.fw.entered = none ∧
      t.coreState 0 = 0 ∧ t.coreState 1 = 0 ∧ s.MemKept t) ∧
  (fresh → host → ∃ t, exec (.bootRomStart true 0) s = .next t ∧ t.fw.hostPhase = 1 ∧ t.fw.entered = none ∧ s.MemKept t) ∧
  (s.fw.hostPhase = 1 ∨ s.fw.hostPhase = 2 → chunk = n → 0 < n → n ≤ 6144 →
    ∃ t, exec .hostBootChunk s = .next t ∧ t.fw.hostBuf = s.fw.hostBuf ++ readBytes zeroByte q 0 n ∧
      readBytes zeroByte (t.ring 8).mem 0x1804 4 = natLe 4 n ∧ s.MemKept t ∧ t.regs = s.regs) ∧
  (s.fw.hostPhase = 1 → chunk = 0 → imageOk s.otp.rollback s.fw.hostBuf = true → ∃ t, exec .hostBootChunk s = .next t ∧
    Enters t s.fw.hostBuf 0 ∧ t.fw.hostPhase = 2 ∧ t.fw.hostBuf = [] ∧ readBytes zeroByte (t.ring 8).mem 0x1808 4 = natLe 4 0) ∧
  (s.fw.hostPhase = 1 → chunk = 0 → imageOk s.otp.rollback s.fw.hostBuf = false → ∃ t, exec .hostBootChunk s = .next t ∧
    t.fw.hostPhase = 1 ∧ t.fw.hostBuf = [] ∧ readBytes zeroByte (t.ring 8).mem 0x1808 4 = natLe 4 0x19 ∧ t.regs = s.regs ∧ s.MemKept t) ∧
  (s.fw.entered ≠ none → s.ready rPWM = false → ∀ l, record = some l →
    (boardEntries l = none → ∃ t, exec .boardRecordApply s = .next t ∧ t.bit Fd.SYS_FLTSUM_BOARD_BAD = true ∧ t.ready rBOARD = s.ready rBOARD ∧
      probed t ∧ t.fw = s.fw ∧ s.RegsKept t [0x4000, 0x4002] ∧ s.MemKept t) ∧
    (∀ es, boardEntries l = some es → ∃ t, exec .boardRecordApply s = .next t ∧ t.ready rBOARD = true ∧ probed t ∧ t.fw.board = es ∧
      (∀ a, a / 65536 ≠ 0x4002 → t.reg a = (s.writeBoard es).reg a &&& regMask a) ∧ s.MemKept t)) ∧
  (s.fw.entered ≠ none → s.ready rKEY = false → s.bit Fd.KEY_STAT_OTP_SPENT = false → s.otp.provisioned = true →
    ∃ t, exec .keyStoreRestore s = .next t ∧ t.ready rKEY = true ∧ t.ready rDBG = true ∧ t.bit Fd.KEY_STAT_RESTORED = true ∧
      (∀ c, c < 6 → t.get (Fd.DBG_EN_U_BAY c) = 0 ∧ t.get (Fd.DBG_EN_S_BAY c) = 0) ∧ s.MemKept t) ∧
  (∀ (fitted : Fin 4) (rates : BitVec 4), s.ready rBOARD = true → s.fw.staticDue = false → s.ddrCtl.training = false →
    let runs := s.get Fd.DDR_CFG_CAP ≤ fitted.val ∧ rates.getLsbD (s.get Fd.DDR_CFG_RATE) = true
    (runs → ∃ t, exec (.ddrTraining fitted rates) s = .next t ∧ t.bit Fd.DDR_STAT_TRAINED = true ∧ t.ready rDDR = true ∧
      t.ddrCtl = { s.ddrCtl with training := true } ∧ s.RegsKept t [0x4002, 0x4019] ∧ s.MemKept t) ∧
    (¬runs → ∃ t, exec (.ddrTraining fitted rates) s = .next t ∧ t.regs = s.regs ∧ t.ddrCtl = { s.ddrCtl with training := true } ∧ s.MemKept t))

/-- Power domains (R188, R478, R480): a permitted down request starts DRAIN, another does nothing; an idle domain in DRAIN is FENCED, or ON again
where an up request met it; FENCED goes OFF, losing the state of a bay core and of its locked partner, or ON at an up request; OFF wakes and is
ON, its block reset, with no request waiting. No byte of memory changes. -/
def Obligations.PowerDomains : Prop :=
  ∀ (s : State) (d : Fin 14), s.Sealed → s.stands = false → 4 ≤ d.val →
  let st := s.get (Fd.PWR_STATE_STATE d)
  let Ends := fun (i : Instr) (st' : Nat) => ∃ t, exec i s = .next t ∧ t.get (Fd.PWR_STATE_STATE d) = st' ∧ s.MemKept t ∧ t.fw = s.fw ∧ t.mbx = s.mbx
  (s.mayGate d = true → st = 0 → Ends (.powerDownRequest d) 1) ∧
  (s.mayGate d = false → ∃ t, exec (.powerDownRequest d) s = .next t ∧ t.regs = s.regs ∧ t.pwr = s.pwr ∧ s.MemKept t) ∧
  (st = 1 → (d.val < 8 ∨ 12 ≤ d.val ∨ s.engineBusy (d - 8) = 0) → (vget s.pwr d).upWanted = false → Ends (.domainDrainEnd d) 2) ∧
  (st = 1 → (d.val < 8 ∨ 12 ≤ d.val ∨ s.engineBusy (d - 8) = 0) → (vget s.pwr d).upWanted = true → Ends (.domainDrainEnd d) 0) ∧
  (st = 2 → Ends (.domainPowerOff d) 3) ∧
  (st = 2 → d.val < 8 → ∃ t, exec (.domainPowerOff d) s = .next t ∧
    ∀ c, c < 6 → if c ∈ s.mates (d - 2) then t.core c = {} ∧ t.coreState c = 0 else t.core c = s.core c ∧ t.coreState c = s.coreState c) ∧
  (st = 1 → ∃ t, exec (.powerUpRequest d) s = .next t ∧ (vget t.pwr d).upWanted = true ∧ t.regs = s.regs) ∧
  (st = 2 → Ends (.powerUpRequest d) 0) ∧
  (st = 3 → Ends (.powerUpRequest d) 4) ∧
  (st = 4 → (vget s.pwr d).downWanted = false → ∃ t, exec (.domainWakeDone d) s = .next t ∧ t.get (Fd.PWR_STATE_STATE d) = 0 ∧ s.MemKept t ∧
    (∀ a, a / 65536 ∈ domBlocks d → t.reg a = regReset a) ∧ (d.val = 13 → t.ready rJNC = true))

/-! ### Register paths, host ports and the snap port (01, 08, 09) -/

/-- Register writes (R7 to R11, R157, R197, R482, R501), while no word waits to be fed to a core. A write goes to the bus matrix behind the
writing core's accesses under way (R171), and waits there for a grant that does not come at once. With none under way and a grant at once, a
write by firmware gives every field what its access code says, where no unit acts on the register and no event has set a bit of it in the present
cycle (R8); a bay's write outside its grant and a TAP write outside the debug domain get an error response and change no field; so does a write
into a domain that is down, which is counted; a LUT swap request sets its bays' bits. -/
def Obligations.RegisterWrites : Prop :=
  ∀ (s : State) (a v : Word), s.Sealed → s.stands = false → (∀ i, i < 6 → vget s.dbg.feed i = none) →
  let w := a.toNat
  let q := fun (p : Path) => s.regReq .row p w (some v)
  let now := fun (p : Path) (c : Nat) => s.earlier [c] = [] ∧ s.grantsNow (q p) = true
  let listed := w % 4 = 0 ∧ listedBlocks.contains (w / 65536) = true
  (s.earlier [0] = [] → s.grantsNow (q .fw) = false → ∃ t, exec (.registerWrite .fw a v) s = .next t ∧ t = { s.posting (q .fw) with out := [] }) ∧
  (s.earlier [0] ≠ [] → ∃ t, exec (.registerWrite .fw a v) s = .next t ∧
    t = { s with out := [], bxm := { s.bxm with held := s.bxm.held ++ [(s.earlier [0], q .fw)] } }) ∧
  (∀ f ix x, now .fw 0 → findReg w = some (f, ix) → x ∈ f.fields → listed → s.domOn (blockDomain (w / 65536)) = true → ringArea w = none →
    w / 65536 ∉ 0x4000 :: 0x4001 :: 0x4003 :: 0x4021 :: 0x4023 :: 0x4051 :: dbgBlocks → w ≠ Reg.DDR_CFG → w ≠ Reg.MBX_CFG 0 →
    (∀ i, i < 4 → w ≠ Reg.ODO_AXCFG i) → (w / 65536 = 0x4006 → s.faultsLow = 0) → s.marked w = 0 →
    let o := s.get ⟨w, x.hi, x.lo⟩
    let n := bitsOf v.toNat x.hi x.lo
    ∃ t, exec (.registerWrite .fw a v) s = .next t ∧ t.out = [] ∧ s.ByBus t ∧ s.RegsBut t [w] ∧
      t.get ⟨w, x.hi, x.lo⟩ = match x.acc with
        | .rw => if x.valid = [] ∨ ∃ p ∈ x.valid, p.1 ≤ n ∧ n ≤ p.2 then n else o
        | .ro | .wo => o
        | .w1c => o - (o &&& n)
        | .w1s => o ||| n
        | .w1a => if n % 2 = 1 then 0 else o) ∧
  (∀ b c, now (.bay b c) c.val → listed → ownRing b.val w = false → s.bayWrites b.val (some c.val) w = false →
    ∃ t, exec (.registerWrite (.bay b c) a v) s = .next t ∧
    Out.error ∈ t.out ∧ t.get (Fd.BXM_VIOL_COUNT b) = min 65535 (s.get (Fd.BXM_VIOL_COUNT b) + 1) ∧
    s.RegsBut t [Reg.BXM_VIOL b, Reg.BXM_VADDR b] ∧ s.MemKept t ∧ t.cores = s.cores ∧ t.fig = s.fig) ∧
  (w / 65536 ∉ dbgBlocks → s.grantsNow (q .tap) = true → ∃ t, exec (.registerWrite .tap a v) s = .next t ∧ t.out = [.error] ∧
    s.ByBus t ∧ t.regs = s.regs) ∧
  (now .fw 0 → listed → s.domOn (blockDomain (w / 65536)) = false → ∃ t, exec (.registerWrite .fw a v) s = .next t ∧ t.out = [.error] ∧
    t.get Fd.PWR_DOWNCNT_COUNT = min (2 ^ 32 - 1) (s.get Fd.PWR_DOWNCNT_COUNT + 1) ∧ s.RegsBut t [Reg.PWR_DOWNCNT] ∧ s.MemKept t) ∧
  (∀ (e : Fin 4) (bays : BitVec 8), s.earlier [0] = [] → s.domOn (8 + e) = true →
    s.grantsNow (s.regReq .row .fw (Reg.SE_LUTSWAP e) (some (bays.setWidth 32))) = true →
    ∃ t, exec (.seLutswapWrite .fw e bays) s = .next t ∧ t.out = [] ∧ s.ByBus t ∧
    s.RegsBut t [Reg.SE_LUTSWAP e] ∧ t.get (Fd.SE_LUTSWAP_SWAP e) = s.get (Fd.SE_LUTSWAP_SWAP e) ||| bays.toNat)

/-- A read of a low word answers it and latches the words that belong to it (R41, R186, R365, R407); it changes nothing else. A read that the bus
matrix does not grant at once waits there (R157). -/
def Obligations.LowWordReads : Prop :=
  ∀ (s : State), s.Sealed → s.stands = false → s.domOn 0 = true → s.domOn 3 = true →
  let lo := fun (z : Int) => BitVec.ofInt 32 z
  let hi := fun (z : Int) => ((BitVec.ofInt 48 z).signExtend 64).extractLsb' 32 32
  let Reads := fun (i : Instr) (a : Nat) (v : Word) (x : State) => let q := s.regReq .row .fw a none
    (s.grantsNow q = true → ∃ t, exec i s = .next t ∧ t = { x with out := [.word v], bxm := t.bxm } ∧ s.ByBus { s with out := t.out, bxm := t.bxm }) ∧
    (s.grantsNow q = false → ∃ t, exec i s = .next t ∧ t = { s.posting q with out := [] })
  Reads (.fgeMeasureLoRead .fw) Reg.FGE_MEASURE_LO (BitVec.ofNat 32 s.fig.measure)
    { s with fig := { s.fig with measureHi := BitVec.ofNat 32 (s.fig.measure / 2 ^ 32) } } ∧
  Reads (.tmeSecLoRead .fw) Reg.TME_SEC_LO (BitVec.ofNat 32 s.sec)
    { s with tme := { s.tme with latHi := BitVec.ofNat 32 (s.sec / 2 ^ 32 % 65536), latNs := BitVec.ofNat 32 s.nsInSec,
                                 latFrac := BitVec.ofNat 32 (s.tme.t % 2 ^ 48 / 2 ^ 32) } } ∧
  Reads (.odoLoRead .fw 0) Reg.ODO_POS_LO (lo s.unitPos) { s with odo := { s.odo with latPos := hi s.unitPos } } ∧
  Reads (.odoLoRead .fw 1) Reg.ODO_OFFSET_LO (lo s.odo.offset) { s with odo := { s.odo with latOfs := hi s.odo.offset } } ∧
  (∀ n : Fin 4, Reads (.odoLoRead .fw (n.natAdd 2)) (Reg.ODO_AXPOS_LO n) (lo (s.axPos n))
    { s with odo := { s.odo with latAx := vmod s.odo.latAx n fun _ => hi (s.axPos n) } }) ∧
  (∀ c : Fin 6, ∃ t, exec (.sccCycleLoRead c) s = .next t ∧ t = { s with
    out := [.word ((s.core c).cycle.setWidth 32)], cores := vmod s.cores c fun k => { k with cycleHi := (k.cycle >>> 32).setWidth 32 } })

/-- PCIe and the shared window (R213 to R225, R229, R457, R474): configuration requests answer Retry until PCIE, and then read and write the
configuration space of a function that exists (model choice, log entry 12); a function in D3hot, or one that does not exist, answers memory
reads with Unsupported Request (model choice, log entry 12); a write through BAR0 and a bad access through BAR2 are counted. A window access inside one block that the grant and a HOST
peg allow, behind none of its function, goes to the bus matrix as a request of master M5; its answer is the read's bytes, or the write's end. A
read gets Completer Abort, which AER reports, where MBX is not ready or the bay is absent, or once it has waited PCI_CTO.TIMEOUT µs; an access
to an absent bay is counted. A link change is recorded. -/
def Obligations.PcieAndWindow : Prop :=
  ∀ (s : State) (fn : Fin 9) (n : Fin 8) (o : BitVec 28), s.Sealed → s.stands = false →
  let f := vget s.pcie.fns fn
  let Says := fun (i : Instr) (x : Out) => ∃ t, exec i s = .next t ∧ t = { s with out := [x] }
  let Sets := fun (i : Instr) (p : Pcie) => ∃ t, exec i s = .next t ∧ t = { s with out := [], pcie := p }
  let withFn := fun (g : PcieFn → PcieFn) => { s.pcie with fns := vmod s.pcie.fns fn g }
  let Counts := fun (i : Instr) (l : List Out) (c : Fld) (top : Nat) => ∃ t, exec i s = .next t ∧ t.out = l ∧ t.get c = min top (s.get c + 1) ∧
    s.RegsBut t [c.addr] ∧ s.MemKept t ∧ t.pcie = s.pcie ∧ t.mbx = s.mbx
  let aborts := fun (p : Pcie) => { p with fns := vmod p.fns n fun g => { g with aer := g.aer ||| 0x8000 } }
  let place := s.windowPlace n o.toNat
  let mapped := fun (k : Nat) (write : Bool) => s.fnOn n = true ∧ s.ready rMBX = true ∧ s.bayState n ≠ bEMPTY ∧ s.bayState n ≠ bDRAINING ∧ 1 ≤ k ∧
    o.toNat % 65536 + k ≤ 65536 ∧ s.granted n place k write = true ∧ s.peg n (o.toNat / 65536) = pHOST ∧ ∀ q ∈ s.pcie.asks, q.fn ≠ n.val
  let ask := fun (op : HostOp) (k : Nat) => ({ fn := n.val, op := op, ofs := o.toNat, since := s.runNs, wait := some (s.bxm.next, k) } : HostAsk)
  let Asks := fun (i : Instr) (op : HostOp) (k : Nat) (l : List Byte) (read : Nat) =>
    let q : BusReq := { master := 5, core := 7, level := .f, target := place.target, addr := 0, key := place.key, data := l, since := s.clk.now
                        ask := .host, read := read, id := s.bxm.next }
    ∃ t, exec i s = .next t ∧ t = { s with
      out := [], bxm := { s.bxm with reqs := s.bxm.reqs ++ [q], next := s.bxm.next + 1 }, pcie := { s.pcie with asks := s.pcie.asks ++ [ask op k] } }
  let config := Instr.pcieConfigRequest fn
  (s.ready rPCIE = false → ∀ q, Says (config q) .retry) ∧
  (s.ready rPCIE = true → s.fnThere fn = false → ∀ q : ConfigReq, if isConfigRead q then Says (config q) .unsupported else Sets (config q) s.pcie) ∧
  (s.ready rPCIE = true → s.fnThere fn = true →
    Says (config .readId) (.word (BitVec.ofNat 32 ((if fn = 8 then 0x7480 else 0x7481) * 65536 + Config.vendorId % 65536))) ∧
    Says (config .readClass) (.word 0x048000B0) ∧
    Says (config .readCommand) (.word (f.command.setWidth 32)) ∧
    (∀ w, Sets (config (.writeCommand w)) (withFn fun g => { g with command := w })) ∧
    (∀ en mask, f.pend = 0 → Sets (config (.msixControl en mask)) (withFn fun g => { g with msixEn := en, msixMask := mask })) ∧
    (fn = 8 → ∃ t, exec (config (.vfEnable true)) s = .next t ∧ t = { s with out := [], pcie := { s.pcie with vfEnable := true, fns := t.pcie.fns } } ∧
      vget t.pcie.fns 8 = f ∧ ∀ v, v < 8 → vget t.pcie.fns v =
        if s.pcie.vfEnable then vget s.pcie.fns v else { vget s.pcie.fns v with pend := 0 }) ∧
    (fn = 8 → s.pcie.vfEnable = false → Sets (config (.vfEnable false)) s.pcie) ∧
    (fn ≠ 8 → ∀ on, Sets (config (.vfEnable on)) s.pcie) ∧
    (∀ x, Says (config (.readSriov x)) (.word (if fn = 8 then (if x then 0x00010001 else 0x00080008) else 0))) ∧
    Says (config (.readBar 0)) (.word ((vget f.bars 0 &&& 0xFF800000) ||| 4)) ∧ Says (config (.readBar 1)) (.word (vget f.bars 1)) ∧
    Says (config (.readBar 2)) (.word ((vget f.bars 2 &&& 0xFFFF0000) ||| 4)) ∧ Says (config (.readBar 3)) (.word (vget f.bars 3)) ∧
    Says (config (.readBar 4)) (.word (if fn = 8 then 0 else (vget f.bars 4 &&& 0xF0000000) ||| 0xC)) ∧
    Says (config (.readBar 5)) (.word (if fn = 8 then 0 else vget f.bars 5)) ∧
    (∀ (i : Fin 6) w, Sets (config (.writeBar i w)) (withFn fun g => { g with bars := vmod g.bars i fun _ => w })) ∧
    (∀ code : BitVec 3, code.toNat ≤ 2 → Sets (config (.maxPayload code)) (withFn fun g => { g with maxPayload := code })) ∧
    (∀ x, f.pend = 0 → Sets (config (.power x)) (withFn fun g => { g with d3 := x })) ∧ (∀ x, Sets (config (.aspm x)) (withFn fun g => { g with aspmL1 := x })) ∧
    Says (config .readControl)
      (.word (BitVec.ofNat 32 (f.maxPayload.toNat * 32 + f.aspmL1.toNat * 2 ^ 17 + if f.d3 then 3 * 2 ^ 30 else 0))) ∧
    Says (config .readLink) (.word (BitVec.ofNat 32 (if s.pcie.link then 2 ^ s.pcie.width * 16 + s.pcie.gen + 1 else 0))) ∧
    Says (config .readAer) (.word f.aer) ∧ (∀ w, Sets (config (.clearAer w)) (withFn fun g => { g with aer := g.aer &&& ~~~w }))) ∧
  (∀ ofs, s.fnOn 8 = true → Counts (.bar0Write 8 ofs) [] Fd.PCI_ERR_WR_DROP 255) ∧
  (∀ ofs (v : Fin 9), v.val < 8 → s.fnOn v = true → ∃ t, exec (.bar0Write v ofs) s = .next t ∧
    t.get (Fd.BXM_VIOL_COUNT v) = min 65535 (s.get (Fd.BXM_VIOL_COUNT v) + 1) ∧ s.RegsBut t [Reg.BXM_VIOL v, Reg.BXM_VADDR v] ∧ s.MemKept t) ∧
  Counts (.bar2BadAccess true) [.abort] Fd.PCI_ERR_BAD_ACCESS 255 ∧ Counts (.bar2BadAccess false) [] Fd.PCI_ERR_BAD_ACCESS 255 ∧
  (∀ k : Fin 4097, mapped k false → Asks (.windowRead n o k) (.read k []) k [] k) ∧
  (∀ l, mapped l.length true → Asks (.windowWrite n o l) (.write l) l.length l 0) ∧
  (∀ (id : Nat) l since, s.keys.run = none → s.bxm.answers = [(id, some l)] →
    let done := { s with pcie := { s.pcie with asks := [] }, bxm := { s.bxm with answers := [] } }
    (s.pcie.asks = [⟨n, .read l.length [], o.toNat, since, some (id, l.length)⟩] → s.hostTick = { done with out := s.out ++ [.bytes l] }) ∧
    (∀ m, s.pcie.asks = [⟨n, .write m, o.toNat, since, some (id, m.length)⟩] → s.hostTick = done)) ∧
  (∀ k : Fin 4097, 1 ≤ k.val → o.toNat + k ≤ 2 ^ 28 →
    (s.fnThere n = false → Says (.windowRead n o k) .unsupported) ∧
    (s.fnThere n = true → s.fnOn n = false → ∃ t, exec (.windowRead n o k) s = .next t ∧ t = { s with
      out := [.unsupported], pcie := { s.pcie with fns := vmod s.pcie.fns n fun g => { g with aer := g.aer ||| 0x100000 } } }) ∧
    (s.fnOn n = true → s.windowAbsent n = false → s.ready rMBX = false → ∃ t, exec (.windowRead n o k) s = .next t ∧
      t = { s with out := [.abort], pcie := aborts s.pcie }) ∧
    (s.fnOn n = true → s.bayState n = bEMPTY ∨ s.bayState n = bDRAINING → ∃ t, exec (.windowRead n o k) s = .next t ∧ t.out = [.abort] ∧
      t.get Fd.PCI_ERR_ABSENT = min 255 (s.get Fd.PCI_ERR_ABSENT + 1) ∧ s.RegsBut t [Reg.PCI_ERR] ∧ s.MemKept t ∧ t.pcie = aborts s.pcie)) ∧
  (∀ l, 1 ≤ l.length → o.toNat + l.length ≤ 2 ^ 28 → s.fnOn n = true →
    (s.windowAbsent n = true → Counts (.windowWrite n o l) [] Fd.PCI_ERR_ABSENT 255) ∧
    (s.windowAbsent n = false → s.ready rMBX = false → Sets (.windowWrite n o l) s.pcie)) ∧
  (∀ k got since w, s.pcie.asks = [⟨n, .read k got, o.toNat, since, w⟩] → since + 1000 * s.get Fd.PCI_CTO_TIMEOUT ≤ s.runNs →
    ∃ t, exec (.windowReadTimeout n) s = .next t ∧ t.out = [.abort] ∧ t.pcie = aborts { s.pcie with asks := [] } ∧
      t.get Fd.PCI_ERR_TIMEOUT = min 255 (s.get Fd.PCI_ERR_TIMEOUT + 1) ∧ s.RegsBut t [Reg.PCI_ERR] ∧ s.MemKept t) ∧
  (∀ (gen : Fin 4) (width : Fin 3),
    (s.fw.hostPhase ≠ 1 → s.fw.hostPhase ≠ 2 → Sets (.pcieLinkUp gen width) { s.pcie with link := true, gen := gen, width := width }) ∧
    (s.fw.hostPhase = 1 → ∃ t, exec (.pcieLinkUp gen width) s = .next t ∧ t.pcie = { s.pcie with link := true, gen := gen, width := width } ∧
      t.ready rPCIE = true ∧ s.MemKept t))

/-- Pegs and PCI_RAISE (R219, R226 to R230, R474). A host request waits behind the function's window accesses and a device-side request of the
same cycle for its peg, a device-side one behind the accesses of the bay's cores. With none of these, and the device-side request granted by
the bus matrix at once: the side that holds a peg hands it over or gives it back, and takes an idle one; its new
holder finds it in its queue; a request of the wrong side is a FAULT with its cause; a peg in FAULT and a malformed word ignore requests;
popping a queue answers its oldest entry; each raised vector is sent or becomes pending. -/
def Obligations.PegsAndRaise : Prop :=
  ∀ (s : State) (n : Fin 8) (p : BitVec 12) (tg : BitVec 2) (host : Bool) (w : Word), s.Sealed → s.stands = false →
  (s.fnOn n = true → s.hostBehind n = true → ∃ t, exec (.hostPegRequest n w) s = .next t ∧
    t = { s with out := [], pcie := { s.pcie with asks := s.pcie.asks ++ [{ fn := n, op := .bar2Write 0x2400 w }] } }) ∧
  (∀ d, s.fnOn n = true → s.hostBehind n = false → s.pending = [.devicePegRequest n d] → d.toNat % 4096 = w.toNat % 4096 →
    ∃ t, exec (.hostPegRequest n w) s = .next t ∧ t = { s with out := [], pcie := { s.pcie with pegHeld := s.pcie.pegHeld ++ [(n.val, w)] } }) ∧
  let ahead := s.earlier (s.bayCores n)
  let q := fun (x : Word) => s.regReq .peg (.bay n (Fin.ofNat 6 ((s.bayCores n).headD 0))) (Reg.PEG_REQ n) (some x)
  let free := fun (x : Word) =>
    if host then s.fnOn n = true ∧ s.hostBehind n = false ∧ s.deviceAsks n (x.toNat % 4096) = false ∧ (s.bayState n = bEMPTY → s.ready rMBX = true)
    else ahead = [] ∧ s.pcie.pegHeld = [] ∧ s.grantsNow (q x) = true
  let req := fun (x : Word) => if host then Instr.hostPegRequest n x else .devicePegRequest n x
  let word := BitVec.ofNat 32 (p.toNat + 65536 * tg.toNat)
  let cur := s.peg n p.toNat
  let mine := if host then pHOST else pDEVICE
  let others := fun (t : State) => (∀ q, q < 4096 → q ≠ p.toNat → t.peg n q = s.peg n q) ∧ s.MemKept t ∧ t.mbx.waiting = s.mbx.waiting
  let push := fun (q : List (BitVec 12)) => if q.length < 64 then q ++ [p] else q
  let popped := fun (q : List (BitVec 12)) (lost : Bool) (x : BitVec 12) => Out.word (BitVec.ofNat 32 (2 ^ 31 + (if lost then 2 ^ 30 else 0) + x.toNat))
  let Ignores := fun (x : Word) => ∃ t, exec (req x) s = .next t ∧ s.ByBus t ∧ s.RegsBut t [Reg.PEG_FSTAT n] ∧
    t.get (Fd.PEG_FSTAT_IGNORED n) = min 255 (s.get (Fd.PEG_FSTAT_IGNORED n) + 1)
  (ahead ≠ [] → ∃ t, exec (.devicePegRequest n w) s = .next t ∧
    t = { s with out := [], bxm := { s.bxm with held := s.bxm.held ++ [(ahead, q w)] } }) ∧
  (host = true → s.fnOn n = true → s.hostBehind n = false → s.deviceAsks n (w.toNat % 4096) = false → s.bayState n = bEMPTY → s.ready rMBX = false →
    Ignores w) ∧
  (free word → tg.toNat ≠ pFAULT → tg.toNat ≠ cur → cur = pIDLE ∨ cur = mine → ∃ t, exec (req word) s = .next t ∧ t.peg n p.toNat = tg.toNat ∧ others t ∧
    s.RegsBut t [Reg.PEG_STATE n (p.toNat / 16), Reg.PEG_DSTAT n] ∧
    vget t.pcie.hq n = (if tg.toNat = pHOST then push (vget s.pcie.hq n) else vget s.pcie.hq n) ∧
    vget t.pcie.dq n = (if tg.toNat = pDEVICE ∧ host = true then push (vget s.pcie.dq n) else vget s.pcie.dq n)) ∧
  (free word → tg.toNat = cur → cur = pIDLE ∨ cur = mine → ∃ t, exec (req word) s = .next t ∧ s.ByBus t ∧ t.out = [] ∧ t.regs = s.regs) ∧
  (free word → cur ≠ pFAULT → tg.toNat = pFAULT ∨ cur = (if host then pDEVICE else pHOST) → ∃ t, exec (req word) s = .next t ∧ t.peg n p.toNat = pFAULT ∧
    others t ∧ t.get (Fd.PEG_FSTAT_PEG n) = p.toNat ∧ t.get (Fd.PEG_FSTAT_CAUSE n) = (if host then 1 else 2) ∧
    t.get (Fd.PEG_FSTAT_FAULTS n) = min 255 (s.get (Fd.PEG_FSTAT_FAULTS n) + 1) ∧
    s.RegsBut t [Reg.PEG_STATE n (p.toNat / 16), Reg.PEG_FSTAT n]) ∧
  (free word → cur = pFAULT → Ignores word) ∧
  (free w → 2 ^ 18 ≤ w.toNat ∨ bitsOf w.toNat 15 12 ≠ 0 → Ignores w) ∧
  (∀ x l, s.fnOn n = true → s.hostBehind n = false → vget s.pcie.hq n = x :: l → ∃ t, exec (.pegHqRead n) s = .next t ∧ t.out = [popped (x :: l) (vget s.pcie.hqLost n) x] ∧
    vget t.pcie.hq n = l ∧ vget t.pcie.hqLost n = false ∧ t.regs = s.regs) ∧
  (∀ x l, vget s.pcie.dq n = x :: l → ∃ t, exec (.pegDqRead n) s = .next t ∧ t.out = [popped (x :: l) (vget s.pcie.dqLost n) x] ∧
    vget t.pcie.dq n = l ∧ vget t.pcie.dqLost n = false ∧ s.RegsBut t [Reg.PEG_DSTAT n] ∧ t.bit (Fd.PEG_DSTAT_PENDING n) = !l.isEmpty) ∧
  (s.fnOn n = true → s.hostBehind n = false → vget s.pcie.hq n = [] → ∃ t, exec (.pegHqRead n) s = .next t ∧ t = { s with out := [.word 0] }) ∧
  (∃ t, exec (.pciRaise n w) s = .next t ∧ t.regs = s.regs ∧ t.mbx = s.mbx ∧ s.MemKept t ∧ ∀ i, i < 32 → w.getLsbD i = true →
    if s.msixOpen n (32 + i) then Out.msix n (32 + i) ∈ t.out else (vget t.pcie.fns n).pend.getLsbD (32 + i) = true)

/-- Function resets (R220, R221, R259, R457): an FLR of VF n resets the function, but for Max Payload Size, ASPM control and AER status (model
choice, log entry 12), drops its accesses under way and its peg requests that wait, empties its host queue, resets its ring set but for the enables of MBX_IRQ and the slots,
takes its HOST pegs to IDLE, and tells the bay; one of the PF, and a hot reset, do this to every VF, reset the PF's own and clear VF Enable.
Bays, figure and memory go on. -/
def Obligations.FunctionResets : Prop :=
  ∀ (s : State) (n : Fin 8), s.Sealed → s.stands = false →
  let fresh := fun (v : Nat) (t : State) =>
    let g := vget s.pcie.fns v
    let q := s.ring v
    vget t.pcie.fns v = { maxPayload := g.maxPayload, aspmL1 := g.aspmL1, aer := g.aer } ∧
    t.ring v = { mem := q.mem, pegIe := q.pegIe, evtIe := q.evtIe, rspIe := q.rspIe } ∧ (∀ a ∈ t.pcie.asks, a.fn ≠ v) ∧ ∀ h ∈ t.pcie.pegHeld, h.1 ≠ v
  let Vf := fun (t : State) (v : Nat) => fresh v t ∧ vget t.pcie.hq v = [] ∧ t.bit (Fd.PEG_DSTAT_FLR v) = true ∧
    (t.reg Reg.MBX_DBLATCH).getLsbD v = false ∧
    ∀ p, p < 4096 → t.peg v p = if s.peg v p = pHOST then pIDLE else s.peg v p
  let Rest := fun (t : State) => s.RegsKept t [0x4020, 0x4021] ∧ s.MemKept t ∧ t.fig = s.fig ∧ t.fw.bays = s.fw.bays ∧ t.cores = s.cores ∧
    t.pcie.dq = s.pcie.dq
  let Pf := fun (t : State) => (∀ v, v < 8 → Vf t v) ∧ fresh 8 t ∧ t.pcie.vfEnable = false ∧ Rest t
  (∃ t, exec (.vfFunctionLevelReset n) s = .next t ∧ Vf t n ∧ Rest t ∧ (∀ v, v < 9 → v ≠ n.val → t.ring v = s.ring v ∧
    vget t.pcie.fns v = vget s.pcie.fns v) ∧ (∀ v p, v < 8 → v ≠ n.val → p < 4096 → t.peg v p = s.peg v p)) ∧
  (∃ t, exec .pfFunctionLevelReset s = .next t ∧ Pf t ∧ t.pcie.link = s.pcie.link) ∧
  (∃ t, exec .pcieHotReset s = .next t ∧ Pf t ∧ t.pcie.link = false ∧ t.fw.hostBuf = [])

/-- The snap port and doorbells (R231 to R239, R248): a latching read counts SEQ, latches every word of its snapshot of the present step and
drives the first, unless boundary scan holds the balls (R537); before AON the port is high-impedance; a doorbell write sets its bay's latch,
any other write is ignored and counted; a ring's doorbell, written by the ring's producer, sets its latch, and written by the other party is
counted in BAD_WR (R242). A function that the host does not reach in D0 takes no doorbell (R213, R458; PCI's Unsupported Request, log entry 12). -/
def Obligations.SnapPortAndDoorbells : Prop :=
  ∀ (s : State), s.Sealed → s.stands = false →
  let on := s.ready rAON = true
  let shown := fun (l : List Out) => if s.scanHeld = true then [] else l
  let Bad := fun (i : Instr) (r : Nat) => ∃ t, exec i s = .next t ∧
    t = { s with out := [], mbx := { s.mbx with rings := vmod s.mbx.rings r fun q => { q with badWr := min 255 (q.badWr + 1) } } }
  let b2 := fun (x : Bool) (k : Nat) => if x then 2 ^ k else 0
  let tq := s.snap.timeSeq + 1
  let pq := s.snap.posSeq + 1
  let head := BitVec.ofNat 16 (b2 (s.bit Fd.PLB_STATE_VALID) 15 + 2 ^ 13 * s.get Fd.PLB_STATE_STATE + b2 (s.bit Fd.PLB_STATE_SLOPE_ACTIVE) 12 + tq.toNat)
  let words := head :: [s.sec, s.sec / 2 ^ 16, s.sec / 2 ^ 32, s.nsInSec, s.nsInSec / 2 ^ 16, s.tme.t % 2 ^ 48 / 2 ^ 32].map (BitVec.ofNat 16)
  let Rings := fun (i : Instr) (r : Nat) => ∃ t, exec i s = .next t ∧ s.OnlyRegs t ∧ s.RegsBut t [Reg.MBX_DBLATCH] ∧
    t.reg Reg.MBX_DBLATCH = s.reg Reg.MBX_DBLATCH ||| (1#32 <<< r)
  (on → ∃ t, exec .snapTimeLatch s = .next t ∧ t = { s with out := shown [.snap head], snap := { s.snap with timeSeq := tq, time := words } }) ∧
  (on → s.ready rODO = true → ∃ t, exec .snapPositionLatch s = .next t ∧ t.snap.posSeq = pq ∧ t.out = shown [.snap (t.snap.pos.getD 0 0)] ∧
    t.snap.pos.drop 1 = [0, 16, 32].map (fun k => BitVec.ofNat 16 ((s.unitPos % 2 ^ 48).toNat / 2 ^ k)) ∧
    (t.snap.pos.getD 0 0).toNat % 256 = pq.toNat ∧ t = { s with out := t.out, snap := { s.snap with posSeq := pq, pos := t.snap.pos } }) ∧
  (¬on → (∃ t, exec .snapTimeLatch s = .next t ∧ t = { s with out := shown [.highZ] }) ∧
    ∃ t, exec .snapPositionLatch s = .next t ∧ t = { s with out := shown [.highZ] }) ∧
  (on → ∀ b : Fin 8, Rings (.snapDoorbell b) b) ∧
  (on → ∀ w : BitVec 16, ¬(0x1000 ≤ w.toNat ∧ w.toNat < 0x1008) → ∃ t, exec (.snapWriteIgnored w) s = .next t ∧ s.OnlyRegs t ∧
    s.RegsBut t [Reg.SNP_STAT] ∧ t.get Fd.SNP_STAT_IGNORED = min 65535 (s.get Fd.SNP_STAT_IGNORED + 1)) ∧
  (∀ r : Fin 9, s.fnOn r = false → exec (.doorbellRing r true) s = .next (if s.fnThere r then s.clean.aerSet r 20 else s.clean)) ∧
  (∀ r : Fin 9, s.fnOn r = true → s.hostBehind r = false → (r = 8 → s.fw.hostPhase ≠ 1 ∧ s.fw.hostPhase ≠ 2) →
    if s.hostRing r = true then Rings (.doorbellRing r true) r else Bad (.doorbellRing r true) r) ∧
  (∀ r : Fin 9, 1 ≤ r.val → r.val ≤ 7 → if s.hostRing r = true then Bad (.doorbellRing r false) r else Rings (.doorbellRing r false) r)

/-! ### Mailbox commands (09, 10): each row writes its command and is answered at once -/

/-- Until a command's meaning runs, taking it has changed the mailbox alone: the rotation, its ring set's command indices, expected SEQ and
journal, and the slot that holds the 64 bytes of R251 (R243 to R249, R251, R260). The measure a command's effect gets (R70): the one named, with its time point
at least 100 µs ahead, or for 0 the first such. -/
def Obligations.CommandIsHandedOver : Prop :=
  ∀ (s : State) (op : Nat) (m : Mail), s.Sealed → m.pay.length ≤ 48 →
  let g := s.given op m
  let r := m.ring.val
  (∃ regs q k, g = { s with out := [], regs := regs, mbx := q, marks := k } ∧
    q = { s.mbx with rings := q.rings, next := if r = 8 then 1 else (r + 2) % 9 }) ∧ s.RegsBut g [Reg.MBX_DBLATCH] ∧
  g.reg Reg.MBX_DBLATCH = s.reg Reg.MBX_DBLATCH &&& ~~~(1#32 <<< r) ∧
  (∀ i, i < 9 → i ≠ r → g.ring i = s.ring i) ∧ (g.ring r).cmdPi = (s.ring r).cmdPi + 1 ∧ (g.ring r).cmdCi = (s.ring r).cmdCi + 1 ∧
  (g.ring r).expSeq = (s.ring r).expSeq + 1 ∧ (g.ring r).rspPi = (s.ring r).rspPi ∧ (g.ring r).evtPi = (s.ring r).evtPi ∧
  (g.ring r).journal.getLast? = some { seq := m.seq, cmd := mailBytes op m, state := .taken, rsp := [] } ∧ (mailBytes op m).length = 64 ∧
  readBytes zeroByte (g.ring r).mem (64 * ((s.ring r).cmdPi.toNat % 32)) 64 = mailBytes op m ∧
  (∀ a, ¬(64 * ((s.ring r).cmdPi.toNat % 32) ≤ a ∧ a < 64 * ((s.ring r).cmdPi.toNat % 32) + 64) →
    sget zeroByte (g.ring r).mem a = sget zeroByte (s.ring r).mem a) ∧
  ∀ (p n k : Nat), 0 < p →
    let T := fun (x : Nat) => x * p * 1000 * 2 ^ 48
    let soon := s.tme.t + 100000 * 2 ^ 48
    (n ≠ 0 → (s.chooseMeasure p n = some k ↔ k = n ∧ soon ≤ T n)) ∧
    (n = 0 → (s.chooseMeasure p n = some k ↔ soon ≤ T k ∧ ∀ j, soon ≤ T j → k ≤ j))

/-- System, status, peg and telemetry commands (R67, R227, R273 to R276, R499): SYS_INFO and BAY_STATUS report; SYS_FW_STAGE writes a verified
image to the inactive bank and frees its blocks; SYS_FW_SELECT names the bank of the next start; BAY_PRODUCER, PEG_CLEAR and PEG_WINDOW set
what they name; TLM_READ answers boundary copies and TLM_READ_CLEAR a bay's counters, which it clears. -/
def Obligations.SystemAndTelemetryCommands : Prop :=
  ∀ (s : State) (m : Mail), s.Sealed →
  let b := m.bay.toNat
  let Ok := fun (i : Instr) (op : Nat) (x : State) (pay : List Byte) => ∃ t, exec i s = .next t ∧ s.Done x t op m pay
  (s.Accepts 0x0100 m → Ok (.sysInfo m) 0x0100 (s.given 0x0100 m)
    ([Reg.SYS_CHIP_ID, Reg.SYS_FWVER, Reg.RDY_BOARD_LO, Reg.RDY_BOARD_HI, Reg.SYS_PAIR, Reg.SYS_CLKSTAT].flatMap fun a => natLe 4 (s.reg a).toNat)) ∧
  (s.Accepts 0x0101 m → Ok (.sysNop m) 0x0101 (s.given 0x0101 m) []) ∧
  (s.Accepts 0x0110 m → ∀ l y, let g := s.given 0x0110 m
    g.blocksReady 0 (m.f 0 2) (m.f 2 2) = true → m.f 4 4 ≤ 65536 * m.f 2 2 → m.f 4 4 ≤ 0x100000 → g.blockBytes 0 (m.f 0 2) (m.f 4 4) = (some l, y) →
    imageOk s.otp.rollback l = true → let z := y.blocksIdle 0 (m.f 0 2) (m.f 2 2)
    Ok (.sysFwStage m) 0x0110
      { z with flash := writeBytes erasedByte l (0x100000 + 0x100000 * (1 - s.get Fd.SYS_FWVER_BANK)) z.flash
               fw := { z.fw with done := z.fw.done ++ [⟨⟨m.ring.val, m.seq, 0x0110⟩, 0⟩] } } (natLe 3 (fieldAt l 4 3) ++ [0])) ∧
  (s.Accepts 0x0111 m → m.f 0 1 ≤ 1 → imageOk s.otp.rollback (s.bankImage (m.f 0 1)) = true →
    Ok (.sysFwSelect m) 0x0111 ({ s.given 0x0111 m with flash := writeBytes erasedByte (natLe 1 (m.f 0 1)) 0 s.flash }.put Fd.SYS_FWVER_NEXT (m.f 0 1)) []) ∧
  (s.Accepts 0x0205 m → m.f 0 1 ≤ 1 → ¬(b = 0 ∧ m.f 0 1 = 1) → (s.ring b).cmdPi = (s.ring b).cmdCi → (s.ring b).rspPi = (s.ring b).rspCi →
    Ok (.bayProducer m) 0x0205 ((s.given 0x0205 m).put (Fd.MBX_CFG_PRODUCER b) (m.f 0 1)) []) ∧
  (s.Accepts 0x0220 m → let y := s.bayRec b
    Ok (.bayStatus m) 0x0220 (s.given 0x0220 m) (natLe 1 (s.bayState b) ++ natLe 1 y.coreUnit ++ natLe 1 y.sliceFirst ++ natLe 1 y.sliceLen ++
      natLe 4 y.entry.toNat ++ natLe 8 (partId (s.part b)) ++ natLe 8 (partId (vget s.fig.staged b)) ++ natLe 2 (s.get (Fd.BXM_VIOL_COUNT b)) ++
      natLe 1 (s.get (Fd.MBX_CFG_PRODUCER b)) ++ natLe 5 0)) ∧
  (s.Accepts 0x0240 m → m.f 0 2 < 4096 → s.peg b (m.f 0 2) = pFAULT →
    Ok (.pegClear m) 0x0240 ((s.given 0x0240 m).put (pegFld b (m.f 0 2)) pIDLE) (natLe 1 pFAULT ++ natLe 3 0)) ∧
  (s.Accepts 0x0240 m → m.f 0 2 < 4096 → s.peg b (m.f 0 2) ≠ pFAULT →
    Ok (.pegClear m) 0x0240 (s.given 0x0240 m) (natLe 1 (s.peg b (m.f 0 2)) ++ natLe 3 0)) ∧
  (s.Accepts 0x0241 m → m.f 0 1 ≤ 1 → m.f 4 4 < 2 ^ 19 → (∀ k, k < 256 → s.reg (Reg.PEG_STATE b k) = 0) →
    Ok (.pegWindow m) 0x0241 (((s.given 0x0241 m).put (Fd.PEG_WIN_TARGET b) (m.f 0 1)).put (Fd.PEG_WIN_BASE b) (m.f 4 4)) []) ∧
  (s.Accepts 0x0E00 m → 1 ≤ m.f 4 1 → m.f 4 1 ≤ 12 → m.f 0 4 % 4 = 0 → (∀ i, i < m.f 4 1 →
      listedBlocks.contains ((m.f 0 4 + 4 * i) / 65536) = true ∧ s.bayReads b none (m.f 0 4 + 4 * i) = true) →
    Ok (.tlmRead m) 0x0E00 (s.given 0x0E00 m) ((List.range (m.f 4 1)).flatMap fun i => natLe 4 (sget regReset s.fig.shadow (m.f 0 4 + 4 * i)).toNat)) ∧
  (s.Accepts 0x0E01 m → Ok (.tlmReadClear m) 0x0E01 ((s.given 0x0E01 m).modBay b fun y => { y with counters := Vector.replicate 12 0 })
    ((s.bayRec b).counters.toList.flatMap (natLe 4)))

/-- The life of a bay (R206 to R210, R275, R276): BAY_CREATE sets its grants, entry, slice and figure key and makes it CREATED; BAY_START makes
it RUNNING, with the cores of a powered unit that no other bay shares, in its slice, at S at the entry, g2 = 0; BAY_SLEEP, BAY_RESUME and
BAY_DELETE are scheduled; BAY_WAKE of an ASLEEP bay starts the wake and waits; when the zeroing is done, no write to the bay's memory being
under way, its working SRAM and bank field read 0, its grant is gone and it is EMPTY. -/
def Obligations.BayLife : Prop :=
  ∀ (s : State) (m : Mail), s.Sealed →
  let b := m.bay.toNat
  let o := fun (op : Nat) => some (⟨m.ring.val, m.seq, op⟩ : Origin)
  let p := s.periodUs
  let Planned := fun (i : Instr) (op k : Nat) (e : Effect) => ∃ t, exec i s = .next t ∧
    s.Done { s.given op m with fw := { s.fw with sched := s.fw.sched ++ [⟨k, p, e, o op⟩] } } t op m (natLe 8 k)
  let u := m.f 4 1
  let entry := m.f 0 4
  let key := m.f 24 1
  let sane := entry % 4 = 0 ∧
    ((0x08040000 + 4096 * m.f 8 2 ≤ entry ∧ entry < 0x08040000 + 4096 * (m.f 8 2 + m.f 10 2) ∧ entry < 0x08080000) ∨
     ∃ a, s.place ((unitCores u).headD 2) entry = .ddr a ∧ 2 ^ 24 * m.f 16 2 ≤ a ∧ a < 2 ^ 24 * (m.f 16 2 + m.f 18 2)) ∧
    ((u ∈ [0x82, 0x84, 2, 3, 4, 5] ∧ 1 ≤ m.f 6 1 ∧ m.f 5 1 + m.f 6 1 ≤ 16) ∨ (u = 0xFF ∧ m.f 5 1 = 0 ∧ m.f 6 1 = 0)) ∧
    m.f 8 2 ≤ 63 ∧ m.f 8 2 + m.f 10 2 ≤ 64 ∧ m.f 12 2 ≤ 511 ∧ m.f 12 2 + m.f 14 2 ≤ 512 ∧ m.f 16 2 ≤ 2047 ∧ m.f 16 2 + m.f 18 2 ≤ 2048 ∧
    (m.f 18 2 ≠ 0 → (m.f 16 2 + m.f 18 2) * 2 ^ 24 ≤ 2 * s.ddrChan ∧ ∀ i, i < m.f 18 2 →
      s.ddrOk ((m.f 16 2 + i) * 2 ^ 24) = true ∧ s.ddrOk ((m.f 16 2 + i + 1) * 2 ^ 24 - 1) = true) ∧ m.f 7 1 ≤ 1 ∧
    m.f 20 2 ≤ 4096 ∧ m.f 22 2 ≤ 4096 ∧ key ≤ 63 ∧ key % 2 = 0 ∧ s.keyOwner key = 0 ∧ s.keyType key = 3 ∧ bitAt (s.keyUsage key) uFIGURE = true
  let free := s.rangeClash b Fd.BXM_SRAM_BASE Fd.BXM_SRAM_LEN (m.f 8 2) (m.f 10 2) = false ∧
    s.rangeClash b Fd.BXM_BKF_BASE Fd.BXM_BKF_LEN (m.f 12 2) (m.f 14 2) = false ∧
    s.rangeClash b Fd.BXM_DDR_BASE Fd.BXM_DDR_LEN (m.f 16 2) (m.f 18 2) = false ∧ s.unitClash b u (m.f 5 1) (m.f 6 1) = false ∧
    ∀ e ∈ s.fw.sched, ∀ x l, e.eff = .grantKeys x l → x ≠ b → l.getLsbD key = false ∧ l.getLsbD (key + 1) = false
  (s.Accepts 0x0200 m → sane → free → ∃ t, exec (.bayCreate m) s = .next t ∧ s.Responds t 0x0200 m stOK [] ∧ t.bayState b = bCREATED ∧
    t.get (Fd.BXM_SRAM_BASE b) = m.f 8 2 ∧ t.get (Fd.BXM_SRAM_LEN b) = m.f 10 2 ∧ t.get (Fd.BXM_BKF_BASE b) = m.f 12 2 ∧
    t.get (Fd.BXM_BKF_LEN b) = m.f 14 2 ∧ t.get (Fd.BXM_DDR_BASE b) = m.f 16 2 ∧ t.get (Fd.BXM_DDR_LEN b) = m.f 18 2 ∧ t.get (Fd.FGE_ACT_QUOTA b) = m.f 20 2 ∧
    t.get (Fd.FGE_DESC_QUOTA b) = m.f 22 2 ∧ t.get (Fd.MBX_CFG_PRODUCER b) = m.f 7 1 ∧ t.keyOwner key = b ∧
    (t.bayRec b).entry = BitVec.ofNat 32 entry ∧ (t.bayRec b).coreUnit = u ∧ (t.bayRec b).sliceFirst = m.f 5 1 ∧
    (t.bayRec b).sliceLen = m.f 6 1 ∧ (t.bayRec b).figKey = key ∧ (∀ i, i < 8 → i ≠ b → t.bayState i = s.bayState i) ∧
    t.cores = s.cores ∧ t.fig = s.fig ∧ s.MemKept t ∧ s.RegsKept t [0x4000, 0x4002, 0x4010, 0x401A, 0x4020, 0x4050]) ∧
  (s.Accepts 0x0210 m → s.bayState b = bCREATED → ∃ t, exec (.bayStart m) s = .next t ∧ s.Responds t 0x0210 m stOK [] ∧ t.bayState b = bRUNNING ∧
    t.ready (rBAY b) = true ∧ t.fig = s.fig ∧ s.MemKept t ∧
    (s.unitShared b = false → s.unitOn b = true → s.inSlice b = true → ∀ c, c ∈ unitCores (s.bayRec b).coreUnit →
      (∀ d, d < 6 → s.bit (Fd.DBG_CTL_HALT_ON_RESET d) = false) →
      t.coreState c = 1 ∧ t.bit (Fd.SYS_CORECTL_RUN c) = true ∧ (t.core c).level = .s ∧ (t.core c).pc = (s.bayRec b).entry.extractLsb' 2 30 ∧
        (t.core c).bay.toNat = b ∧ vget (t.core c).g 2 = 0)) ∧
  (∀ k, s.Accepts 0x0211 m → s.bayState b = bRUNNING → b ≠ 0 → s.chooseMeasure p (m.f 0 8) = some k → Planned (.baySleep m) 0x0211 k (.bayPark b)) ∧
  (∀ k, s.Accepts 0x0213 m → s.bayState b = bFAULTED → s.chooseMeasure p 0 = some k → Planned (.bayResume m) 0x0213 k (.bayResume b)) ∧
  (∀ k, s.Accepts 0x0214 m → b ≠ 0 → bitAt m.flags.toNat 1 = true ∨ (∀ h ∈ s.shares, h.owner = b → (s.given 0x0214 m).shareUsed h = false) → s.chooseMeasure p (m.f 0 8) = some k →
    Planned (.bayDelete m) 0x0214 k (.bayDelete b (bitAt m.flags.toNat 1))) ∧
  (∀ k, s.Accepts 0x0212 m → s.bayState b = bASLEEP → (s.bayRec b).waking = false → let q := s.partPeriod ((s.bayRec b).parked.map (·.1))
    s.chooseMeasure q 0 = some k → ∃ t, exec (.bayWake m) s = .next t ∧ t.fw.sched = s.fw.sched ++ [⟨k, q, .bayWake b, o 0x0212⟩] ∧
      (t.bayRec b).waking = true ∧ t.mbx.waiting = s.mbx.waiting ++ [(m.ring.val, mailBytes 0x0212 m)] ∧ t.bayState b = bASLEEP ∧
      (t.ring m.ring.val).rspPi = (s.ring m.ring.val).rspPi ∧ t.cores = s.cores ∧ t.fig = s.fig ∧ s.MemKept t ∧ s.RegsBut t [Reg.MBX_DBLATCH]) ∧
  (∀ d : Fin 8, d ≠ 0 → s.stands = false → s.bayState d = bDRAINING → s.rangeBusy d = false → ∃ t, exec (.bayZeroingDone d) s = .next t ∧ t.bayState d = bEMPTY ∧ t.ready (rBAY d) = false ∧
    t.bayRec d = {} ∧ (∀ a, 0x40000 + 4096 * s.get (Fd.BXM_SRAM_BASE d) ≤ a →
      a < 0x40000 + 4096 * (s.get (Fd.BXM_SRAM_BASE d) + s.get (Fd.BXM_SRAM_LEN d)) → sget zeroByte t.sram a = 0) ∧
    (∀ a, ¬(0x40000 + 4096 * s.get (Fd.BXM_SRAM_BASE d) ≤ a ∧ a < 0x40000 + 4096 * (s.get (Fd.BXM_SRAM_BASE d) + s.get (Fd.BXM_SRAM_LEN d))) →
      sget zeroByte t.sram a = sget zeroByte s.sram a) ∧
    (∀ a, 65536 * s.get (Fd.BXM_BKF_BASE d) ≤ a → a < 65536 * (s.get (Fd.BXM_BKF_BASE d) + s.get (Fd.BXM_BKF_LEN d)) → sget zeroByte t.bkf a = 0) ∧
    t.get (Fd.BXM_SRAM_LEN d) = 0 ∧ t.get (Fd.BXM_BKF_LEN d) = 0 ∧ t.get (Fd.BXM_DDR_LEN d) = 0 ∧
    (∀ i, i < 48 → t.destOwner i ≠ d.val ∧ t.sourceOwner i ≠ d.val) ∧ t.cores = s.cores ∧ t.rom = s.rom ∧ t.flash = s.flash)

/-- Grant and share commands (R191 to R195, R202 to R204, R276): with no other bay's grant in the way at the measure or at a later one for which a
grant has been accepted, no phase starved and nothing in use taken away, the change is scheduled for that measure and answered with it; SHARE_GRANT also answers the free index it takes. -/
def Obligations.GrantCommands : Prop :=
  ∀ (s : State) (m : Mail) (k : Nat), s.Sealed →
  let b := m.bay.toNat
  let p := s.periodUs
  let Planned := fun (i : Instr) (op : Nat) (e : Effect) (more : List Byte) => ∃ t, exec i s = .next t ∧
    s.Done { s.given op m with fw := { s.fw with sched := s.fw.sched ++ [⟨k, p, e, some ⟨m.ring.val, m.seq, op⟩⟩] } } t op m (natLe 8 k ++ more)
  let Fits := fun (e : Effect) => let x := (s.grantsAt p k).grantEffect e
    x.laterFault State.grantClash (s.laterGrants p k) = false ∧ x.laterFault (fun g y => (g.grantEffect y).starved y) (s.laterGrants p k) = false
  (s.Accepts 0x0201 m → let g := s.given 0x0201 m
    let first := m.f 0 2
    let n := m.f 2 2
    let mask := BitVec.ofNat 64 (m.f 4 8)
    let e := Effect.grantPhase b first n mask
    let x := (g.grantsAt p k).grantEffect e
    1 ≤ n → n ≤ 512 → (∀ r, first ≤ r → r < first + n → r < 512 ∧ Load.phased r = true) → s.chooseMeasure p (m.f 12 8) = some k →
    (∀ r, first ≤ r → r < first + n → ∀ i, i < 8 → i ≠ b → (g.grantsAt p k).phaseOf i r &&& mask = 0) →
    (∀ r, first ≤ r → r < first + n → r < 256 → (List.range 8).foldl (fun v i => v ||| x.phaseOf i r) 0#64 ≠ BitVec.allOnes 64) →
    (∀ q ∈ g.partsOf b, ∀ a ∈ q.allot, first ≤ a.1 → a.1 < first + n → BitVec.ofNat 64 a.2 &&& ~~~ mask = 0) →
    Fits e → Planned (.bayGrantPhase m) 0x0201 e []) ∧
  (s.Accepts 0x0202 m → let g := s.given 0x0202 m
    let e := Effect.grantPorts b (m.f 0 6) (m.f 6 6)
    s.chooseMeasure p (m.f 12 8) = some k →
    (∀ i, i < 48 → (bitAt (m.f 0 6) i = true → (g.grantsAt p k).sourceOwner i = 0xF ∨ (g.grantsAt p k).sourceOwner i = b) ∧
      (bitAt (m.f 6 6) i = true → (g.grantsAt p k).destOwner i = 0xF ∨ (g.grantsAt p k).destOwner i = b)) →
    g.takesAway ((g.grantsAt p k).grantEffect e) b = false → Fits e → Planned (.bayGrantPorts m) 0x0202 e []) ∧
  (s.Accepts 0x0203 m → let g := s.given 0x0203 m
    let n : NetGrant := ⟨BitVec.ofNat 8 (m.f 1 1), m.f 2 1, m.f 3 1, m.f 4 2, m.f 6 2, m.f 8 1, m.f 9 1⟩
    let e := Effect.grantNet b (m.f 0 1) n
    m.f 0 1 ≤ 3 → n.trdpFirst + n.trdpCount ≤ 256 → n.filtFirst + n.filtCount ≤ 1024 → n.saFirst + n.saCount ≤ 32 →
    s.chooseMeasure p (m.f 12 8) = some k →
    (∀ i, i < 8 → i ≠ b → let y := vget ((g.grantsAt p k).bayRec i).net (m.f 0 1)
      y.queues &&& n.queues = 0 ∧ Load.overlaps n.trdpFirst n.trdpCount y.trdpFirst y.trdpCount = false ∧
      Load.overlaps n.saFirst n.saCount y.saFirst y.saCount = false ∧ ∀ j, j < 4 → let z := vget ((g.grantsAt p k).bayRec i).net j
        Load.overlaps n.filtFirst n.filtCount z.filtFirst z.filtCount = false) →
    g.takesAway ((g.grantsAt p k).grantEffect e) b = false → g.filtersLost ((g.grantsAt p k).grantEffect e) b = false →
    g.queuesLost ((g.grantsAt p k).grantEffect e) b (m.f 0 1) = false → Fits e →
    (∀ a ∈ (s.macPort (m.f 0 1)).sas, a.2.bay = b → n.saFirst ≤ a.1 ∧ a.1 < n.saFirst + n.saCount) → Planned (.bayGrantNet m) 0x0203 e []) ∧
  (s.Accepts 0x0204 m → let g := s.given 0x0204 m
    let l := BitVec.ofNat 64 (m.f 0 8)
    let e := Effect.grantKeys b l
    s.chooseMeasure p (m.f 8 8) = some k →
    (∀ i, i < 64 → l.getLsbD i = true → (g.grantsAt p k).keyOwner i = 0 ∨ (g.grantsAt p k).keyOwner i = b) →
    (∀ i, i < 64 → s.slotBusy i = true → s.keyOwner i = b → ((g.grantsAt p k).grantEffect e).keyOwner i = b) →
    Fits e → Planned (.bayGrantKeys m) 0x0204 e []) ∧
  (s.Accepts 0x0230 m → ∀ i, let g := s.given 0x0230 m
    let h : Share := ⟨m.f 0 1 = 1, b, m.f 1 1, m.f 2 1, m.f 3 1, m.f 4 4, m.f 8 4⟩
    m.f 0 1 ≤ 1 → h.borrower ≤ 7 → h.borrower ≠ b → s.bayState h.borrower ≠ bEMPTY → s.bayState h.borrower ≠ bDRAINING →
    (m.f 0 1 = 1 → h.target ≤ 1 ∧ h.len ≠ 0 ∧
      (h.target = 0 → s.get (Fd.BXM_BKF_BASE b) ≤ h.base ∧ h.base + h.len ≤ s.get (Fd.BXM_BKF_BASE b) + s.get (Fd.BXM_BKF_LEN b)) ∧
      (h.target = 1 → s.get (Fd.BXM_DDR_BASE b) ≤ h.base ∧ h.base + h.len ≤ s.get (Fd.BXM_DDR_BASE b) + s.get (Fd.BXM_DDR_LEN b))) →
    (m.f 0 1 = 0 → h.source ≤ 47 ∧ (g.grantsAt p k).sourceOwner h.source = b) → s.chooseMeasure p (m.f 16 8) = some k →
    let taken := fun (j : Nat) => vget (g.grantsAt p k).fw.shares j ≠ none ∨ vget s.fw.shares j ≠ none ∨ ∃ x ∈ s.fw.sched, ∃ y, x.eff = .shareMake j y
    i < 16 → ¬taken i → (∀ j, j < i → taken j) → Planned (.shareGrant m) 0x0230 (.shareMake i h) (natLe 1 i ++ natLe 7 0)) ∧
  (s.Accepts 0x0231 m → ∀ h, m.f 0 1 < 16 → vget s.fw.shares (m.f 0 1) = some h → (s.given 0x0231 m).shareUsed h = false →
    s.chooseMeasure p (m.f 8 8) = some k → Planned (.shareRevoke m) 0x0231 (.shareRevoke (m.f 0 1)) [])

/-- Figure commands (R69 to R76, R105, R116, R277): FIG_STAGE of an image that every check passes fills the staging slot, frees its blocks and
reports code 0; FIG_COMMIT schedules the staged part for a measure, whose grants and those that later effects leave it suits, and powers the engines and codecs that it uses; FIG_WITHDRAW clears the staging slot, or takes back a commit that is at
least 100 µs away; FIG_STATUS reports; FIG_LUT writes shadow entries and asks for their swap. -/
def Obligations.FigureCommands : Prop :=
  ∀ (s : State) (m : Mail), s.Sealed →
  let b := m.bay.toNat
  let Ok := fun (i : Instr) (op : Nat) (x : State) (pay : List Byte) => ∃ t, exec i s = .next t ∧ s.Done x t op m pay
  (s.Accepts 0x0300 m → ∀ img y z, let g := s.given 0x0300 m
    g.blocksReady b (m.f 0 2) (m.f 2 2) = true → m.f 4 4 ≤ 65536 * m.f 2 2 → g.blockBytes b (m.f 0 2) (m.f 4 4) = (some img, y) →
    s.ready rKEY = true → y.figVerifies b img = (true, z) → Load.checks z b img ⟨true, true⟩ (g.otherParts b) = none →
    let x := ((z.blocksIdle b (m.f 0 2) (m.f 2 2)).loadResult b none).setStaged b (some (Load.readPart img))
    Ok (.figStage m) 0x0300 x (natLe 16 0 ++ natLe 8 (Load.readPart img).partId) ∧ vget x.fig.staged b = some (Load.readPart img) ∧
    x.get (Fd.FGE_LOAD_CODE b) = 0 ∧ ∀ i, i < m.f 2 2 → x.peg b (m.f 0 2 + i) = pIDLE) ∧
  (s.Accepts 0x0301 m → ∀ q k, let g := s.given 0x0301 m
    let per := s.partPeriod (some q)
    vget s.fig.staged b = some q → s.chooseMeasure per (m.f 0 8) = some k →
    (q.acts ≠ [] → ((s.geometryChange per k q).isSome = true → k * per % 1000000 = 0) ∧
      Load.commitChecks (g.grantsAt per k) b (Load.mateOf q (vget s.fig.carry b)) (g.partsAt per k b) = none ∧
      (g.grantsAt per k).laterFail b (Load.mateOf q (vget s.fig.carry b)) (g.grantsMet per k b) = none) →
    let y := (((g.setStaged b none).modFig fun f => { f with commits := f.commits ++ [(b, k, q)] }).wakeEngines q).each q.routes
      fun s e => s.wakeCodec e.dest (routeOf b e)
    let x := ((y.showCommit b).loadResult b none).schedule per k (.commit b) (some ⟨m.ring.val, m.seq, 0x0301⟩)
    Ok (.figCommit m) 0x0301 x (natLe 8 k) ∧ vget x.fig.staged b = none ∧ x.fig.commits = s.fig.commits ++ [(b, k, q)] ∧
    x.bit ⟨Reg.FGE_STATUS, 24 + b, 24 + b⟩ = true) ∧
  (s.Accepts 0x0302 m → m.f 0 1 = 0 → Ok (.figWithdraw m) 0x0302 ((s.given 0x0302 m).setStaged b none) []) ∧
  (s.Accepts 0x0302 m → m.f 0 1 = 1 → (∀ c ∈ s.fig.commits, c.1 ≠ b) → Ok (.figWithdraw m) 0x0302 (s.given 0x0302 m) []) ∧
  (s.Accepts 0x0302 m → m.f 0 1 = 1 → ∀ k q e, s.fig.commits.reverse.find? (·.1 = b) = some (b, k, q) →
    s.fw.sched.find? (fun y => y.eff = .commit b && y.measure = k) = some e → s.tme.t + 100000 * 2 ^ 48 ≤ timePoint e.period k →
    let x := ((((s.given 0x0302 m).modFig fun f => { f with commits := f.commits.erase (b, k, q) }).modFw fun f =>
      { f with sched := f.sched.erase e }).showCommit b).setStaged b (some q)
    Ok (.figWithdraw m) 0x0302 x []) ∧
  (s.Accepts 0x0303 m → Ok (.figStatus m) 0x0303 (s.given 0x0303 m) (natLe 8 (partId (s.part b)) ++ natLe 8 (partId (vget s.fig.staged b)) ++
    natLe 8 (match s.fig.commits.find? (·.1 = b) with | some c => c.2.1 | none => 0) ++ natLe 2 (s.get (Fd.FGE_LOAD_CODE b)) ++ natLe 6 0)) ∧
  (s.Accepts 0x0310 m → let es := if m.f 0 1 = 0xFF then [0, 1, 2, 3] else [m.f 0 1]
    m.f 0 1 ≤ 3 ∨ m.f 0 1 = 0xFF → 1 ≤ m.f 2 1 → m.f 2 1 ≤ 10 → m.f 3 1 ≤ 1 → m.f 1 1 + m.f 2 1 ≤ 256 → (∀ e ∈ es, s.domOn (8 + e) = true) →
    ∃ t, exec (.figLut m) s = .next t ∧ s.Responds t 0x0310 m stOK [] ∧
      (∀ e ∈ es, (∀ k, k < m.f 2 1 → t.reg (Reg.SE_LUT e b (m.f 1 1 + k)) = BitVec.ofNat 32 (m.f (4 + 4 * k) 4)) ∧
        (t.reg (Reg.SE_LUTSWAP e)).getLsbD b = (m.f 3 1 = 1 || (s.reg (Reg.SE_LUTSWAP e)).getLsbD b)) ∧
      s.RegsBut t (Reg.MBX_DBLATCH :: es.map Reg.SE_LUTSWAP ++ es.flatMap fun e => (List.range (m.f 2 1)).map fun k => Reg.SE_LUT e b (m.f 1 1 + k)) ∧
      s.MemKept t ∧ t.fig = s.fig)

/-- Route, port and layer commands (R272, R278, R300, R305, R324, R334 to R337): ROUTE_SET and LAYER_COMMIT are scheduled for a measure at
which the bay owns what they change; a route or profile that needs the codecs powers them; ROUTE_CANCEL drops what is not yet 100 µs away; ROUTE_PROFILE, VIN_CFG and LAYER_SET take their settings
into table and shadows; VOUT_CFG starts the port's timing; ROUTE_STATUS reports. -/
def Obligations.RouteAndLayerCommands : Prop :=
  ∀ (s : State) (m : Mail) (k : Nat), s.Sealed →
  let b := m.bay.toNat
  let p := s.periodUs
  let d := m.f 0 1
  let l := ((fixLen 0 48 m.pay).drop 4).take 40
  let Ok := fun (i : Instr) (op : Nat) (x : State) (pay : List Byte) => ∃ t, exec i s = .next t ∧ s.Done x t op m pay
  (s.Accepts 0x0400 m → let g := s.given 0x0400 m
    let r : Route := ⟨m.f 1 1, m.f 2 1 = 1, m.f 4 4, b⟩
    d ≤ 47 → r.source ≤ 47 ∨ r.source = 0xFF → m.f 2 1 ≤ 1 → r.profile ≤ 63 → s.chooseMeasure p (m.f 8 8) = some k →
    (g.grantsAt p k).destOwner d = b → r.source = 0xFF ∨ (g.grantsAt p k).maySource b r.source = true →
    Ok (.routeSet m) 0x0400 (((g.schedule p k (.routeSet d r) (some ⟨m.ring.val, m.seq, 0x0400⟩)).wakeCodec d r).showDest d) (natLe 8 k)) ∧
  (s.Accepts 0x0401 m → d ≤ 47 → s.destOwner d = b → (∀ q, (s.dest d).pend = some q → q.2.2.2 = none) →
    (∀ e ∈ s.fw.sched, e.routes d = true → s.tme.t + 100000 * 2 ^ 48 ≤ timePoint e.period e.measure) →
    Ok (.routeCancel m) 0x0401 (({ s.given 0x0401 m with fw := { s.fw with sched := s.fw.sched.filter fun e => !e.routes d } }).showDest d) []) ∧
  (s.Accepts 0x0402 m → d ≤ 47 → s.destOwner d = b → (s.dest d).pend = none → (∀ e ∈ s.fw.sched, e.routes d = false) → let x := s.dest d
    Ok (.routeStatus m) 0x0402 (s.given 0x0402 m) (natLe 1 x.route.source ++ natLe 1 (b2n x.route.replay) ++ natLe 1 0xFE ++
      natLe 1 (b2n x.override.isSome) ++ natLe 4 x.route.profile ++ natLe 8 0)) ∧
  (s.Accepts 0x0410 m → m.f 0 4 ≤ 63 → profileOk l = true →
    let x := ((s.given 0x0410 m).modVid fun v => { v with profs := sset (fun _ => List.replicate 40 (0 : Byte)) (b * 64 + m.f 0 4) l v.profs }).each
      (List.range 48) fun s i => s.wakeCodec i (s.dest i).route
    Ok (.routeProfile m) 0x0410 x [] ∧ x.profile b (m.f 0 4) = l ∧ ∀ c n, n ≤ 63 → (c, n) ≠ (b, m.f 0 4) → x.profile c n = s.profile c n) ∧
  (s.Accepts 0x0420 m → ∀ n, let page := fieldAt l 0 1
    d ≤ 23 → vinPage ((s.conf d).shadow.getD (s.conf d).cfg) l = some n → (∀ i, i < 40 → vinCovered page i = true ∨ l.getD i 0 = 0) →
    (page = 0 → s.vinClash d n = false ∧ (n.holdSrc = 0xFF ∨ s.sourceOwner (40 + n.holdSrc) = b)) → s.sourceOwner d = b →
    Ok (.vinCfg m) 0x0420 ((s.given 0x0420 m).vinCfg d n page) []) ∧
  (s.Accepts 0x0421 m → d ≤ 3 → Tim.ok l = true → (∀ i, i < 4 → s.destOwner (4 * d + i) = b) →
    Ok (.voutCfg m) 0x0421 ((s.given 0x0421 m).voutCfg d l) []) ∧
  (s.Accepts 0x0500 m → let y := m.f 1 1
    d ≤ 3 → y ≤ 7 → Lay.ok y l = true → s.ownsLayer b d y = true →
    Ok (.layerSet m) 0x0500 ((s.given 0x0500 m).modComp d fun c => { c with shadow := vmod c.shadow y fun _ => l }) []) ∧
  (s.Accepts 0x0501 m → let g := s.given 0x0501 m
    let ls := (List.range 8).filter fun y => bitAt (m.f 1 1) y
    let sets := ls.map fun y => (y, vget (s.comp d).shadow y)
    d ≤ 3 → s.chooseMeasure p (m.f 8 8) = some k → zClash (g.layersAfter d p k sets) = false →
    (∀ y ∈ ls, (g.grantsAt p k).ownsLayer b d y = true) →
    Ok (.layerCommit m) 0x0501 (((g.modComp d fun c =>
      { c with commits := c.commits ++ [⟨k, none, sets, some ⟨m.ring.val, m.seq, 0x0501⟩⟩] }).showComp d).schedule p k (.layerCommit d (m.f 1 1)) none)
      (natLe 8 k))

/-- Audio, odometry and PWM commands (R342 to R347, R357, R362, R366, R371, R378, R383, R390, R391, R279): with a payload in range, each sets
its unit's configuration, a channel enabled while a fault input is low being forced off at once (R389); AUD_ROUTE is scheduled; ODO_STATUS reports the position words, axle states and selection. -/
def Obligations.AudioOdometryPwmCommands : Prop :=
  ∀ (s : State) (m : Mail), s.Sealed →
  let n := m.f 0 1
  let Ok := fun (i : Instr) (op : Nat) (x : State) (pay : List Byte) => ∃ t, exec i s = .next t ∧ s.Done x t op m pay
  (s.Accepts 0x0600 m → n ≤ 3 → m.f 1 1 ≤ 1 → 1 ≤ m.f 2 1 → m.f 2 1 ≤ 32 → 8 ≤ m.f 3 1 → m.f 3 1 ≤ 32 → m.f 4 1 ≤ 31 → m.f 5 1 ≤ 3 →
    8000 ≤ m.f 8 4 → m.f 8 4 ≤ 192000 → m.f 4 1 < m.f 2 1 * m.f 3 1 → m.f 8 4 * (m.f 2 1 * m.f 3 1) ≤ 50000000 →
    let x := (s.given 0x0600 m).tdmCfg n (m.f 1 1 = 1)
      { slots := m.f 2 1, width := m.f 3 1, offset := m.f 4 1, master := bitAt (m.f 5 1) 0, falling := bitAt (m.f 5 1) 1, rate := m.f 8 4 }
    Ok (.audTdmCfg m) 0x0600 x [] ∧ (x.tdm n (m.f 1 1 = 1)).run = true ∧ (x.tdm n (m.f 1 1 = 1)).slots = m.f 2 1) ∧
  (s.Accepts 0x0601 m → ∀ k, s.chooseMeasure s.periodUs (m.f 8 8) = some k →
    (s.audAfter s.fw.sched).audRouteOk (m.f 0 2) (m.f 2 2) = true →
    ((s.audAfter (s.dueBy s.periodUs k)).modRoute (m.f 0 2) fun r => { r with inp := m.f 2 2, pend := none }).audFits (s.dueAfter s.periodUs k) = true →
    Ok (.audRoute m) 0x0601 ((s.given 0x0601 m).schedule s.periodUs k (.audRoute (m.f 0 2) (m.f 2 2) (signed 16 (m.f 4 2)))
      (some ⟨m.ring.val, m.seq, 0x0601⟩)) (natLe 8 k)) ∧
  (s.Accepts 0x0602 m → (outDomain (m.f 0 2)).isSome = true → m.f 4 4 ≤ 500000 →
    (s.modRoute (m.f 0 2) fun r => { r with delay := m.f 4 4 }).audFits (s.fw.sched.foldl (fun l e => insertSched e l) []) = true →
    Ok (.audDelay m) 0x0602 ((s.given 0x0602 m).audDelay (m.f 0 2) (m.f 4 4)) []) ∧
  (s.Accepts 0x0700 m → n ≤ 3 → m.f 1 1 ≤ 15 → 0x40 ≤ m.f 2 2 → m.f 2 2 ≤ 0xF0 → 0x110 ≤ m.f 4 2 → m.f 4 2 ≤ 0x400 → 100 ≤ m.f 8 4 →
    m.f 8 4 ≤ 60000 → m.f 12 1 ≤ 1 → let x := (s.given 0x0700 m).axleCfg n (m.f 1 1) (m.f 2 2) (m.f 4 2) (m.f 8 4) (m.f 12 1 = 1)
    Ok (.odoAxleCfg m) 0x0700 x [] ∧ x.get (Fd.ODO_AXCFG_PRIORITY n) = m.f 1 1 ∧ x.get (Fd.ODO_AXFAC_LOW n) = m.f 2 2 ∧
    x.get (Fd.ODO_AXFAC_HIGH n) = m.f 4 2 ∧ x.get Fd.ODO_STALL_T_MS = m.f 8 4) ∧
  (s.Accepts 0x0701 m → armOk (m.cx 0x0701) = true → let x := (s.given 0x0701 m).armSlot ((fixLen 0 48 m.pay).take 32)
    Ok (.odoEventArm m) 0x0701 x [] ∧ x.get (Fd.ODO_EVSTAT_STATE n) = (if m.f 1 1 = 0 then 0 else 1)) ∧
  (s.Accepts 0x0702 m → n ≤ 63 → let x := (s.given 0x0702 m).clearSlot n
    Ok (.odoEventDisarm m) 0x0702 x [] ∧ x.get (Fd.ODO_EVSTAT_STATE n) = 0) ∧
  (s.Accepts 0x0703 m → let z := signed 48 (m.f 0 8 % 2 ^ 48)
    let x := (s.given 0x0703 m).setPos z
    Ok (.odoSetPos m) 0x0703 x [] ∧ x.odo.offset = wrap48 (z - s.axPos s.odo.sel)) ∧
  (s.Accepts 0x0704 m → let x := (s.given 0x0704 m).odoShow
    Ok (.odoStatus m) 0x0704 x ((x.posWords s.snap.posSeq).flatMap (fun w => natLe 2 w.toNat) ++
      (List.range 4).flatMap (fun a => natLe 1 (s.get (Fd.ODO_AXSTAT_STATE a))) ++ natLe 4 (x.reg Reg.ODO_SEL).toNat)) ∧
  (s.Accepts 0x0800 m → pwmCfgOk (m.cx 0x0800) = true → ∃ t, exec (.pwmCfg m) s = .next t ∧ s.Responds t 0x0800 m stOK [] ∧
    t.bit (Fd.PWM_CTL_ENABLE n) = bitAt (m.f 1 1) 0 ∧ t.bit (Fd.PWM_CTL_INVERT n) = bitAt (m.f 1 1) 1 ∧ t.get (Fd.PWM_CTL_SYNC n) = m.f 16 1 ∧
    t.get (Fd.PWM_CTL_SYNC_ARG n) = m.f 17 1 ∧ t.get (Fd.PWM_PER_PERIOD n) = m.f 4 4 ∧ t.get (Fd.PWM_DUTY_DUTY n) = m.f 8 4 ∧
    s.MemKept t ∧ t.fig = s.fig ∧
    (s.faultsLow = 0 → s.RegsBut t [Reg.MBX_DBLATCH, Reg.PWM_CTL n, Reg.PWM_PER n, Reg.PWM_DUTY n, Reg.PWM_DEAD n, Reg.PWM_BOOT n] ∧
      t.pwm = if s.pwmIdle n then (s.modPch n fun p => { p with from_ := max p.from_ s.unit }).pwm else s.pwm) ∧
    (s.faultsLow ≠ 0 → bitAt (m.f 1 1) 0 = true → t.bit (Fd.PWM_STAT_FAULT n) = true ∧ (t.pch n).run = (s.pwmForced n && (s.pch n).run))) ∧
  (s.Accepts 0x0801 m → n ≤ 11 → m.f 1 1 ≤ 1 → 1 ≤ m.f 4 4 → m.f 4 4 ≤ 10000000 → ∃ t, exec (.pwmLimit m) s = .next t ∧
    s.Responds t 0x0801 m stOK [] ∧ t.get (Fd.PWM_LIM_ENABLE n) = m.f 1 1 ∧ t.get (Fd.PWM_LIM_MAX_ON_US n) = m.f 4 4 ∧
    s.RegsBut t [Reg.MBX_DBLATCH, Reg.PWM_LIM n] ∧ t.pwm = s.pwm ∧ s.MemKept t) ∧
  (s.Accepts 0x0802 m → m.f 0 2 < 4096 → let y := (s.given 0x0802 m).pwmClear (m.f 0 2)
    Ok (.pwmFaultClear m) 0x0802 y.2 (natLe 2 y.1 ++ natLe 2 0) ∧
    ((s.bit Fd.PWM_FLTSTAT_FLT0_LOW || s.bit Fd.PWM_FLTSTAT_FLT1_LOW) = false → y.1 = 0 ∧
      ∀ c, c < 12 → bitAt (m.f 0 2) c = true → s.pwmForced c = true → s.marked (Reg.PWM_STAT c) = 0 →
        y.2.bit (Fd.PWM_STAT_FAULT c) = false ∧ y.2.bit (Fd.PWM_STAT_LIMIT c) = false))

/-- Plumb, network and junction commands (R280, R395, R399, R405, R408, R436, R441): with a payload in range and inside the bay's grant, each
sets its reference, loop, time, port, class, telegram, filter, secure association or junction; the status commands report. -/
def Obligations.PlumbNetJunctionCommands : Prop :=
  ∀ (s : State) (m : Mail), s.Sealed →
  let b := m.bay.toNat
  let r := m.f 0 1
  let pay := fixLen 0 48 m.pay
  let Ok := fun (i : Instr) (op : Nat) (x : State) (l : List Byte) => ∃ t, exec i s = .next t ∧ s.Done x t op m l
  (s.Accepts 0x0900 m → refCfgOk (m.cx 0x0900) = true →
    let x := ((((((s.given 0x0900 m).put (Fd.PLB_REFCFG_PRIORITY r) (m.f 1 1)).put (Fd.PLB_REFFREQ_FREQ_HZ r) (m.f 4 4)).put (Fd.PLB_REFTOL_TOL_PPB r)
      (m.f 8 4)).put (Fd.PLB_REFQUAL_QUAL_CYCLES r) (m.f 12 2)).refWritten r).reselect
    Ok (.plbRefCfg m) 0x0900 x [] ∧ x.priority r = m.f 1 1 ∧ x.get (Fd.PLB_REFFREQ_FREQ_HZ r) = m.f 4 4 ∧ x.qualified r = false) ∧
  (s.Accepts 0x0901 m → r ≤ 6 → m.f 1 1 ≤ 1 → s.priority r ≠ 0 →
    Ok (.plbSelect m) 0x0901 ((((s.given 0x0901 m).putB Fd.PLB_CTL_AUTO false).put Fd.PLB_CTL_REVERTIVE (m.f 1 1)).put Fd.PLB_CTL_MANUAL_REF r).reselect []) ∧
  (s.Accepts 0x0901 m → r = 0xFF → m.f 1 1 ≤ 1 →
    Ok (.plbSelect m) 0x0901 (((s.given 0x0901 m).putB Fd.PLB_CTL_AUTO true).put Fd.PLB_CTL_REVERTIVE (m.f 1 1)).reselect []) ∧
  (s.Accepts 0x0902 m → 100 ≤ m.f 0 4 → m.f 0 4 ≤ 100000000 → let x := (s.given 0x0902 m).setSlope (m.f 0 4)
    Ok (.plbSlope m) 0x0902 x [] ∧ x.get Fd.PLB_SLOPE_SLOPE_PS = m.f 0 4) ∧
  (s.Accepts 0x0903 m → m.f 0 8 < 2 ^ 48 → m.f 8 4 < 1000000000 → let x := (s.given 0x0903 m).setTimeCmd (m.f 0 8) (m.f 8 4) (m.f 12 2)
    Ok (.plbSetTime m) 0x0903 x [] ∧ x.tme.t = (m.f 0 8 * 1000000000 + m.f 8 4) * 2 ^ 48 + m.f 12 2 * 2 ^ 32 ∧ x.bit Fd.PLB_STATE_VALID = true) ∧
  (s.Accepts 0x0904 m → Ok (.plbStatus m) 0x0904 (s.given 0x0904 m) (natLe 2 (s.reg Reg.PLB_STATE).toNat ++ natLe 1 (s.get Fd.PLB_STATE_SELECTED) ++
    natLe 1 0 ++ natLe 4 (s.reg Reg.PLB_PHASE).toNat ++ natLe 4 (unsigned 32 s.freqF) ++ natLe 4 0)) ∧
  (s.Accepts 0x0A00 m → r ≤ 3 → m.f 1 1 ≤ 4 → m.f 2 1 ≤ 1 → m.f 3 1 ≤ 2 → 68 ≤ m.f 12 2 → m.f 12 2 ≤ 9000 → let x := ((s.given 0x0A00 m).netPortCfg pay).2
    Ok (.netPortCfg m) 0x0A00 x [] ∧ (x.macPort r).mtu = m.f 12 2 ∧ (x.macPort r).mac = (pay.drop 4).take 6 ∧ (x.macPort r).prp = decide (m.f 2 1 = 1) ∧
    (x.macPort r).ptp = m.f 3 1 ∧ x.get (Fd.MAC_STAT_SPEED r) = m.f 1 1) ∧
  (s.Accepts 0x0A01 m → let c := m.f 1 1
    let x := ((s.given 0x0A01 m).netQueueCfg b pay).2
    r ≤ 3 → c ≤ 7 → s.ownsClass b r c = true → m.f 2 1 ≤ 1 → (m.f 2 1 = 1 → m.f 8 4 = 0) → (s.macPort r).mtu + 34 ≤ m.f 4 4 →
    (List.range 8).foldl (fun n k => n + if k = c then m.f 4 4 else if m.f 2 1 = 0 then (s.netClass r k).txLimit else (s.netClass r k).rxLimit) 0 ≤ 262144 →
    (m.f 2 1 = 0 → 4 * (List.range 8).foldl (fun n k => n + if k = c then m.f 8 4 else (s.netClass r k).idle) 0 ≤ 3 * s.macRate r) →
    Ok (.netQueueCfg m) 0x0A01 x [] ∧ (if m.f 2 1 = 0 then (x.netClass r c).txLimit = m.f 4 4 ∧ (x.netClass r c).idle = m.f 8 4
      else (x.netClass r c).rxLimit = m.f 4 4)) ∧
  (s.Accepts 0x0A02 m → let i := m.f 1 1
    let y := vget (s.bayRec b).net r
    let pad := fun (n : Nat) => cdiv n 16 * 16
    let x := ((s.given 0x0A02 m).netTrdpTx b pay).2
    r ≤ 3 → y.trdpFirst ≤ i → i < y.trdpFirst + y.trdpCount → m.f 12 2 ≤ 1432 → m.f 16 4 % 16 = 0 → s.ownBank b (m.f 16 4) (m.f 12 2) = true →
    ((s.macPort r).telegrams.filter (·.1 ≠ i)).foldl (fun n e => n + pad e.2.len) (pad (m.f 12 2)) ≤ 32768 →
    Ok (.netTrdpTx m) 0x0A02 x [] ∧ ∃ e ∈ (x.macPort r).telegrams, e.1 = i ∧ e.2.bay = b ∧ e.2.comId = m.f 4 4 ∧ e.2.len = m.f 12 2 ∧ e.2.buf = m.f 16 4) ∧
  (s.Accepts 0x0A03 m → let i := m.f 0 2
    let e : Filter := { bay := b, ports := m.f 2 1, enable := m.f 3 1 = 1, comId := m.f 4 4, src := m.f 8 4, buf := m.f 12 4, maxLen := m.f 16 2 }
    let x := ((s.given 0x0A03 m).netTrdpFilter b pay).2
    i ≤ 1023 → m.f 2 1 ≤ 15 → m.f 3 1 ≤ 1 → (∀ p, p < 4 → bitAt (m.f 2 1) p = true →
      (vget (s.bayRec b).net p).filtFirst ≤ i ∧ i < (vget (s.bayRec b).net p).filtFirst + (vget (s.bayRec b).net p).filtCount) →
    (m.f 2 1 = 0 → ∃ p, p < 4 ∧ (vget (s.bayRec b).net p).filtFirst ≤ i ∧
      i < (vget (s.bayRec b).net p).filtFirst + (vget (s.bayRec b).net p).filtCount) →
    m.f 16 2 ≤ 1432 → m.f 12 4 % 16 = 0 → s.ownBank b (m.f 12 4) e.span = true →
    (s.net.filters.filter (·.1 ≠ i)).foldl (fun n y => n + y.2.span) e.span ≤ 262144 → Ok (.netTrdpFilter m) 0x0A03 x [] ∧ (i, e) ∈ x.net.filters) ∧
  (s.Accepts 0x0A04 m → let i := m.f 1 1
    let slot := m.f 4 1
    let y := vget (s.bayRec b).net r
    let x := ((s.given 0x0A04 m).netMacsecSa b pay).2
    r ≤ 3 → i ≤ 31 → m.f 2 1 ≤ 1 → m.f 3 1 ≤ 3 → slot ≤ 63 → m.f 5 1 ≤ 1 → y.saFirst ≤ i → i < y.saFirst + y.saCount → s.keyOwner slot = b →
    (∃ key z, (s.given 0x0A04 m).useKey slot uMACSEC = (.ok key, z)) → Ok (.netMacsecSa m) 0x0A04 x [] ∧
    ∃ e ∈ (x.macPort r).sas, e.1 = i ∧ e.2.bay = b ∧ e.2.slot = slot ∧ e.2.an = m.f 3 1 ∧ e.2.sci = m.f 8 8 ∧ e.2.pn = m.f 16 8) ∧
  (s.Accepts 0x0B00 m → m.f 0 4 < 2 ^ 20 → m.f 4 1 ≤ 2 → m.f 5 1 ≤ 3 → let x := ((s.given 0x0B00 m).jncCfg pay).2
    Ok (.jncCfg m) 0x0B00 x [] ∧ x.get Fd.JNC_NODE_NODE_ID = m.f 0 4 ∧ x.get Fd.JNC_NODE_MODE = m.f 4 1 ∧ x.jnc.ports = m.f 5 1) ∧
  (s.Accepts 0x0B01 m → let x := (s.given 0x0B01 m).jncDiscover ⟨m.ring.val, m.seq, 0x0B01⟩
    Ok (.jncDiscover m) 0x0B01 x (natLe 1 (max 1 (s.get Fd.JNC_RING_SIZE)) ++ natLe 1 (s.get Fd.JNC_POS_POSITION) ++ natLe 2 0 ++
      natLe 4 (s.get Fd.JNC_POS_UPSTREAM)) ∧ x.jnc.disc.isSome = true) ∧
  (s.Accepts 0x0B02 m → Ok (.jncStatus m) 0x0B02 (s.given 0x0B02 m) (natLe 4 s.node ++
    natLe 4 (s.get (Fd.JNC_STAT_RETRIES 0) + s.get (Fd.JNC_STAT_RETRIES 1)) ++ natLe 4 (unsigned 32 (ePs s.plb.lastE6)) ++ natLe 4 0))

/-- Key commands (R445 to R453, R281): a key is generated, imported, derived or zeroised in slots of the bay's grant, exported as a blob to a block
whose peg goes to HOST, or shows its public half; random bytes are free values of the model. -/
def Obligations.KeyCommands : Prop :=
  ∀ (s : State) (m : Mail), s.Sealed →
  let b := m.bay.toNat
  let n := m.f 0 1
  let Ok := fun (i : Instr) (op : Nat) (x : State) (pay : List Byte) => ∃ t, exec i s = .next t ∧ s.Done x t op m pay
  let Holds := fun (x : State) (i ty usage : Nat) => x.keyType i = ty ∧ x.keyUsage i = usage ∧ x.keyOwner i = b ∧ x.keyBad i = false
  (s.Accepts 0x0C00 m → m.f 1 1 ≤ 2 → usageOk (m.f 1 1) (m.f 2 2) = true → s.destStatus b n (m.f 1 1) = 0 → s.noEntropy = false →
    let x := ({ s.given 0x0C00 m with free := s.free + 1 }).storeKey b n (m.f 1 1) (m.f 2 2)
      (keyValue (m.f 1 1) (natBe (kdfBits (m.f 1 1) / 8) (Config.freeValue s.free)))
    Ok (.keyGenerate m) 0x0C00 x [] ∧ Holds x n (m.f 1 1) (m.f 2 2)) ∧
  (s.Accepts 0x0C01 m → ∀ l y ty usage key, let g := s.given 0x0C01 m
    let z := y.blocksIdle b (m.f 0 2) 1
    let i := m.f 4 1
    g.blocksReady b (m.f 0 2) 1 = true → i ≤ 63 → g.blockBytes b (m.f 0 2) 144 = (some l, y) → z.keyOwner i = b →
    z.openBlob b l = some (ty, usage, key) → usageOk ty usage = true → z.destStatus b i ty = 0 →
    Ok (.keyImport m) 0x0C01 (z.storeKey b i ty usage key) [] ∧ Holds (z.storeKey b i ty usage key) i ty usage) ∧
  (s.Accepts 0x0C02 m → ∀ key y w, let g := s.given 0x0C02 m
    let k := m.f 0 2
    let i := m.f 4 1
    let z := (y.drawBytes 12).2
    let l := z.blobOf b (s.keyType i) (s.keyUsage i) key (y.drawBytes 12).1
    g.blocksReady b k 1 = true → i ≤ 63 → s.keyOwner i = b → s.noEntropy = false ∨ s.keyType i = 3 → g.useKey i uEXPORTABLE = (.ok key, y) →
    z.writePlace none (z.windowPlace b (65536 * k)) l = (true, w) →
    Ok (.keyExport m) 0x0C02 (w.pegRequest b false (BitVec.ofNat 32 (65536 * pHOST + k))) (natLe 4 l.length) ∧ l.length = if s.keyType i = 3 then 144 else 112) ∧
  (s.Accepts 0x0C03 m → ∀ ty key y, let dst := m.f 1 1
    let usage := m.f 2 2
    let l := kdf (natBe 32 key) lblCKDF b ty usage n (((fixLen 0 48 m.pay).drop 4).take 32) (kdfBits ty)
    derivedType usage = some ty → n ≤ 63 → s.keyOwner n = b → s.destStatus b dst ty = 0 →
    (bitAt usage uEXPORTABLE = true → bitAt (s.keyUsage n) uEXPORTABLE = true) → (s.given 0x0C03 m).useKey n uDERIVE = (.ok key, y) →
    Ok (.keyDerive m) 0x0C03 (y.storeKey b dst ty usage (keyValue ty l)) [] ∧ Holds (y.storeKey b dst ty usage (keyValue ty l)) dst ty usage) ∧
  (s.Accepts 0x0C04 m → m.f 1 1 ≤ 1 → n = 0xFF → s.hasIdentity = true →
    Ok (.keyPublic m) 0x0C04 (s.given 0x0C04 m) (coordinate (bytesN 96 (Config.ecPublic true identityKey)) (m.f 1 1))) ∧
  (s.Accepts 0x0C04 m → ∀ key y, m.f 1 1 ≤ 1 → n ≤ 63 → s.keyType n = 1 ∨ ((s.keyType n = 2 ∨ s.keyType n = 3) ∧ n % 2 = 0) → s.keyOwner n = b →
    s.keyBad n = false → (s.given 0x0C04 m).takeKey n = (some key, y) →
    Ok (.keyPublic m) 0x0C04 y (coordinate (bytesN (if s.keyType n = 1 then 64 else 96) (publicOf (s.keyType n) key)) (m.f 1 1))) ∧
  (s.Accepts 0x0C05 m → n ≤ 63 → ¬((s.keyType n = 2 ∨ s.keyType n = 3) ∧ n % 2 = 1) → s.keyOwner n = b → s.slotBusy n = false →
    let x := ((s.given 0x0C05 m).clearKey n).savePersist (bitAt (s.keyUsage n) uPERSIST)
    Ok (.keyZeroise m) 0x0C05 x [] ∧ x.keyType n = 0xF ∧ x.slotRec n = {}) ∧
  (s.Accepts 0x0C06 m → 1 ≤ n → n ≤ 48 → s.noEntropy = false → let y := (s.given 0x0C06 m).drawBytes n
    Ok (.keyRandom m) 0x0C06 y.2 y.1 ∧ y.1.length = n)

/-- Seal and debug commands (R459 to R461, R503 to R506, R516, R519, R281): SEAL_START and SEAL_STOP are scheduled, SEAL_STATUS reports; a
challenge is answered with a nonce; an authorisation that holds enables its level on its cores; DBG_TRACE_CFG sets enables, sink and filter;
DBG_REVOKE ends every enable of the bay. -/
def Obligations.SealAndDebugCommands : Prop :=
  ∀ (s : State) (m : Mail) (k : Nat), s.Sealed →
  let b := m.bay.toNat
  let i := m.f 0 1
  let p := s.periodUs
  let o := fun (op : Nat) => some (⟨m.ring.val, m.seq, op⟩ : Origin)
  let Ok := fun (i : Instr) (op : Nat) (x : State) (pay : List Byte) => ∃ t, exec i s = .next t ∧ s.Done x t op m pay
  (s.Accepts 0x0D00 m → let g := s.given 0x0D00 m
    let slot := m.f 1 1
    i ≤ 3 → slot ≤ 63 → 1 ≤ m.f 2 2 → m.f 2 2 ≤ 3600 → s.chooseMeasure p (m.f 16 8) = some k → (g.grantsAt p k).phaseOf b (0x1C4 + i) ≠ 0 →
    (g.grantsAt p k).keyOwner slot = b → s.keyType slot = 1 → bitAt (s.keyUsage slot) uSEAL = true → s.noEntropy = false →
    Ok (.sealStart m) 0x0D00 (g.schedule p k (.sealStart b i slot (m.f 2 2) (m.f 8 8)) (o 0x0D00)) (natLe 8 k)) ∧
  (s.Accepts 0x0D01 m → i ≤ 3 → s.phaseOf b (0x1C4 + i) ≠ 0 ∨ (s.seal_ i).active = true → ((s.seal_ i).active = true → (s.seal_ i).bay = b) →
    s.chooseMeasure p (m.f 8 8) = some k → Ok (.sealStop m) 0x0D01 ((s.given 0x0D01 m).schedule p k (.sealStop i) (o 0x0D01)) (natLe 8 k)) ∧
  (s.Accepts 0x0D02 m → i ≤ 3 → (s.seal_ i).bay = b ∨ s.phaseOf b (0x1C4 + i) ≠ 0 → Ok (.sealStatus m) 0x0D02 (s.given 0x0D02 m)
    (natLe 8 (s.seal_ i).chainId ++ natLe 8 (s.seal_ i).emitted ++ natLe 8 (s.seal_ i).lastMeasure)) ∧
  (s.Accepts 0x0F00 m → let cs := m.f 1 1
    let y := (s.given 0x0F00 m).drawBytes 32
    i = 1 ∨ (i = 2 ∧ m.ring = 8 ∧ b = 0) → cs ≠ 0 → cs < 64 → (∀ c, c < 6 → bitAt cs c = true → s.serves c b = true) → s.noEntropy = false →
    Ok (.dbgChallenge m) 0x0F00 (y.2.setChallenge b (some { level := i, cores := cs, nonce := y.1 })) y.1) ∧
  (s.Accepts 0x0F01 m → ∀ x l y w, let g := s.given 0x0F01 m
    let z := y.blocksIdle b (m.f 0 2) 1
    g.blocksReady b (m.f 0 2) 1 = true → g.blockBytes b (m.f 0 2) 160 = (some l, y) → s.dbg.challenges.find? (·.1 = b) = some (b, x) →
    (x.level = 2 → m.ring = 8) → (z.setChallenge b none).authHolds b x l = (true, w) → ∃ t, exec (.dbgAuthorise m) s = .next t ∧
      s.Responds t 0x0F01 m stOK [] ∧ (∀ c, c < 6 → bitAt x.cores c = true → t.bit (enableFld (Reg.DBG_EN (s.lead c)) b x.level) = true) ∧
      t.dbg.auths = w.dbg.auths ++ [{ bay := b, level := x.level, cores := x.cores, expiry := fieldAt l 0x30 8 % 2 ^ 48 }] ∧
      (∀ c ∈ t.dbg.challenges, c.1 ≠ b) ∧ s.MemKept t ∧ t.cores = s.cores) ∧
  (s.Accepts 0x0F02 m → let cs := i
    let lv := m.f 1 1
    let sink := m.f 2 1
    let filt := m.f 4 4
    cs < 64 → lv ≤ 7 → sink ≤ 2 → filt < 256 → filt % 16 ≤ 8 → (bitAt lv 2 = true → m.ring = 8 ∧ b = 0) →
    (∀ c, c < 6 → bitAt cs c = true → s.serves c b = true ∧ (bitAt lv 1 = true → s.bit (enableFld (Reg.DBG_EN (s.lead c)) b 1) = true) ∧
      (bitAt lv 2 = true → s.bit (enableFld (Reg.DBG_EN (s.lead c)) b 2) = true) ∧
      (s.get (Fd.DBG_SINK_SINK (s.lead c)) = 0 ∨ s.get (Fd.DBG_SINK_SINK (s.lead c)) = sink ∨
        (s.reg (Reg.DBG_TEN (s.lead c))).toNat &&& (0x1FFFF - 2 ^ b - 2 ^ (8 + b) - if m.ring = 8 ∧ b = 0 then 2 ^ 16 else 0) = 0)) →
    ∃ t, exec (.dbgTraceCfg m) s = .next t ∧ s.Responds t 0x0F02 m stOK [] ∧ t.cores = s.cores ∧ s.MemKept t ∧ t.fig = s.fig ∧
      s.RegsKept t (0x4020 :: dbgBlocks) ∧ ∀ c, c < 6 → bitAt cs c = true → let l := s.lead c
        t.bit ⟨Reg.DBG_TEN l, b, b⟩ = bitAt lv 0 ∧ t.bit ⟨Reg.DBG_TEN l, 8 + b, 8 + b⟩ = bitAt lv 1 ∧ t.get (Fd.DBG_SINK_SINK l) = sink ∧
        t.get (Fd.DBG_FILT_FILTER l) = filt ∧ (bitAt lv 0 = true → t.bit ⟨Reg.DBG_EN l, b, b⟩ = true)) ∧
  (s.Accepts 0x0F03 m → ∃ t, exec (.dbgRevoke m) s = .next t ∧ s.Responds t 0x0F03 m stOK [] ∧ s.MemKept t ∧ t.fig = s.fig ∧ ∀ c, c < 6 →
    t.get ⟨Reg.DBG_EN c, b, b⟩ = 0 ∧ t.get ⟨Reg.DBG_EN c, 8 + b, 8 + b⟩ = 0 ∧ t.get ⟨Reg.DBG_TEN c, b, b⟩ = 0 ∧
    t.get ⟨Reg.DBG_TEN c, 8 + b, 8 + b⟩ = 0 ∧ (m.ring = 8 → b = 0 → t.get ⟨Reg.DBG_EN c, 16, 16⟩ = 0 ∧ t.get ⟨Reg.DBG_TEN c, 16, 16⟩ = 0))

/-- Mailbox service (R245, R246, R249, R250, R254, R255, R258 to R262): COMMAND_TAKE visits the next ring set of the rotation, answers a command
that fails a check in R255's order with that check's status, the blocks that it has data read from going to IDLE (R274), and a command out of sequence with SEQ_BAD and the SEQ expected, resends the
response of a repeat, discards an overrun, and notes a stalled response ring; COMMAND_DONE posts the oldest completion; after a pair reset the
journals are replayed, PLATFORM_RESTART is posted, bay 0's to the PF as well (R253), and the mailbox is ready. -/
def Obligations.MailboxService : Prop :=
  ∀ (s : State), s.Sealed → s.stands = false →
  (∀ (r : Nat), r < 9 → rotRing s.mbx.next = r → s.inRotation r = true → s.ready rMBX = true → (∀ x ∈ s.mbx.waiting, x.1 ≠ r) →
    let q := s.ring r
    let n := (q.cmdPi - q.cmdCi).toNat
    let c := readBytes zeroByte q.mem (64 * (q.cmdCi.toNat % 32)) 64
    let b := cBay c
    let room := (q.rspPi - q.rspCi).toNat < 32
    let Same := fun (t : State) => t.mbx.next = (s.mbx.next + 1) % 9 ∧ (t.reg Reg.MBX_DBLATCH).getLsbD r = false ∧ s.MemKept t ∧ t.fig = s.fig ∧
      t.keys = s.keys ∧ t.fw = s.fw ∧ t.cores = s.cores ∧ ∀ i, i < 9 → i ≠ r → t.ring i = s.ring i
    let Told := fun (t : State) (l : List Byte) (exp : Word) => Same t ∧ (t.ring r).cmdCi = q.cmdCi + 1 ∧ (t.ring r).expSeq = exp ∧
      (t.ring r).rspPi = q.rspPi + 1 ∧ readBytes zeroByte (t.ring r).mem (0x800 + 64 * (q.rspPi.toNat % 32)) 64 = l
    let Says := fun (l : List Byte) => ∃ t, exec .commandTake s = .next t ∧ Told t l q.expSeq ∧ s.RegsBut t [Reg.MBX_DBLATCH]
    let Refuses := fun (st : Nat) (pay : List Byte) => ∃ t, exec .commandTake s = .next t ∧ Told t (rspBytes c 0 st pay) (q.expSeq + 1) ∧
      (∀ a, a ≠ Reg.MBX_DBLATCH → (∀ x, dataBlocks r c = some x → ∀ k, k < 256 → a ≠ Reg.PEG_STATE x.1 k) → t.reg a = s.reg a) ∧
      ∀ x, dataBlocks r c = some x → ∀ i, i < x.2.2 → x.2.1 + i < 4096 → t.peg x.1 (x.2.1 + i) = pIDLE
    (1 ≤ n → n ≤ 32 → room → cSeq c = q.expSeq →
      (findCmd (cOp c) = none → Refuses 0x10 []) ∧
      (∀ k, findCmd (cOp c) = some k →
        (mayServe k.on r b = false → Refuses 0x11 []) ∧
        (mayServe k.on r b = true → ∀ st, bayGate k.on k.op (s.bayState b) (bitAt (cFlags c) 0) = .no st → Refuses st []) ∧
        (mayServe k.on r b = true → bayGate k.on k.op (s.bayState b) (bitAt (cFlags c) 0) = .go →
          (∀ i, k.needs.find? (fun j => !s.ready j) = some i → Refuses 0x12 (natLe 1 i)) ∧
          (k.needs.find? (fun j => !s.ready j) = none → k.payloadOk c = false → Refuses stPAYLOAD_BAD [])))) ∧
    (1 ≤ n → n ≤ 32 → room → 32 < (q.expSeq - cSeq c).toNat → Says (rspBytes c 0 0x14 (natLe 4 q.expSeq.toNat))) ∧
    (1 ≤ n → n ≤ 32 → room → ∀ e, cSeq c ≠ q.expSeq → (q.expSeq - cSeq c).toNat ≤ 32 →
      q.journal.find? (fun e => e.seq = cSeq c && e.state ≠ .taken) = some e → e.rsp.length = 64 → Says (withFlags e.rsp 1)) ∧
    (1 ≤ n → n ≤ 32 → ¬room → ∃ t, exec .commandTake s = .next t ∧ Same t ∧ s.RegsBut t [Reg.MBX_DBLATCH] ∧ (t.ring r).rspStall = true ∧ (t.ring r).cmdCi = q.cmdCi) ∧
    (32 < n → ∃ t, exec .commandTake s = .next t ∧ (t.ring r).overrun = true ∧ (t.ring r).cmdCi = q.cmdPi ∧ s.MemKept t ∧
      (t.ring r).evtSeq = q.evtSeq + 1)) ∧
  (s.ready rMBX = false → ∃ t, exec .commandTake s = .next t ∧ t = { s with out := [] }) ∧
  (∀ d l, s.fw.done = d :: l → d.origin.ring < 9 → ∃ t, exec .commandDone s = .next t ∧ t.fw.done = l ∧ t.regs = s.regs ∧ s.MemKept t ∧
    let q := s.ring d.origin.ring
    (t.ring d.origin.ring).evtSeq = q.evtSeq + 1 ∧ (s.ready rMBX = true → (q.evtPi - q.evtCi).toNat < 64 →
      let a := 0x1000 + 32 * (q.evtPi.toNat % 64)
      readBytes zeroByte (t.ring d.origin.ring).mem a 2 = natLe 2 0x000B ∧ readBytes zeroByte (t.ring d.origin.ring).mem (a + 16) 8 =
        natLe 4 d.origin.seq.toNat ++ natLe 2 d.origin.opcode ++ natLe 2 d.status)) ∧
  (s.ready rMBX = false → 2 ≤ s.fw.stage → (∀ r, r < 9 → ∀ e ∈ (s.ring r).journal, e.state = .delivered) → ∃ t, exec .mailboxReplay s = .next t ∧
    t.ready rMBX = true ∧ t.mbx.waiting = [] ∧ s.RegsKept t [0x4002] ∧ s.MemKept t ∧ t.fig = s.fig ∧ ∀ r, r < 9 → (t.ring r).rspPi = (s.ring r).rspPi ∧
      (t.ring r).evtSeq = if r = 8 then (s.ring 8).evtSeq + (if s.bayState 0 ≠ bEMPTY then 2 else 1)
        else if s.bayState r ≠ bEMPTY then (s.ring r).evtSeq + 1 else (s.ring r).evtSeq) ∧
  (∀ e k, s.ready rMBX = false → 2 ≤ s.fw.stage → (s.ring 8).journal = [e] → e.state = .taken → findCmd (cOp e.cmd) = some k → k.cls = .n →
    e.seq = cSeq e.cmd → (∀ r, r < 8 → (s.ring r).journal = []) → ∃ t, exec .mailboxReplay s = .next t ∧ t.ready rMBX = true ∧
      (t.ring 8).rspPi = (s.ring 8).rspPi + 1 ∧
      readBytes zeroByte (t.ring 8).mem (0x800 + 64 * ((s.ring 8).rspPi.toNat % 32)) 64 = rspBytes e.cmd 2 0x15 [] ∧ s.MemKept t)

/-! ### The figure at work (02 to 05, 21) -/

/-- A measure starts (R42, R45, R46, R47, R49, R493): at the first step of the tail at or after the next time point; after a late slip, where the
time point had passed when the pad ended, which is counted, reported and skips to the present measure; after a clock gap at once, with LAST 0
and no slip reported (the model's choice, log entry 35); or early when the tail has reached 4,095 steps. The figure
goes on at slot 0. A commit due then takes effect (R72, R74): its bay runs the new part with the carries of R103 and R104, every other bay goes
on. The merge orders the actions of the measure's parts, each with its bay, by resource and step (R107). -/
def Obligations.MeasuresStart : Prop :=
  ∀ (s : State) (g : Geom), s.Sealed → s.stands = false → s.fig.geom = some g → s.fig.counted = g.period → s.runningBays ≠ [] → s.bit Fd.SYS_CLKSTAT_BEAT_ALIGNED = true →
  s.mbx.waiting = [] → s.inTail g = true →
  let tp := timePoint g.period (s.fig.measure + 1)
  let k := max (s.fig.measure + 1) (s.tme.t / timePoint g.period 1)
  let tail := s.clk.now - s.padEnd g
  let Starts := fun (i : Instr) (k last : Nat) (also : State → Prop) => ∃ t, exec i s = .next t ∧ t.fig.measure = k ∧
    t.fig.boundary = s.clk.now ∧ t.fig.slot = 0 ∧ t.fig.turn = 0 ∧ t.fig.resting = false ∧ t.fig.spent = false ∧
    t.fig.geom = some g ∧ t.fig.running = s.fig.running ∧ t.fig.carry = s.fig.carry ∧ t.fig.fates = s.fig.fates ∧
    t.get Fd.FGE_TAIL_LAST = last ∧ t.get Fd.FGE_TURNS_N = g.turns % 2 ^ (Fd.FGE_TURNS_N.hi + 1 - Fd.FGE_TURNS_N.lo) ∧
    t.clk = s.clk ∧ t.tme = s.tme ∧ s.MemKept t ∧ also t
  let quiet := fun (t : State) => t.get Fd.FGE_SLIP_SLIPS = s.get Fd.FGE_SLIP_SLIPS ∧ s.NoEvents t ∧
    s.Counts t Fd.FGE_SLIP_SKIPPED (k - (s.fig.measure + 1))
  let slips := fun (early : Bool) (t : State) => s.Counts t Fd.FGE_SLIP_SLIPS ∧ (t.bit Fd.FGE_STATUS_SLIP_EARLY = true ↔
      early = true ∨ s.bit Fd.FGE_STATUS_SLIP_EARLY = true) ∧ (t.bit Fd.FGE_STATUS_SLIP_LATE = true ↔
      early = false ∨ s.bit Fd.FGE_STATUS_SLIP_LATE = true) ∧ ∀ b, b = 0 ∨ b = 8 ∨ b ∈ s.runningBays →
    s.Posts t b 0x0003 0 t.fig.measure (natLe 1 (b2n early) ++ [0] ++ natLe 2 (if early then 0 else k - (s.fig.measure + 1)))
  (s.fw.sched = [] → (s.fig.interrupted = false → tp ≤ s.tme.t → s.fig.latePad = false → Starts .measureBoundary k (min 4095 tail) quiet) ∧
    (s.fig.interrupted = true → tp ≤ s.tme.t → Starts .measureBoundary k 0 quiet) ∧
    (s.fig.interrupted = false → tp ≤ s.tme.t → s.fig.latePad = true → Starts .measureBoundary k 0 (slips false)) ∧
    (s.fig.interrupted = false → s.tme.t < tp → s.padEnd g + 4095 ≤ s.clk.now →
      Starts .measureSlipEarly (s.fig.measure + 1) 4095 (slips true))) ∧
  (s.tme.t < tp → exec .measureBoundary s = .next s.clean) ∧
  (tp ≤ s.tme.t ∨ s.fig.interrupted = true ∨ s.clk.now < s.padEnd g + 4095 → exec .measureSlipEarly s = .next s.clean) ∧
  (∀ (b : Fin 8) (p : Part) (e : Sched),
    p.geom = g → e.period = g.period → tp ≤ s.tme.t → e.measure ≤ k →
    e.eff = .commit b → s.fw.sched = [e] → s.fig.commits = [(b.val, e.measure, p)] → s.bayState b = bRUNNING → p.acts ≠ [] →
    ∃ t, exec .measureBoundary s = .next t ∧ t.part b = some p ∧ vget t.fig.carry b = carriesOf p (vget s.fig.carry b) ∧
      (∀ c, c < 8 → c ≠ b.val → t.part c = s.part c ∧ vget t.fig.carry c = vget s.fig.carry c) ∧ t.fig.commits = [] ∧ t.fw.sched = [] ∧
      t.fig.boundary = s.clk.now ∧ t.fig.resting = false ∧ t.bayState b = bRUNNING ∧ s.MemKept t) ∧
  (∀ e, (s.fw.sched.find? fun x => x.eff.rank = 2 && timePoint x.period x.measure ≤ s.tme.t + mergeTime) = some e →
    ∃ l, exec .figureMerge s = .next { s.clean with fig := { s.fig with merged := some (e.measure, l) } } ∧ l.Perm (s.actsFor e.measure) ∧
      l.Pairwise fun x y => x.2.res < y.2.res ∨ x.2.res = y.2.res ∧ x.2.step ≤ y.2.step) ∧
  ((∀ e ∈ s.fw.sched, e.eff.rank = 2 → s.tme.t + mergeTime < timePoint e.period e.measure) → exec .figureMerge s = .next s.clean)

/-- Actions of the schedule (R92, R93, R95, R97, R98, R124, R137, R423, R427). Outbound MOVE: the bank granule read arrives at
its endpoint two steps later. Inbound MOVE: the granule found goes to the bank, and to the journal while it has room; with none, UNDERRUN and no
write; in a replay it comes from the journal. SE_START, DDR_XFER, GATE, TRDP_TX and NOTIFY leave their work for the steps and the release
it belongs to. An action that is not due does nothing. -/
def Obligations.FigureActions : Prop :=
  ∀ (s : State) (b : Fin 8) (n : Nat) (a : Act) (g : Geom), s.Sealed → s.stands = false → s.fig.geom = some g → s.badWord b a.ofs = false →
  let adr := a.a1 % 2 ^ 25
  let out : Granule := { data := BitVec.ofNat 128 (leNat (readBytes zeroByte s.bkf (adr / 16 * 16) 16)) }
  let more := fun (j : Nat → Nat × Job) => (List.range (a.arg0 % 16)).map fun i => j (i + 1)
  (∀ r : Fin 512, s.dueAct b r n 1 = some a → Load.inbound r = false → s.carryAt b adr = none → s.eccOf (adr / 16) = .clean →
    ∃ t, exec (.move b r n) s = .next t ∧ t = { s.clean with fig := { s.fig with jobs := s.fig.jobs ++
      [(s.clk.now + 2, .arrive r (s.turnIndex g) { out with tag := b.val * 2 ^ 25 + adr })] ++
      (more fun i => (s.clk.now + i, .moveOut b r (adr + 16 * i))) } }) ∧
  (∀ (r : Fin 512) (x : Granule) (s' : State), s.dueAct b r n 1 = some a → Load.inbound r = true → s.carryAt b adr = none →
    s.fig.replaying = false → s.takeIn b r adr = (some x, s') → (s.endp (inKey b r)).journal.length < endSize r →
    ∃ t, exec (.move b r n) s = .next t ∧ s.BankHolds t adr x ∧ (t.endp (inKey b r)).journal = (s.endp (inKey b r)).journal ++ [x] ∧
      t.net = s'.net ∧ (∀ l, (s.endp r).fifo = x :: l → ¬ (0x1BC ≤ r.val ∧ r.val ≤ 0x1BF) → (t.endp r).fifo = l) ∧
      t.fig.jobs = s.fig.jobs ++ (more fun i => (s.clk.now + i, .moveIn b r (adr + 16 * i))) ∧ t.regs = s.regs ∧ t.cores = s.cores) ∧
  (∀ (r : Fin 512) (s' : State), s.dueAct b r n 1 = some a → Load.inbound r = true → s.fig.replaying = false →
    s.takeIn b r adr = (none, s') → ∃ t, exec (.move b r n) s = .next t ∧ (t.endp (inKey b r)).underrun = true ∧ s.MemKept t ∧
      t.field = s.field ∧ t.regs = s.regs) ∧
  (∀ (r : Fin 512) (x : Granule), s.dueAct b r n 1 = some a → Load.inbound r = true → s.carryAt b adr = none → s.fig.replaying = true →
    (s.endp (inKey b r)).journal[(s.endp (inKey b r)).jpos]? = some x → ∃ t, exec (.move b r n) s = .next t ∧ s.BankHolds t adr x ∧
      t.endp (inKey b r) = { s.endp (inKey b r) with jpos := (s.endp (inKey b r)).jpos + 1 } ∧ t.net = s.net ∧ t.regs = s.regs) ∧
  (∀ (e : Fin 4) (p : Part) (d : Desc), s.dueAct b (0x100 + e) n 2 = some a → s.part b = some p → p.descs[a.a1 % 65536]? = some d →
    s.badWord b d.ofs = false → ∃ t lr lw, exec (.seStart b e n) s = .next t ∧ t = { s.clean with fig := {
      s.fig with
      runs := s.fig.runs ++ [{ id := s.clk.now * 4 + e, bay := b, engine := e, desc := d }]
      jobs := s.fig.jobs ++ seJobs (Se.dsc d) (s.clk.now * 4 + e) s.clk.now
      seRead := vmod s.fig.seRead e fun _ => lr, seTail := vmod s.fig.seTail e fun n => max n (vget s.fig.seWrite e), seWrite := vmod s.fig.seWrite e fun _ => lw, seBay := vmod s.fig.seBay e fun _ => b.val } } ∧
      ∀ x ∈ seJobs (Se.dsc d) (s.clk.now * 4 + e) s.clk.now, s.clk.now ≤ x.1 ∧ x.1 ≤ max lr lw) ∧
  (∀ ch : Fin 2, s.dueAct b (0x104 + ch) n 3 = some a →
    let ext := 64 * (a.a2 + s.turnIndex g % max 1 (a.a3 / 65536) * (a.a3 % 65536))
    let rate := s.get Fd.DDR_CFG_RATE
    let piece : Granule := { data := BitVec.ofNat 128 (leNat (readBytes zeroByte s.ddr ext 16)) }
    (bitAt a.arg0 0 = true → s.carryAt b adr = none → s.eccOf (adr / 16) = .clean →
      ∃ t c, exec (.ddrXfer b ch n) s = .next t ∧ t = { s.clean with ddrCtl := c, fig := { s.fig with jobs := s.fig.jobs ++
        [(s.clk.now + Load.latWr rate, .toDdr ext out),
         (s.clk.now + 1, .fromBank b (adr + 16) (ext + 16)), (s.clk.now + 2, .fromBank b (adr + 32) (ext + 32)),
         (s.clk.now + 3, .fromBank b (adr + 48) (ext + 48))] } }) ∧
    (bitAt a.arg0 0 = false → s.ddrEccOf (ext / 8) = .clean → s.ddrEccOf (ext / 8 + 1) = .clean →
      ∃ t c, exec (.ddrXfer b ch n) s = .next t ∧ t = { s.clean with ddrCtl := c, fig := { s.fig with jobs := s.fig.jobs ++
        [(s.clk.now + Load.latRd rate, .toBank b adr piece),
         (s.clk.now + 1, .fromDdr b (adr + 16) (ext + 16)), (s.clk.now + 2, .fromDdr b (adr + 32) (ext + 32)),
         (s.clk.now + 3, .fromDdr b (adr + 48) (ext + 48))] } })) ∧
  (∀ p : Fin 4, s.dueAct b (0x1D0 + p) n 4 = some a → s.prpHigh p = false → ∃ t m, exec (.gate b p n) s = .next t ∧
    t = { s.clean with net := { s.net with jobs := s.net.jobs ++ [(s.clk.now + 1, .gate p m (a.arg0 % 256))] } } ∧
    ∀ c, c < 8 → bitAt m c = s.ownsClass b p c) ∧
  (∀ p : Fin 4, s.dueAct b (0x1D4 + p) n 5 = some a → s.prpHigh p = false → ∃ t, exec (.trdpTx b p n) s = .next t ∧
    t = { s.clean with net := { s.net with jobs := s.net.jobs ++ [(s.clk.now + 1, .telegram b p (a.a1 % 256))] } }) ∧
  (s.dueAct b 0x1D8 n 6 = some a → ∃ t, exec (.notify b n) s = .next t ∧
    t = { s.clean with fig := { s.fig with notifies := s.fig.notifies ++ [(b.val, a.a1 % 65536)] } }) ∧
  (∀ r : Fin 512, s.dueAct b r n 1 = none → exec (.move b r n) s = .next s.clean) ∧
  (∀ e : Fin 4, s.dueAct b (0x100 + e) n 2 = none → exec (.seStart b e n) s = .next s.clean) ∧
  (∀ p : Fin 4, (s.dueAct b (0x1D0 + p) n 4 = none → exec (.gate b p n) s = .next s.clean) ∧
    (s.dueAct b (0x1D4 + p) n 5 = none → exec (.trdpTx b p n) s = .next s.clean)) ∧
  (∀ c : Fin 2, s.dueAct b (0x104 + c) n 3 = none → exec (.ddrXfer b c n) s = .next s.clean) ∧
  (s.dueAct b 0x1D8 n 6 = none → exec (.notify b n) s = .next s.clean)

/-- Detectors and repair (R485, R486): an action word with an uncorrectable error is counted in STORE_UE and faults the turn, and the action is
not made; a report of an endpoint, a store word or the residue check faults the turn in progress, once; outside a turn it does nothing. In
the tail firmware rewrites the word. No memory changes. -/
def Obligations.TurnFaults : Prop :=
  ∀ (s : State) (b : Fin 8) (n : Nat) (a : Act), s.Sealed → s.stands = false →
  let Faulted := fun (i : Instr) (also : State → Prop) => ∃ t, exec i s = .next t ∧ t.fig.faulted = true ∧ s.MemKept t ∧ t.fig.jobs = s.fig.jobs ∧
    t.fig.ends = s.fig.ends ∧ t.fig.carry = s.fig.carry ∧ t.net = s.net ∧ also t ∧ (s.fig.faulted = false → s.Counts t Fd.FGE_FAULT_TURN_FAULTS ∧
      s.Counts t Fd.FGE_FAULT_CONSEC ∧ t.bit Fd.SYS_FLTSUM_TURN = true ∧ t.fig.stuck = s.fig.stuck + 1) ∧
    (s.fig.faulted = true → t.get Fd.FGE_FAULT_TURN_FAULTS = s.get Fd.FGE_FAULT_TURN_FAULTS ∧ t.fig.stuck = s.fig.stuck)
  let bad := fun (i : Instr) => Faulted i fun t => s.Counts t Fd.FGE_FAULT_STORE_UE
  (s.badWord b a.ofs = true → (∀ r : Fin 512, s.dueAct b r n 1 = some a → bad (.move b r n)) ∧
    (∀ (e : Fin 4) (p : Part), s.dueAct b (0x100 + e) n 2 = some a → s.part b = some p → a.a1 % 65536 < p.descs.length → bad (.seStart b e n)) ∧
    (∀ c : Fin 2, s.dueAct b (0x104 + c) n 3 = some a → bad (.ddrXfer b c n)) ∧
    (∀ p : Fin 4, (s.dueAct b (0x1D0 + p) n 4 = some a → bad (.gate b p n)) ∧ (s.dueAct b (0x1D4 + p) n 5 = some a → bad (.trdpTx b p n))) ∧
    (s.dueAct b 0x1D8 n 6 = some a → bad (.notify b n))) ∧
  (s.inTurn = true → Faulted (.turnFault .endpoint) (fun _ => True) ∧
    Faulted (.turnFault (.store b n)) (fun t => s.Counts t Fd.FGE_FAULT_STORE_UE ∧ t.badWord b n = true) ∧
    ∀ e : Fin 4, Faulted (.turnFault (.residue e b)) fun t => t.bit (Fd.SE_FLAGS_RESIDUE e b) = true) ∧
  (s.inTurn = false → ∀ d, exec (.turnFault d) s = .next s.clean) ∧
  (s.fig.resting = true → ∃ t, exec (.storeWordRewrite b n) s = .next t ∧ t.badWord b n = false ∧ (∀ c o, (c, o) ≠ (b.val, n) →
    t.badWord c o = s.badWord c o) ∧ ∃ l, t = { s.clean with fig := { s.fig with badWords := l } }) ∧
  (s.fig.resting = false → exec (.storeWordRewrite b n) s = .next s.clean)

/-- The end of a slot (R63, R64, R487, R489, R492): a good turn swaps the carry copies and clears the fault streak, and its outputs await their
release; a faulted turn is replayed once with its turn index from its journals, or replaced for the cause of R489; after 64 faulted turns the
copies swap by force. Then the next slot begins, or the tail. -/
def Obligations.TurnsEnd : Prop :=
  ∀ (s : State) (g : Geom), s.Sealed → s.stands = false → s.fig.geom = some g → s.slotOver = true →
  let swapped := fun (t : State) => t.fig.carry = s.fig.carry.map fun l => l.map fun c => { c with curA := !c.curA, fresh := false }
  let moves := fun (t : State) => t.fig.measure = s.fig.measure ∧ t.fig.replaying = false ∧ t.fig.faulted = false ∧
    if s.fig.turn + 1 ≥ g.turns then t.fig.resting = true else t.fig.resting = false ∧ t.fig.slot = s.fig.slot + 1 ∧ t.fig.turn = s.fig.turn + 1
  let waits := fun (t : State) (cause : Nat) => t.fig.fates = s.fig.fates ++ [⟨s.turnIndex g, s.fig.measure, cause, s.fig.replaying,
    s.releaseAt g, s.runningBays, s.outEnds, s.fig.notifies⟩] ∧
    t.fig.notifies = [] ∧ ∀ e, (t.endp e).journal = [] ∧ (t.endp e).held = (s.endp e).held
  (s.fig.faulted = false → ∃ t, exec .turnEnd s = .next t ∧ swapped t ∧ waits t 0 ∧ moves t ∧ t.fig.stuck = 0 ∧ t.get Fd.FGE_FAULT_CONSEC = 0 ∧
    s.RegsBut t [Reg.FGE_FAULT, Reg.FGE_REPLAY] ∧ s.MemKept t ∧ (s.fig.replaying = true → s.Counts t Fd.FGE_REPLAY_REPLAYED)) ∧
  (s.fig.faulted = true → s.swapDue = false → s.replayDue g = false → ∃ t, exec .turnEnd s = .next t ∧ t.fig.carry = s.fig.carry ∧
    waits t (s.replaceCause g) ∧ moves t ∧ t.fig.stuck = s.fig.stuck ∧ t.regs = s.regs ∧ s.MemKept t) ∧
  (s.swapDue = false → s.replayDue g = true → exec .turnEnd s = .next s.clean ∧ ∃ t, exec .turnReplay s = .next t ∧ t.fig.replaying = true ∧
    t.fig.spent = true ∧ t.fig.faulted = false ∧ t.fig.slot = s.fig.slot + 1 ∧ t.fig.turn = s.fig.turn ∧ t.turnIndex g = s.turnIndex g ∧
    t.fig.carry = s.fig.carry ∧ t.regs = s.regs ∧ s.MemKept t ∧ ∀ e, (t.endp e).journal = (s.endp e).journal ∧ (t.endp e).jpos = 0 ∧
      ∀ h ∈ (t.endp e).held, h.1 ≠ s.turnIndex g ∧ h ∈ (s.endp e).held) ∧
  (s.swapDue = false → s.replayDue g = false → exec .turnReplay s = .next s.clean) ∧
  (s.swapDue = true → exec .turnEnd s = .next s.clean ∧ exec .turnReplay s = .next s.clean ∧ ∃ t, exec .forcedCarrySwap s = .next t ∧ swapped t ∧
    t.fig.stuck = 0 ∧ t.fig.faulted = true ∧ s.Counts t Fd.FGE_REPLAY_FORCED_SWAP ∧ t.bit Fd.SYS_FLTSUM_TURN_STUCK = true ∧
    s.RegsBut t [Reg.FGE_REPLAY, Reg.SYS_FLTSUM] ∧ s.MemKept t) ∧
  (s.swapDue = false → exec .forcedCarrySwap s = .next s.clean)

/-- The release of a turn's outputs (R65, R95, R98, R488, R489), where no unit has granules to take: a good turn's granules go to their unit and
become the repeat buffer, and its NOTIFY events are posted; a replaced turn repeats the buffer, sets SKIPPED and is reported with its cause. -/
def Obligations.OutputsAreReleased : Prop :=
  ∀ (s : State) (f : TurnFate) (l : List TurnFate) (b : Fin 8) (p : Fin 4), s.Sealed → s.stands = false → s.Still → s.fig.fates = f :: l →
  let ep := 0x1B8 + p.val
  let mine := (((s.endp ep).held.find? (·.1 = f.u)).map (·.2)).getD []
  (s.clk.now < f.at_ → exec .outputRelease s = .next s.clean) ∧
  (f.at_ ≤ s.clk.now → f.eps = [] → f.cause = 0 → f.replayed = false → ∀ code, f.notifies = [(b.val, code)] → b.val ≠ 0 →
    ∃ t, exec .outputRelease s = .next t ∧ t.fig = { s.fig with fates := l } ∧ s.Posts t b code 1 f.measure (natLe 8 f.u) ∧
      (∀ r, r < 9 → r ≠ b.val → t.ring r = s.ring r) ∧ t.regs = s.regs ∧ s.MemKept t) ∧
  (f.at_ ≤ s.clk.now → f.eps = [] → f.cause ≠ 0 → f.bays = [b.val] → b.val ≠ 0 →
    ∃ t, exec .outputRelease s = .next t ∧ t.fig = { s.fig with fates := l } ∧ t.bit Fd.SYS_FLTSUM_SKIPPED = true ∧
      (∀ r, r = 0 ∨ r = b.val ∨ r = 8 → s.Posts t r 0x0004 0 s.fig.measure (natLe 8 f.u ++ natLe 1 f.cause)) ∧
      s.RegsBut t [Reg.SYS_FLTSUM] ∧ s.MemKept t) ∧
  (f.at_ ≤ s.clk.now → f.eps = [ep] → f.cause = 0 → f.notifies = [] → f.replayed = false → mine.length ≤ 2048 → (s.macPort p).telegrams = [] →
    ∃ t, exec .outputRelease s = .next t ∧ t.fig.fates = l ∧ (t.macPort p).dma = (s.macPort p).dma ++ mine ∧
      t.endp ep = { s.endp ep with held := (s.endp ep).held.filter (·.1 ≠ f.u), rep := some mine } ∧ t.regs = s.regs ∧ s.MemKept t) ∧
  (∀ q, f.at_ ≤ s.clk.now → f.eps = [ep] → f.cause ≠ 0 → (s.endp ep).rep = some q → q.length ≤ 2048 → (s.macPort p).telegrams = [] →
    ∃ t, exec .outputRelease s = .next t ∧ t.fig.fates = l ∧ (t.macPort p).dma = (s.macPort p).dma ++ q ∧ (t.endp ep).rep = some q ∧
      (t.endp ep).held = (s.endp ep).held.filter (·.1 ≠ f.u) ∧ t.bit Fd.SYS_FLTSUM_SKIPPED = true ∧ s.MemKept t)

/-- Work in open steps (R138 to R143, R152 to R158): a patrol scrub checks a bank's next row; a write-back corrects its granule, behind a scrub
that is due; the bank port stores whole granules, reads before it merges a part, retries when the granule changed between, and completes a
write one step on and a read, or an access abandoned at an uncorrectable granule, two; the DDR port issues its head's accesses, a word written in part
being read first and then written whole, or reports; the matrix grants an aged master, else the highest priority in turn, one a cycle, and the target serves it; refresh, ZQ and PHY calibration run or are
deferred. -/
def Obligations.BackgroundAccesses : Prop :=
  ∀ (s : State) (k : Fin 256), s.Sealed → s.stands = false →
  let free := s.bankFree k = true ∧ s.bankReserved k = false
  let row := sget (fun _ => 0) s.field.row k
  let at_ := granuleAt k (row % 8192)
  (free → sget (fun _ => 0) s.field.due k ≤ s.clk.now → ∃ t, exec (.patrolScrub k) s = .next t ∧ s.MemKept t ∧ t.fig = s.fig ∧
    s.RegsKept t [0x4018] ∧ sget (fun _ => 0) t.field.row k = row + 1 ∧
    sget (fun _ => 0) t.field.due k = s.clk.now + 16384 * 2 ^ s.get Fd.BKF_SCRUB_RATE ∧ t.field.ecc = s.field.ecc ∧
    (s.eccOf at_ = .clean → t.field.wb = s.field.wb ∧ t.get Fd.BKF_ECC_CE = s.get Fd.BKF_ECC_CE ∧ t.get Fd.BKF_ECC_UE = s.get Fd.BKF_ECC_UE) ∧
    (s.eccOf at_ = .single → s.Counts t Fd.BKF_ECC_CE ∧ (s.field.wb.length < 16 → at_ ∈ t.field.wb)) ∧
    (s.eccOf at_ = .double ∨ s.eccOf at_ = .poison → s.Counts t Fd.BKF_ECC_UE ∧ t.bit Fd.BKF_ERR_ADDR_VALID = true)) ∧
  (¬free ∨ s.clk.now < sget (fun _ => 0) s.field.due k → exec (.patrolScrub k) s = .next s.clean) ∧
  (∀ g, free → s.scrubDue k = false → (s.field.wb.find? fun g => bankOf (16 * g) = k) = some g → ∃ t, exec (.eccWriteBack k) s = .next t ∧
    t.field.wb = s.field.wb.filter (· ≠ g) ∧ t.eccOf g = (if s.eccOf g = .single then .clean else s.eccOf g) ∧
    (∀ h, h ≠ g → t.eccOf h = s.eccOf h) ∧ ∃ f, t = { s.clean with field := f }) ∧
  (¬free ∨ s.scrubDue k = true ∨ (s.field.wb.find? fun g => bankOf (16 * g) = k) = none → exec (.eccWriteBack k) s = .next s.clean) ∧
  (∀ h : BankHead, s.field.head = some h → s.bankFree (bankOf h.addr) = false ∨ s.bankYields (bankOf h.addr) = true ∨
    s.field.portAt = some s.clk.now → exec .bankPortAccess s = .next s.clean) ∧
  (∀ h : BankHead, s.field.head = some h → h.done < h.req.len → h.req.addr + h.req.len ≤ bkfSize → s.bankFree (bankOf h.addr) = true →
    s.bankYields (bankOf h.addr) = false → s.field.portAt ≠ some s.clk.now →
    let n := min (h.req.len - h.done) (16 - h.addr % 16)
    let Lands := fun (t : State) (d : Nat) (r : BusReq) (res : Option (List Byte)) => t.field.head = none ∧ t.field.freeAt = s.clk.now + d ∧
      t.bxm.lands = s.bxm.lands ++ [(s.clk.now + d, r, res)]
    let whole : BusReq := { h.req with addr := 0x10000000 + h.req.addr }
    let Stored := ∃ t, exec .bankPortAccess s = .next t ∧ readBytes zeroByte t.bkf h.addr n = (h.req.data.drop h.done).take n ∧
      (∀ o, o < h.addr ∨ h.addr + n ≤ o → sget zeroByte t.bkf o = sget zeroByte s.bkf o) ∧ t.eccOf (h.addr / 16) = .clean ∧ t.ddr = s.ddr ∧
      t.sram = s.sram ∧ t.fig = s.fig ∧ t.field.portAt = some s.clk.now ∧
      (if h.req.len ≤ h.done + n then Lands t 1 whole (some []) else ∃ x, t.field.head = some x ∧ x.req = h.req ∧ x.done = h.done + n)
    let Read := fun (retry : State → Prop) => ∃ t, exec .bankPortAccess s = .next t ∧ s.MemKept t ∧ retry t ∧
      ∃ x, t.field.head = some x ∧ x.req = h.req ∧ x.done = h.done ∧ x.stale = false ∧
        x.merge = some (h.addr / 16, readBytes zeroByte s.bkf (h.addr / 16 * 16) 16)
    (h.req.read = 0 → (n = 16 → Stored) ∧ (n < 16 → h.merge ≠ none → h.stale = false → Stored) ∧
      (n < 16 → h.merge = none → s.eccOf (h.addr / 16) = .clean ∨ s.eccOf (h.addr / 16) = .single → Read fun _ => True) ∧
      (n < 16 → h.merge ≠ none → h.stale = true → s.eccOf (h.addr / 16) = .clean → Read fun t => s.Counts t Fd.BKF_RMW_RETRY) ∧
      (n < 16 → h.merge = none → s.eccOf (h.addr / 16) = .double → ∃ t, exec .bankPortAccess s = .next t ∧ s.MemKept t ∧
        s.Counts t Fd.BKF_ECC_UE ∧ Lands t 2 whole none)) ∧
    (h.req.read ≠ 0 → let got := h.got ++ readBytes zeroByte s.bkf h.addr n
      (s.eccOf (h.addr / 16) = .clean → ∃ t, exec .bankPortAccess s = .next t ∧ s.MemKept t ∧ t.fig = s.fig ∧
        if h.req.read ≤ h.done + n then Lands t 2 h.req (some got)
        else ∃ x, t.field.head = some x ∧ x.req = h.req ∧ x.done = h.done + n ∧ x.got = got) ∧
      (s.eccOf (h.addr / 16) = .double → ∃ t, exec .bankPortAccess s = .next t ∧ s.MemKept t ∧ s.Counts t Fd.BKF_ECC_UE ∧ Lands t 2 h.req none))) ∧
  (s.field.head = none → exec .bankPortAccess s = .next s.clean) ∧
  (s.ddrCtl.heads = [] → exec .ddrPortAccess s = .next s.clean) ∧
  (∀ (h : BankHead) (l : List BankHead), s.ddrCtl.heads = h :: l →
    let r := h.req
    let o := r.key - 0x100000000 + h.done
    let left := r.len - h.done
    let n := if r.read ≠ 0 then min left (64 - o % 64) else if o % 8 ≠ 0 ∨ left < 8 then min left (8 - o % 8) else min (left / 8 * 8) (64 - o % 64)
    let rate := s.get Fd.DDR_CFG_RATE
    let now := s.clk.now
    let part := r.read = 0 ∧ n < 8 ∧ h.merge = none
    let May := s.bit Fd.DDR_STAT_TRAINED = true ∧ s.ddrFree o = true ∧ s.ddrCtl.readAt = none
    let Issues := fun (also : State → Prop) => ∃ t, exec .ddrPortAccess s = .next t ∧ s.MemKept t ∧ s.RegsBut t [Reg.DDR_STAT] ∧ t.fig = s.fig ∧
      t.cores = s.cores ∧ also t
    let fly : DdrFly := match h.merge with
      | some w => ⟨now + (if r.read ≠ 0 then Load.latRd rate + 3 else Load.latWr rate), r, h.done, n, (r.key + h.done) / 8 * 8, w.2⟩
      | none => ⟨now + (if r.read ≠ 0 then Load.latRd rate + 3 else Load.latWr rate), r, h.done, n, r.key + h.done, (r.data.drop h.done).take n⟩
    (May → ¬part → Issues fun t => t.ddrCtl.readAt = none ∧ t.ddrCtl.flight = s.ddrCtl.flight ++ [fly] ∧
      if r.len ≤ h.done + n then t.ddrCtl.heads = l else ∃ x, t.ddrCtl.heads = x :: l ∧ x.req = r ∧ x.done = h.done + n ∧ x.merge = none) ∧
    (May → part → Issues fun t => t.ddrCtl.readAt = some (now + Load.latRd rate + 3) ∧ t.ddrCtl.flight = s.ddrCtl.flight ∧ t.ddrCtl.heads = h :: l) ∧
    (s.bit Fd.DDR_STAT_TRAINED = true → ¬May → exec .ddrPortAccess s = .next s.clean) ∧
    (s.bit Fd.DDR_STAT_TRAINED = false → r.ask = .store → r.core < 6 → ∃ t, exec .ddrPortAccess s = .next t ∧ t.ddrCtl.heads = l ∧ s.MemKept t ∧
      t.regs = s.regs ∧ (t.core r.core).async = (s.core r.core).async ++ [(r.level, BitVec.ofNat 32 r.addr)])) ∧
  (∀ g : Fin 8,
    let ready := g.val = 2 → s.field.head = none ∧ s.field.freeAt ≤ s.clk.now
    let old := fun (r : BusReq) => decide (s.get Fd.BXM_AGE_LIMIT ≠ 0 ∧ s.get Fd.BXM_AGE_LIMIT ≤ cclks (s.clk.now - r.since))
    let port := g.val = 2 ∨ g.val = 3
    (¬ready ∨ s.busHeads g = [] ∨ s.grantCycle g = none → exec (.busMatrixGrant g) s = .next s.clean) ∧
    (∀ c, ready → s.busHeads g ≠ [] → s.grantCycle g = some c → ∃ r ∈ s.busHeads g, ∃ t, exec (.busMatrixGrant g) s = .next t ∧
      t = (s.clean.modBxm fun b => { b with
        reqs := headSince r.master g s.clk.now (dropReq r b.reqs), ptr := vmod b.ptr g fun _ => r.master
        grantFrom := vmod b.grantFrom g fun _ => c + 1 }).deliver (if port then { r with since := s.clk.now } else r) ∧
      (∀ q ∈ s.busHeads g, old q = true → old r = true ∧ r.master ≤ q.master) ∧
      (old r = false → ∀ q ∈ s.busHeads g, s.busPri g q.master ≤ s.busPri g r.master) ∧
      (old r = false → ∀ q ∈ s.busHeads g, s.busPri g q.master = s.busPri g r.master →
        if vget s.bxm.ptr g < q.master then vget s.bxm.ptr g < r.master ∧ r.master ≤ q.master
        else vget s.bxm.ptr g < r.master ∨ r.master ≤ q.master) ∧
      (r.ask ≠ .row → r.ask ≠ .tap → r.ask ≠ .peg → (∀ a, keyPlace r.key ≠ .reg a) → t.regs = s.regs ∧ t.fig = s.fig ∧
        (∀ o, keyPlace r.key = .sram o → r.read = 0 → r.ask ≠ .sc → o + r.data.length ≤ sramSize → readBytes zeroByte t.sram o r.data.length = r.data ∧
          (∀ a, a < o ∨ o + r.data.length ≤ a → sget zeroByte t.sram a = sget zeroByte s.sram a) ∧ t.bkf = s.bkf ∧ t.ddr = s.ddr) ∧
        (∀ o, keyPlace r.key = .sram o → r.ask = .sc → (s.core r.core).resv ≠ some (r.key / 32) → s.MemKept t) ∧
        (∀ o, keyPlace r.key = .bkf o → s.MemKept t ∧ ∃ h, t.field.head = some h ∧ h.req.data = r.data ∧ h.req.addr = o ∧ h.done = 0) ∧
        (∀ o, keyPlace r.key = .ddr o → s.MemKept t ∧ (s.bit Fd.DDR_STAT_TRAINED = true →
          ∃ h, t.ddrCtl.heads = s.ddrCtl.heads ++ [h] ∧ h.req.data = r.data ∧ h.req.key = r.key ∧ h.done = 0))))) ∧
  (∀ (ch : Fin 2) (u n : Nat),
    let last := if ch.val = 0 then s.ddrCtl.refreshAt0 else s.ddrCtl.refreshAt1
    let count := if ch.val = 0 then s.ddrCtl.refresh0 else s.ddrCtl.refresh1
    let slot := s.fig.geom = none ∨ s.chanFree ch 150 = true ∧
      (count = 0 ∨ s.runStarts ch = true ∧ last < s.clk.now ∨ last + 150 ≤ s.clk.now) ∧ (s.ddrCtl.zqAt = 0 ∨ s.ddrCtl.zqAt + 32 ≤ s.clk.now)
    let calm := s.refreshing 0 = false ∧ s.refreshing 1 = false
    let deferred := sget (fun _ => 0) s.fig.phyDeferAt u
    let due := s.bit Fd.DDR_STAT_TRAINED = true ∧ s.ddrCtl.zqAt + 16000000 ≤ s.clk.now
    let Only := fun (i : Instr) (c : DdrCtl) => exec i s = .next { s.clean with ddrCtl := c }
    (s.bit Fd.DDR_STAT_TRAINED = true → slot → Only (.lpddr5xRefresh ch) (if ch.val = 0
      then { s.ddrCtl with refresh0 := s.ddrCtl.refresh0 + 1, refreshAt0 := s.clk.now }
      else { s.ddrCtl with refresh1 := s.ddrCtl.refresh1 + 1, refreshAt1 := s.clk.now })) ∧
    (s.bit Fd.DDR_STAT_TRAINED = false ∨ ¬slot → exec (.lpddr5xRefresh ch) s = .next s.clean) ∧
    (due → s.fig.geom = none ∨ s.tailLeft 32 = some true ∧ calm → Only .zqCalibration { s.ddrCtl with zqAt := s.clk.now }) ∧
    (due → s.fig.geom ≠ none → s.tailLeft 32 = none ∨ s.tailLeft 32 = some true ∧ ¬calm → exec .zqCalibration s = .next s.clean) ∧
    (due → s.tailLeft 32 = some false → s.ddrCtl.zqDeferAt ≤ s.fig.boundary → ∃ t, exec .zqCalibration s = .next t ∧
      s.Counts t Fd.DDR_STAT_ZQ_DEFER ∧ t.ddrCtl = { s.ddrCtl with zqDeferAt := s.clk.now } ∧ s.RegsBut t [Reg.DDR_STAT] ∧ s.MemKept t) ∧
    (due → s.tailLeft 32 = some false → s.fig.boundary < s.ddrCtl.zqDeferAt → exec .zqCalibration s = .next s.clean) ∧
    (¬due → exec .zqCalibration s = .next s.clean) ∧
    (s.tailLeft n = some true → ∃ t, exec (.phyRecalibration u n) s = .next t ∧ ∃ l, t = { s.clean with fig := { s.fig with phyAt := l } } ∧
      sget (fun _ => 0) l u = s.clk.now) ∧
    (s.tailLeft n = some false → deferred ≤ s.fig.boundary → ∃ t, exec (.phyRecalibration u n) s = .next t ∧ ∃ l m,
      t = { s.clean with fig := { s.fig with phyDefer := l, phyDeferAt := m } } ∧
      ∀ v, sget (fun _ => 0) l v = sget (fun _ => 0) s.fig.phyDefer v + if v = u then 1 else 0) ∧
    (s.tailLeft n = some false → s.fig.boundary < deferred → exec (.phyRecalibration u n) s = .next s.clean) ∧
    (s.tailLeft n = none → exec (.phyRecalibration u n) s = .next s.clean))

/-! ### Video (11 to 13) -/

/-- Camera inputs and sources (R282 to R299, R303, R311, R312, R321): ULPS is shown, discarded packets are counted; a frame start binds to the next
time point whose beat start lies inside its window or is MISALIGNED; a line that can still go out joins its conformer's FIFO with its stamp; a
conformer's frame starts, its frame before being whole, with or without an input frame; its line goes to each destination it feeds; triggers, scarf switches and the frames of
decoders and memory readers start when they are due. -/
def Obligations.VideoInputs : Prop :=
  ∀ (s : State), s.Sealed → s.stands = false →
  let Video := fun (i : Instr) (also : State → Prop) => ∃ t, exec i s = .next t ∧ (∃ v r k, t = { s.clean with vid := v, regs := r, marks := k }) ∧
    also t
  let unmet := fun (src : Nat) => ∀ d, 16 ≤ d → d < 48 → ∀ q, (s.dest d).pend = some q → q.1.source ≠ src
  (∀ (r : Fin 12) (hdr : Fin 4) (vcx vc : BitVec 2) (dt : BitVec 6) (crc : Bool) (l : List Nat), l.length ≤ 65535 → (∀ x ∈ l, x < 65536) →
    let P := Instr.csiPacket r hdr vcx vc dt crc l
    let Counted := fun (f : Fld) => Video P fun t => t.vid = s.vid ∧ s.Counts t f ∧ t.bit (Fd.CSI_STAT_ULPS r) = false ∧
      s.RegsBut t [Reg.CSI_STAT r, f.addr]
    (s.ready rVID = false → exec P s = .next s.clean) ∧
    (s.ready rVID = true → hdr.val = 3 → Video P fun t => t.vid = s.vid ∧ t.bit (Fd.CSI_STAT_ULPS r) = true ∧ s.RegsBut t [Reg.CSI_STAT r]) ∧
    (s.ready rVID = true → hdr.val = 2 → Counted (Fd.CSI_STAT_HDR_DROP r)) ∧
    (s.ready rVID = true → hdr.val = 0 → Pix.supported dt.toNat = false → 3 < dt.toNat → Counted (Fd.CSI_DISC_BAD_DT r)) ∧
    (s.ready rVID = true → hdr.val = 0 → Pix.supported dt.toNat = true ∨ dt.toNat ≤ 3 → vcx ≠ 0 ∨ s.boundConf r vc.toNat = none →
      Counted (Fd.CSI_DISC_UNBOUND r)) ∧
    (∀ i, i < 24 → s.ready rVID = true → hdr.val < 2 → vcx = 0 → s.boundConf r vc.toNat = some i →
      let c := s.conf i
      let g := s.confCfg i
      let ahead := (c.fifo.filter fun x => some x.fid ≠ c.curFid || x.num ≥ c.outN).length
      let follow := fun (fid : Nat) (x : InLine) => if x.nextAt = none ∧ x.fid = fid ∧ x.num + 1 = c.inNum then { x with nextAt := some s.clk.now } else x
      (dt = 1 → Video P fun t => t.conf i = { c with inFid := none }) ∧
      (∀ fid, Pix.supported dt.toNat = true → 3 < dt.toNat → g.linescan = false → g.trigMode ≠ 2 → c.inFid = some fid → c.inNum < g.height →
        let live := (∃ tf, c.nextFid = some (fid, tf)) ∨ c.curFid = some fid ∧ c.outN ≤ c.inNum
        let seen := { c with inNum := c.inNum + 1, hdrAt := some s.clk.now, fifo := c.fifo.map (follow fid) }
        (live → ahead < 4 → Video P fun t =>
          t.conf i = { seen with fifo := seen.fifo ++ [⟨fid, c.inNum,
            { s.stampTag with flags := s.stampTag.flags ||| flagIf crc fCRC }, crc, s.clk.now, l, c.hdrAt, none⟩] } ∧
          (∀ k, k < 24 → k ≠ i → t.conf k = s.conf k) ∧ s.RegsBut t [Reg.CSI_STAT r] ∧ (crc = true → s.Counts t (Fd.CSI_STAT_CRC_ERR r))) ∧
        (live → 4 ≤ ahead → Video P fun t => t.conf i = seen ∧ t.bit (Fd.CNF_STAT_OVERRUN i) = true) ∧
        (¬live → Video P fun t => t.conf i = seen)) ∧
      (∀ fid, Pix.supported dt.toNat = true → 3 < dt.toNat → g.linescan = false → g.trigMode ≠ 2 → c.inFid = some fid → g.height ≤ c.inNum →
        Video P fun t => t.bit (Fd.CNF_STAT_LONG_FRAME i) = true ∧ (t.conf i).fifo = c.fifo.map (follow fid)))) ∧
  (∀ (r : Fin 12) (vc : BitVec 2) (i : Nat), i < 24 → s.ready rVID = true → s.boundConf r vc.toNat = some i → (s.confCfg i).linescan = false →
    let c := s.conf i
    let g := s.confCfg i
    let tf := nextPoint g.fps g.phase s.beatNs
    let fits := s.beatPoint tf ≤ s.ns + g.window ∧ ∀ n, c.nextFid = some n → n.2 ≠ tf
    let Starts := fun (P : Instr) =>
      (fits → Video P fun t => t.conf i = { c with
        fids := c.fids + 1, inFid := some (c.fids + 1), inNum := 0, hdrAt := none, inTag := s.stampTag, longIn := false, nextFid := some (c.fids + 1, tf) } ∧
        t.bit (Fd.CSI_STAT_ULPS r) = false ∧
        s.RegsBut t [Reg.CSI_STAT r]) ∧
      (¬fits → Video P fun t => t.conf i = { c with inFid := none } ∧ s.Counts t (Fd.CNF_CNT_MISALIGNED i) ∧
        s.RegsBut t [Reg.CNF_CNT i, Reg.CSI_STAT r])
    Starts (.csiFrameStart r vc) ∧ Starts (.csiPacket r 0 0 vc 0 false [])) ∧
  (∀ (r : Fin 12) (vc : BitVec 2), s.ready rVID = true → s.boundConf r vc.toNat = none → Video (.csiFrameStart r vc) fun t => t.vid = s.vid ∧
    s.Counts t (Fd.CSI_DISC_UNBOUND r) ∧ t.bit (Fd.CSI_STAT_ULPS r) = false ∧ s.RegsBut t [Reg.CSI_DISC r, Reg.CSI_STAT r]) ∧
  (∀ i : Fin 24, (s.conf i).bound = true → (s.confCfg i).linescan = false → ((s.conf i).shadow.getD (s.conf i).cfg).linescan = false →
    (s.dueTf i = none ∨ (s.conf i).inOutput = true → exec (.conformerFrameStart i) s = .next s.clean) ∧
    (∀ tf, s.dueTf i = some tf → (s.conf i).inOutput = false → unmet i →
      let g := (s.conf i).cfg
      let n := (s.conf i).shadow.getD g
      let fid := ((s.conf i).nextFid.filter fun n => n.2 = tf).map (·.1)
      ∃ t, exec (.conformerFrameStart i) s = .next t ∧ (∃ v r k o, t = { s with out := o, vid := v, regs := r, marks := k }) ∧
        t.out = (if g.trigMode ≠ 0 ∧ (n.trigMode = 0 ∨ n.rx ≠ g.rx) ∧ 4 * s.clk.now < vget s.vid.trigEnd g.rx ∧ s.scanHeld = false
          then [.level "CAM_TRIG" g.rx false] else []) ∧
        (t.conf i).tf = some tf ∧ (t.conf i).startAt = s.pointStep tf ∧ (t.conf i).outN = 0 ∧ some (t.conf i).tfRun = s.crossed tf ∧
        (t.conf i).curFid = fid ∧ (t.conf i).nextFid = (s.conf i).nextFid.filter (fun q => tf < q.2) ∧ (t.conf i).cfg = n ∧
        t.get (Fd.CNF_FRAME_FRAME i) = (s.get (Fd.CNF_FRAME_FRAME i) + 1) % 2 ^ 32 ∧ t.bit (Fd.CNF_STAT_BOUND i) = fid.isSome ∧
        vget t.vid.srcAt i = some (s.pointStep tf) ∧ (fid.isSome → t.get (Fd.CNF_STAT_LOST_RUN i) = 0) ∧
        (fid.isSome = false → s.Counts t (Fd.CNF_STAT_LOST_RUN i) ∧ s.Counts t (Fd.CNF_CNT_LOST i) ∧ t.bit (Fd.CNF_STAT_LOST i) = true))) ∧
  (∀ (i : Fin 24) (fault again : BitVec 48), (s.conf i).bound = true → (s.confCfg i).linescan = false → (s.conf i).tf ≠ none →
    let c := s.conf i
    let at_ := c.startAt + cdiv ((c.cfg.outDelay + c.outN * c.cfg.linePeriod) * 5) 4
    let made := s.confPixels i c.outN at_
    let isLine := fun (l : VLine) => l.tag.line = c.outN ∧ l.tag.frame = s.get (Fd.CNF_FRAME_FRAME i) ∧ l.px = made.1 ∧ l.fs = c.startAt ∧
      l.space = Pix.spaceOf c.cfg.dt c.cfg.frontEnd ∧ l.tag.sec = made.2.2.sec ∧ l.tag.ns = made.2.2.ns ∧ l.tag.pos = made.2.2.pos
    (s.clk.now < at_ ∨ c.cfg.height ≤ c.outN → exec (.conformerLine i fault again) s = .next (s.clean.markFaults i fault.toNat again.toNat)) ∧
    (at_ ≤ s.clk.now → c.outN < c.cfg.height → (∀ d, d < 48 → (s.dest d).route.source ≠ i.val) →
      Video (.conformerLine i fault again) fun t => (t.conf i).outN = c.outN + 1 ∧ (∃ l, (t.conf i).last = some l ∧ isLine l) ∧
        t.vid.dests = s.vid.dests ∧ t.vid.jtx = s.vid.jtx ∧ s.RegsBut t [Reg.CNF_STAT i]) ∧
    (∀ d, 24 ≤ d → d < 32 → at_ ≤ s.clk.now → c.outN + 1 < c.cfg.height → c.outN < 65535 → (∀ e, e < 48 → ((s.dest e).route.source = i.val ↔ e = d)) →
      (s.dest d).prof = List.replicate 40 0 → (s.dest d).inFrame = true → (s.dest d).curFs = c.startAt → (s.dest d).scal = [] →
      (s.dest d).outq = [] → (s.dest d).outFree ≤ s.clk.now →
      s.noFeed d = false → s.fifoAhead d < 4 → s.replayRoute d = false → bitAt fault.toNat d = false → s.vid.faults.getLsbD d = false →
      Video (.conformerLine i fault again) fun t => ∃ l, isLine l ∧ t.vid.jtx = s.vid.jtx ++ [(d, l)])) ∧
  (∀ (r : Fin 12) (i : Nat), i < 24 → ((List.range 24).find? fun i => (s.conf i).bound && (s.conf i).cfg.rx = r.val && (s.conf i).cfg.trigMode ≠ 0) = some i →
    s.ready rVID = true → s.bit (Fd.CNF_STAT_CONFIGURED i) = true →
    let g := (s.conf i).cfg
    let Fires := fun (start : Nat) (x : Conf) => let stop := max (vget s.vid.trigEnd r) (start + g.trigPw * 20)
      ∃ t, exec (.camTrigger r) s = .next t ∧ t.out = (if s.scanHeld then [] else [.pulse "CAM_TRIG" r start stop]) ∧ t.conf i = x ∧
        vget t.vid.trigEnd r = stop ∧ ∃ v, t = { s with out := t.out, vid := v }
    let ofs := fun (tp : Nat) => ((2 * s.beatPoint tp : Nat) : Int) - g.leadHalf - s.halfNs
    let run := fun (tp : Nat) => ((s.plb.run : Int) + ofs tp * 2 ^ 47).toNat
    let fresh := fun (tp : Nat) => (s.conf i).trigRun < run tp ∧ s.counted ((-ofs tp).toNat * 2 ^ 47) = true
    (∀ tp, g.trigMode = 1 → s.trigPoint g = some tp →
      (fresh tp → Fires (4 * s.clk.now + (ofs tp).toNat) { s.conf i with trigRun := run tp }) ∧
      (¬fresh tp → exec (.camTrigger r) s = .next s.clean)) ∧
    (g.trigMode = 1 → s.trigPoint g = none → exec (.camTrigger r) s = .next s.clean) ∧
    (g.trigMode = 2 → 0 < (s.conf i).trigDue → Fires (4 * s.clk.now) { s.conf i with trigDue := (s.conf i).trigDue - 1 }) ∧
    (g.trigMode = 2 → (s.conf i).trigDue = 0 → exec (.camTrigger r) s = .next s.clean)) ∧
  (∀ (d : Fin 48) (r : Route) (m a at_ : Nat) (o : Option Origin), (s.dest d).pend = some (r, m, some a, o) → s.destStart d r = some at_ → r.source < 256 →
    let ended := d.val < 16 ∨ s.noFeed d = true ∨ (s.dest d).inFrame = false ∧ (s.dest d).scal = [] ∧ (s.dest d).outq = [] ∧ (s.dest d).held = [] ∧
      (s.dest d).tagAt ≤ at_
    (a + 500 ≤ at_ → at_ ≤ s.clk.now → ended → ∃ t, exec (.scarfSwitch d) s = .next t ∧ (t.dest d).route = r ∧
      (t.dest d).pend = none ∧ (∀ e, e < 48 → e ≠ d.val → t.dest e = s.dest e) ∧ t.get (Fd.VXM_DSTAT_SOURCE d) = r.source ∧
      t.fw.done = s.fw.done ++ (match o with | some x => [⟨x, 0⟩] | none => []) ∧ s.MemKept t ∧
      (d.val < 16 ∨ 24 ≤ d.val ∨ (s.dest d).fifo = [] → t.fig = s.fig)) ∧
    (at_ < a + 500 ∨ s.clk.now < at_ ∨ ¬ended → exec (.scarfSwitch d) s = .next s.clean)) ∧
  (∀ (i : Fin 8) (e : Nat), s.firstRoute (24 + i) = some e → let p := s.profOf e
    Prof.srcKind p ≠ 0 → (s.dec i).on = false → unmet (24 + i) →
    let base := s.ns - Prof.playout p * 10000
    let due := (s.dec i).expected.filter (· ≤ base)
    (∀ ts x l, (s.dec i).packets = (ts, x) :: l → (∀ q ∈ l, rtpAfter ts q.1 = false) →
      let late := (base * 9 / 100000 + 2 ^ 32 - ts) % 2 ^ 32
      late < 2 ^ 31 → (∀ t, due = some t → (base * 9 / 100000 - late) * 100000 / 9 < t + (t - (s.dec i).ns.getD t) / 2) →
      ∃ t, exec (.decoderFrameStart i) s = .next t ∧ (t.dec i).on = true ∧ (t.dec i).ts = ts ∧ (t.dec i).startAt = s.clk.now ∧ (t.dec i).line = 0 ∧
        (t.dec i).frame = (s.dec i).frame + 1 ∧ vget t.vid.srcAt (24 + i) = some s.clk.now ∧ s.RegsBut t ((List.range 48).map Reg.VXM_DFLAG) ∧
        s.MemKept t) ∧
    (∀ x, (s.dec i).packets = [] → due = some x →
      ∃ t, exec (.decoderFrameStart i) s = .next t ∧ (t.dec i).on = true ∧ (t.dec i).ns = some x ∧ bitAt (t.dec i).flags 4 = true ∧
        s.Counts t (Fd.XSC_DEC_LOST i) ∧ s.MemKept t)) ∧
  (∀ (d : Fin 48) (tp r : Nat), 16 ≤ d.val → s.frcOf d ≠ 0 → let p := (s.dest d).prof
    framePoint (Prof.outFps p) (Prof.outPhase p) s.beatNs = some tp → s.crossed tp = some r →
    (r ≤ (s.dest d).frcRun → exec (.memoryReaderFrameStart d) s = .next s.clean) ∧
    ((s.dest d).frcRun < r → (s.dest d).scal = [] → (s.dest d).outq = [] → let x := { s.dest d with prof := s.profOf d, badFormat := false }
    ((s.takeProf d).frcOf d ≠ 0 → Video (.memoryReaderFrameStart d) fun t =>
      t.dest d = { x with frcNs := some (s.beatPoint tp), frcRun := r, frcAt := s.pointStep tp, frcN := 0 } ∧
      s.RegsBut t [Reg.VXM_DFLAG d]) ∧
    ((s.takeProf d).frcOf d = 0 → Video (.memoryReaderFrameStart d) fun t => t.dest d = { x with frcNs := none } ∧
      s.RegsBut t [Reg.VXM_DFLAG d])))

/-- DisplayPort outputs and compositors (R325 to R327, R336, R340, R341): a DP frame starts once at each of its time points and is counted, more than
half a line off its place also in RESYNC; hot plug trains the highest rate up to the configured one that carries the timing and that the sink
takes, else TRAIN_FAIL; a lost link retrains; the retry waits one second; an armed commit takes effect at the output frame that its guard allows, and ends the cache's use where it touches what is static;
a rebuild ends with the cache in use, full or again; a tile with a cache error is composed live. -/
def Obligations.VideoOutputs : Prop :=
  ∀ (s : State) (c : Fin 4) (sink : BitVec 4), s.Sealed → s.stands = false →
  let o := s.dp c
  let m := s.comp c
  let rate := (List.range (Tim.rate o.timing + 1)).reverse.find? fun r => Tim.fits o.timing r && sink.getLsbD r
  let Video := fun (i : Instr) (also : State → Prop) => ∃ t, exec i s = .next t ∧ (∃ v r k, t = { s.clean with vid := v, regs := r, marks := k }) ∧
    also t
  let Trains := fun (i : Instr) => s.bit (Fd.DPO_STAT_ENABLED c) = true → (∀ r, r < 4 → rate = some r → Video i fun t =>
      t.bit (Fd.DPO_STAT_TRAINED c) = true ∧ t.get (Fd.DPO_STAT_RATE c) = r ∧ t.get (Fd.DPO_STAT_LANES c) = Tim.lanes o.timing % 8 ∧
      (t.dp c).failAt = none ∧ (∀ q, r < q → q ≤ Tim.rate o.timing → Tim.fits o.timing q = false ∨ sink.getLsbD q = false) ∧ s.RegsBut t [Reg.DPO_STAT c]) ∧
    (rate = none → Video i fun t => t.bit (Fd.DPO_STAT_TRAINED c) = false ∧ s.Counts t (Fd.DPO_STAT_TRAIN_FAIL c) ∧
      (t.dp c).failAt = some s.clk.now ∧ s.RegsBut t [Reg.DPO_STAT c])
  (∀ tp, s.bit (Fd.DPO_STAT_ENABLED c) = true → framePoint (Tim.fps o.timing) (Tim.phase o.timing) s.beatNs = some tp →
    let at_ := s.pointStep tp
    let off := ((at_ : Int) - (o.startAt + 500000000 / max 1 (Tim.fps o.timing) : Nat)).natAbs
    ((∀ r, s.crossed tp = some r → r ≤ o.frameRun) → exec (.dpFrameStart c) s = .next s.clean) ∧
    (∀ r, s.crossed tp = some r → o.frameRun < r → Video (.dpFrameStart c) fun t => t.dp c = { o with
        frameNs := some (s.beatPoint tp), frameRun := r, startAt := at_, line := 0, newTiming := false, blank := false, stepSeen := s.plb.stepRun } ∧
      s.Counts t (Fd.DPO_STAT_RESYNC c) (if o.newTiming = false ∧ o.blank = false ∧ o.frameNs ≠ none ∧
        500000000 < off * 2 * Tim.vTotal o.timing * Tim.fps o.timing then 1 else 0) ∧
      t.get (Fd.DPO_FRAME_FRAME c) = (s.get (Fd.DPO_FRAME_FRAME c) + 1) % 2 ^ 32 ∧ t.get (Fd.CMP_FRAME_FRAME c) = (s.get (Fd.CMP_FRAME_FRAME c) + 1) % 2 ^ 32 ∧
      (o.newTiming = true → m.invalid ≠ none → t.bit (Fd.CMP_STAT_CACHED c) = false ∧ (t.comp c).cache = [] ∧
        t.bit (Fd.CMP_STAT_REBUILDING c) = !(staticTop m.active).isEmpty) ∧
      s.RegsBut t [Reg.DPO_STAT c, Reg.DPO_FRAME c, Reg.CMP_FRAME c, Reg.CMP_STAT c])) ∧
  (s.bit (Fd.DPO_STAT_ENABLED c) = false ∨ framePoint (Tim.fps o.timing) (Tim.phase o.timing) s.beatNs = none →
    exec (.dpFrameStart c) s = .next s.clean) ∧
  (s.ready rVID = true → Trains (.dpHpdHigh c sink)) ∧
  (s.ready rVID = true → s.bit (Fd.DPO_STAT_ENABLED c) = false → Video (.dpHpdHigh c sink) fun t => t.bit (Fd.DPO_STAT_HPD c) = true ∧
    t.get (Fd.DPO_STAT_TRAIN_FAIL c) = s.get (Fd.DPO_STAT_TRAIN_FAIL c) ∧ s.RegsBut t [Reg.DPO_STAT c]) ∧
  (s.ready rVID = false → exec (.dpHpdHigh c sink) s = .next s.clean ∧ exec (.dpHpdLow c) s = .next s.clean) ∧
  (s.ready rVID = true → Video (.dpHpdLow c) fun t => t.bit (Fd.DPO_STAT_HPD c) = false ∧ t.bit (Fd.DPO_STAT_TRAINED c) = false ∧ (t.dp c).failAt = none ∧
    s.RegsBut t [Reg.DPO_STAT c]) ∧
  (s.ready rVID = true → s.bit (Fd.DPO_STAT_HPD c) = true → Trains (.dpIrqHpd c true sink)) ∧ exec (.dpIrqHpd c false sink) s = .next s.clean ∧
  (∀ a, o.failAt = some a → s.bit (Fd.DPO_STAT_HPD c) = true → (a + 500000000 ≤ s.clk.now → Trains (.dpTrainRetry c sink)) ∧
    (s.clk.now < a + 500000000 → exec (.dpTrainRetry c sink) s = .next s.clean)) ∧
  (∀ (at_ a : Nat) (q : LayCommit), s.destStart (4 * c) {} = some at_ → m.commits = [q] → q.armed = some a →
    (a + 500 ≤ at_ → at_ ≤ s.clk.now → ∃ t, exec (.layerCommitApply c) s = .next t ∧ (t.comp c).commits = [] ∧
      (t.comp c).active = q.sets.foldl (fun v z => vmod v z.1 fun _ => z.2) m.active ∧ t.bit (Fd.CMP_STAT_PENDING c) = false ∧
      t.get (Fd.CMP_STATIC_TOP c) = layMask (staticTop (t.comp c).active) % 256 ∧
      (staticTop (t.comp c).active ≠ staticTop m.active ∨ (∃ z ∈ q.sets, Lay.static (m.lay z.1) = true ∨ Lay.static z.2 = true) →
        t.bit (Fd.CMP_STAT_CACHED c) = false ∧ (t.comp c).cache = []) ∧
      t.fw.done = s.fw.done ++ (match q.origin with | some x => [⟨x, 0⟩] | none => []) ∧ s.MemKept t ∧ t.fig = s.fig) ∧
    (at_ < a + 500 ∨ s.clk.now < at_ → exec (.layerCommitApply c) s = .next s.clean)) ∧
  (let tiles := tilesOf (Tim.h o.timing 0) m.cache;
    (s.bit (Fd.CMP_STAT_REBUILDING c) = false ∨ m.ended = false → exec (.cacheRebuildEnd c) s = .next s.clean) ∧
    (s.bit (Fd.CMP_STAT_REBUILDING c) = true → m.ended = true → m.lateTop = true → Video (.cacheRebuildEnd c) fun t =>
      (t.comp c).cache = [] ∧ (t.comp c).ended = false ∧ t.bit (Fd.CMP_STAT_CACHED c) = false ∧
      t.bit (Fd.CMP_STAT_REBUILDING c) = !(staticTop m.active).isEmpty ∧ s.RegsBut t [Reg.CMP_STAT c]) ∧
    (s.bit (Fd.CMP_STAT_REBUILDING c) = true → m.ended = true → m.lateTop = false → 512 < tiles → Video (.cacheRebuildEnd c) fun t =>
      t.bit (Fd.CMP_STAT_CACHE_FULL c) = true ∧ t.bit (Fd.CMP_STAT_REBUILDING c) = false ∧ (t.comp c).cache = [] ∧ s.RegsBut t [Reg.CMP_STAT c]) ∧
    (s.bit (Fd.CMP_STAT_REBUILDING c) = true → m.ended = true → m.lateTop = false → tiles ≤ 512 → ∃ t, exec (.cacheRebuildEnd c) s = .next t ∧
      t.bit (Fd.CMP_STAT_CACHED c) = true ∧ t.bit (Fd.CMP_STAT_REBUILDING c) = false ∧ t.get (Fd.CMP_STAT_TILES c) = tiles ∧
      (t.comp c).cache = keptTiles (Tim.h o.timing 0) m.cache ∧ s.RegsBut t [Reg.CMP_STAT c] ∧ s.MemKept t)) ∧
  (∀ tile, (s.bit (Fd.CMP_STAT_CACHED c) = false → exec (.cacheError c tile) s = .next s.clean) ∧
    (s.bit (Fd.CMP_STAT_CACHED c) = true → ∃ t, exec (.cacheError c tile) s = .next t ∧ t.bit (Fd.CMP_LFLAG_CACHE_FAULT c) = true ∧
      (t.comp c).badTiles = tile :: m.badTiles ∧ (t.comp c).invalid = some 2 ∧ s.RegsBut t [Reg.CMP_LFLAG c] ∧ s.MemKept t))

/-! ### Audio (14) -/

/-- Audio (R344, R346 to R348, R352, R354 to R356): a TDM frame received delivers its slots, or zeros and a frame error; a TDM frame sent carries
the frame formed for it, zeros at first, its slots OFFSET bit clocks late and their tail in the next frame; loss of clock and rate are flagged on slave directions alone; an output frame takes each routed channel's
sample; the loop re-phases beyond 1 ms, ending the frame under way, and locks; a record a millisecond leaves each captured domain; records and packets that arrive are taken apart
or counted as bad. -/
def Obligations.AudioFrames : Prop :=
  ∀ (s : State), s.Sealed → s.stands = false →
  let Audio := fun (i : Instr) (also : State → Prop) => ∃ t, exec i s = .next t ∧ (∃ a r e, t = { s.clean with aud := a, regs := r, fig := { s.fig with
    ends := e } }) ∧ also t
  let Bad := fun (i : Instr) => Audio i fun t => s.Counts t Fd.AUD_STAT_BAD_REC ∧ t.aud.ins = s.aud.ins ∧ s.RegsBut t [Reg.AUD_STAT]
  (∀ (p : Fin 4) (clocks ago : Nat) (l : List (BitVec 32)),
    let d := s.tdm p true
    let c := 3 * s.timeAgo ago / nsU
    let frame := fun (v : List Int) (t : State) => vget t.aud.ins p = (c, v) ::
      (vget s.aud.ins p).filter (fun f => f.1 < c && c < f.1 + 1800000000) ∧ (∀ i, i < 20 → i ≠ p.val → vget t.aud.ins i = vget s.aud.ins i) ∧
      t.get ⟨Reg.TDM_STAT p, 6, 6⟩ = 0 ∧ s.RegsBut t [Reg.TDM_STAT p]
    (d.run = false ∨ s.ready rAUD = false → exec (.tdmRxFrame p clocks ago l) s = .next s.clean) ∧
    (d.run = true → s.ready rAUD = true → clocks = d.len → Audio (.tdmRxFrame p clocks ago l) fun t =>
      frame ((List.range d.slots).map fun i => enter d.width ((l.map BitVec.toNat).getD i 0)) t) ∧
    (d.run = true → s.ready rAUD = true → clocks ≠ d.len → Audio (.tdmRxFrame p clocks ago l) fun t =>
      frame (List.replicate d.slots 0) t ∧ s.Counts t ⟨Reg.TDM_STAT p, 31, 24⟩)) ∧
  (∀ p : Fin 4,
    let d := s.tdm p false
    let goes := fun (data tail : List Bool) => ∃ t, exec (.tdmTxFrame p) s = .next t ∧
      t.out = (if s.scanHeld then [] else [.tdm p false [] data]) ∧ (vget t.aud.frames p) = [] ∧ (t.tdm p false).first = false ∧
      (t.tdm p false).tail = tail ∧ s.RegsBut t [Reg.TDM_STAT p] ∧ t.fig = s.fig ∧ s.MemKept t
    let bits := fun (v : Nat → Int) => (List.range d.slots).flatMap fun i => msbBits d.width (unsigned d.width (v i))
    let sent := fun (v : Nat → Int) => goes (d.tail ++ (bits v).take (d.len - d.offset)) ((bits v).drop (d.len - d.offset))
    (d.run = false → exec (.tdmTxFrame p) s = .next s.clean) ∧
    (d.run = true → d.master = false → s.ready rAUD = false → goes (List.replicate d.len false) (List.replicate d.offset false)) ∧
    (d.run = true → d.master = false → d.first = true → s.ready rAUD = true → sent fun _ => 0) ∧
    (∀ f, d.run = true → d.master = false → d.first = false → s.ready rAUD = true → (vget s.aud.frames p).head? = some f →
      sent fun i => leave d.width (f.samples.getD i 0))) ∧
  (∀ (p : Fin 4) (rx : Bool) (mhz : Nat),
    let d := s.tdm p rx
    let k := if rx then 4 else 0
    (d.run = false ∨ d.master = true → exec (.tdmClockLost p rx) s = .next s.clean ∧ exec (.tdmRateCheck p rx mhz) s = .next s.clean) ∧
    (d.run = true → d.master = false → (∃ t, exec (.tdmClockLost p rx) s = .next t ∧ t.get ⟨Reg.TDM_STAT p, k + 2, k + 2⟩ = 1 ∧
      t.out = (if s.scanHeld ∨ rx = true then [] else [.tdm p false [] []]) ∧ t.tdm p rx = (if rx then d else { d with tail := List.replicate d.offset false }) ∧
      (rx = true → t.aud = s.aud) ∧ t.aud.ins = s.aud.ins ∧ t.aud.frames = s.aud.frames ∧ s.RegsBut t [Reg.TDM_STAT p] ∧ s.MemKept t ∧ t.fig = s.fig) ∧ Audio (.tdmRateCheck p rx mhz) fun t => t.aud = s.aud ∧ s.RegsBut t [Reg.TDM_STAT p] ∧
        (t.get ⟨Reg.TDM_STAT p, k + 3, k + 3⟩ = 1 ↔ d.rate * 1000 < (max mhz (d.rate * 1000) - min mhz (d.rate * 1000)) * 1000))) ∧
  (∀ x : Fin 24, s.ready rAUD = true → (∀ c ∈ domainChans x, (s.audRoute c).pend = none) →
    let forms := fun (t : State) (f : AudFrame) (out rate : Nat) => f.out = out ∧ ∀ c ∈ s.routed x,
      f.samples.getD (outPlace c) 0 = (s.takeSample c out rate).1 ∧ (t.audRoute c).prev = (s.takeSample c out rate).2.1
    (x.val < 4 → (s.tdm x false).run = false → exec (.audioOutputFrame x) s = .next s.clean) ∧
    (x.val < 4 → (s.tdm x false).run = true → (s.tdm x false).master = false → vget s.aud.frames x = [] → Audio (.audioOutputFrame x) fun t =>
      ∃ f, vget t.aud.frames x = [f] ∧ forms t f s.now3 (s.tdm x false).rate ∧ s.RegsBut t [Reg.AUD_OCNT x]) ∧
    (let k := s.now3 / 62500;
      (8 ≤ x.val → (∀ run, s.crossed (cdiv (grid3 k) 3) = some run → run ≤ vget s.aud.grid x) → exec (.audioOutputFrame x) s = .next s.clean) ∧
      ∀ run, 8 ≤ x.val → x.val < 16 → s.crossed (cdiv (grid3 k) 3) = some run → vget s.aud.grid x < run → s.routed x ≠ [] →
        Audio (.audioOutputFrame x) fun t => ∃ f, vget t.aud.frames x = vget s.aud.frames x ++ [f] ∧ forms t f (grid3 k) 48000 ∧
          vget t.aud.grid x = run ∧ s.RegsBut t [Reg.AUD_OCNT x])) ∧
  (∀ d : Fin 12,
    let o := s.osc d
    let e := s.oscError d
    let due := fun (run : Nat) => o.on = true ∧ o.ran = true ∧ s.crossed (s.ns / 1000000 * 1000000) = some run ∧ vget s.aud.loopAt d < run
    ((∀ run, ¬due run) → exec (.ncoLoopUpdate d) s = .next s.clean) ∧
    (∀ run, due run → 3000000 < e.natAbs → ∃ t, exec (.ncoLoopUpdate d) s = .next t ∧ s.Counts t (Fd.AUD_NSTAT_REPHASE d) ∧
      t.get (Fd.AUD_NSTAT_LOCK d) = 0 ∧ (t.osc d).gap = some s.now3 ∧ (t.osc d).good = 0 ∧ (t.osc d).fi = o.fi ∧ vget t.aud.loopAt d = run ∧
      t.out = (if 8 ≤ d.val then [.dpAudio (d - 8) o.rate 0 0 []] else if s.scanHeld then [] else [.tdm (d % 4) (4 ≤ d.val) [] []]) ∧
      s.RegsBut t [Reg.AUD_NSTAT d] ∧ s.MemKept t ∧ t.fig = s.fig) ∧
    (∀ run, due run → e.natAbs ≤ 3000000 → Audio (.ncoLoopUpdate d) fun t => (t.osc d).good = (if e.natAbs < 3000 then o.good + 1 else 0) ∧
      vget t.aud.loopAt d = run ∧ (30000 < e.natAbs → t.get (Fd.AUD_NSTAT_LOCK d) = 0) ∧
      (e.natAbs < 3000 → 99 ≤ o.good → t.get (Fd.AUD_NSTAT_LOCK d) = 1) ∧ (e = 0 → (t.osc d).fi = o.fi) ∧
      ((t.osc d).fi + (t.osc d).fp).natAbs ≤ s.get Fd.AUD_LOOP_SPAN * 1000000)) ∧
  (∀ x : Fin 24, 8 ≤ x.val → x.val < 16 → s.ready rAUD = true →
    let wait := 1002000 + (x.val - 8) * 50000
    let t0 := (s.ns - wait) / 1000000 * 1000000
    let mine := ((vget s.aud.frames x).filter fun f => 3 * t0 ≤ f.out && f.out < 3 * t0 + 3000000).reverse
    let sample := fun (i k : Nat) => match mine.find? fun f => f.out = 3 * t0 + grid3 i with
      | some f => f.samples.getD k 0
      | none => 0
    let due := fun (run : Nat) => s.crossed (wait + t0) = some run ∧ vget s.aud.sent x < run ∧ wait ≤ s.ns
    ((∀ run, ¬due run) → exec (.audioCaptureEmit x) s = .next s.clean) ∧
    (∀ run, due run → mine = [] ∨ s.routed x = [] → Audio (.audioCaptureEmit x) fun t => vget t.aud.sent x = run ∧ t.regs = s.regs ∧
      t.endp 0x1C1 = s.endp 0x1C1) ∧
    (∀ run, due run → mine ≠ [] → s.routed x ≠ [] → (s.endp 0x1C1).fifo.length ≤ 400 →
      Audio (.audioCaptureEmit x) fun t => vget t.aud.sent x = run ∧ t.regs = s.regs ∧
        (t.endp 0x1C1).fifo = (s.endp 0x1C1).fifo ++ granules 98 (natLe 2 1536 ++ natLe 1 1 ++ natLe 1 (x % 8) ++
          natLe 2 (mine.foldl (fun n f => n ||| f.flags) 0) ++ natLe 6 (t0 / 1000000000) ++ natLe 4 (t0 % 1000000000) ++
          (List.range 48).flatMap fun i => (List.range 8).flatMap fun k => natLe 4 (unsigned 32 (sample i k))))) ∧
  (let bytes := s.aud.part ++ (s.endp 0x1C0).fifo.flatMap (·.bytes)
    let len := fieldAt bytes 0 2
    let g := fieldAt bytes 3 1
    let at_ := fieldAt bytes 6 6 * 1000000000 + fieldAt bytes 12 4
    let whole := s.ready rAUD = true ∧ 16 ≤ bytes.length ∧ 16 + (len + 15) / 16 * 16 ≤ bytes.length
    (¬whole → Audio .audioRecordIn fun t => t.aud.part = bytes ∧ (t.endp 0x1C0).fifo = [] ∧ t.aud.ins = s.aud.ins ∧ t.regs = s.regs) ∧
    (whole → 7 < g ∨ ¬(fieldAt bytes 2 1 = 1 ∧ len = 1536 ∨ fieldAt bytes 2 1 = 2 ∧ 12 ≤ len) → Bad .audioRecordIn) ∧
    (whole → g ≤ 7 → fieldAt bytes 2 1 = 2 → 12 ≤ len → Audio .audioRecordIn fun t => t.aud.rtp = s.aud.rtp ++ [(g, (bytes.drop 16).take len)] ∧
      t.aud.part = bytes.drop (16 + (len + 15) / 16 * 16) ∧ t.aud.ins = s.aud.ins) ∧
    (whole → g ≤ 7 → fieldAt bytes 2 1 = 1 → len = 1536 → Audio .audioRecordIn fun t => vget t.aud.ins (4 + g) =
      mergeFrames (((List.range 48).map fun i => (3 * at_ + grid3 i, (List.range 8).map fun k =>
        signed 32 (fieldAt ((bytes.drop 16).take len) (4 * (8 * i + k)) 4))).reverse) (vget s.aud.ins (4 + g)) ∧ t.aud.rtp = s.aud.rtp ∧ t.regs = s.regs)) ∧
  (s.aud.rtp = [] → exec .st211030PacketIn s = .next s.clean) ∧
  (∀ g p l, s.aud.rtp = (g, p) :: l → g < 8 →
    let w := if s.rxPlane g then 2 else 3
    let n := (p.length - 12) / (48 * w)
    let now48 := s.now3 / 62500
    (fieldAt p 1 1 % 128 < 96 ∨ n = 0 ∨ 8 < n ∨ p.length - 12 ≠ n * 48 * w → Bad .st211030PacketIn) ∧
    (96 ≤ fieldAt p 1 1 % 128 → 1 ≤ n → n ≤ 8 → p.length - 12 = n * 48 * w → Audio .st211030PacketIn fun t => t.aud.rtp = l ∧
      vget t.aud.l16 g = s.rxPlane g ∧ t.regs = s.regs ∧ vget t.aud.ins (12 + g) = mergeFrames (((List.range 48).map fun i =>
        (grid3 (now48 + signed 32 ((beNat ((p.drop 4).take 4) + i + 2 ^ 32 - now48 % 2 ^ 32) % 2 ^ 32) : Int).toNat,
          (List.range n).map fun c => enter (8 * w) (beNat ((p.drop (12 + (i * n + c) * w)).take w)))).reverse) (vget s.aud.ins (12 + g))))

/-! ### Odometry and drivers (15, 16) -/

/-- Odometry (R358 to R364, R367, R370, R372, R374, R376): a mark of A with B low moves the axle one point, opposite to the last one only turns it;
marks closer than 2,000 cycles are noise, an illegal transition is counted, and neither moves it; a corroborated miss makes a synthetic mark,
a second one UNRELIABLE; a stall freezes the position, is reported, and holds, ends or times the open slots; a slot whose position interpolation
passes fires once. -/
def Obligations.Odometry : Prop :=
  ∀ (s : State) (a : Fin 4) (pa pb : Bool), s.Sealed → s.stands = false →
  let x := s.axle a
  let live := s.ready rODO = true ∧ s.clocksRun = true
  let on := live ∧ s.axState a ≠ xDISABLED
  let swap := s.bit (Fd.ODO_AXCFG_SWAP a)
  let nA := if swap then pb else pa
  let nB := if swap then pa else pb
  let oA := if swap then x.levB else x.levA
  let oB := if swap then x.levA else x.levB
  let levels := { x with levA := pa, levB := pb }
  let Moves := fun (y : Axle) => ∃ t, exec (.toothMark a pa pb) s = .next t ∧ t.axle a = y ∧ (∀ b, b < 4 → b ≠ a.val → t.axle b = s.axle b) ∧
    t.odo.slots = s.odo.slots ∧ s.MemKept t ∧ t.fig = s.fig ∧ s.NoEvents t
  (¬ (nA ≠ oA ∧ nB = false) → ¬ (nA ≠ oA ∧ nB ≠ oB) → Moves levels) ∧
  (¬ live → Moves levels) ∧
  (s.axState a = xDISABLED → ¬ (nA ≠ oA ∧ nB ≠ oB) → Moves levels) ∧
  (live → nA ≠ oA → nB ≠ oB → Moves { levels with dirty := true } ∧ ∃ t, exec (.toothMark a pa pb) s = .next t ∧
    s.Counts t (Fd.ODO_AXCNT_QERR a) ∧ t.get (Fd.ODO_AXSTAT_RUN a) = 0) ∧
  (on → nA ≠ oA → nB = oB → nB = false → x.marked = true → nA = !x.rev → s.cyc - x.markAt < 2000 → x.noise < 3 →
    Moves { levels with noise := x.noise + 1, noiseOpen := true, dirty := true } ∧ ∃ t, exec (.toothMark a pa pb) s = .next t ∧
    s.Counts t (Fd.ODO_AXCNT_NOISE a) ∧ t.get (Fd.ODO_AXSTAT_RUN a) = 0) ∧
  (on → nA ≠ oA → nB = oB → nB = false → s.odo.sel < 4 → s.axState s.odo.sel = xQUALIFIED → s.odo.stalled = false →
    let e := s.cyc - x.markAt
    let Accepts := fun (j : Int) (p : List Nat) => ∃ t, exec (.toothMark a pa pb) s = .next t ∧ (t.axle a).j = j ∧ (t.axle a).rev = !nA ∧
      (t.axle a).markAt = s.cyc ∧ (t.axle a).realRun = s.plb.run ∧ (t.axle a).periods = p ∧ (t.axle a).marked = true ∧ (t.axle a).synth = false ∧ (t.axle a).noise = 0 ∧
      t.odo.sel = s.odo.sel ∧ t.odo.offset = s.odo.offset ∧ s.MemKept t ∧ t.fig = s.fig ∧
      (a.val = s.odo.sel → t.unitPos = wrap48 (j * 256 + s.odo.offset) ∧ t.odo.realPos = t.unitPos) ∧
      (s.axState a = xIDLE → t.axState a = xQUALIFYING) ∧ (x.dirty = false → s.Counts t (Fd.ODO_AXSTAT_RUN a))
    (x.marked = false → x.periods = [] → nA = !x.rev → Accepts (if x.rev then x.j - 1 else x.j + 1) []) ∧
    (x.marked = true → nA = !x.rev → 2000 ≤ e → x.periods.length < 4 → Accepts (if x.rev then x.j - 1 else x.j + 1) ((e :: x.periods).take 4)) ∧
    (x.marked = true → x.noiseOpen = false → nA = x.rev → Accepts x.j [])) ∧
  (∀ pp, s.pp a = some pp → s.ready rODO = true → s.axState a ≠ xDISABLED → s.axState a ≤ 4 → x.periods.length = 4 →
    let late := x.markAt + cdiv (s.get (Fd.ODO_AXFAC_HIGH a) * pp) 256 ≤ s.cyc
    let other := ∃ b, b < 4 ∧ b ≠ a.val ∧ (s.axState b = xQUALIFYING ∨ s.axState b = xQUALIFIED) ∧ (s.axle b).marked = true ∧ x.markAt < (s.axle b).realAt
    (¬late ∨ ¬other → exec (.axleMiss a) s = .next s.clean) ∧
    (late → other → x.synth = false → a.val ≠ s.odo.sel → ∃ t, exec (.axleMiss a) s = .next t ∧ s.Counts t (Fd.ODO_AXCNT_SYNTH a) ∧
      t.get (Fd.ODO_AXSTAT_RUN a) = 0 ∧ (∀ b, b < 4 → b ≠ a.val → t.axle b = s.axle b) ∧ s.MemKept t ∧ s.NoEvents t ∧
      t.axle a = { x with j := if x.rev then x.j - 1 else x.j + 1, markAt := x.markAt + pp, synth := true, dirty := true, periods := (pp :: x.periods).take 4 }) ∧
    (late → other → x.synth = true → s.axState a ≠ xUNRELIABLE → ∃ t, exec (.axleMiss a) s = .next t ∧ t.axState a = xUNRELIABLE ∧
      (t.axle a).periods = [] ∧ (t.axle a).j = x.j ∧ s.MemKept t)) ∧
  (let sel := s.odo.sel;
    sel < 4 → s.ready rODO = true → s.odo.stalled = false → s.axState sel ≠ xDISABLED →
    let after := (s.axle sel).realRun + s.get Fd.ODO_STALL_T_MS * 1000000 * nsU
    (s.plb.run < after → exec .stall s = .next s.clean) ∧
    (after ≤ s.plb.run → (∀ i ∈ s.liveSlots, (s.slot i).seen = s.unitPos) → ∃ t, exec .stall s = .next t ∧
      t.odo.stalled = true ∧ (∀ b, b < 4 → (t.axle b).frozen = some (s.axPos b) ∧ (t.axle b).periods = []) ∧ t.bit Fd.ODO_SEL_STALLED = true ∧
      t.unitPos = s.unitPos ∧ s.Posts t 0 0x0371 0 s.fig.measure [1] ∧ s.Posts t 8 0x0371 0 s.fig.measure [1] ∧ s.MemKept t ∧ ∀ i, i < 64 →
      t.slotState i = if s.slotState i ≠ eOPEN then s.slotState i else if (s.slot i).endMode = 0 then eHELD
        else if (s.slot i).endMode = 1 then (if (s.slot i).each then eARMED else eDONE) else eOPEN)) ∧
  (∀ i : Fin 64,
    let y := s.slot i
    let fired := fun (t : State) => t.get (Fd.ODO_EVSTAT_FIRED i) = (s.get (Fd.ODO_EVSTAT_FIRED i) + 1) % 65536 ∧ (t.slot i).lastPulse = some s.cyc ∧
      (y.output < 8 → s.scanHeld = false → Out.pulse "POS_EVT" y.output s.clk.now (s.clk.now + y.pw * 5 / 4) ∈ t.out)
    (s.slotState i = eARMED → s.ready rODO = true → y.kind = 1 → y.dir = 0 ∨ y.dir = 2 → s.odoRev = false → y.each = false → y.queue = [] → y.lastPulse = none → y.seen ≤ s.unitPos →
      s.unitPos - y.seen < 2 ^ 47 → y.seen < y.position → y.position - y.seen < 2 ^ 47 → ∃ t, exec (.positionCrossing i) s = .next t ∧
      (t.slot i).seen = s.unitPos ∧ s.MemKept t ∧ s.NoEvents t ∧ (∀ k, k < 64 → k ≠ i.val → t.slot k = s.slot k ∧ t.slotState k = s.slotState k) ∧
      if y.position ≤ s.unitPos then t.slotState i = eDONE ∧ fired t else t.slotState i = eARMED ∧ t.out = [] ∧ t.regs = s.regs) ∧
    (s.slotState i = eOFF ∨ s.slotState i = eHELD ∨ s.slotState i = eDONE → exec (.positionCrossing i) s = .next s.clean) ∧
    (∀ f l, y.queue = f :: l → y.kind ≠ 2 → (∀ p, y.lastPulse = some p → p + 2 * y.pw ≤ s.cyc) → ∃ t, exec (.eventQueuedPulse i) s = .next t ∧
      t.slot i = { y with queue := l, lastPulse := some s.cyc } ∧ t.regs = s.regs ∧ s.MemKept t ∧
      (y.output < 8 → s.scanHeld = false → Out.pulse "POS_EVT" y.output s.clk.now (s.clk.now + y.pw * 5 / 4) ∈ t.out)) ∧
    (y.queue = [] → exec (.eventQueuedPulse i) s = .next s.clean) ∧
    (∀ n, y.timeAt = some n → s.slotState i = eOPEN → (s.plb.run < n → exec (.eventTimeExpiry i) s = .next s.clean) ∧
      (n ≤ s.plb.run → y.kind = 2 → ∃ t, exec (.eventTimeExpiry i) s = .next t ∧ t.slotState i = (if y.each then eARMED else eDONE) ∧
        (t.slot i).timeAt = none ∧ s.MemKept t ∧ s.NoEvents t) ∧
      (n ≤ s.plb.run → y.kind = 3 → y.queue = [] → y.lastPulse = none → y.count = 0 → ∃ t, exec (.eventTimeExpiry i) s = .next t ∧ t.slotState i = eOPEN ∧
        fired t ∧ (t.slot i).next = y.next + 1 ∧ (t.slot i).timeAt = some (n + y.timeNs * nsU) ∧ s.MemKept t)))

/-- Illuminator and heater drivers (R381 to R383, R385 to R387, R389, R390, R392): an enabled free-running channel starts its period with what its
registers hold and its two switches never overlap nor come closer than DEAD; strobes that cannot start a period are queued or dropped and counted;
a bootstrap refresh, a fault input and the limiter act on the switches they must; the trips are reported once. -/
def Obligations.Drivers : Prop :=
  ∀ (s : State) (c : Fin 12), s.Sealed →
  let p := s.pch c
  let g := s.pwmRegs c
  let u := max p.from_ s.cycleUnit
  let others := fun (t : State) => ∀ d, d < 12 → d ≠ c.val → t.pch d = s.pch d
  (s.stands = false →
    (s.ready rPWM = true → p.frozen = none → s.pwmForced c = false → p.run = false → g.en = true → g.sync = 0 → p.from_ ≤ s.unit → ∃ t, exec (.pwmPeriodStart c) s = .next t ∧
      (t.pch c).run = true ∧ (t.pch c).cfg = g ∧ (t.pch c).start = u ∧ ((t.pch c).h0 < (t.pch c).h1 → (t.pch c).h1 = g.duty) ∧
      ((t.pch c).h0 < (t.pch c).h1 → (t.pch c).l0 < (t.pch c).l1 → (t.pch c).h1 + g.dead ≤ (t.pch c).l0) ∧ ((t.pch c).l0 < (t.pch c).l1 → (t.pch c).l1 = g.period) ∧
      t.out = s.atBalls ((if (t.pch c).h0 < (t.pch c).h1 then [.pulse "PWM_H" c (u + (t.pch c).h0) (u + (t.pch c).h1)] else []) ++
        (if (t.pch c).l0 < (t.pch c).l1 then [.pulse "PWM_L" c (u + (t.pch c).l0) (u + (t.pch c).l1)] else [])) ∧
      others t ∧ t.regs = s.regs ∧ s.MemKept t) ∧
    (s.ready rPWM = true → p.frozen = none → s.pwmForced c = false → p.run = false → g.en = false → ∃ t, exec (.pwmPeriodStart c) s = .next t ∧
      t.pch c = { p with cfg := g, due := [] } ∧ t.bit (Fd.PWM_STAT_QUEUED c) = false ∧ others t ∧ t.out = [] ∧ s.RegsBut t [Reg.PWM_STAT c]) ∧
    (p.run = false → g.en = true → g.sync = 0 → s.unit < p.from_ → exec (.pwmPeriodStart c) s = .next s.clean) ∧
    (s.ready rPWM = false ∨ p.frozen ≠ none ∨ s.pwmForced c = true ∨ p.run = true ∧ s.pwmPos c < p.cfg.period → exec (.pwmPeriodStart c) s = .next s.clean) ∧
    (s.strobeDue c = false → exec (.pwmStrobe c) s = .next s.clean) ∧
    (let Strobed := fun (f : Fld) (queued : Bool) => ∃ t, exec (.pwmStrobe c) s = .next t ∧ s.Counts t f ∧ t.bit (Fd.PWM_STAT_QUEUED c) = queued ∧
        (if (s.pwmNow c).sync = 1 then (t.pch c).due = p.due.drop 1 else (t.pch c).due = p.due ∧ t.strobeDue c = false) ∧ t.out = [] ∧ others t ∧ s.RegsBut t [Reg.PWM_STAT c] ∧ s.MemKept t;
      s.strobeDue c = true → p.frozen = none →
        (s.pwmForced c = true → Strobed (Fd.PWM_STAT_DROPPED c) (s.bit (Fd.PWM_STAT_QUEUED c))) ∧
        (s.pwmForced c = false → p.run = true → s.pwmPos c < p.cfg.period →
          if s.bit (Fd.PWM_STAT_QUEUED c) then Strobed (Fd.PWM_STAT_DROPPED c) true else Strobed (Fd.PWM_STAT_DELAYED c) true)) ∧
    (let at_ := s.pwmPos c
      let from_ := p.highFrom at_
      let held := at_ - from_ + if from_ = 0 then p.hCarry else 0
      let pw := p.cfg.bootPw * 32
      let again := at_ + 2 * p.cfg.dead + pw
      let due := p.frozen = none ∧ (s.pwmOn c).1 = true ∧ p.cfg.bootHold ≠ 0 ∧ p.cfg.bootHold * 12800 ≤ held
      (due → ∃ t, exec (.pwmBootstrapRefresh c) s = .next t ∧ (t.pch c).refresh = some ⟨at_, p.cfg.dead, pw⟩ ∧ others t ∧ t.regs = s.regs ∧
        t.out = s.atBalls ([.level "PWM_H" c ((t.pwmOn c).1 != p.cfg.inv), .level "PWM_L" c ((t.pwmOn c).2 != p.cfg.inv)] ++
          (if again < p.h1 then [.pulse "PWM_H" c (p.start + again) (p.start + p.h1)] else []) ++
          (if max p.l0 at_ < p.l1 then [.pulse "PWM_L" c (p.start + max p.l0 at_) (p.start + p.l1)] else []) ++
          (if 0 < pw then [.pulse "PWM_L" c (p.start + at_ + p.cfg.dead) (p.start + at_ + p.cfg.dead + pw)] else [])) ∧
        (0 < 2 * p.cfg.dead + pw → (t.pwmOn c).1 = false) ∧ (0 < p.cfg.dead → (t.pwmOn c).2 = decide (p.l0 ≤ at_ ∧ at_ < p.l1))) ∧
      (¬due → exec (.pwmBootstrapRefresh c) s = .next s.clean)) ∧
    (s.pwm.tripMask = 0 → exec .pwmTripReport s = .next s.clean) ∧
    (s.pwm.tripMask ≠ 0 → ∃ t, exec .pwmTripReport s = .next t ∧ t.pwm = { s.pwm with tripMask := 0, tripCause := 0 } ∧ t.regs = s.regs ∧ s.MemKept t ∧
      ∀ r, r = 0 ∨ r = 8 → s.Posts t r 0x0380 0 s.fig.measure (natLe 2 s.pwm.tripMask ++ natLe 1 s.pwm.tripCause))) ∧
  (∀ k : Fin 2,
    let live : Fld := ⟨Reg.PWM_FLTSTAT, k, k⟩
    let seen : Fld := ⟨Reg.PWM_FLTSTAT, k + 2, k + 2⟩
    (∃ t, exec (.pwmFaultInput k false) s = .next t ∧ t.get live = 0 ∧ t.pwm = s.pwm ∧ s.RegsBut t [Reg.PWM_FLTSTAT] ∧ s.MemKept t) ∧
    (∃ t, exec (.pwmFaultInput k true) s = .next t ∧ t.get live = 1 ∧ t.get seen = 1 ∧ s.Counts t Fd.PWM_FLTSTAT_TRIPS ∧ s.MemKept t ∧
      (s.bit (Fd.PWM_CTL_ENABLE c) = true → t.bit (Fd.PWM_STAT_FAULT c) = true ∧ t.pwmOn c = (false, false) ∧
        if s.pwmForced c then t.pch c = p ∧ bitAt t.pwm.tripMask c = bitAt s.pwm.tripMask c
        else (t.pch c).run = false ∧ bitAt t.pwm.tripMask c = true ∧ t.bit (Fd.PWM_STAT_QUEUED c) = false) ∧
      (s.bit (Fd.PWM_CTL_ENABLE c) = false → p.run = false → t.pch c = p ∧ t.bit (Fd.PWM_STAT_FAULT c) = s.bit (Fd.PWM_STAT_FAULT c)))) ∧
  (∀ high, let trips := s.bit (Fd.PWM_LIM_ENABLE c) = true ∧ ∃ n, s.onFor c high = some n ∧ s.get (Fd.PWM_LIM_MAX_ON_US c) * 1000 < n
    (trips → ∃ t, exec (.pwmLimiterTrip c high) s = .next t ∧ t.bit (Fd.PWM_STAT_LIMIT c) = true ∧ (t.pch c).run = false ∧ t.pwmOn c = (false, false) ∧
      bitAt t.pwm.tripMask c = true ∧ bitAt t.pwm.tripCause 2 = true ∧ others t ∧ t.bit Fd.SYS_FLTSUM_PWM = true ∧
      s.RegsBut t [Reg.PWM_STAT c, Reg.SYS_FLTSUM] ∧ s.MemKept t) ∧
    (¬trips → exec (.pwmLimiterTrip c high) s = .next s.clean))

/-! ### Plumb (17) -/

/-- Plumb (R393 to R397, R400, R402, R405, R408): an edge is stamped at the nearest point of the root's 78.125 ps grid; above 1 kHz only the
first edge of a ms is a sample and the others only count; a sample ends a loss of signal and counts into its gate; a gate's end sets the offset and GOOD,
qualifies at the second good one and disqualifies at a bad one; a sample of the selected reference sets PLB_PHASE and steers, moves or, once in an
acquisition from FREERUN, steps device time; a loss of signal disqualifies. -/
def Obligations.PlumbReferences : Prop :=
  ∀ (s : State) (r : Fin 7) (cycles sub master : Nat), s.Sealed → s.stands = false →
  let m := s.ref r
  let ofs := s.gridOfs sub
  let on := atRate s.freqF ofs
  let stamp := (s.tme.t + on).toNat
  let at_ := (s.plb.run + on).toNat
  let every := 4 ≤ r.val ∨ s.get (Fd.PLB_REFFREQ_FREQ_HZ r) ≤ 1000
  let again := ¬every ∧ m.last ≠ none ∧ m.lastMs = stamp / (1000000 * nsU)
  let count := if every then 1 else cycles
  let qual := s.get (Fd.PLB_REFQUAL_QUAL_CYCLES r)
  let act := Instr.referenceSample r cycles sub master
  let runs := s.measured r = true ∧ s.clocksRun = true
  let live := runs ∧ ¬again
  let here := (s.plb.base + atRate s.plb.fi ofs).toNat
  let root := (s.clk.now * 2 * nsU + ofs).toNat
  let Samples := fun (also : State → Prop) => ∃ t, exec act s = .next t ∧ t.bit (Fd.PLB_REFSTAT_LOS r) = false ∧
    (t.ref r).last = some at_ ∧ (t.ref r).lastMs = stamp / (1000000 * nsU) ∧
    (∀ k, k < 7 → k ≠ r.val → t.ref k = s.ref k) ∧ s.MemKept t ∧ t.fig = s.fig ∧ t.odo = s.odo ∧ s.NoEvents t ∧ also t
  (¬runs → exec act s = .next s.clean) ∧
  (runs → again → exec act s = .next (s.clean.modRef r fun m => { m with gate := m.gate.map fun g => (g.1, g.2.1, g.2.2 + cycles) })) ∧
  (live → s.get Fd.PLB_STATE_SELECTED ≠ r → m.gate = none → Samples fun t => (t.ref r).gate = some (here, root, 0) ∧ t.tme = s.tme) ∧
  (∀ b c n, live → s.get Fd.PLB_STATE_SELECTED ≠ r → m.gate = some (b, c, n) → n + count < qual → Samples fun t =>
    (t.ref r).gate = some (b, c, n + count) ∧ t.tme = s.tme ∧ t.get Fd.PLB_STATE_STATE = s.get Fd.PLB_STATE_STATE) ∧
  (∀ b c n, live → m.gate = some (b, c, n) → qual ≤ n + count →
    let ofs := s.gateOffset r (n + count) (here - b)
    let abs_ := s.gateOffset r (n + count) (root - c)
    let tol := s.get (Fd.PLB_REFTOL_TOL_PPB r) * 1000
    let good := m.gateLos = false ∧ (∀ p, m.prevOfs = some p → (abs_ - p).natAbs ≤ tol) ∧ (s.plbState = sLOCKED → ofs.natAbs ≤ tol)
    Samples fun t => t.get (Fd.PLB_REFOFS_OFS r) = unsigned 32 ofs ∧ (t.bit (Fd.PLB_REFSTAT_GOOD r) = true ↔ good) ∧
      (t.ref r).gate = some (here, root, 0) ∧ (t.ref r).gateLos = false ∧ (good → (t.ref r).good = m.good + 1) ∧ (¬good → (t.ref r).good = 0) ∧
      (good → (t.bit (Fd.PLB_REFSTAT_QUALIFIED r) = true ↔ s.qualified r = true ∨ 1 ≤ m.good)) ∧
      (¬good → t.bit (Fd.PLB_REFSTAT_QUALIFIED r) = false ∧ (s.qualified r = true → s.Counts t (Fd.PLB_REFSTAT_LOSS r)))) ∧
  (∀ b c n, live → s.get Fd.PLB_STATE_SELECTED = r → s.qualified r = true → m.gate = some (b, c, n) → n + count < qual →
    let e := s.sampleError r stamp master
    let win := s.get Fd.PLB_LOCK_WIN_NS * nsU
    let slope := s.get Fd.PLB_SLOPE_SLOPE_PS
    let phase := fun (t : State) => t.get Fd.PLB_PHASE_E = unsigned 32 (max (-(2 ^ 31)) (min (2 ^ 31 - 1) (ePs e)))
    (s.plbState = sLOCKED → e.natAbs ≤ win → Samples fun t => phase t ∧ t.plbState = sLOCKED ∧ t.tme = s.tme ∧ t.plb.moveEnd = none ∧
      t.plb.fp.natAbs ≤ slope ∧ (e = 0 → t.plb.fi = s.plb.fi ∧ t.plb.fp = 0)) ∧
    (s.plbState = sLOCKED → win < e.natAbs → Samples fun t => phase t ∧ t.plbState = sACQUIRE ∧ t.tme = s.tme ∧ t.plb.fi = s.plb.fi ∧
      t.plb.fp = (if e > 0 then -(slope : Int) else slope) ∧ t.plb.moveEnd = some (s.plb.run + e.natAbs * 1000 * 1000000000 / slope)) ∧
    (s.plbState = sFREERUN → win < e.natAbs → s.bit Fd.PLB_CTL_STEP_FREERUN = true → fullTime r = true → Samples fun t => phase t ∧
      t.plbState = sACQUIRE ∧ t.tme.t = ((s.tme.t : Int) - e).toNat ∧ t.bit Fd.PLB_STATE_VALID = true ∧ s.Counts t Fd.TME_STEPS_STEPS ∧
      t.plb.mayStep = false) ∧
    (s.plbState = sACQUIRE → e.natAbs ≤ win → Samples fun t => phase t ∧ t.tme = s.tme ∧
      t.plbState = (if s.get Fd.PLB_LOCK_LOCK_CYCLES ≤ s.plb.lockRun + 1 then sLOCKED else sACQUIRE))) ∧
  (let due := s.measured r = true ∧ s.bit (Fd.PLB_REFSTAT_LOS r) = false ∧ max (m.last.getD m.began) m.began + s.losWindow r < s.plb.run;
    (due → ∃ t, exec (.referenceLos r) s = .next t ∧ t.bit (Fd.PLB_REFSTAT_LOS r) = true ∧ t.bit (Fd.PLB_REFSTAT_QUALIFIED r) = false ∧
      (t.ref r).good = 0 ∧ (t.ref r).prevOfs = none ∧ (t.ref r).gateLos = m.gate.isSome ∧ (s.qualified r = true → s.Counts t (Fd.PLB_REFSTAT_LOSS r)) ∧
      t.tme = s.tme ∧ s.MemKept t ∧ s.NoEvents t ∧ s.RegsKept t [0x4003, 0x4004]) ∧
    (¬due → exec (.referenceLos r) s = .next s.clean))

/-- Plumb's timers, history and outputs (R398, R404 to R406, R411, R412): a reference of higher priority qualified for 10 s is selected; a move
ends with FP 0; HOLDOVER ends at its limit in FREERUN; FI is kept once a second while LOCKED; firmware reports the history bits that are enabled
and clears what it read; the edges of the outputs lie at the grid points nearest to their device times, and the outputs stand low while
disabled or squelched. -/
def Obligations.PlumbTimersAndOutputs : Prop :=
  ∀ (s : State), s.Sealed → s.stands = false →
  let cur := s.get Fd.PLB_STATE_SELECTED
  let Plumb := fun (i : Instr) (also : State → Prop) => ∃ t, exec i s = .next t ∧ (∃ p r k, t = { s with out := t.out, plb := p, regs := r, marks := k }) ∧
    s.RegsKept t [0x4003, 0x4004] ∧ also t
  (s.bit Fd.PLB_CTL_AUTO = false ∨ s.bit Fd.PLB_CTL_REVERTIVE = false ∨ cur = 7 → exec .revertiveSwitch s = .next s.clean) ∧
  (∀ r, r < 7 → s.bit Fd.PLB_CTL_AUTO = true → s.bit Fd.PLB_CTL_REVERTIVE = true → cur < 7 → r ≠ cur →
    (s.bestOf fun r => (s.ref r).since + 10000000000 * nsU ≤ s.plb.run) = some r → s.priority r < s.priority cur ∨ s.priority r = s.priority cur ∧ r < cur →
    Plumb .revertiveSwitch fun t => t.get Fd.PLB_STATE_SELECTED = r ∧ t.plb.fi = s.plb.fi + s.getI (Fd.PLB_REFOFS_OFS r) ∧
      t.plbState = s.plbState ∧ bitAt (t.get Fd.PLB_HIST_HIST) 4 = true) ∧
  (∀ n, s.plb.moveEnd = some n → (n ≤ s.plb.run → Plumb .moveEnd fun t => t.plb = { s.plb with moveEnd := none, fp := 0 } ∧
    t.bit Fd.PLB_STATE_SLOPE_ACTIVE = false) ∧ (s.plb.run < n → exec .moveEnd s = .next s.clean)) ∧
  (s.plb.moveEnd = none → exec .moveEnd s = .next s.clean) ∧
  (let limit := s.get Fd.PLB_CTL_HOLD_LIMIT_S
    let lapsed := s.plbState = sHOLDOVER ∧ limit ≠ 0 ∧ s.plb.heldAt + limit * 1000000000 * nsU ≤ s.plb.run;
    (lapsed → Plumb .holdoverLimitExpiry fun t => t.plbState = sFREERUN ∧ t.plb.fp = 0 ∧ t.plb.fi = s.plb.fi ∧
      bitAt (t.get Fd.PLB_HIST_HIST) 9 = true ∧ bitAt (t.get Fd.PLB_HIST_HIST) 0 = true) ∧
    (¬lapsed → exec .holdoverLimitExpiry s = .next s.clean)) ∧
  (let due := s.plbState = sLOCKED ∧ (s.plb.hist = [] ∨ s.plb.histSec ≠ s.sec);
    (due → Plumb .fiHistoryRecord fun t => t.plb = { s.plb with hist := ((s.plb.run, s.plb.fi) :: s.plb.hist).take 64, histSec := s.sec } ∧ t.regs = s.regs) ∧
    (¬due → exec .fiHistoryRecord s = .next s.clean)) ∧
  (let h := s.get Fd.PLB_HIST_HIST
    let due := s.ready rMBX = true ∧ h &&& s.get Fd.PLB_IEN_IEN ≠ 0;
    (due → ∃ t, exec .plbHistService s = .next t ∧ t.get Fd.PLB_HIST_HIST = 0 ∧ t.plb = { s.plb with reported := s.plbState } ∧
      s.RegsBut t [Reg.PLB_HIST] ∧ s.MemKept t ∧ ∀ b, b < 9 → if b = 0 ∨ b = 8 ∨ s.bayState b ≠ bEMPTY then s.Posts t b 0x0390 0 s.fig.measure
        (natLe 1 s.plbState ++ natLe 1 s.plb.reported ++ natLe 1 (if cur = 7 then 0xFF else cur) ++ natLe 2 h) else t.ring b = s.ring b) ∧
    (¬due → exec .plbHistService s = .next s.clean)) ∧
  (s.clocksRun = false → ∀ n, exec (.clockOutputEdge n) s = .next s.clean) ∧
  (∀ n : Fin 3, s.clocksRun = true → n.val < 2 →
    let f := s.get (outFreq n)
    let half := s.tme.t * 2 * f / (1000000000 * nsU)
    let late := min (s.plb.run - vget s.plb.hold n) (s.tme.t - cdiv (half * (1000000000 * nsU)) (2 * f))
    let quiet := s.bit (outEnable n) = false ∨ s.bit (outSquelch n) = true ∧ s.plbState = sFREERUN;
    (quiet → exec (.clockOutputEdge n) s = .next { s with out := s.atBalls [.level "CLKOUT" n false] }) ∧
    (¬quiet → vget s.plb.hold n ≤ s.plb.run → half ≠ vget s.plb.half n → Plumb (.clockOutputEdge n) fun t =>
      t.out = (if half % 2 = vget s.plb.half n % 2 then [] else s.atBalls [.edge "CLKOUT" n (half % 2 = 0) (s.pointBefore late)]) ∧ vget t.plb.half n = half ∧ t.regs = s.regs) ∧
    (¬quiet → s.plb.run < vget s.plb.hold n ∨ half = vget s.plb.half n → exec (.clockOutputEdge n) s = .next s.clean)) ∧
  (s.clocksRun = true →
    let into := s.tme.t % (1000000000 * nsU)
    let ends := s.plb.ppsRose + s.get Fd.PLB_PPSOUT_PW_US * 1000 * nsU
    let quiet := s.bit Fd.PLB_PPSOUT_ENABLE = false ∨ s.bit Fd.PLB_PPSOUT_SQUELCH = true ∧ s.plbState = sFREERUN;
    (quiet → Plumb (.clockOutputEdge 2) fun t => t.out = s.atBalls [.level "PPS_OUT" 0 false] ∧ t.plb.ppsHigh = false ∧ t.plb.ppsSec = s.sec ∧ t.regs = s.regs) ∧
    (¬quiet → s.plb.ppsSec < s.sec → Plumb (.clockOutputEdge 2) fun t => t.out = s.atBalls [.edge "PPS_OUT" 0 true (s.pointBefore into)] ∧
      t.plb.ppsHigh = true ∧ t.plb.ppsSec = s.sec ∧ t.plb.ppsRose = s.plb.run - into ∧ t.regs = s.regs) ∧
    (¬quiet → s.sec ≤ s.plb.ppsSec → s.plb.ppsHigh = true → ends ≤ s.plb.run → Plumb (.clockOutputEdge 2) fun t =>
      t.out = s.atBalls [.edge "PPS_OUT" 0 false (s.pointBefore (s.plb.run - ends))] ∧ t.plb.ppsHigh = false ∧ t.regs = s.regs) ∧
    (¬quiet → s.sec ≤ s.plb.ppsSec → s.plb.ppsHigh = false ∨ s.plb.run < ends →
      exec (.clockOutputEdge 2) s = .next s.clean))

/-! ### Ethernet and junction (18) -/

/-- Ethernet (R415 to R420, R422, R424, R428, R429, R431): a received frame is dropped and counted, goes to firmware, a PTP message with its stamp
and the plumb state, to the telegram filter or to the queue of its class; a transmit record becomes a frame of its class or is discarded and counted; a port sends the frame of the first eligible
queue; a link change is reported. -/
def Obligations.Ethernet : Prop :=
  ∀ (s : State) (p : Fin 4), s.Sealed → s.stands = false →
  let m := s.macPort p
  let Port := fun (i : Instr) (rs : List Nat) (also : State → Prop) => ∃ t, exec i s = .next t ∧ s.RegsBut t rs ∧ s.MemKept t ∧ s.NoEvents t ∧
    t.fig = s.fig ∧ t.jnc = s.jnc ∧ (∀ q, q < 4 → q ≠ p.val → t.macPort q = s.macPort q) ∧ also t
  let Drops := fun (i : Instr) (f : Fld) => ∃ t, exec i s = .next t ∧ s.OnlyRegs t ∧ s.RegsBut t [f.addr] ∧ s.Counts t f
  (∀ l : List Byte,
    let rx := Instr.macFrameReceive p l
    let ty := (etherType l).1
    let c := if beAt l 12 2 = 0x8100 then beAt l 14 1 / 32 else 0
    let plain := s.ready rNET = true ∧ s.prpOn p = false ∧ (∀ e ∈ m.sas, e.2.rx = false) ∧ beAt l 12 2 ≠ 0x88E5
    let fits := plain ∧ l.length ≤ m.mtu + 18
    let other := fits ∧ ty ≠ 0x0800 ∧ ty ≠ 0x88F7 ∧ ty ≠ 0x0806 ∧ ty ≠ 0x888E ∧ ty ≠ 0x88FB
    (s.ready rNET = false → Drops rx (Fd.MAC_RXDROP_NOT_READY p)) ∧
    (s.ready rNET = true → s.prpOn p = false → (∃ e ∈ m.sas, e.2.rx = true) → beAt l 12 2 ≠ 0x88E5 → ty ≠ 0x888E → ty ≠ 0x88F7 →
      Drops rx (Fd.MSC_STAT_UNPROT p)) ∧
    (s.ready rNET = true → s.prpOn p = false → (∀ e ∈ m.sas, e.2.rx = false) → beAt l 12 2 = 0x88E5 → Drops rx (Fd.MSC_STAT_NO_SA p)) ∧
    (plain → m.mtu + 18 < l.length → Drops rx (Fd.MAC_RXDROP_LONG p)) ∧
    (fits → ty = 0x0806 → ∃ t, exec rx s = .next t ∧ t = { s with out := [], net := t.net } ∧ t.net.ports = s.net.ports ∧
      t.net.fw = (p.val, l) :: s.net.fw ∧
      (beAt l ((etherType l).2 + 14) 4, (l.drop ((etherType l).2 + 8)).take 6) ∈ t.net.arp) ∧
    (fits → ty = 0x88F7 → exec rx s = .next { s with out := [], net := { s.net with fw := (p.val, l) :: s.net.fw, ptp :=
      ⟨p.val, false, ((s.tme.t * 64 / (5 * nsU) : Nat) : Int) - Config.phyLatency p false, s.plbState⟩ :: s.net.ptp } }) ∧
    (other → (∀ b, b < 8 → s.ownsClass b p c = false) → Drops rx (Fd.MAC_RXDROP_NO_OWNER p)) ∧
    (∀ b, other → s.classOwner p c = some b →
      let q := vget m.rx b
      let full := (s.netClass p c).rxLimit < recordsHeld (vget q.queues c) + l.length + 16
      (full → Drops rx (Fd.TSN_DROP_RX_FULL p)) ∧
      (¬full → Port rx [] fun t => (vget (t.macPort p).rx b).seq = (q.seq + 1) % 2 ^ 32 ∧
        vget (vget (t.macPort p).rx b).queues c = vget q.queues c ++ [granules (l.length + 32) (natLe 1 1 ++ natLe 1 c ++ natLe 1 0 ++ natLe 1 p ++
          natLe 2 l.length ++ natLe 2 0 ++ natLe 4 q.seq ++ natLe 4 0 ++ natLe 8 s.ns ++ natLe 4 0 ++ natLe 4 0 ++ l)])) ∧
    (∀ src dst ok u, fits → ty = 0x0800 → ipv4 l = some (17, src, dst, ok, u) → beAt u 2 2 = 17224 → beAt u 0 2 ≠ 17225 →
      s.jncUdp p ≠ some 17224 →
      let d := u.drop 8
      let whole := 40 ≤ d.length ∧ fieldAt d 36 4 = (crc32 (d.take 36)).toNat
      let hit := s.net.filters.find? fun e => e.2.enable && bitAt e.2.ports p && e.2.comId = beAt d 8 4 && (e.2.src = 0 || e.2.src = src)
      (¬whole ∨ hit = none ∨ (∃ x, hit = some x ∧ x.2.maxLen < beAt d 20 4) → Drops rx (Fd.TSN_TRDP_RX_DROP p)) ∧
      (∀ n e, whole → hit = some (n, e) → beAt d 20 4 ≤ e.maxLen → Port rx [] fun t => t.net.ports = s.net.ports ∧
        (n, { e with counter := beAt d 0 4, len := beAt d 20 4, fresh := true, valid := true, port := p, time := s.ns,
                     data := fixLen 0 (beAt d 20 4) (d.drop 40) }) ∈ t.net.filters ∧
        ∀ x ∈ s.net.filters, x.1 ≠ n → x ∈ t.net.filters))) ∧
  (let tx := Instr.txRecord p;
    (m.dma = [] → exec tx s = .next s.clean) ∧
    (∀ g, m.dma = [g] → fieldAt g.bytes 0 1 = 0 → Port tx [] fun t => t.macPort p = { m with dma := [] }) ∧
    (∀ g, m.dma = [g] → 1 < fieldAt g.bytes 0 1 ∨ fieldAt g.bytes 0 1 = 1 ∧ 64 < fieldAt g.bytes 3 1 → Port tx [Reg.MAC_TXERR p] fun t =>
      t.macPort p = { m with dma := [] } ∧ s.Counts t (Fd.MAC_TXERR_BAD p)) ∧
    (∀ b,
      let head := (m.dma.headD {}).bytes
      let h := fieldAt head 3 1
      let chain := bitAt (fieldAt head 2 1) 2
      let n := if chain then fieldAt (m.dma.getD (1 + cdiv h 16) {}).bytes 0 2 else fieldAt head 4 2
      let size := 1 + cdiv h 16 + (if chain then 1 else 0) + cdiv n 16
      let c := fieldAt head 1 1 % 8
      let fill := bitAt (fieldAt head 2 1) 0
      let sa := fieldAt head 6 1
      let l := (m.dma.take size).flatMap Granule.bytes
      let raw := (l.drop 16).take h ++ (l.drop (16 + cdiv h 16 * 16 + if chain then 16 else 0)).take n
      let f : NetFrame := { bay := b, bytes := if fill then fillHeader m.mac h raw else raw, sa := sa,
                            stamp := bitAt (fieldAt head 2 1) 1, tag := fieldAt head 8 4 }
      let record := m.dma ≠ [] ∧ fieldAt head 0 1 = 1 ∧ h ≤ 64
      let whole := record ∧ size ≤ m.dma.length ∧ ∀ g ∈ m.dma.take size, g.tag / 2 ^ 25 = b
      let may := s.ownsClass b p c = true ∧ (sa = 0xFF ∨ s.txSa b p sa = true)
      let good := whole ∧ s.prpHigh p = false ∧ may ∧ (fill = true → h = 42 ∨ h = 46) ∧ raw.length ≤ m.mtu + 18
      let full := (s.netClass p c).txLimit < bytesQueued (s.netClass p c).tx + f.bytes.length + 16
      let Gone := fun (k : Fld) => Port tx [k.addr] fun t => t.macPort p = { m with dma := m.dma.drop size } ∧ s.Counts t k
      (record → m.dma.length < size → exec tx s = .next s.clean) ∧
      (whole → s.prpHigh p = true → Gone (Fd.MAC_TXERR_BAD p)) ∧
      (whole → s.prpHigh p = false → ¬may → Gone (Fd.MAC_TXERR_NOT_OWNED p)) ∧
      (whole → s.prpHigh p = false → may → fill = true → h ≠ 42 → h ≠ 46 → Gone (Fd.MAC_TXERR_BAD p)) ∧
      (whole → s.prpHigh p = false → may → (fill = true → h = 42 ∨ h = 46) → m.mtu + 18 < raw.length → Gone (Fd.MAC_TXERR_LONG p)) ∧
      (good → full → Gone (Fd.TSN_DROP_TX_FULL p)) ∧
      (good → ¬full → s.fitsIn p f (s.netClass p c).longest = false → Gone (Fd.TSN_DROP_GATE_OVERSIZE p)) ∧
      (good → ¬full → s.fitsIn p f (s.netClass p c).longest = true → Port tx [] fun t =>
        (t.netClass p c).tx = (s.netClass p c).tx ++ [f] ∧ (t.macPort p).dma = m.dma.drop size ∧
        ∀ d, d < 8 → d ≠ c → t.netClass p d = s.netClass p d))) ∧
  (let send := Instr.macTransmitSelect p
    let idle := s.ready rNET = true ∧ s.bit (Fd.MAC_STAT_LINK p) = true ∧ s.prpHigh p = false ∧ m.busy ≤ s.clk.now
    let order := [8, 9, 7, 6, 5, 4, 3, 2, 1, 0]
    let wire := fun (q : Nat) (l : List Byte) => Out.frame q (l ++ natLe 4 (crc32 l).toNat);
    (¬idle → exec send s = .next s.clean) ∧
    ((∀ k, k < 10 → s.eligible p k = false) → exec send s = .next s.clean) ∧
    (∀ k f, idle → order.find? (fun k => s.eligible p k) = some k → s.queueHead p k = some f →
      let body := f.bytes ++ List.replicate (60 - f.bytes.length) 0
      let bare := f.sa = 0xFF ∨ plainType f.bytes = true
      let Sent := fun (out : List Out) => Port send [Reg.TSN_TRDP p, Reg.TSN_DROP p] fun t => t.out = out ∧
        (t.macPort p).busy = s.clk.now + cdiv ((body.length + 24 + if s.prpOn p then 6 else 0) * 8 * 500000) (s.macRate p) ∧
        (t.macPort p).trdp = (if k = 8 then m.trdp.tail else m.trdp) ∧ (t.macPort p).platform = (if k = 9 then m.platform.tail else m.platform) ∧
        (∀ c, c < 8 → (t.netClass p c).tx = if c = k then (s.netClass p c).tx.tail else (s.netClass p c).tx) ∧
        (if k = 8 then s.Counts t (Fd.TSN_TRDP_SENT p) else t.reg (Reg.TSN_TRDP p) = s.reg (Reg.TSN_TRDP p)) ∧
        (f.stamp = false ∨ 8 ≤ k → t.reg (Reg.TSN_DROP p) = s.reg (Reg.TSN_DROP p) ∧ (t.macPort p).rx = m.rx)
      (s.prpOn p = false → bare → Sent [wire p body]) ∧
      (s.prpOn p = true → bare →
        let rct := fun (lan : Nat) => natBe 2 m.prpSeq ++ natBe 2 (lan * 4096 + (body.length + 6 - 14) % 4096) ++ [0x88, 0xFB]
        Sent [wire p (body ++ rct 0xA), wire (p + 1) (body ++ rct 0xB)]) ∧
      (s.prpOn p = false → ¬bare → (∀ e ∈ m.sas, e.1 ≠ f.sa) → ∃ t, exec send s = .next t ∧ t.out = [] ∧ s.Counts t (Fd.MSC_STAT_NO_SA p) ∧
        (∀ c, c < 8 → (t.netClass p c).tx = if c = k then (s.netClass p c).tx.tail else (s.netClass p c).tx)))) ∧
  (∀ up : Bool,
    (s.bit (Fd.MAC_STAT_LINK p) = up → exec (.netLinkChange p up) s = .next s.clean) ∧
    (s.bit (Fd.MAC_STAT_LINK p) ≠ up → ∃ t, exec (.netLinkChange p up) s = .next t ∧ t.bit (Fd.MAC_STAT_LINK p) = up ∧
      s.RegsBut t [Reg.MAC_STAT p] ∧ s.MemKept t ∧ t.net = s.net ∧ ∀ b, b < 9 →
      if b = 0 ∨ b = 8 ∨ (∃ c, c < 8 ∧ s.ownsClass b p c = true) then
        s.Posts t b 0x03A0 0 s.fig.measure (natLe 1 p ++ natLe 1 (b2n up) ++ natLe 1 (s.get (Fd.MAC_STAT_SPEED p)))
      else t.ring b = s.ring b))

/-- Junction (R433 to R440): what a frame that arrives does (a bad one asks again; ACK frees the retry buffer; NAK resends; VIDEO and CONTROL
are delivered, forwarded or removed; DISCOVER tells size and position), the resend and keep-alive timers, TIME frames, the time-out of a
discovery, the start of a received frame, and changes of a link. JNC_RING.MASTER follows what the links have told, and its changes are reported. -/
def Obligations.Junction : Prop :=
  ∀ (s : State) (p : Fin 2), s.Sealed → s.stands = false →
  let k := s.jlink p
  let node := s.node
  let other := 1 - p.val
  let up := s.linkUp p = true
  let Link := fun (i : Instr) (rs : List Nat) (also : State → Prop) => ∃ t, exec i s = .next t ∧ s.RegsBut t rs ∧ s.MemKept t ∧ t.net = s.net ∧
    t.fig = s.fig ∧ t.vid = s.vid ∧ also t
  let patched := fun (l : List Byte) => jncPatch l [(1, natLe 1 (fieldAt l 1 1 ||| 2)), (4, natLe 2 k.rxSeq)]
  let Resent := fun (i : Instr) => Link i [Reg.JNC_STAT p] fun t => s.NoEvents t ∧ t.out = k.retry.map (fun e => Out.link p (patched e.bytes)) ∧
    s.Counts t (Fd.JNC_STAT_RETRIES p) k.retry.length ∧
    (t.jlink p).retry = k.retry.map fun e => { e with again := e.again + 1, at_ := s.runNs }
  -- without what link p has told of the master, who the master is
  let lone := (s.modLink p fun k => { sentAt := k.sentAt, queue := k.queue }).masterNode % 2 ^ 20
  let Told := fun (cause : Nat) (t : State) => t.get Fd.JNC_RING_MASTER = lone ∧ (s.get Fd.JNC_RING_MASTER ≠ lone → (t.ring 0).evtSeq = (s.ring 0).evtSeq + 2) ∧
    (s.get Fd.JNC_RING_MASTER = lone → t.reg Reg.JNC_RING = s.reg Reg.JNC_RING ∧
      s.Posts t 0 0x03A2 0 s.fig.measure (natLe 1 p ++ natLe 1 0 ++ natLe 1 cause))
  let Failed := fun (i : Instr) => Link i [Reg.JNC_STAT p, Reg.SYS_FLTSUM, Reg.JNC_RING] fun t => t.bit (Fd.JNC_STAT_TRAINED p) = false ∧
    t.bit (Fd.JNC_STAT_LINK p) = false ∧ t.bit Fd.SYS_FLTSUM_LINK = true ∧ (t.jlink p).retry = [] ∧ (t.jlink p).queue = k.queue ∧ (∀ b, Out.link p b ∉ t.out) ∧ Told 1 t
  (∀ l : List Byte,
    let rx := Instr.jncFrameReceive p l
    let kind := fieldAt l 0 1
    let bcast := bitAt (fieldAt l 1 1) 0
    let mine := fieldAt l 12 4 % 2 ^ 20 = node
    let hops := srcHops l + 1
    let nak := Out.link p (jncFrame kNAK 0 0 k.rxSeq node 0 [] [])
    let onward := jncPatch l [(1, natLe 1 (fieldAt l 1 1 &&& 253)), (11, natLe 1 hops)]
    let good := up ∧ jncGood l = true
    -- nothing waits behind the retry buffer, and the frame does not come from the neighbour on JNC0
    let calm := good ∧ k.queue = [] ∧ (p.val = 1 ∨ srcHops l ≠ 0)
    let left := k.retry.filter fun e => !(decide (1 ≤ (fieldAt l 4 2 + 65536 - e.seq) % 65536) && decide ((fieldAt l 4 2 + 65536 - e.seq) % 65536 ≤ 32768))
    let Got := fun (also : State → Prop) => Link rx [] fun t => s.NoEvents t ∧ srcNode l ∈ t.jnc.nodes ∧ (t.jlink p).retry = left ∧ also t
    let inTurn := (kind = kVIDEO ∨ kind = kCONTROL) ∧ fieldAt l 2 2 = k.rxSeq
    let takes := (s.jlink other).queue = [] ∧ s.linkUp other = true ∧ s.heldKind l = false ∧
      retryBytes (s.jlink other) + onward.length ≤ 262144
    let here := Got fun t => t.out = [] ∧ (t.jlink p).rxSeq = (k.rxSeq + 1) % 65536 ∧ t.jlink other = s.jlink other ∧
      (if kind = kCONTROL then t.jnc.control = s.jnc.control ++ [(l.drop 24).take (fieldAt l 6 2)] ∧ t.jnc.rx = s.jnc.rx
        else t.jnc.control = s.jnc.control ∧ ∀ i, i < 8 → (t.jrx i).segs.length = (s.jrx i).segs.length +
          if s.get (Fd.JNC_RXMAP_NODE i) = srcNode l ∧ s.get (Fd.JNC_RXMAP_CH i) = srcChan l ∧ (s.jrx i).done ≠ some (fieldAt l 16 4) then 1 else 0)
    (¬up → exec rx s = .next s.clean) ∧
    (up → jncGood l = false → k.naked = true → exec rx s = .next s.clean) ∧
    (up → jncGood l = false → k.naked = false → Link rx [] fun t => t.regs = s.regs ∧ s.NoEvents t ∧ t.out = [nak] ∧ (t.jlink p).naked = true) ∧
    (good → kind = 0 ∨ 6 < kind → Link rx [] fun t => t.jnc = { s.jnc with discarded := s.jnc.discarded + 1 } ∧ t.out = []) ∧
    (calm → kind = kACK → Got fun t => t.out = [] ∧ (t.jlink p).rxSeq = k.rxSeq ∧ t.jlink other = s.jlink other) ∧
    (calm → kind = kNAK → left = k.retry → (∀ e ∈ k.retry, e.again < 16) → Resent rx) ∧
    (calm → kind = kNAK → left = k.retry → (∃ e ∈ k.retry, 16 ≤ e.again) → Failed rx) ∧
    (k.rxSeq < 65536 →
      (calm → kind = kVIDEO ∨ kind = kCONTROL ∨ kind = kDISCOVER → fieldAt l 2 2 ≠ k.rxSeq → Got fun t => (t.jlink p).rxSeq = k.rxSeq ∧
        t.out = if (fieldAt l 2 2 + 65536 - k.rxSeq) % 65536 < 32768 ∧ k.naked = false then [nak] else []) ∧
      (calm → inTurn → s.fig.geom = none → Got fun t => t.out = [] ∧ t.jnc.discarded = s.jnc.discarded + 1) ∧
      (calm → inTurn → s.fig.geom.isSome = true → srcNode l = node → Got fun t => t.out = [] ∧ t.jnc.control = s.jnc.control ∧ t.jnc.rx = s.jnc.rx) ∧
      (calm → inTurn → s.fig.geom.isSome = true → srcNode l ≠ node → bcast = false → mine → here) ∧
      (calm → inTurn → s.fig.geom.isSome = true → srcNode l ≠ node → 64 ≤ hops → (bcast = true → here) ∧
        (bcast = false → ¬mine → Got fun t => t.out = [] ∧ t.jlink other = s.jlink other)) ∧
      (calm → inTurn → s.fig.geom.isSome = true → srcNode l ≠ node → hops < 64 → bcast = false → ¬mine → takes → Got fun t =>
        let o := s.jlink other
        let b := jncPatch onward [(2, natLe 2 o.txSeq), (4, natLe 2 o.rxSeq)]
        t.out = [.link other b] ∧ (t.jlink other).txSeq = (o.txSeq + 1) % 65536 ∧
        (t.jlink other).retry = o.retry ++ [{ seq := o.txSeq, bytes := b, at_ := s.runNs }]) ∧
      (calm → kind = kDISCOVER → fieldAt l 2 2 = k.rxSeq → fieldAt l 16 4 % 2 ^ 20 = node → s.jnc.disc = none →
        Link rx [Reg.JNC_RING] fun t => t.bit Fd.JNC_RING_DUP = true) ∧
      (calm → kind = kDISCOVER → fieldAt l 2 2 = k.rxSeq → fieldAt l 16 4 % 2 ^ 20 = node → s.jnc.disc.isSome = true → s.jnc.discBy = [] →
        Link rx [Reg.JNC_RING, Reg.JNC_POS] fun t => t.get Fd.JNC_RING_SIZE = hops % 256 ∧ t.jnc.disc = none ∧ t.bit Fd.JNC_RING_OPEN = false ∧
          t.bit Fd.JNC_RING_DUP = false ∧
          t.get Fd.JNC_POS_POSITION = if fieldAt l 20 4 % 2 ^ 20 = node then 0 else (fieldAt l 20 4 / 2 ^ 20 % 256 + 1) % 256)) ∧
    (calm → kind = kTIME → srcNode l ≠ node → fieldAt ((l.drop 24).take 48) 32 8 = 0 → Got fun t => t.out = [] ∧
      (t.jlink p).echoTx = fieldAt l 16 8 ∧ (t.jlink p).echoRx = s.t16 % 2 ^ 64)) ∧
  (∀ e r, k.retry = e :: r →
    let due := up ∧ e.at_ + 10000 ≤ s.runNs;
    (¬due → exec (.jncResendTimeout p) s = .next s.clean) ∧
    (due → (∀ x ∈ k.retry, x.again < 16) → Resent (.jncResendTimeout p)) ∧
    (due → (∃ x ∈ k.retry, 16 ≤ x.again) → Failed (.jncResendTimeout p))) ∧
  (k.retry = [] → exec (.jncResendTimeout p) s = .next s.clean) ∧
  (let due := up ∧ k.sentAt + 1000 ≤ s.runNs;
    (¬due → exec (.jncAckTimer p) s = .next s.clean) ∧
    (due → Link (.jncAckTimer p) [] fun t => t.out = [.link p (jncFrame kACK 0 0 k.rxSeq node 0 [] [])] ∧ s.NoEvents t ∧
      t.jlink p = { k with sentAt := s.runNs } ∧ t.jlink other = s.jlink other)) ∧
  (let ms := s.ns / 1000000
    let due := fun (q : Nat) => s.linkUp q = true ∧ s.jncMode ≠ 1 ∧ (s.jlink q).timeAt ≠ some ms
    let ownFrame := fun (q : Nat) => jncFrame kTIME 0 0 (s.jlink q).rxSeq node 0 (natLe 8 s.t16)
      (natLe 6 (s.t16 / 65536 / 1000000000) ++ natLe 4 (s.t16 / 65536 % 1000000000) ++ natLe 2 (s.t16 % 65536) ++ natLe 4 node ++ natLe 1 s.plbState ++
        natLe 7 0 ++ natLe 8 0 ++ natLe 8 (s.jlink q).echoTx ++ natLe 8 (s.jlink q).echoRx);
    let master := s.masterNode % 2 ^ 20
    let shown := s.get Fd.JNC_RING_MASTER = master
    let Sends := fun (also : State → Prop) => Link .jncTimeSend [Reg.JNC_RING] fun t => t.get Fd.JNC_RING_MASTER = master ∧
      (shown → t.regs = s.regs ∧ s.NoEvents t) ∧ also t
    (shown → (∀ q, q < 2 → ¬due q) → exec .jncTimeSend s = .next s.clean) ∧
    (¬shown → Sends fun t => s.Posts t 0 0x03A3 0 s.fig.measure (natLe 1 (s.get Fd.JNC_RING_SIZE) ++ natLe 1 (s.get Fd.JNC_POS_POSITION) ++
      natLe 1 (s.get Fd.JNC_RING_OPEN + 2 * s.get Fd.JNC_RING_DUP) ++ [0] ++ natLe 4 master)) ∧
    (due p → s.ringMaster = none → Sends fun t => Out.link p (ownFrame p) ∈ t.out ∧ (t.jlink p).timeAt = some ms ∧
      (t.jlink p).retry = k.retry ∧ (t.jlink p).txSeq = k.txSeq) ∧
    (∀ q h, due p → s.ringMaster = some (q, h) → Sends fun t => (t.jlink p).timeAt = some ms ∧
      ∃ b, Out.link p b ∈ t.out ∧ fieldAt b 0 1 = kTIME ∧ fieldAt b 16 8 = s.t16 % 2 ^ 64 ∧ fieldAt b 36 4 = h.node % 2 ^ 32)) ∧
  (∀ arm0 arm1 : BitVec 6,
    let act := Instr.jncDiscoverTimeout arm0 arm1
    (∀ x, s.jnc.disc = some x → s.runNs < x + 1000000 → exec act s = .next s.clean) ∧
    (s.jnc.disc = none → exec act s = .next s.clean) ∧
    (∀ x, s.jnc.disc = some x → x + 1000000 ≤ s.runNs → s.jnc.discBy = [] → ∃ t, exec act s = .next t ∧
      s.RegsBut t [Reg.JNC_RING, Reg.JNC_POS] ∧ s.MemKept t ∧ t.fig = s.fig ∧ t.vid = s.vid ∧ (s.jncMode ≠ 1 → t.net = s.net) ∧
      t.get Fd.JNC_RING_SIZE = 1 + arm0.toNat + arm1.toNat ∧ t.get Fd.JNC_POS_POSITION = arm0.toNat ∧ t.bit Fd.JNC_RING_OPEN = true ∧
      t.jnc.disc = none)) ∧
  (∀ i : Fin 8,
    let r := s.jrx i
    let ready := fun (g : JncSeg) => g.line = 0 ∧ g.first = 0xFFFF ∧ tagNs g.body.tag + s.get (Fd.JNC_RXDLY_NS i) ≤ s.ns
    (r.cur.isSome = true ∨ (∀ g ∈ r.segs, ¬ready g) → exec (.jncRxFrameStart i) s = .next s.clean) ∧
    (r.cur = none → (∃ g ∈ r.segs, ready g) → ∃ t, exec (.jncRxFrameStart i) s = .next t ∧ t.regs = s.regs ∧ s.MemKept t ∧ s.NoEvents t ∧
      (∃ g ∈ r.segs, ready g ∧ (t.jrx i).cur = some g.frame) ∧ (t.jrx i).startAt = s.clk.now ∧ (t.jrx i).line = 0 ∧ 1 ≤ (t.jrx i).pace ∧
      vget t.vid.srcAt (32 + i) = some s.clk.now ∧ ∀ j, j < 8 → j ≠ i.val → t.jrx j = s.jrx j)) ∧
  (let linked := s.bit (Fd.JNC_STAT_LINK p) = true
    let may := ¬up ∧ s.ready rJNC = true ∧ bitAt s.jnc.ports p = true
    let Now := fun (on : Bool) (rs : List Nat) (also : State → Prop) => Link (.jncLinkChange p on) (Reg.JNC_STAT p :: rs) fun t => t.bit (Fd.JNC_STAT_LINK p) = on ∧
      t.bit (Fd.JNC_STAT_TRAINED p) = on ∧ (on = false ∨ k.queue = [] → t.jlink p = { sentAt := k.sentAt, queue := k.queue }) ∧
      t.jlink other = s.jlink other ∧ also t;
    (may → Now true [] fun t => s.Posts t 0 0x03A2 0 s.fig.measure (natLe 1 p ++ natLe 1 1 ++ natLe 1 0)) ∧ (¬may → exec (.jncLinkChange p true) s = .next s.clean) ∧
    (linked → Now false [Reg.JNC_RING] (Told 2)) ∧ (¬linked → exec (.jncLinkChange p false) s = .next s.clean))

/-! ### Keys, crypto and sealing (19) -/

/-- Crypto jobs and seals (R454, R461 to R464): a job starts, is served in rotation, reads what it needs and writes what it gives through the bus
matrix under its bay's grant, and gives its STATUS; the end of a frame extends the chain and makes a seal due after FRAMES frames and at a stop; a due seal is signed, written to its ring and reported; a chain whose slot goes bad
ends without a closing seal. -/
def Obligations.CryptoAndSeals : Prop :=
  ∀ (s : State), s.Sealed → s.stands = false →
  let OnlyReg := fun (i : Instr) (a : Nat) (also : State → Prop) => ∃ t, exec i s = .next t ∧ s.OnlyRegs t ∧ s.RegsBut t [a] ∧ also t
  (OnlyReg .entropyHealthFail Reg.KEY_STAT fun t => t.bit Fd.KEY_STAT_ENTROPY_FAIL = true ∧ t.get Fd.KEY_STAT_BAD = s.get Fd.KEY_STAT_BAD ∧
    t.bit Fd.KEY_STAT_PROVISIONED = s.bit Fd.KEY_STAT_PROVISIONED ∧ t.bit Fd.KEY_STAT_PUF_FAIL = s.bit Fd.KEY_STAT_PUF_FAIL) ∧
  (∀ b : Fin 8,
    let serves := b = 0 ∨ s.bayState b = bRUNNING
    let idle := s.keys.jobs.getLsbD b = false;
    (¬idle → exec (.cryGo b) s = .next s.clean) ∧
    (idle → ¬serves → OnlyReg (.cryGo b) (Reg.CRY_STATUS b) fun t => t.get (Fd.CRY_STATUS_STATUS b) = 3) ∧
    (idle → serves → ∃ t, exec (.cryGo b) s = .next t ∧ t.get (Fd.CRY_STATUS_STATUS b) = 0xFF ∧ s.RegsBut t [Reg.CRY_STATUS b] ∧
      t = { s with out := [], regs := t.regs, keys := { s.keys with jobs := s.keys.jobs ||| (1#8 <<< b.val) } })) ∧
  (s.keys.run = none → s.keys.jobs = 0 → exec .cryJobDone s = .next s.clean) ∧
  (∀ r id, s.keys.run = some r → r.wait = some id → s.answerTo id = none → exec .cryJobDone s = .next s.clean) ∧
  (∀ b : Fin 8,
    let w := s.jobWord b
    let serves := b = 0 ∨ s.bayState b = bRUNNING
    let turn := s.keys.run = none ∧ (((List.range 8).map fun i => (s.keys.next + 1 + i) % 8).find? fun x => s.keys.jobs.getLsbD x) = some b.val
    let Over := fun (st : Nat) (also : State → Prop) => ∃ t, exec .cryJobDone s = .next t ∧ t.get (Fd.CRY_STATUS_STATUS b) = st ∧
      t.keys.jobs = s.keys.jobs &&& ~~~(1#8 <<< b.val) ∧ t.keys.next = b ∧ t.keys.run = none ∧ t.fig = s.fig ∧ t.seals = s.seals ∧ also t
    let Ends := fun (st : Nat) => Over st fun t => t.bxm = s.bxm ∧ s.MemKept t ∧ s.NoEvents t
    -- the request to read n bytes at address a or to write l there; one that the bay's grant allows and that has to wait, one that it denies
    let req := fun (a n : Nat) (l : List Byte) => s.agentReq 6 .job (s.bayPlace b a) n l
    let may := fun (a n : Nat) (l : List Byte) => b = 0 ∨ s.granted b (s.bayPlace b a) (n + l.length) (!l.isEmpty) = true
    let mine := fun (a n : Nat) (l : List Byte) =>
      ((req a n l).target = 2 ∨ (req a n l).target = 3 ∨ s.grantsNow (req a n l) = false) ∧ may a n l
    let Denied := Over 3 fun t => t.bxm = s.bxm ∧ s.MemKept t ∧ s.Counts t (Fd.BXM_VIOL_COUNT b)
    let Asks := fun (r : JobRun) (a n : Nat) (l : List Byte) => ∃ t, exec .cryJobDone s = .next t ∧ t.regs = s.regs ∧ s.MemKept t ∧ s.NoEvents t ∧
      t.bxm = (s.posting (req a n l)).bxm ∧
      t.keys.run = some { r with wait := some s.bxm.next } ∧ t.keys.jobs = s.keys.jobs
    -- the ranges read so far, the last of which has just come
    let has := fun (got : List (List Byte)) => ∃ id l prev, got = prev ++ [l] ∧ s.keys.run = some { bay := b.val, got := prev, wait := some id } ∧
      s.answerTo id = some (some l)
    let Writes := fun (got : List (List Byte)) (l : List Byte) =>
      (mine (w 4) 0 l → Asks { bay := b.val, got := got, ends := some 0 } (w 4) 0 l) ∧
      (¬may (w 4) 0 l → Denied) ∧
      (∀ o, s.bayPlace b (w 4) = .sram o → s.grantsNow (req (w 4) 0 l) = true → may (w 4) 0 l → o + l.length ≤ sramSize → Over 0 fun t =>
        t.bxm.reqs.length = s.bxm.reqs.length ∧ t.bxm.held = s.bxm.held ∧ t.bxm.lands = s.bxm.lands ∧ t.sram = writeBytes zeroByte l o s.sram ∧ t.bkf = s.bkf ∧ t.ddr = s.ddr ∧ t.flash = s.flash ∧ s.NoEvents t)
    (turn → ¬serves → Ends 3) ∧
    (turn → serves → 0 < w 3 → (mine (w 2) (w 3) [] → Asks { bay := b.val } (w 2) (w 3) []) ∧ (¬may (w 2) (w 3) [] → Denied)) ∧
    (∀ r id, s.keys.run = some r → r.bay = b.val → r.wait = some id → s.answerTo id = some none → Ends 3) ∧
    (∀ r id l st, s.keys.run = some r → r.bay = b.val → r.wait = some id → s.answerTo id = some (some l) → r.ends = some st → st < 256 → Ends st) ∧
    (let key := w 1 % 256
      let usable := fun (u k : Nat) => (s.jobKey b key u).1 = .ok k
      (∀ src, has [src] →
        (w 0 = 0 ∨ 6 < w 0 → Ends 2) ∧
        (w 0 = 3 → Writes [src] (bytesN 32 (Config.sha256 src))) ∧
        (w 0 = 4 → Writes [src] (bytesN 48 (Config.sha384 src))) ∧
        (w 0 = 1 ∨ w 0 = 2 ∨ w 0 = 6 ∨ w 0 = 5 ∧ s.noEntropy = false → 63 < key ∨ s.keyOwner key ≠ b → Ends 2) ∧
        (w 0 = 1 ∨ w 0 = 2 ∨ w 0 = 6 ∨ w 0 = 5 ∧ s.noEntropy = false → key ≤ 63 → s.keyOwner key = b → s.keyBad key = true → Ends 1) ∧
        (w 0 = 5 → s.noEntropy = true → Ends 1) ∧
        (∀ k, w 0 = 5 → s.noEntropy = false → usable uSIGN k →
          let p384 := s.keyType key = 2
          (src.length = (if p384 then 48 else 32) → ∃ x, Writes [src] (bytesN (if p384 then 96 else 64) (Config.ecSign p384 k src x))) ∧
          (src.length ≠ (if p384 then 48 else 32) → Ends 3)) ∧
        (∀ k, w 0 = 1 ∧ usable uENCRYPT k ∨ w 0 = 2 ∧ usable uDECRYPT k → (mine (w 5) 12 [] → Asks { bay := b.val, got := [src] } (w 5) 12 []) ∧
          (¬may (w 5) 12 [] → Denied)) ∧
        (∀ k, w 0 = 6 → usable uVERIFY k → let n := if s.keyType key = 1 then 64 else 96
          (mine (w 5) n [] → Asks { bay := b.val, got := [src] } (w 5) n []) ∧ (¬may (w 5) n [] → Denied))) ∧
      (∀ src sig k, has [src, sig] → w 0 = 6 → usable uVERIFY k → Ends (if verifyWith (s.keyType key) k src sig then 0 else 4)) ∧
      (∀ src iv k, has [src, iv] → w 0 = 1 ∧ usable uENCRYPT k ∨ w 0 = 2 ∧ usable uDECRYPT k → 0 < w 6 →
        (mine (w 5 + 16) (w 6) [] → Asks { bay := b.val, got := [src, iv] } (w 5 + 16) (w 6) []) ∧ (¬may (w 5 + 16) (w 6) [] → Denied)) ∧
      (∀ src iv aad k, has [src, iv, aad] ∨ has [src, iv] ∧ w 6 = 0 ∧ aad = [] →
        (w 0 = 1 → usable uENCRYPT k → Writes [src, iv, aad] (bytesN (src.length + 16) (Config.gcmSeal (natBe 32 k) iv aad src))) ∧
        (w 0 = 2 → usable uDECRYPT k →
          (∀ d, Config.gcmOpen (natBe 32 k) iv aad src = some d → (16 < src.length → Writes [src, iv, aad] (bytesN (src.length - 16) d)) ∧
            (src.length ≤ 16 → Ends 0)) ∧
          (Config.gcmOpen (natBe 32 k) iv aad src = none → Ends 4))))) ∧
  (∀ i : Fin 4,
    let q := s.seal_ i
    let act := Instr.sealFrameEnd i
    let live := q.active = true ∧ q.closed = false
    let Seal := fun (j : Instr) (x : SealIn) (also : State → Prop) => ∃ t, exec j s = .next t ∧ s.RegsBut t [Reg.SEAL_STAT i] ∧ s.MemKept t ∧
      s.NoEvents t ∧ t.keys = s.keys ∧ t.seal_ i = x ∧ (∀ k, k < 4 → k ≠ i.val → t.seal_ k = s.seal_ k) ∧ also t
    (¬live → exec act s = .next s.clean) ∧
    (live → q.recs = [] → exec act s = .next s.clean) ∧
    (live → q.recs = [none] → Seal act { q with recs := [], hashing := false, df := [], gap := true } fun t =>
      t.bit (Fd.SEAL_STAT_GAP i) = true) ∧
    (∀ l, live → q.recs = [some l] → q.hashing = false → bitAt (fieldAt l 2 2) 0 = false → Seal act { q with recs := [] } fun t => t.regs = s.regs) ∧
    (∀ l, live → q.recs = [some l] → (q.hashing = true ∨ bitAt (fieldAt l 2 2) 0 = true) → bitAt (fieldAt l 2 2) 1 = false →
      Seal act { q with recs := [], hashing := true, df := q.df ++ l, fault := q.fault || bitAt (fieldAt l 2 2) 2 } fun t => t.regs = s.regs) ∧
    (∀ l rest, live → q.recs = some l :: rest → (q.hashing = true ∨ bitAt (fieldAt l 2 2) 0 = true) → bitAt (fieldAt l 2 2) 1 = true →
      let c := bytesN 32 (Config.sha256 (q.c ++ bytesN 32 (Config.sha256 (q.df ++ l))))
      let fault := q.fault || bitAt (fieldAt l 2 2) 2
      let body := fun (closing : Bool) => natLe 2 ((q.count + 1) % 4096 + 4096 * b2n closing + 8192 * b2n fault + 16384 * b2n q.gap) ++
        natLe 1 (s.get Fd.PLB_STATE_STATE + 4 * s.get Fd.PLB_STATE_VALID) ++ natLe 1 s.sealOdo ++ natLe 4 q.seq ++ natLe 8 q.chainId ++
        natLe 6 s.sec ++ natLe 4 s.nsInSec ++ natLe 6 (unsigned 48 s.unitPos) ++ c
      let x : SealIn := { q with recs := rest, hashing := true, df := [], fault := fault, count := q.count + 1, c := c }
      let due := fun (closing : Bool) => { x with
        count := 0, fault := false, gap := false, seq := (q.seq + 1) % 2 ^ 32, closed := closing
        due := q.due ++ [{ body := body closing, seq := q.seq, measure := s.fig.measure, closing := closing }] };
      (q.count + 1 ≠ q.frames → q.stopping = false → Seal act x fun t => t.regs = s.regs) ∧
      (q.count + 1 = q.frames → q.stopping = false → Seal act (due false) fun t => t.bit (Fd.SEAL_STAT_GAP i) = false) ∧
      (q.count + 1 ≠ q.frames → q.stopping = true → Seal act (due true) fun t => t.bit (Fd.SEAL_STAT_GAP i) = false)) ∧
    (let bad := s.keyBad q.slot = true
      let Ended := fun (j : Instr) => ∃ t, exec j s = .next t ∧ t.bit (Fd.SEAL_STAT_ACTIVE i) = false ∧ (t.seal_ i).active = false ∧
        (t.seal_ i).due = [] ∧ (t.seal_ i).filled = q.filled ∧ t.get (Fd.SEAL_STAT_WP i) = s.get (Fd.SEAL_STAT_WP i) ∧ s.MemKept t ∧
        s.RegsBut t [Reg.SEAL_STAT i] ∧ (q.bay < 8 → s.Posts t q.bay 0x03B1 0 s.fig.measure
          (natLe 1 i ++ [0, 0, 0] ++ natLe 4 ((q.seq + 2 ^ 32 - 1 - q.due.length) % 2 ^ 32)));
      (q.active = true → bad → Ended (.sealAbort i)) ∧
      (¬(q.active = true ∧ bad) → exec (.sealAbort i) s = .next s.clean) ∧
      (q.due = [] ∨ s.runNs < s.signerBusy → exec (.sealSign i) s = .next s.clean) ∧
      (∀ d rest, q.due = d :: rest → s.signerBusy ≤ s.runNs → bad → Ended (.sealSign i)) ∧
      (∀ d rest,
        let k := s.slotRec q.slot
        let key := k.share ^^^ k.mask
        let wp := s.get (Fd.SEAL_STAT_WP i)
        q.due = d :: rest → d.closing = false → d.seq < 2 ^ 32 → s.signerBusy ≤ s.runNs → ¬bad → q.slot < 64 → s.keyType q.slot = 1 →
        bitAt (s.keyUsage q.slot) uSEAL = true → k.tag = s.tagOf q.slot 1 (s.keyUsage q.slot) (s.keyOwner q.slot) key → d.body.length = 64 →
        ∃ t x, exec (.sealSign i) s = .next t ∧
          (∀ n, n < 32 → t.reg (Reg.SEAL_RING i wp n) =
            BitVec.ofNat 32 (fieldAt (d.body ++ bytesN 64 (Config.ecSign false key (bytesN 32 (Config.sha256 d.body)) x)) (4 * n) 4)) ∧
          t.get (Fd.SEAL_STAT_WP i) = (wp + 1) % 64 ∧ t.get (Fd.SEAL_SEQ_SEQ i) = d.seq ∧ t.signerBusy = s.runNs + 1000000 ∧
          (t.seal_ i).due = rest ∧ (t.seal_ i).emitted = q.emitted + 1 ∧ (t.seal_ i).lastMeasure = d.measure ∧ (t.seal_ i).active = q.active ∧
          s.Counts t (Fd.SEAL_STAT_LOST i) (q.filled + 1 - 64) ∧
          (∀ a, a ≠ Reg.SEAL_STAT i → a ≠ Reg.SEAL_SEQ i → (∀ n, n < 32 → a ≠ Reg.SEAL_RING i wp n) → t.reg a = s.reg a) ∧ s.MemKept t ∧
          (q.bay < 8 → s.Posts t q.bay 0x03B0 0 s.fig.measure (natLe 1 i ++ natLe 1 wp ++ [0, 0] ++ natLe 4 d.seq)))))

/-! ### Debug, trace and the TAP (22, 23) -/

/-- The TAP and the temperature sensor (R500, R501, R537, R557): every instruction shifts out what the instruction register captured; a boundary
scan shifts out the levels of the balls, as driven or as the board holds them, and the other cells as held, and takes in new cells; IDCODE and the bypass register; a register access through DBGACC goes through the bus matrix and answers at a later scan, and one made before
that is discarded; a sample that reaches the
threshold raises the alarm once. -/
def Obligations.TapAndTemperature : Prop :=
  ∀ (s : State), s.Sealed →
  let Scan := fun (i : Instr) (d : Dbg) (bits len : Nat) =>
    exec i s = .next { s with out := [.tdo 1 5, .tdo bits len], dbg := { d with tck := s.dbg.tck + 1 } }
  (∀ (outer : BitVec 164) (data : BitVec 492) (ext : Bool),
    let ir : TapIr := if ext then .extest else .samplePreload
    let levels := ({ s with dbg := { s.dbg with ir := ir } }).ballLevels outer
    ∃ bits, (∀ i, i < 164 → bitAt bits (3 * i) = levels.getD i false ∧ bitAt bits (3 * i + 1) = s.dbg.boundary.getLsbD (3 * i + 1) ∧
      bitAt bits (3 * i + 2) = s.dbg.boundary.getLsbD (3 * i + 2)) ∧ bits < 2 ^ 492 ∧
      Scan (if ext then .tapExtest outer data else .tapSamplePreload outer data) { s.dbg with ir := ir, boundary := data } bits 492) ∧
  Scan .tapIdcode { s.dbg with ir := .idcode } 0xB7480C6B 32 ∧
  Scan .tapClamp { s.dbg with ir := .clamp } 0 1 ∧ Scan .tapHighz { s.dbg with ir := .highz } 0 1 ∧ Scan .tapBypass { s.dbg with ir := .bypass } 0 1 ∧
  (∀ (word : BitVec 18) (data : Word),
    let a := 0x40600000 + 4 * word.toNat
    let last := Out.tdo (s.dbg.accData.toNat + 2 ^ 32 * b2n s.dbg.accErr + 2 ^ 33 * b2n s.dbg.accBusy) 51
    let y : State := { s with out := [.tdo 1 5, last], dbg := { s.dbg with ir := .dbgacc, tck := s.dbg.tck + 1 } }
    let req := fun (write : Bool) => s.regReq .tap .tap a (if write then some data else none)
    -- the access is made in this step: the bus matrix grants it at once or has no clock
    let now := fun (write : Bool) => s.dbg.accBusy = false ∧ (s.clocksRun = false ∨ s.grantsNow (req write) = true)
    let unfed := ∀ n, n < 6 → vget s.dbg.feed n = none;
    (s.dbg.accBusy = true → ∀ w, exec (.tapDbgacc w word data) s = .next y) ∧
    (∀ w, s.dbg.accBusy = false → s.clocksRun = true → s.grantsNow (req w) = false → (w = true → unfed) → exec (.tapDbgacc w word data) s =
      .next { y with dbg := { y.dbg with accBusy := true }, bxm := (s.posting (req w)).bxm }) ∧
    (∀ w x, now false → y.regRead .tap a = (some w, x) → ∃ t, exec (.tapDbgacc false word data) s = .next t ∧ last ∈ t.out ∧ t.regs = x.seal.regs ∧
      t.dbg = { x.seal.dbg with accErr := false, accData := w } ∧ s.MemKept t ∧ s.NoEvents t ∧ t.fig = s.fig) ∧
    (∀ w, now w → 0x40630000 ≤ a → (w = true → unfed) → ∃ t, exec (.tapDbgacc w word data) s = .next t ∧
      t = { y with dbg := { y.dbg with accErr := true }, bxm := t.bxm }) ∧
    (∀ ok x, now true → y.regWrite .tap a data = (ok, x) → (∀ n, n < 6 → vget x.dbg.feed n = none) → ∃ t, exec (.tapDbgacc true word data) s = .next t ∧
      last ∈ t.out ∧ t.regs = x.seal.regs ∧ t.dbg = { x.seal.dbg with accErr := !ok })) ∧
  (∀ v : BitVec 16, s.stands = false →
    let rises := s.getI Fd.SYS_TEMPALM_THRESH ≤ v.toInt ∧ s.bit Fd.SYS_TEMP_ALARM = false
    ∃ t, exec (.tempSensorRead v) s = .next t ∧ t.get Fd.SYS_TEMP_TEMP = v.toNat ∧
      t.getI Fd.SYS_TEMPMAX_MAX = max (s.getI Fd.SYS_TEMPMAX_MAX) v.toInt ∧
      (t.bit Fd.SYS_TEMP_ALARM = true ↔ s.bit Fd.SYS_TEMP_ALARM = true ∨ s.getI Fd.SYS_TEMPALM_THRESH ≤ v.toInt) ∧
      s.RegsBut t [Reg.SYS_TEMP, Reg.SYS_TEMPMAX] ∧ s.MemKept t ∧ t.fig = s.fig ∧
      ∀ r, r < 9 → if rises ∧ (r = 0 ∨ r = 8) then s.Posts t r 0x03D0 0 s.fig.measure (natLe 2 v.toNat) else t.ring r = s.ring r)

/-- Debug and trace (R503, R506 to R515, R522): an authorisation ends when its time has passed; a halt request waits or halts its unit; a
halted unit executes words that are fed and resumes at DBG_PC; cross-trigger groups fire and resume; the terminal's FIFOs; the trace RAM is
read word by word. Where the text says quiet, no trace of the unit goes anywhere. -/
def Obligations.DebugAndTrace : Prop :=
  ∀ (s : State), s.Sealed →
  let clocked := s.stands = false
  let quiet := ∀ c, c < 6 → s.Untraced c
  let OnlyDbg := fun (i : Instr) (d : Dbg) (out : List Out) => exec i s = .next { s with out := out, dbg := d }
  (clocked → quiet → (∀ a ∈ s.dbg.auths, s.sec < a.expiry) → (∀ c, c < 6 → s.coreState c = 3 → s.levelEnabled c false = true) →
    exec .debugExpiryCheck s = .next s.clean) ∧
  (clocked → (∀ a ∈ s.dbg.auths, a.bay < 8) → ∃ t, exec .debugExpiryCheck s = .next t ∧ t.dbg.auths = s.dbg.auths.filter (fun a => s.sec < a.expiry) ∧
    s.MemKept t ∧ s.NoEvents t ∧ (∀ c, c < 6 → (t.core c).g = (s.core c).g) ∧
    ∀ a ∈ s.dbg.auths, a.expiry ≤ s.sec → ∀ n, n < 6 → bitAt a.cores n = true →
      (∀ x ∈ s.dbg.auths, s.sec < x.expiry → x.level = a.level → (a.level = 2 ∨ x.bay = a.bay) → bitAt x.cores n = false) →
      t.get (enableFld (Reg.DBG_EN (s.lead n)) a.bay a.level) = 0 ∧ t.get (enableFld (Reg.DBG_TEN (s.lead n)) a.bay a.level) = 0) ∧
  (∀ (n : Fin 6) (on : Bool),
    let wanted := fun (i : Nat) => (∃ d ∈ s.mates i, vget s.dbg.grpHalt d = true ∨ if d = n.val then on = true else s.bit (Fd.DBG_CTL_HALT_REQ d) = true)
    ∃ t, exec (.dbgHaltRequest n on) s = .next t ∧ t.bit (Fd.DBG_CTL_HALT_REQ n) = on ∧
      (∀ i ∈ s.mates n, t.bit (Fd.DBG_STAT_PENDING i) = true ↔ wanted i ∧ s.coreState i ≠ 3) ∧ s.OnlyRegs t ∧
      s.RegsBut t (Reg.DBG_CTL n :: (s.mates n).map Reg.DBG_STAT)) ∧
  (∀ c : Fin 6,
    let l := s.lead c
    let acts := clocked ∧ (s.coreState l = 1 ∨ s.coreState l = 2) ∧ (s.core l).waits = false ∧ s.haltWanted l = true ∧ s.levelEnabled l false = true;
    (¬acts → exec (.coreHalt c) s = .next s.clean) ∧
    (acts → s.Untraced l → (∀ m, s.groupsOn 0 m = 0) → ∃ t, exec (.coreHalt c) s = .next t ∧
      (∀ d, d ∈ s.mates l → t.get (Fd.SYS_CORECTL_STATE d) = 3 ∧ t.get (Fd.DBG_STAT_HALTED d) = 1 ∧
        t.get (Fd.DBG_STAT_CAUSE d) = (if ∃ i ∈ s.mates l, s.bit (Fd.DBG_CTL_HALT_REQ i) = true then 1 else 2) ∧
        t.get (Fd.DBG_STAT_LEVEL d) = (s.core l).level.code ∧ t.reg (Reg.DBG_PC d) = 4 * (s.core l).pc.setWidth 32) ∧
      (∀ d, d < 6 → (t.core d).g = (s.core d).g) ∧ s.MemKept t ∧ s.NoEvents t)) ∧
  (∀ (n : Fin 6) (w : Word),
    let l := s.lead n
    let idle := clocked ∧ s.bit (Fd.DBG_STAT_FEED_BUSY n) = false ∧ vget s.dbg.feed n = none
    let halted := s.coreState n = 3
    let Refused := ∃ t, exec (.dbgFeed n w) s = .next t ∧ s.OnlyRegs t ∧ s.RegsBut t [Reg.DBG_STAT n] ∧ t.get (Fd.DBG_STAT_FEED_ERR n) = 1 ∧
      t.bit (Fd.DBG_STAT_FEED_BUSY n) = false;
    (s.bit (Fd.DBG_STAT_FEED_BUSY n) = true → vget s.dbg.feed n = none → exec (.dbgFeed n w) s = .next s.clean) ∧
    (idle → ¬halted → Refused) ∧ (idle → halted → decodeCore w = none → Refused) ∧
    (∀ op, idle → halted → decodeCore w = some op → op.feedable = false → Refused) ∧
    (∀ rd ra i, idle → halted → decodeCore w = some (.imm .addi rd ra i) → ∃ t,
      exec (.dbgFeed n w) s = .next t ∧ s.RegsBut t [Reg.DBG_STAT n] ∧ t.get (Fd.DBG_STAT_FEED_ERR n) = 0 ∧
        t.bit (Fd.DBG_STAT_FEED_BUSY n) = false ∧ t.core l = { (s.core l).setReg rd (BitVec.ofInt 32 ((s.greg l ra).toInt + i.toInt)) with fetched := none, loaded := none } ∧
        t = { s with out := [], regs := t.regs, cores := t.cores })) ∧
  (∀ n : Fin 6,
    let l := s.lead n;
    (s.coreState n ≠ 3 → exec (.dbgResume n) s = .next s.clean) ∧
    (clocked → s.coreState n = 3 → s.Untraced l → ∃ t, exec (.dbgResume n) s = .next t ∧
      (∀ d, d ∈ s.mates n → t.coreState d = 1 ∧ t.get (Fd.DBG_STAT_HALTED d) = 0 ∧
        t.core d = { s.core d with pc := (s.reg (Reg.DBG_PC l)).extractLsb' 2 30, stepping := s.bit (Fd.DBG_CTL_STEP l) }) ∧
      (∀ d, d < 6 → d ∉ s.mates n → t.core d = s.core d) ∧ s.MemKept t ∧ s.NoEvents t ∧ t.fig = s.fig)) ∧
  (∀ groups : BitVec 8,
    let on := fun (g k : Nat) => g < 8 ∧ groups.getLsbD g = true ∧ (s.reg (Reg.XTR_GRP g)).getLsbD k = true
    (∃ t, exec (.xtrFire groups) s = .next t ∧ t.reg Reg.XTR_STAT = s.reg Reg.XTR_STAT ||| groups.setWidth 32 ∧
      (∀ g c, on g 0 → c < 6 → on g (16 + c) → s.coreState c = 1 → vget t.dbg.grpHalt c = true) ∧
      (∀ g, on g 1 → t.bit Fd.TRC_CTL_EN = false) ∧
      (∀ g, on g 3 → t.dbg.out0 = s.clk.now + 10 ∧ (s.scanHeld = false → Out.pulse "XTR_OUT" 0 s.clk.now (s.clk.now + 10) ∈ t.out)) ∧
      (∀ g, on g 4 → t.dbg.out1 = s.clk.now + 10 ∧ (s.scanHeld = false → Out.pulse "XTR_OUT" 1 s.clk.now (s.clk.now + 10) ∈ t.out)) ∧
      (∀ g c, on g 5 → c < 6 → on g (16 + c) → s.coreState c = 3 → t.coreState c = 1) ∧ s.MemKept t ∧ s.NoEvents t) ∧
    ((∀ g k, k < 6 → ¬on g k) → ∃ t, exec (.xtrFire groups) s = .next t ∧ s.OnlyRegs t ∧ s.RegsBut t [Reg.XTR_STAT]) ∧
    (let named := fun (c : Nat) => ∃ g, g < 8 ∧ groups.getLsbD g = true ∧ (s.reg (Reg.XTR_GRP g)).getLsbD (16 + c) = true
      ∃ t, exec (.xtrResume groups) s = .next t ∧ (∀ c, c < 6 → named c → s.coreState c = 3 → t.coreState c = 1) ∧
        (∀ c, c < 6 → (∀ d ∈ s.mates c, ¬named d) → t.coreState c = s.coreState c ∧ t.core c = s.core c) ∧
        t.reg Reg.XTR_STAT = s.reg Reg.XTR_STAT ∧ s.MemKept t ∧ s.NoEvents t)) ∧
  (∀ (pin : Fin 2) (high : Bool),
    let was := if pin = 0 then s.dbg.in0 else s.dbg.in1
    let now : Dbg := if pin = 0 then { s.dbg with in0 := high } else { s.dbg with in1 := high };
    (high = false ∨ was = true ∨ (∀ g, g < 8 → (s.reg (Reg.XTR_GRP g)).getLsbD (12 + pin.val) = false) →
      OnlyDbg (.xtrGroupSource pin high) now []) ∧
    (high = true → was = false → ∃ t, exec (.xtrGroupSource pin high) s = .next t ∧ (if pin = 0 then t.dbg.in0 else t.dbg.in1) = true ∧
      ∀ g, g < 8 → (t.reg Reg.XTR_STAT).getLsbD g = ((s.reg Reg.XTR_STAT).getLsbD g || (s.reg (Reg.XTR_GRP g)).getLsbD (12 + pin.val)))) ∧
  (∀ (n : Fin 6) (b : BitVec 8),
    let l := s.lead n
    let Vts := fun (k : Nat) (v : Vt) => { s.dbg with vt := vmod s.dbg.vt k fun _ => v }
    let v := fun (k : Nat) => vget s.dbg.vt k
    let on := fun (k : Nat) => s.coreState k ≠ 0 ∧ s.levelEnabled k false = true
    let Lost := fun (i : Instr) (k : Nat) => ∃ t, exec i s = .next t ∧ s.OnlyRegs t ∧ s.RegsBut t [Reg.DBG_STAT k] ∧ s.Counts t (Fd.DBG_STAT_VT_LOST k)
    let full := fun (x : Byte) => Out.word (BitVec.ofNat 32 (256 + x.toNat));
    (¬on l → exec (.vtCoreWrite n b) s = .next s.clean) ∧
    (clocked → on l → 16 ≤ (v l).out.length → Lost (.vtCoreWrite n b) l) ∧
    (clocked → on l → (v l).out.length < 16 → OnlyDbg (.vtCoreWrite n b) (Vts l { v l with out := (v l).out ++ [b] }) []) ∧
    (clocked → ¬on l ∨ (v l).inp = [] → exec (.vtCoreRead n) s = .next { s with out := [.word 0] }) ∧
    (∀ x r, clocked → on l → (v l).inp = x :: r → OnlyDbg (.vtCoreRead n) (Vts l { v l with inp := r }) [full x]) ∧
    (¬on n ∨ (v n).out = [] → exec (.dbgVtoutRead n) s = .next { s with out := [.word 0] }) ∧
    (∀ x r, on n → (v n).out = x :: r → OnlyDbg (.dbgVtoutRead n) (Vts n { v n with out := r }) [full x]) ∧
    (¬on n → exec (.dbgVtinWrite n b) s = .next s.clean) ∧
    (on n → 16 ≤ (v n).inp.length → Lost (.dbgVtinWrite n b) n) ∧
    (on n → (v n).inp.length < 16 → OnlyDbg (.dbgVtinWrite n b) (Vts n { v n with inp := (v n).inp ++ [b] }) [])) ∧
  (let w := s.get Fd.TRC_RADDR_WORD
    ∃ t, exec .trcRdataRead s = .next t ∧ t.out = [.word (BitVec.ofNat 32 (leNat (readBytes zeroByte s.dbg.ram (4 * w) 4)))] ∧
      t.get Fd.TRC_RADDR_WORD = (w + 1) % 65536 ∧ s.RegsBut t [Reg.TRC_RADDR] ∧ ∃ r, t = { s with out := t.out, regs := r })

/-! ### The whole block -/

/-- Every step takes the command at the front of the queue and is its meaning on the state with the queue's rest (log entry 1: on an empty queue
one FCLK step passes, in which, while the derived clocks are gated, only keep-alive time goes on and host peg requests that waited for their cycle's end apply, R23,
R228). No word of the table spells a command. -/
def Obligations.StepRunsFront : Prop :=
  (∀ (c : Instr) (rest : List Instr) (s : State), step { s with pending := c :: rest } = exec c { s with pending := rest }) ∧
  (∀ s : State, s.Sealed → s.pending = [] → ∃ t, step s = .next t ∧ t.Sealed ∧ t.pending = [] ∧
    (s.bit Fd.SYS_CLKSTAT_BEAT_ALIGNED = false → s.clk.gateAt = none → t = ({ s with out := [], clk := { s.clk with ka := s.clk.ka + 2 } } : State).pegRelease.seal)) ∧
  (∀ nbits w : Nat, decodeTableWord nbits w = none) ∧
  (∀ (nbits w : Nat) (s : State), s.withFetchWord nbits w = s)

/-- Right after reset (R10, R33, R465, R466): every store is in canonical form with reserved bits 0, every register holds its reset value, no
memory byte is listed, no function is ready, no command waits and all six cores are held in reset. -/
def Obligations.ResetIsSealed : Prop :=
  let s := State.reset
  s.Sealed ∧ (∀ a, s.reg a = regReset a) ∧ s.sram = [] ∧ s.bkf = [] ∧ s.ddr = [] ∧ s.pending = [] ∧ s.out = [] ∧ s.fig.geom = none ∧
  (∀ r, r < 64 → s.ready r = false) ∧ (∀ c, c < 6 → s.coreState c = 0) ∧ (∀ b, b < 8 → s.bayState b = bEMPTY) ∧
  s.regs = [] ∧ (∀ p, p < 8 → (s.endp p).fifo = []) ∧ s.get Fd.SYS_CHIP_ID_PART = 0x7480

/-- The invariant (R10, R33): every step from a state with every store in canonical form, reserved register bits 0 and no byte beyond the end of
its memory answers such a state, and takes exactly one command off the queue. A step that does not answer a next state refuses a command
whose operands are not well-formed and nothing else: no fault is ever raised. -/
def Obligations.StepsKeepSealed : Prop :=
  ∀ s : State, s.Sealed →
  (∀ t, step s = .next t → t.Sealed ∧ t.pending = s.pending.tail) ∧
  (∀ f, step s ≠ .fault f) ∧
  (∀ r, step s = .refused r → ∃ c rest, s.pending = c :: rest ∧ c.wellFormed = false ∧ r = .illFormed)

/-- Words of steward core instructions (R188 to R190): an instruction's word decodes to it with every field, a word that decodes is the word of
what it decodes to, and words written out from R190's tables are the instructions they stand for. -/
def Obligations.CoreWordsRoundTrip : Prop :=
  (∀ op : CoreOp, decodeCore op.encode = some op) ∧ (∀ (w : Word) (op : CoreOp), decodeCore w = some op → op.encode = w) ∧
  decodeCore 0x44A30000 = some (.load .lbu 5 3 0) ∧ decodeCore 0x04630002 = some (.imm .addi 3 3 2) ∧
  decodeCore 0x00842800 = some (.alu .add 4 4 5) ∧ decodeCore 0x8466FFFB = some (.branch .bne 3 6 0xFFFB) ∧
  decodeCore 0xF40500F0 = some (.ctlw 0x0F0 5) ∧ decodeCore 0xF0A000F0 = some (.ctlr 5 0x0F0)
end

