-- ==== Sys2Proof/Laws/Store.lean ====
section
/-! SUPPORT. Laws of the sparse stores and of the byte-order helpers: read after write, the canonical form, and what `snorm` does. -/

namespace Sys2Proof.Machine

variable {β : Type} [DecidableEq β] {d : Nat → β}

omit [DecidableEq β] in
@[simp] theorem sget_nil (d : Nat → β) (k : Nat) : sget d [] k = d k := rfl

omit [DecidableEq β] in
theorem sget_sput_self (k : Nat) (v : β) (l : List (Nat × β)) : sget d (sput k v l) k = v := by
  induction l with
  | nil => simp [sput, sget]
  | cons p t ih =>
    obtain ⟨a, w⟩ := p
    simp only [sput]
    split
    · rename_i h; simp [sget, ih, Nat.ne_of_gt h]
    · split <;> simp [sget]

omit [DecidableEq β] in
theorem sget_sput_ne {k k' : Nat} (h : k' ≠ k) (v : β) (l : List (Nat × β)) : sget d (sput k v l) k' = sget d l k' := by
  induction l with
  | nil => simp [sput, sget, h]
  | cons p t ih =>
    obtain ⟨a, w⟩ := p
    simp only [sput]
    split
    · simp [sget, ih]
    · split
      · rename_i h1 h2; subst h2; simp [sget, h]
      · simp [sget, h]

omit [DecidableEq β] in
theorem sget_sdel_self (k : Nat) (l : List (Nat × β)) : sget d (sdel k l) k = d k := by
  induction l with
  | nil => rfl
  | cons p t ih =>
    obtain ⟨a, w⟩ := p
    by_cases h : a = k
    · simpa [sdel, h] using ih
    · simpa [sdel, h, sget, Ne.symm h] using ih

omit [DecidableEq β] in
theorem sget_sdel_ne {k k' : Nat} (h : k' ≠ k) (l : List (Nat × β)) : sget d (sdel k l) k' = sget d l k' := by
  induction l with
  | nil => rfl
  | cons p t ih =>
    obtain ⟨a, w⟩ := p
    by_cases ha : a = k
    · subst ha; simpa [sdel, sget, h] using ih
    · have e : sdel k ((a, w) :: t) = (a, w) :: sdel k t := by simp [sdel, ha]
      rw [e]; simp [sget, ih]

/-- Read after write at the same address. -/
@[simp] theorem sget_sset_self (k : Nat) (v : β) (l : List (Nat × β)) : sget d (sset d k v l) k = v := by
  unfold sset
  split
  · rename_i h; rw [sget_sdel_self, h]
  · exact sget_sput_self k v l

/-- A write leaves every other address alone. -/
theorem sget_sset_ne {k k' : Nat} (h : k' ≠ k) (v : β) (l : List (Nat × β)) : sget d (sset d k v l) k' = sget d l k' := by
  unfold sset
  split
  · exact sget_sdel_ne h l
  · exact sget_sput_ne h v l

theorem sget_sset (k k' : Nat) (v : β) (l : List (Nat × β)) :
    sget d (sset d k v l) k' = if k' = k then v else sget d l k' := by
  split
  · rename_i h; subst h; simp
  · rename_i h; exact sget_sset_ne h v l

/-! ### The canonical form -/

omit [DecidableEq β] in
theorem mem_sput {k : Nat} {v : β} {l : List (Nat × β)} {p : Nat × β} (h : p ∈ sput k v l) : p = (k, v) ∨ p ∈ l := by
  induction l with
  | nil => simpa [sput] using h
  | cons q t ih =>
    obtain ⟨a, w⟩ := q
    simp only [sput] at h
    split at h
    · rcases List.mem_cons.1 h with h | h
      · exact .inr (by simp [h])
      · rcases ih h with h | h
        · exact .inl h
        · exact .inr (List.mem_cons_of_mem _ h)
    · split at h
      · rcases List.mem_cons.1 h with h | h
        · exact .inl h
        · exact .inr (List.mem_cons_of_mem _ h)
      · rcases List.mem_cons.1 h with h | h
        · exact .inl h
        · exact .inr h

omit [DecidableEq β] in
theorem rising_sput (k : Nat) (v : β) (l : List (Nat × β)) (h : List.Pairwise (fun p q => p.1 < q.1) l) :
    List.Pairwise (fun p q => p.1 < q.1) (sput k v l) := by
  induction l with
  | nil => simp [sput]
  | cons q t ih =>
    obtain ⟨a, w⟩ := q
    have ht := List.pairwise_cons.1 h
    simp only [sput]
    split
    · rename_i hlt
      refine List.pairwise_cons.2 ⟨fun p hp => ?_, ih ht.2⟩
      rcases mem_sput hp with rfl | hp
      · exact hlt
      · exact ht.1 p hp
    · split
      · rename_i _ heq; subst heq; exact List.pairwise_cons.2 ⟨ht.1, ht.2⟩
      · rename_i h1 h2
        have hk : k < a := by omega
        refine List.pairwise_cons.2 ⟨fun p hp => ?_, h⟩
        rcases List.mem_cons.1 hp with rfl | hp
        · exact hk
        · exact Nat.lt_trans hk (ht.1 p hp)

/-- Every write keeps the canonical form. -/
theorem swf_sset (k : Nat) (v : β) {l : List (Nat × β)} (h : SWf d l) : SWf d (sset d k v l) := by
  unfold sset
  split
  · exact ⟨h.1.filter _, fun p hp => h.2 p (List.mem_filter.1 hp).1⟩
  · rename_i hv
    refine ⟨rising_sput k v l h.1, fun p hp => ?_⟩
    rcases mem_sput hp with rfl | hp
    · exact hv
    · exact h.2 p hp

omit [DecidableEq β] in
theorem swf_nil : SWf d ([] : List (Nat × β)) := ⟨List.Pairwise.nil, fun _ h => by cases h⟩

theorem mem_sset {k : Nat} {v : β} {l : List (Nat × β)} {p : Nat × β} (h : p ∈ sset d k v l) : p = (k, v) ∨ p ∈ l := by
  unfold sset at h
  split at h
  · exact .inr (List.mem_filter.1 h).1
  · exact mem_sput h

/-- Whatever the list, `snorm` gives a canonical one. -/
theorem swf_snorm (f : Nat → β → β) (l : List (Nat × β)) : SWf d (snorm d f l) := by
  induction l with
  | nil => exact swf_nil
  | cons p t ih => exact swf_sset _ _ ih

theorem mem_snorm {f : Nat → β → β} {l : List (Nat × β)} {p : Nat × β} (h : p ∈ snorm d f l) :
    ∃ q ∈ l, p = (q.1, f q.1 q.2) := by
  induction l with
  | nil => cases h
  | cons q t ih =>
    rcases mem_sset h with rfl | h
    · exact ⟨q, List.mem_cons_self, rfl⟩
    · obtain ⟨x, hx, e⟩ := ih h
      exact ⟨x, List.mem_cons_of_mem _ hx, e⟩

/-- `snorm` reads as the list did, through `f`, if `f` keeps the default. -/
theorem sget_snorm {f : Nat → β → β} (hd : ∀ k, f k (d k) = d k) (l : List (Nat × β)) (k : Nat) :
    sget d (snorm d f l) k = f k (sget d l k) := by
  induction l with
  | nil => simp [snorm, hd]
  | cons p t ih =>
    obtain ⟨a, w⟩ := p
    change sget d (sset d a (f a w) (snorm d f t)) k = _
    rw [sget_sset, ih]
    by_cases h : k = a
    · subst h; simp [sget]
    · simp [sget, h]

omit [DecidableEq β] in
theorem sput_head {k : Nat} {v : β} {l : List (Nat × β)} (h : ∀ p ∈ l, k < p.1) : sput k v l = (k, v) :: l := by
  cases l with
  | nil => rfl
  | cons p t =>
    have := h p List.mem_cons_self
    have h1 : ¬ p.1 < k := by omega
    have h2 : ¬ p.1 = k := by omega
    simp [sput, h1, h2]

/-- A canonical list whose values `f` keeps is what `snorm` makes of it. -/
theorem snorm_eq_self {f : Nat → β → β} {l : List (Nat × β)} (h : SWf d l) (hf : ∀ p ∈ l, f p.1 p.2 = p.2) :
    snorm d f l = l := by
  induction l with
  | nil => rfl
  | cons p t ih =>
    have hp := List.pairwise_cons.1 h.1
    have e := ih ⟨hp.2, fun q hq => h.2 q (List.mem_cons_of_mem _ hq)⟩ (fun q hq => hf q (List.mem_cons_of_mem _ hq))
    change sset d p.1 (f p.1 p.2) (snorm d f t) = _
    rw [e, hf p List.mem_cons_self, sset, if_neg (h.2 p List.mem_cons_self), sput_head hp.1]

/-! ### Bytes -/

theorem swf_writeBytes {d : Nat → Byte} (l : List Byte) (a : Nat) {m : List (Nat × Byte)} (h : SWf d m) : SWf d (writeBytes d l a m) := by
  induction l generalizing a m with
  | nil => exact h
  | cons b t ih => exact ih (a + 1) (swf_sset _ _ h)

/-- What a byte reads as after `writeBytes`. -/
theorem sget_writeBytes {d : Nat → Byte} (l : List Byte) (a : Nat) (m : List (Nat × Byte)) (k : Nat) :
    sget d (writeBytes d l a m) k = if a ≤ k ∧ k < a + l.length then l.getD (k - a) 0 else sget d m k := by
  induction l generalizing a m with
  | nil => simp [writeBytes]
  | cons b t ih =>
    rw [writeBytes, ih, sget_sset]
    by_cases h : k = a
    · subst h; simp
    · by_cases h2 : a + 1 ≤ k ∧ k < a + 1 + t.length
      · have e : k - a = (k - (a + 1)) + 1 := by omega
        have h3 : a ≤ k ∧ k < a + (b :: t).length := by simp; omega
        rw [if_pos h2, if_pos h3, e]
        simp
      · have h3 : ¬ (a ≤ k ∧ k < a + (b :: t).length) := by simp; omega
        rw [if_neg h2, if_neg h3, if_neg h]

theorem readBytes_length (d : Nat → Byte) (m : List (Nat × Byte)) (a n : Nat) : (readBytes d m a n).length = n := by
  simp [readBytes]

/-- Bytes read where they were written. -/
theorem readBytes_writeBytes {d : Nat → Byte} (l : List Byte) (a : Nat) (m : List (Nat × Byte)) :
    readBytes d (writeBytes d l a m) a l.length = l := by
  apply List.ext_getElem
  · simp [readBytes]
  · intro i h1 h2
    simp only [readBytes, List.getElem_map, List.getElem_range, sget_writeBytes]
    rw [if_pos (by omega)]
    simp [h2]

/-- Bytes read elsewhere. -/
theorem readBytes_writeBytes_disjoint {d : Nat → Byte} (l : List Byte) (a : Nat) (m : List (Nat × Byte)) (b n : Nat)
    (h : b + n ≤ a ∨ a + l.length ≤ b) : readBytes d (writeBytes d l a m) b n = readBytes d m b n := by
  apply List.map_congr_left
  intro i hi
  rw [sget_writeBytes, if_neg]
  have := List.mem_range.1 hi
  omega

@[simp] theorem natLe_length (k n : Nat) : (natLe k n).length = k := by
  induction k generalizing n with
  | zero => rfl
  | succ k ih => simp [natLe, ih]

/-- Little-endian bytes spell the number, if it fits. -/
theorem leNat_natLe (k n : Nat) : leNat (natLe k n) = n % 256 ^ k := by
  induction k generalizing n with
  | zero => simp [natLe, leNat, Nat.mod_one]
  | succ k ih =>
    simp only [natLe, leNat, ih, BitVec.toNat_ofNat]
    rw [show (2:Nat)^8 = 256 from rfl, Nat.pow_succ', Nat.mod_mul]

theorem fixLen_length {α : Type} (z : α) (n : Nat) (l : List α) : (fixLen z n l).length = n := by
  simp [fixLen]; omega

theorem fixLen_eq {α : Type} (z : α) {n : Nat} {l : List α} (h : l.length = n) : fixLen z n l = l := by
  subst h; simp [fixLen]

/-! ### Vectors -/

theorem vget_vmod_self {α : Type} {n : Nat} [Inhabited α] (v : Vector α n) {i : Nat} (f : α → α) (h : i < n) :
    vget (vmod v i f) i = f (vget v i) := by
  simp [vget, vmod, h]

theorem vget_vmod_ne {α : Type} {n : Nat} [Inhabited α] (v : Vector α n) {i j : Nat} (f : α → α) (h : j ≠ i) :
    vget (vmod v i f) j = vget v j := by
  unfold vmod
  split
  · simp [vget, List.getElem?_set, Ne.symm h]
  · rfl

theorem setAt_length {α : Type} (l : List α) (i : Nat) (x : α) : (setAt l i x).length = l.length := by
  induction l generalizing i with
  | nil => rfl
  | cons h t ih => cases i <;> simp [setAt, ih]

end Sys2Proof.Machine
end

