-- ==== Sys2Proof/Laws/Regs.lean ====
section
/-! SUPPORT. Laws of registers and fields: read after write, and reset values hold no reserved bit. -/

namespace Sys2Proof.Machine

/-! ### Reset values and masks (R10, R12) -/

/-- A register table whose fields lie in the word and whose reset values fit their fields. -/
abbrev Family.Fits (f : Family) : Prop :=
  BitVec.ofNat 32 (f.fields.foldl (fun n x => n + x.reset * 2 ^ x.lo) 0) &&&
    BitVec.ofNat 32 (f.fields.foldl (fun n x => n + (2 ^ (x.hi + 1) - 2 ^ x.lo)) 0) =
  BitVec.ofNat 32 (f.fields.foldl (fun n x => n + x.reset * 2 ^ x.lo) 0)

theorem sysFamilies_fit : ∀ f ∈ sysFamilies, f.Fits := by decide
theorem pwrFamilies_fit : ∀ f ∈ pwrFamilies, f.Fits := by decide
theorem rdyFamilies_fit : ∀ f ∈ rdyFamilies, f.Fits := by decide
theorem plbFamilies_fit : ∀ f ∈ plbFamilies, f.Fits := by decide
theorem tmeFamilies_fit : ∀ f ∈ tmeFamilies, f.Fits := by decide
theorem odoFamilies_fit : ∀ f ∈ odoFamilies, f.Fits := by decide
theorem pwmFamilies_fit : ∀ f ∈ pwmFamilies, f.Fits := by decide
theorem fgeFamilies_fit : ∀ f ∈ fgeFamilies, f.Fits := by decide
theorem seFamilies_fit : ∀ f ∈ seFamilies, f.Fits := by decide
theorem bkfFamilies_fit : ∀ f ∈ bkfFamilies, f.Fits := by decide
theorem ddrFamilies_fit : ∀ f ∈ ddrFamilies, f.Fits := by decide
theorem bxmFamilies_fit : ∀ f ∈ bxmFamilies, f.Fits := by decide
theorem mbxFamilies_fit : ∀ f ∈ mbxFamilies, f.Fits := by decide
theorem pegFamilies_fit : ∀ f ∈ pegFamilies, f.Fits := by decide
theorem snpFamilies_fit : ∀ f ∈ snpFamilies, f.Fits := by decide
theorem pciFamilies_fit : ∀ f ∈ pciFamilies, f.Fits := by decide
theorem csiFamilies_fit : ∀ f ∈ csiFamilies, f.Fits := by decide
theorem cnfFamilies_fit : ∀ f ∈ cnfFamilies, f.Fits := by decide
theorem vxmFamilies_fit : ∀ f ∈ vxmFamilies, f.Fits := by decide
theorem xscFamilies_fit : ∀ f ∈ xscFamilies, f.Fits := by decide
theorem dpoFamilies_fit : ∀ f ∈ dpoFamilies, f.Fits := by decide
theorem cmpFamilies_fit : ∀ f ∈ cmpFamilies, f.Fits := by decide
theorem audFamilies_fit : ∀ f ∈ audFamilies, f.Fits := by decide
theorem tdmFamilies_fit : ∀ f ∈ tdmFamilies, f.Fits := by decide
theorem macFamilies_fit : ∀ f ∈ macFamilies, f.Fits := by decide
theorem tsnFamilies_fit : ∀ f ∈ tsnFamilies, f.Fits := by decide
theorem mscFamilies_fit : ∀ f ∈ mscFamilies, f.Fits := by decide
theorem jncFamilies_fit : ∀ f ∈ jncFamilies, f.Fits := by decide
theorem keyFamilies_fit : ∀ f ∈ keyFamilies, f.Fits := by decide
theorem cryFamilies_fit : ∀ f ∈ cryFamilies, f.Fits := by decide
theorem sealFamilies_fit : ∀ f ∈ sealFamilies, f.Fits := by decide
theorem dbgFamilies_fit : ∀ f ∈ dbgFamilies, f.Fits := by decide
theorem trcFamilies_fit : ∀ f ∈ trcFamilies, f.Fits := by decide
theorem xtrFamilies_fit : ∀ f ∈ xtrFamilies, f.Fits := by decide

theorem blockFamilies_fit (b : Nat) : ∀ f ∈ blockFamilies b, f.Fits := by
  unfold blockFamilies
  split <;> first
    | exact sysFamilies_fit | exact pwrFamilies_fit | exact rdyFamilies_fit | exact plbFamilies_fit | exact tmeFamilies_fit
    | exact odoFamilies_fit | exact pwmFamilies_fit | exact fgeFamilies_fit | exact seFamilies_fit | exact bkfFamilies_fit
    | exact ddrFamilies_fit | exact bxmFamilies_fit | exact mbxFamilies_fit | exact pegFamilies_fit | exact snpFamilies_fit
    | exact pciFamilies_fit | exact csiFamilies_fit | exact cnfFamilies_fit | exact vxmFamilies_fit | exact xscFamilies_fit
    | exact dpoFamilies_fit | exact cmpFamilies_fit | exact audFamilies_fit | exact tdmFamilies_fit | exact macFamilies_fit
    | exact tsnFamilies_fit | exact mscFamilies_fit | exact jncFamilies_fit | exact keyFamilies_fit | exact cryFamilies_fit
    | exact sealFamilies_fit | exact dbgFamilies_fit | exact trcFamilies_fit | exact xtrFamilies_fit
    | (intro f hf; cases hf)

/-- No reset value holds a reserved bit. -/
theorem regReset_and_regMask (a : Nat) : regReset a &&& regMask a = regReset a := by
  unfold regReset regMask
  cases h : findReg a with
  | none => simp
  | some x =>
    obtain ⟨f, ix⟩ := x
    have hf : f ∈ blockFamilies (a / 65536) := by
      unfold findReg at h
      obtain ⟨g, hg, e⟩ := List.exists_of_findSome?_eq_some h
      split at e
      · obtain ⟨y, _, e2⟩ := Option.map_eq_some_iff.1 e
        cases e2; exact hg
      · cases e
    exact blockFamilies_fit _ f hf

/-! ### Registers -/

@[simp] theorem reg_setReg_self (s : State) (a : Nat) (v : Word) : (s.setReg a v).reg a = v := by
  simp [State.reg, State.setReg]

theorem reg_setReg_ne (s : State) {a b : Nat} (v : Word) (h : b ≠ a) : (s.setReg a v).reg b = s.reg b := by
  simp [State.reg, State.setReg, sget_sset_ne h]

/-! ### Fields -/

/-- A field that lies in the word. -/
abbrev Fld.Ok (f : Fld) : Prop := f.lo ≤ f.hi ∧ f.hi ≤ 31

theorem testBit_mulPow (v lo i : Nat) : (v * 2 ^ lo).testBit i = (decide (lo ≤ i) && v.testBit (i - lo)) := by
  rw [← Nat.shiftLeft_eq, Nat.testBit_shiftLeft]

/-- Bit `i` of an inserted field. -/
theorem getLsbD_insertBits (w : Word) (hi lo v i : Nat) (h : lo ≤ hi ∧ hi ≤ 31) (hi32 : i < 32) :
    (insertBits w hi lo v).getLsbD i = if lo ≤ i ∧ i ≤ hi then v.testBit (i - lo) else w.getLsbD i := by
  have hm : ∀ j, (2 ^ (hi + 1) - 2 ^ lo).testBit j = decide (lo ≤ j ∧ j ≤ hi) := by
    intro j
    have e : 2 ^ (hi + 1) - 2 ^ lo = (2 ^ (hi + 1 - lo) - 1) * 2 ^ lo := by
      rw [Nat.sub_mul, ← Nat.pow_add, Nat.one_mul, Nat.sub_add_cancel (by omega)]
    rw [e, testBit_mulPow, Nat.testBit_two_pow_sub_one]
    by_cases h1 : lo ≤ j <;> by_cases h2 : j ≤ hi <;> simp [h1, h2] <;> omega
  simp only [insertBits, BitVec.getLsbD_or, BitVec.getLsbD_and, BitVec.getLsbD_not, BitVec.getLsbD_ofNat, hm,
    testBit_mulPow, hi32, decide_true, Bool.true_and]
  by_cases h1 : lo ≤ i <;> by_cases h2 : i ≤ hi <;> simp [h1, h2]

/-- The value of bits `hi:lo` by their bits. -/
theorem field_testBit (w : Word) (hi lo i : Nat) :
    (w.toNat / 2 ^ lo % 2 ^ (hi + 1 - lo)).testBit i = (decide (i < hi + 1 - lo) && w.getLsbD (lo + i)) := by
  rw [Nat.testBit_mod_two_pow, Nat.testBit_div_two_pow, BitVec.testBit_toNat, Nat.add_comm i lo]

theorem field_insertBits_self (w : Word) (hi lo v : Nat) (h : lo ≤ hi ∧ hi ≤ 31) :
    (insertBits w hi lo v).toNat / 2 ^ lo % 2 ^ (hi + 1 - lo) = v % 2 ^ (hi + 1 - lo) := by
  apply Nat.eq_of_testBit_eq
  intro i
  rw [field_testBit, Nat.testBit_mod_two_pow]
  by_cases hi2 : i < hi + 1 - lo
  · rw [getLsbD_insertBits _ _ _ _ _ h (by omega), if_pos (by omega)]
    simp
  · simp [hi2]

theorem field_insertBits_disjoint (w : Word) (hi lo v hi' lo' : Nat) (h : lo ≤ hi ∧ hi ≤ 31) (h31 : hi' ≤ 31)
    (hd : hi < lo' ∨ hi' < lo) :
    (insertBits w hi lo v).toNat / 2 ^ lo' % 2 ^ (hi' + 1 - lo') = w.toNat / 2 ^ lo' % 2 ^ (hi' + 1 - lo') := by
  apply Nat.eq_of_testBit_eq
  intro i
  rw [field_testBit, field_testBit]
  by_cases hi2 : i < hi' + 1 - lo'
  · rw [getLsbD_insertBits _ _ _ _ _ h (by omega), if_neg (by omega)]
  · simp [hi2]

/-- A field reads as written. -/
theorem get_put_self (s : State) (f : Fld) (v : Nat) (h : f.Ok) : (s.put f v).get f = v % 2 ^ (f.hi + 1 - f.lo) := by
  simp only [State.get, State.put, reg_setReg_self]
  exact field_insertBits_self _ _ _ _ h

/-- A write of a field leaves every field of other bits alone. -/
theorem get_put_other (s : State) (f g : Fld) (v : Nat) (h : f.Ok) (hg : g.Ok)
    (hd : g.addr ≠ f.addr ∨ f.hi < g.lo ∨ g.hi < f.lo) : (s.put f v).get g = s.get g := by
  simp only [State.get, State.put]
  by_cases ha : g.addr = f.addr
  · rw [ha, reg_setReg_self]
    exact field_insertBits_disjoint _ _ _ _ _ _ h hg.2 (by rcases hd with hd | hd; exact absurd ha hd; exact hd)
  · rw [reg_setReg_ne _ _ ha]

theorem reg_put_ne (s : State) (f : Fld) (v a : Nat) (h : a ≠ f.addr) : (s.put f v).reg a = s.reg a := reg_setReg_ne _ _ h

theorem get_lt (s : State) (f : Fld) : s.get f < 2 ^ (f.hi + 1 - f.lo) := Nat.mod_lt _ (Nat.two_pow_pos _)

theorem put_get_bit (s : State) (f : Fld) (b : Bool) (h : f.Ok) (h1 : f.hi = f.lo) : (s.putB f b).bit f = b := by
  simp only [State.putB, State.bit, get_put_self s f _ h, h1]
  cases b <;> simp

/-- Writing back what a field holds changes no register. -/
theorem insertBits_field (w : Word) (hi lo : Nat) (h : lo ≤ hi ∧ hi ≤ 31) :
    insertBits w hi lo (w.toNat / 2 ^ lo % 2 ^ (hi + 1 - lo)) = w := by
  apply BitVec.eq_of_getLsbD_eq
  intro i hi32
  rw [getLsbD_insertBits _ _ _ _ _ h hi32]
  split
  · rename_i hh
    rw [field_testBit]
    have e : lo + (i - lo) = i := by omega
    simp [e]; omega
  · rfl

end Sys2Proof.Machine
end

