-- ==== Sys2Proof/Laws/State.lean ====
section
/-! SUPPORT. Laws of the state: what `seal`, `after` and the plain updates leave in each field. -/

namespace Sys2Proof.Machine

/-! ### Plain updates, field by field -/

@[simp] theorem setReg_pending (s : State) (a : Nat) (v : Word) : (s.setReg a v).pending = s.pending := rfl
@[simp] theorem setReg_out (s : State) (a : Nat) (v : Word) : (s.setReg a v).out = s.out := rfl
@[simp] theorem setReg_free (s : State) (a : Nat) (v : Word) : (s.setReg a v).free = s.free := rfl
@[simp] theorem setReg_rom (s : State) (a : Nat) (v : Word) : (s.setReg a v).rom = s.rom := rfl
@[simp] theorem setReg_sram (s : State) (a : Nat) (v : Word) : (s.setReg a v).sram = s.sram := rfl
@[simp] theorem setReg_bkf (s : State) (a : Nat) (v : Word) : (s.setReg a v).bkf = s.bkf := rfl
@[simp] theorem setReg_ddr (s : State) (a : Nat) (v : Word) : (s.setReg a v).ddr = s.ddr := rfl
@[simp] theorem setReg_flash (s : State) (a : Nat) (v : Word) : (s.setReg a v).flash = s.flash := rfl
@[simp] theorem setReg_clk (s : State) (a : Nat) (v : Word) : (s.setReg a v).clk = s.clk := rfl
@[simp] theorem setReg_pwr (s : State) (a : Nat) (v : Word) : (s.setReg a v).pwr = s.pwr := rfl
@[simp] theorem setReg_tme (s : State) (a : Nat) (v : Word) : (s.setReg a v).tme = s.tme := rfl
@[simp] theorem setReg_cores (s : State) (a : Nat) (v : Word) : (s.setReg a v).cores = s.cores := rfl
@[simp] theorem setReg_lock23 (s : State) (a : Nat) (v : Word) : (s.setReg a v).lock23 = s.lock23 := rfl
@[simp] theorem setReg_lock45 (s : State) (a : Nat) (v : Word) : (s.setReg a v).lock45 = s.lock45 := rfl
@[simp] theorem setReg_field (s : State) (a : Nat) (v : Word) : (s.setReg a v).field = s.field := rfl
@[simp] theorem setReg_ddrCtl (s : State) (a : Nat) (v : Word) : (s.setReg a v).ddrCtl = s.ddrCtl := rfl
@[simp] theorem setReg_bxm (s : State) (a : Nat) (v : Word) : (s.setReg a v).bxm = s.bxm := rfl
@[simp] theorem setReg_dbg (s : State) (a : Nat) (v : Word) : (s.setReg a v).dbg = s.dbg := rfl
@[simp] theorem setReg_fig (s : State) (a : Nat) (v : Word) : (s.setReg a v).fig = s.fig := rfl
@[simp] theorem setReg_mbx (s : State) (a : Nat) (v : Word) : (s.setReg a v).mbx = s.mbx := rfl
@[simp] theorem setReg_pcie (s : State) (a : Nat) (v : Word) : (s.setReg a v).pcie = s.pcie := rfl
@[simp] theorem setReg_snap (s : State) (a : Nat) (v : Word) : (s.setReg a v).snap = s.snap := rfl
@[simp] theorem setReg_fw (s : State) (a : Nat) (v : Word) : (s.setReg a v).fw = s.fw := rfl
@[simp] theorem setReg_odo (s : State) (a : Nat) (v : Word) : (s.setReg a v).odo = s.odo := rfl
@[simp] theorem setReg_pwm (s : State) (a : Nat) (v : Word) : (s.setReg a v).pwm = s.pwm := rfl
@[simp] theorem setReg_plb (s : State) (a : Nat) (v : Word) : (s.setReg a v).plb = s.plb := rfl
@[simp] theorem setReg_vid (s : State) (a : Nat) (v : Word) : (s.setReg a v).vid = s.vid := rfl
@[simp] theorem setReg_aud (s : State) (a : Nat) (v : Word) : (s.setReg a v).aud = s.aud := rfl
@[simp] theorem setReg_net (s : State) (a : Nat) (v : Word) : (s.setReg a v).net = s.net := rfl
@[simp] theorem setReg_jnc (s : State) (a : Nat) (v : Word) : (s.setReg a v).jnc = s.jnc := rfl
@[simp] theorem setReg_otp (s : State) (a : Nat) (v : Word) : (s.setReg a v).otp = s.otp := rfl
@[simp] theorem setReg_keys (s : State) (a : Nat) (v : Word) : (s.setReg a v).keys = s.keys := rfl
@[simp] theorem setReg_seals (s : State) (a : Nat) (v : Word) : (s.setReg a v).seals = s.seals := rfl
@[simp] theorem setReg_signerBusy (s : State) (a : Nat) (v : Word) : (s.setReg a v).signerBusy = s.signerBusy := rfl
@[simp] theorem setReg_marks (s : State) (a : Nat) (v : Word) : (s.setReg a v).marks = s.marks := rfl
@[simp] theorem clean_pending (s : State)  : (s.clean).pending = s.pending := rfl
@[simp] theorem clean_free (s : State)  : (s.clean).free = s.free := rfl
@[simp] theorem clean_regs (s : State)  : (s.clean).regs = s.regs := rfl
@[simp] theorem clean_rom (s : State)  : (s.clean).rom = s.rom := rfl
@[simp] theorem clean_sram (s : State)  : (s.clean).sram = s.sram := rfl
@[simp] theorem clean_bkf (s : State)  : (s.clean).bkf = s.bkf := rfl
@[simp] theorem clean_ddr (s : State)  : (s.clean).ddr = s.ddr := rfl
@[simp] theorem clean_flash (s : State)  : (s.clean).flash = s.flash := rfl
@[simp] theorem clean_clk (s : State)  : (s.clean).clk = s.clk := rfl
@[simp] theorem clean_pwr (s : State)  : (s.clean).pwr = s.pwr := rfl
@[simp] theorem clean_tme (s : State)  : (s.clean).tme = s.tme := rfl
@[simp] theorem clean_cores (s : State)  : (s.clean).cores = s.cores := rfl
@[simp] theorem clean_lock23 (s : State)  : (s.clean).lock23 = s.lock23 := rfl
@[simp] theorem clean_lock45 (s : State)  : (s.clean).lock45 = s.lock45 := rfl
@[simp] theorem clean_field (s : State)  : (s.clean).field = s.field := rfl
@[simp] theorem clean_ddrCtl (s : State)  : (s.clean).ddrCtl = s.ddrCtl := rfl
@[simp] theorem clean_bxm (s : State)  : (s.clean).bxm = s.bxm := rfl
@[simp] theorem clean_dbg (s : State)  : (s.clean).dbg = s.dbg := rfl
@[simp] theorem clean_fig (s : State)  : (s.clean).fig = s.fig := rfl
@[simp] theorem clean_mbx (s : State)  : (s.clean).mbx = s.mbx := rfl
@[simp] theorem clean_pcie (s : State)  : (s.clean).pcie = s.pcie := rfl
@[simp] theorem clean_snap (s : State)  : (s.clean).snap = s.snap := rfl
@[simp] theorem clean_fw (s : State)  : (s.clean).fw = s.fw := rfl
@[simp] theorem clean_odo (s : State)  : (s.clean).odo = s.odo := rfl
@[simp] theorem clean_pwm (s : State)  : (s.clean).pwm = s.pwm := rfl
@[simp] theorem clean_plb (s : State)  : (s.clean).plb = s.plb := rfl
@[simp] theorem clean_vid (s : State)  : (s.clean).vid = s.vid := rfl
@[simp] theorem clean_aud (s : State)  : (s.clean).aud = s.aud := rfl
@[simp] theorem clean_net (s : State)  : (s.clean).net = s.net := rfl
@[simp] theorem clean_jnc (s : State)  : (s.clean).jnc = s.jnc := rfl
@[simp] theorem clean_otp (s : State)  : (s.clean).otp = s.otp := rfl
@[simp] theorem clean_keys (s : State)  : (s.clean).keys = s.keys := rfl
@[simp] theorem clean_seals (s : State)  : (s.clean).seals = s.seals := rfl
@[simp] theorem clean_signerBusy (s : State)  : (s.clean).signerBusy = s.signerBusy := rfl
@[simp] theorem clean_marks (s : State)  : (s.clean).marks = s.marks := rfl
@[simp] theorem emit_pending (s : State) (o : Out) : (s.emit o).pending = s.pending := rfl
@[simp] theorem emit_free (s : State) (o : Out) : (s.emit o).free = s.free := rfl
@[simp] theorem emit_regs (s : State) (o : Out) : (s.emit o).regs = s.regs := rfl
@[simp] theorem emit_rom (s : State) (o : Out) : (s.emit o).rom = s.rom := rfl
@[simp] theorem emit_sram (s : State) (o : Out) : (s.emit o).sram = s.sram := rfl
@[simp] theorem emit_bkf (s : State) (o : Out) : (s.emit o).bkf = s.bkf := rfl
@[simp] theorem emit_ddr (s : State) (o : Out) : (s.emit o).ddr = s.ddr := rfl
@[simp] theorem emit_flash (s : State) (o : Out) : (s.emit o).flash = s.flash := rfl
@[simp] theorem emit_clk (s : State) (o : Out) : (s.emit o).clk = s.clk := rfl
@[simp] theorem emit_pwr (s : State) (o : Out) : (s.emit o).pwr = s.pwr := rfl
@[simp] theorem emit_tme (s : State) (o : Out) : (s.emit o).tme = s.tme := rfl
@[simp] theorem emit_cores (s : State) (o : Out) : (s.emit o).cores = s.cores := rfl
@[simp] theorem emit_lock23 (s : State) (o : Out) : (s.emit o).lock23 = s.lock23 := rfl
@[simp] theorem emit_lock45 (s : State) (o : Out) : (s.emit o).lock45 = s.lock45 := rfl
@[simp] theorem emit_field (s : State) (o : Out) : (s.emit o).field = s.field := rfl
@[simp] theorem emit_ddrCtl (s : State) (o : Out) : (s.emit o).ddrCtl = s.ddrCtl := rfl
@[simp] theorem emit_bxm (s : State) (o : Out) : (s.emit o).bxm = s.bxm := rfl
@[simp] theorem emit_dbg (s : State) (o : Out) : (s.emit o).dbg = s.dbg := rfl
@[simp] theorem emit_fig (s : State) (o : Out) : (s.emit o).fig = s.fig := rfl
@[simp] theorem emit_mbx (s : State) (o : Out) : (s.emit o).mbx = s.mbx := rfl
@[simp] theorem emit_pcie (s : State) (o : Out) : (s.emit o).pcie = s.pcie := rfl
@[simp] theorem emit_snap (s : State) (o : Out) : (s.emit o).snap = s.snap := rfl
@[simp] theorem emit_fw (s : State) (o : Out) : (s.emit o).fw = s.fw := rfl
@[simp] theorem emit_odo (s : State) (o : Out) : (s.emit o).odo = s.odo := rfl
@[simp] theorem emit_pwm (s : State) (o : Out) : (s.emit o).pwm = s.pwm := rfl
@[simp] theorem emit_plb (s : State) (o : Out) : (s.emit o).plb = s.plb := rfl
@[simp] theorem emit_vid (s : State) (o : Out) : (s.emit o).vid = s.vid := rfl
@[simp] theorem emit_aud (s : State) (o : Out) : (s.emit o).aud = s.aud := rfl
@[simp] theorem emit_net (s : State) (o : Out) : (s.emit o).net = s.net := rfl
@[simp] theorem emit_jnc (s : State) (o : Out) : (s.emit o).jnc = s.jnc := rfl
@[simp] theorem emit_otp (s : State) (o : Out) : (s.emit o).otp = s.otp := rfl
@[simp] theorem emit_keys (s : State) (o : Out) : (s.emit o).keys = s.keys := rfl
@[simp] theorem emit_seals (s : State) (o : Out) : (s.emit o).seals = s.seals := rfl
@[simp] theorem emit_signerBusy (s : State) (o : Out) : (s.emit o).signerBusy = s.signerBusy := rfl
@[simp] theorem emit_marks (s : State) (o : Out) : (s.emit o).marks = s.marks := rfl
@[simp] theorem modBay_pending (s : State) (b : Nat) (g : Bay → Bay) : (s.modBay b g).pending = s.pending := rfl
@[simp] theorem modBay_out (s : State) (b : Nat) (g : Bay → Bay) : (s.modBay b g).out = s.out := rfl
@[simp] theorem modBay_free (s : State) (b : Nat) (g : Bay → Bay) : (s.modBay b g).free = s.free := rfl
@[simp] theorem modBay_regs (s : State) (b : Nat) (g : Bay → Bay) : (s.modBay b g).regs = s.regs := rfl
@[simp] theorem modBay_rom (s : State) (b : Nat) (g : Bay → Bay) : (s.modBay b g).rom = s.rom := rfl
@[simp] theorem modBay_sram (s : State) (b : Nat) (g : Bay → Bay) : (s.modBay b g).sram = s.sram := rfl
@[simp] theorem modBay_bkf (s : State) (b : Nat) (g : Bay → Bay) : (s.modBay b g).bkf = s.bkf := rfl
@[simp] theorem modBay_ddr (s : State) (b : Nat) (g : Bay → Bay) : (s.modBay b g).ddr = s.ddr := rfl
@[simp] theorem modBay_flash (s : State) (b : Nat) (g : Bay → Bay) : (s.modBay b g).flash = s.flash := rfl
@[simp] theorem modBay_clk (s : State) (b : Nat) (g : Bay → Bay) : (s.modBay b g).clk = s.clk := rfl
@[simp] theorem modBay_pwr (s : State) (b : Nat) (g : Bay → Bay) : (s.modBay b g).pwr = s.pwr := rfl
@[simp] theorem modBay_tme (s : State) (b : Nat) (g : Bay → Bay) : (s.modBay b g).tme = s.tme := rfl
@[simp] theorem modBay_cores (s : State) (b : Nat) (g : Bay → Bay) : (s.modBay b g).cores = s.cores := rfl
@[simp] theorem modBay_lock23 (s : State) (b : Nat) (g : Bay → Bay) : (s.modBay b g).lock23 = s.lock23 := rfl
@[simp] theorem modBay_lock45 (s : State) (b : Nat) (g : Bay → Bay) : (s.modBay b g).lock45 = s.lock45 := rfl
@[simp] theorem modBay_field (s : State) (b : Nat) (g : Bay → Bay) : (s.modBay b g).field = s.field := rfl
@[simp] theorem modBay_ddrCtl (s : State) (b : Nat) (g : Bay → Bay) : (s.modBay b g).ddrCtl = s.ddrCtl := rfl
@[simp] theorem modBay_bxm (s : State) (b : Nat) (g : Bay → Bay) : (s.modBay b g).bxm = s.bxm := rfl
@[simp] theorem modBay_dbg (s : State) (b : Nat) (g : Bay → Bay) : (s.modBay b g).dbg = s.dbg := rfl
@[simp] theorem modBay_fig (s : State) (b : Nat) (g : Bay → Bay) : (s.modBay b g).fig = s.fig := rfl
@[simp] theorem modBay_mbx (s : State) (b : Nat) (g : Bay → Bay) : (s.modBay b g).mbx = s.mbx := rfl
@[simp] theorem modBay_pcie (s : State) (b : Nat) (g : Bay → Bay) : (s.modBay b g).pcie = s.pcie := rfl
@[simp] theorem modBay_snap (s : State) (b : Nat) (g : Bay → Bay) : (s.modBay b g).snap = s.snap := rfl
@[simp] theorem modBay_odo (s : State) (b : Nat) (g : Bay → Bay) : (s.modBay b g).odo = s.odo := rfl
@[simp] theorem modBay_pwm (s : State) (b : Nat) (g : Bay → Bay) : (s.modBay b g).pwm = s.pwm := rfl
@[simp] theorem modBay_plb (s : State) (b : Nat) (g : Bay → Bay) : (s.modBay b g).plb = s.plb := rfl
@[simp] theorem modBay_vid (s : State) (b : Nat) (g : Bay → Bay) : (s.modBay b g).vid = s.vid := rfl
@[simp] theorem modBay_aud (s : State) (b : Nat) (g : Bay → Bay) : (s.modBay b g).aud = s.aud := rfl
@[simp] theorem modBay_net (s : State) (b : Nat) (g : Bay → Bay) : (s.modBay b g).net = s.net := rfl
@[simp] theorem modBay_jnc (s : State) (b : Nat) (g : Bay → Bay) : (s.modBay b g).jnc = s.jnc := rfl
@[simp] theorem modBay_otp (s : State) (b : Nat) (g : Bay → Bay) : (s.modBay b g).otp = s.otp := rfl
@[simp] theorem modBay_keys (s : State) (b : Nat) (g : Bay → Bay) : (s.modBay b g).keys = s.keys := rfl
@[simp] theorem modBay_seals (s : State) (b : Nat) (g : Bay → Bay) : (s.modBay b g).seals = s.seals := rfl
@[simp] theorem modBay_signerBusy (s : State) (b : Nat) (g : Bay → Bay) : (s.modBay b g).signerBusy = s.signerBusy := rfl
@[simp] theorem modBay_marks (s : State) (b : Nat) (g : Bay → Bay) : (s.modBay b g).marks = s.marks := rfl
@[simp] theorem modRing_pending (s : State) (r : Nat) (g : RingSet → RingSet) : (s.modRing r g).pending = s.pending := rfl
@[simp] theorem modRing_out (s : State) (r : Nat) (g : RingSet → RingSet) : (s.modRing r g).out = s.out := rfl
@[simp] theorem modRing_free (s : State) (r : Nat) (g : RingSet → RingSet) : (s.modRing r g).free = s.free := rfl
@[simp] theorem modRing_regs (s : State) (r : Nat) (g : RingSet → RingSet) : (s.modRing r g).regs = s.regs := rfl
@[simp] theorem modRing_rom (s : State) (r : Nat) (g : RingSet → RingSet) : (s.modRing r g).rom = s.rom := rfl
@[simp] theorem modRing_sram (s : State) (r : Nat) (g : RingSet → RingSet) : (s.modRing r g).sram = s.sram := rfl
@[simp] theorem modRing_bkf (s : State) (r : Nat) (g : RingSet → RingSet) : (s.modRing r g).bkf = s.bkf := rfl
@[simp] theorem modRing_ddr (s : State) (r : Nat) (g : RingSet → RingSet) : (s.modRing r g).ddr = s.ddr := rfl
@[simp] theorem modRing_flash (s : State) (r : Nat) (g : RingSet → RingSet) : (s.modRing r g).flash = s.flash := rfl
@[simp] theorem modRing_clk (s : State) (r : Nat) (g : RingSet → RingSet) : (s.modRing r g).clk = s.clk := rfl
@[simp] theorem modRing_pwr (s : State) (r : Nat) (g : RingSet → RingSet) : (s.modRing r g).pwr = s.pwr := rfl
@[simp] theorem modRing_tme (s : State) (r : Nat) (g : RingSet → RingSet) : (s.modRing r g).tme = s.tme := rfl
@[simp] theorem modRing_cores (s : State) (r : Nat) (g : RingSet → RingSet) : (s.modRing r g).cores = s.cores := rfl
@[simp] theorem modRing_lock23 (s : State) (r : Nat) (g : RingSet → RingSet) : (s.modRing r g).lock23 = s.lock23 := rfl
@[simp] theorem modRing_lock45 (s : State) (r : Nat) (g : RingSet → RingSet) : (s.modRing r g).lock45 = s.lock45 := rfl
@[simp] theorem modRing_field (s : State) (r : Nat) (g : RingSet → RingSet) : (s.modRing r g).field = s.field := rfl
@[simp] theorem modRing_ddrCtl (s : State) (r : Nat) (g : RingSet → RingSet) : (s.modRing r g).ddrCtl = s.ddrCtl := rfl
@[simp] theorem modRing_bxm (s : State) (r : Nat) (g : RingSet → RingSet) : (s.modRing r g).bxm = s.bxm := rfl
@[simp] theorem modRing_dbg (s : State) (r : Nat) (g : RingSet → RingSet) : (s.modRing r g).dbg = s.dbg := rfl
@[simp] theorem modRing_fig (s : State) (r : Nat) (g : RingSet → RingSet) : (s.modRing r g).fig = s.fig := rfl
@[simp] theorem modRing_pcie (s : State) (r : Nat) (g : RingSet → RingSet) : (s.modRing r g).pcie = s.pcie := rfl
@[simp] theorem modRing_snap (s : State) (r : Nat) (g : RingSet → RingSet) : (s.modRing r g).snap = s.snap := rfl
@[simp] theorem modRing_fw (s : State) (r : Nat) (g : RingSet → RingSet) : (s.modRing r g).fw = s.fw := rfl
@[simp] theorem modRing_odo (s : State) (r : Nat) (g : RingSet → RingSet) : (s.modRing r g).odo = s.odo := rfl
@[simp] theorem modRing_pwm (s : State) (r : Nat) (g : RingSet → RingSet) : (s.modRing r g).pwm = s.pwm := rfl
@[simp] theorem modRing_plb (s : State) (r : Nat) (g : RingSet → RingSet) : (s.modRing r g).plb = s.plb := rfl
@[simp] theorem modRing_vid (s : State) (r : Nat) (g : RingSet → RingSet) : (s.modRing r g).vid = s.vid := rfl
@[simp] theorem modRing_aud (s : State) (r : Nat) (g : RingSet → RingSet) : (s.modRing r g).aud = s.aud := rfl
@[simp] theorem modRing_net (s : State) (r : Nat) (g : RingSet → RingSet) : (s.modRing r g).net = s.net := rfl
@[simp] theorem modRing_jnc (s : State) (r : Nat) (g : RingSet → RingSet) : (s.modRing r g).jnc = s.jnc := rfl
@[simp] theorem modRing_otp (s : State) (r : Nat) (g : RingSet → RingSet) : (s.modRing r g).otp = s.otp := rfl
@[simp] theorem modRing_keys (s : State) (r : Nat) (g : RingSet → RingSet) : (s.modRing r g).keys = s.keys := rfl
@[simp] theorem modRing_seals (s : State) (r : Nat) (g : RingSet → RingSet) : (s.modRing r g).seals = s.seals := rfl
@[simp] theorem modRing_signerBusy (s : State) (r : Nat) (g : RingSet → RingSet) : (s.modRing r g).signerBusy = s.signerBusy := rfl
@[simp] theorem modRing_marks (s : State) (r : Nat) (g : RingSet → RingSet) : (s.modRing r g).marks = s.marks := rfl
@[simp] theorem modFn_pending (s : State) (n : Nat) (g : PcieFn → PcieFn) : (s.modFn n g).pending = s.pending := rfl
@[simp] theorem modFn_out (s : State) (n : Nat) (g : PcieFn → PcieFn) : (s.modFn n g).out = s.out := rfl
@[simp] theorem modFn_free (s : State) (n : Nat) (g : PcieFn → PcieFn) : (s.modFn n g).free = s.free := rfl
@[simp] theorem modFn_regs (s : State) (n : Nat) (g : PcieFn → PcieFn) : (s.modFn n g).regs = s.regs := rfl
@[simp] theorem modFn_rom (s : State) (n : Nat) (g : PcieFn → PcieFn) : (s.modFn n g).rom = s.rom := rfl
@[simp] theorem modFn_sram (s : State) (n : Nat) (g : PcieFn → PcieFn) : (s.modFn n g).sram = s.sram := rfl
@[simp] theorem modFn_bkf (s : State) (n : Nat) (g : PcieFn → PcieFn) : (s.modFn n g).bkf = s.bkf := rfl
@[simp] theorem modFn_ddr (s : State) (n : Nat) (g : PcieFn → PcieFn) : (s.modFn n g).ddr = s.ddr := rfl
@[simp] theorem modFn_flash (s : State) (n : Nat) (g : PcieFn → PcieFn) : (s.modFn n g).flash = s.flash := rfl
@[simp] theorem modFn_clk (s : State) (n : Nat) (g : PcieFn → PcieFn) : (s.modFn n g).clk = s.clk := rfl
@[simp] theorem modFn_pwr (s : State) (n : Nat) (g : PcieFn → PcieFn) : (s.modFn n g).pwr = s.pwr := rfl
@[simp] theorem modFn_tme (s : State) (n : Nat) (g : PcieFn → PcieFn) : (s.modFn n g).tme = s.tme := rfl
@[simp] theorem modFn_cores (s : State) (n : Nat) (g : PcieFn → PcieFn) : (s.modFn n g).cores = s.cores := rfl
@[simp] theorem modFn_lock23 (s : State) (n : Nat) (g : PcieFn → PcieFn) : (s.modFn n g).lock23 = s.lock23 := rfl
@[simp] theorem modFn_lock45 (s : State) (n : Nat) (g : PcieFn → PcieFn) : (s.modFn n g).lock45 = s.lock45 := rfl
@[simp] theorem modFn_field (s : State) (n : Nat) (g : PcieFn → PcieFn) : (s.modFn n g).field = s.field := rfl
@[simp] theorem modFn_ddrCtl (s : State) (n : Nat) (g : PcieFn → PcieFn) : (s.modFn n g).ddrCtl = s.ddrCtl := rfl
@[simp] theorem modFn_bxm (s : State) (n : Nat) (g : PcieFn → PcieFn) : (s.modFn n g).bxm = s.bxm := rfl
@[simp] theorem modFn_dbg (s : State) (n : Nat) (g : PcieFn → PcieFn) : (s.modFn n g).dbg = s.dbg := rfl
@[simp] theorem modFn_fig (s : State) (n : Nat) (g : PcieFn → PcieFn) : (s.modFn n g).fig = s.fig := rfl
@[simp] theorem modFn_mbx (s : State) (n : Nat) (g : PcieFn → PcieFn) : (s.modFn n g).mbx = s.mbx := rfl
@[simp] theorem modFn_snap (s : State) (n : Nat) (g : PcieFn → PcieFn) : (s.modFn n g).snap = s.snap := rfl
@[simp] theorem modFn_fw (s : State) (n : Nat) (g : PcieFn → PcieFn) : (s.modFn n g).fw = s.fw := rfl
@[simp] theorem modFn_odo (s : State) (n : Nat) (g : PcieFn → PcieFn) : (s.modFn n g).odo = s.odo := rfl
@[simp] theorem modFn_pwm (s : State) (n : Nat) (g : PcieFn → PcieFn) : (s.modFn n g).pwm = s.pwm := rfl
@[simp] theorem modFn_plb (s : State) (n : Nat) (g : PcieFn → PcieFn) : (s.modFn n g).plb = s.plb := rfl
@[simp] theorem modFn_vid (s : State) (n : Nat) (g : PcieFn → PcieFn) : (s.modFn n g).vid = s.vid := rfl
@[simp] theorem modFn_aud (s : State) (n : Nat) (g : PcieFn → PcieFn) : (s.modFn n g).aud = s.aud := rfl
@[simp] theorem modFn_net (s : State) (n : Nat) (g : PcieFn → PcieFn) : (s.modFn n g).net = s.net := rfl
@[simp] theorem modFn_jnc (s : State) (n : Nat) (g : PcieFn → PcieFn) : (s.modFn n g).jnc = s.jnc := rfl
@[simp] theorem modFn_otp (s : State) (n : Nat) (g : PcieFn → PcieFn) : (s.modFn n g).otp = s.otp := rfl
@[simp] theorem modFn_keys (s : State) (n : Nat) (g : PcieFn → PcieFn) : (s.modFn n g).keys = s.keys := rfl
@[simp] theorem modFn_seals (s : State) (n : Nat) (g : PcieFn → PcieFn) : (s.modFn n g).seals = s.seals := rfl
@[simp] theorem modFn_signerBusy (s : State) (n : Nat) (g : PcieFn → PcieFn) : (s.modFn n g).signerBusy = s.signerBusy := rfl
@[simp] theorem modFn_marks (s : State) (n : Nat) (g : PcieFn → PcieFn) : (s.modFn n g).marks = s.marks := rfl
@[simp] theorem modEnd_pending (s : State) (r : Nat) (g : Endpoint → Endpoint) : (s.modEnd r g).pending = s.pending := rfl
@[simp] theorem modEnd_out (s : State) (r : Nat) (g : Endpoint → Endpoint) : (s.modEnd r g).out = s.out := rfl
@[simp] theorem modEnd_free (s : State) (r : Nat) (g : Endpoint → Endpoint) : (s.modEnd r g).free = s.free := rfl
@[simp] theorem modEnd_regs (s : State) (r : Nat) (g : Endpoint → Endpoint) : (s.modEnd r g).regs = s.regs := rfl
@[simp] theorem modEnd_rom (s : State) (r : Nat) (g : Endpoint → Endpoint) : (s.modEnd r g).rom = s.rom := rfl
@[simp] theorem modEnd_sram (s : State) (r : Nat) (g : Endpoint → Endpoint) : (s.modEnd r g).sram = s.sram := rfl
@[simp] theorem modEnd_bkf (s : State) (r : Nat) (g : Endpoint → Endpoint) : (s.modEnd r g).bkf = s.bkf := rfl
@[simp] theorem modEnd_ddr (s : State) (r : Nat) (g : Endpoint → Endpoint) : (s.modEnd r g).ddr = s.ddr := rfl
@[simp] theorem modEnd_flash (s : State) (r : Nat) (g : Endpoint → Endpoint) : (s.modEnd r g).flash = s.flash := rfl
@[simp] theorem modEnd_clk (s : State) (r : Nat) (g : Endpoint → Endpoint) : (s.modEnd r g).clk = s.clk := rfl
@[simp] theorem modEnd_pwr (s : State) (r : Nat) (g : Endpoint → Endpoint) : (s.modEnd r g).pwr = s.pwr := rfl
@[simp] theorem modEnd_tme (s : State) (r : Nat) (g : Endpoint → Endpoint) : (s.modEnd r g).tme = s.tme := rfl
@[simp] theorem modEnd_cores (s : State) (r : Nat) (g : Endpoint → Endpoint) : (s.modEnd r g).cores = s.cores := rfl
@[simp] theorem modEnd_lock23 (s : State) (r : Nat) (g : Endpoint → Endpoint) : (s.modEnd r g).lock23 = s.lock23 := rfl
@[simp] theorem modEnd_lock45 (s : State) (r : Nat) (g : Endpoint → Endpoint) : (s.modEnd r g).lock45 = s.lock45 := rfl
@[simp] theorem modEnd_field (s : State) (r : Nat) (g : Endpoint → Endpoint) : (s.modEnd r g).field = s.field := rfl
@[simp] theorem modEnd_ddrCtl (s : State) (r : Nat) (g : Endpoint → Endpoint) : (s.modEnd r g).ddrCtl = s.ddrCtl := rfl
@[simp] theorem modEnd_bxm (s : State) (r : Nat) (g : Endpoint → Endpoint) : (s.modEnd r g).bxm = s.bxm := rfl
@[simp] theorem modEnd_dbg (s : State) (r : Nat) (g : Endpoint → Endpoint) : (s.modEnd r g).dbg = s.dbg := rfl
@[simp] theorem modEnd_mbx (s : State) (r : Nat) (g : Endpoint → Endpoint) : (s.modEnd r g).mbx = s.mbx := rfl
@[simp] theorem modEnd_pcie (s : State) (r : Nat) (g : Endpoint → Endpoint) : (s.modEnd r g).pcie = s.pcie := rfl
@[simp] theorem modEnd_snap (s : State) (r : Nat) (g : Endpoint → Endpoint) : (s.modEnd r g).snap = s.snap := rfl
@[simp] theorem modEnd_fw (s : State) (r : Nat) (g : Endpoint → Endpoint) : (s.modEnd r g).fw = s.fw := rfl
@[simp] theorem modEnd_odo (s : State) (r : Nat) (g : Endpoint → Endpoint) : (s.modEnd r g).odo = s.odo := rfl
@[simp] theorem modEnd_pwm (s : State) (r : Nat) (g : Endpoint → Endpoint) : (s.modEnd r g).pwm = s.pwm := rfl
@[simp] theorem modEnd_plb (s : State) (r : Nat) (g : Endpoint → Endpoint) : (s.modEnd r g).plb = s.plb := rfl
@[simp] theorem modEnd_vid (s : State) (r : Nat) (g : Endpoint → Endpoint) : (s.modEnd r g).vid = s.vid := rfl
@[simp] theorem modEnd_aud (s : State) (r : Nat) (g : Endpoint → Endpoint) : (s.modEnd r g).aud = s.aud := rfl
@[simp] theorem modEnd_net (s : State) (r : Nat) (g : Endpoint → Endpoint) : (s.modEnd r g).net = s.net := rfl
@[simp] theorem modEnd_jnc (s : State) (r : Nat) (g : Endpoint → Endpoint) : (s.modEnd r g).jnc = s.jnc := rfl
@[simp] theorem modEnd_otp (s : State) (r : Nat) (g : Endpoint → Endpoint) : (s.modEnd r g).otp = s.otp := rfl
@[simp] theorem modEnd_keys (s : State) (r : Nat) (g : Endpoint → Endpoint) : (s.modEnd r g).keys = s.keys := rfl
@[simp] theorem modEnd_seals (s : State) (r : Nat) (g : Endpoint → Endpoint) : (s.modEnd r g).seals = s.seals := rfl
@[simp] theorem modEnd_signerBusy (s : State) (r : Nat) (g : Endpoint → Endpoint) : (s.modEnd r g).signerBusy = s.signerBusy := rfl
@[simp] theorem modEnd_marks (s : State) (r : Nat) (g : Endpoint → Endpoint) : (s.modEnd r g).marks = s.marks := rfl
@[simp] theorem resetBlocks_pending (s : State) (bs : List Nat) : (s.resetBlocks bs).pending = s.pending := rfl
@[simp] theorem resetBlocks_out (s : State) (bs : List Nat) : (s.resetBlocks bs).out = s.out := rfl
@[simp] theorem resetBlocks_free (s : State) (bs : List Nat) : (s.resetBlocks bs).free = s.free := rfl
@[simp] theorem resetBlocks_rom (s : State) (bs : List Nat) : (s.resetBlocks bs).rom = s.rom := rfl
@[simp] theorem resetBlocks_sram (s : State) (bs : List Nat) : (s.resetBlocks bs).sram = s.sram := rfl
@[simp] theorem resetBlocks_bkf (s : State) (bs : List Nat) : (s.resetBlocks bs).bkf = s.bkf := rfl
@[simp] theorem resetBlocks_ddr (s : State) (bs : List Nat) : (s.resetBlocks bs).ddr = s.ddr := rfl
@[simp] theorem resetBlocks_flash (s : State) (bs : List Nat) : (s.resetBlocks bs).flash = s.flash := rfl
@[simp] theorem resetBlocks_clk (s : State) (bs : List Nat) : (s.resetBlocks bs).clk = s.clk := rfl
@[simp] theorem resetBlocks_pwr (s : State) (bs : List Nat) : (s.resetBlocks bs).pwr = s.pwr := rfl
@[simp] theorem resetBlocks_tme (s : State) (bs : List Nat) : (s.resetBlocks bs).tme = s.tme := rfl
@[simp] theorem resetBlocks_cores (s : State) (bs : List Nat) : (s.resetBlocks bs).cores = s.cores := rfl
@[simp] theorem resetBlocks_lock23 (s : State) (bs : List Nat) : (s.resetBlocks bs).lock23 = s.lock23 := rfl
@[simp] theorem resetBlocks_lock45 (s : State) (bs : List Nat) : (s.resetBlocks bs).lock45 = s.lock45 := rfl
@[simp] theorem resetBlocks_field (s : State) (bs : List Nat) : (s.resetBlocks bs).field = s.field := rfl
@[simp] theorem resetBlocks_ddrCtl (s : State) (bs : List Nat) : (s.resetBlocks bs).ddrCtl = s.ddrCtl := rfl
@[simp] theorem resetBlocks_bxm (s : State) (bs : List Nat) : (s.resetBlocks bs).bxm = s.bxm := rfl
@[simp] theorem resetBlocks_dbg (s : State) (bs : List Nat) : (s.resetBlocks bs).dbg = s.dbg := rfl
@[simp] theorem resetBlocks_fig (s : State) (bs : List Nat) : (s.resetBlocks bs).fig = s.fig := rfl
@[simp] theorem resetBlocks_mbx (s : State) (bs : List Nat) : (s.resetBlocks bs).mbx = s.mbx := rfl
@[simp] theorem resetBlocks_pcie (s : State) (bs : List Nat) : (s.resetBlocks bs).pcie = s.pcie := rfl
@[simp] theorem resetBlocks_snap (s : State) (bs : List Nat) : (s.resetBlocks bs).snap = s.snap := rfl
@[simp] theorem resetBlocks_fw (s : State) (bs : List Nat) : (s.resetBlocks bs).fw = s.fw := rfl
@[simp] theorem resetBlocks_odo (s : State) (bs : List Nat) : (s.resetBlocks bs).odo = s.odo := rfl
@[simp] theorem resetBlocks_pwm (s : State) (bs : List Nat) : (s.resetBlocks bs).pwm = s.pwm := rfl
@[simp] theorem resetBlocks_plb (s : State) (bs : List Nat) : (s.resetBlocks bs).plb = s.plb := rfl
@[simp] theorem resetBlocks_vid (s : State) (bs : List Nat) : (s.resetBlocks bs).vid = s.vid := rfl
@[simp] theorem resetBlocks_aud (s : State) (bs : List Nat) : (s.resetBlocks bs).aud = s.aud := rfl
@[simp] theorem resetBlocks_net (s : State) (bs : List Nat) : (s.resetBlocks bs).net = s.net := rfl
@[simp] theorem resetBlocks_jnc (s : State) (bs : List Nat) : (s.resetBlocks bs).jnc = s.jnc := rfl
@[simp] theorem resetBlocks_otp (s : State) (bs : List Nat) : (s.resetBlocks bs).otp = s.otp := rfl
@[simp] theorem resetBlocks_keys (s : State) (bs : List Nat) : (s.resetBlocks bs).keys = s.keys := rfl
@[simp] theorem resetBlocks_seals (s : State) (bs : List Nat) : (s.resetBlocks bs).seals = s.seals := rfl
@[simp] theorem resetBlocks_signerBusy (s : State) (bs : List Nat) : (s.resetBlocks bs).signerBusy = s.signerBusy := rfl
@[simp] theorem resetBlocks_marks (s : State) (bs : List Nat) : (s.resetBlocks bs).marks = s.marks := rfl
@[simp] theorem put_pending (s : State) (f : Fld) (v : Nat) : (s.put f v).pending = s.pending := rfl
@[simp] theorem put_out (s : State) (f : Fld) (v : Nat) : (s.put f v).out = s.out := rfl
@[simp] theorem put_free (s : State) (f : Fld) (v : Nat) : (s.put f v).free = s.free := rfl
@[simp] theorem put_rom (s : State) (f : Fld) (v : Nat) : (s.put f v).rom = s.rom := rfl
@[simp] theorem put_sram (s : State) (f : Fld) (v : Nat) : (s.put f v).sram = s.sram := rfl
@[simp] theorem put_bkf (s : State) (f : Fld) (v : Nat) : (s.put f v).bkf = s.bkf := rfl
@[simp] theorem put_ddr (s : State) (f : Fld) (v : Nat) : (s.put f v).ddr = s.ddr := rfl
@[simp] theorem put_flash (s : State) (f : Fld) (v : Nat) : (s.put f v).flash = s.flash := rfl
@[simp] theorem put_clk (s : State) (f : Fld) (v : Nat) : (s.put f v).clk = s.clk := rfl
@[simp] theorem put_pwr (s : State) (f : Fld) (v : Nat) : (s.put f v).pwr = s.pwr := rfl
@[simp] theorem put_tme (s : State) (f : Fld) (v : Nat) : (s.put f v).tme = s.tme := rfl
@[simp] theorem put_cores (s : State) (f : Fld) (v : Nat) : (s.put f v).cores = s.cores := rfl
@[simp] theorem put_lock23 (s : State) (f : Fld) (v : Nat) : (s.put f v).lock23 = s.lock23 := rfl
@[simp] theorem put_lock45 (s : State) (f : Fld) (v : Nat) : (s.put f v).lock45 = s.lock45 := rfl
@[simp] theorem put_field (s : State) (f : Fld) (v : Nat) : (s.put f v).field = s.field := rfl
@[simp] theorem put_ddrCtl (s : State) (f : Fld) (v : Nat) : (s.put f v).ddrCtl = s.ddrCtl := rfl
@[simp] theorem put_bxm (s : State) (f : Fld) (v : Nat) : (s.put f v).bxm = s.bxm := rfl
@[simp] theorem put_dbg (s : State) (f : Fld) (v : Nat) : (s.put f v).dbg = s.dbg := rfl
@[simp] theorem put_fig (s : State) (f : Fld) (v : Nat) : (s.put f v).fig = s.fig := rfl
@[simp] theorem put_mbx (s : State) (f : Fld) (v : Nat) : (s.put f v).mbx = s.mbx := rfl
@[simp] theorem put_pcie (s : State) (f : Fld) (v : Nat) : (s.put f v).pcie = s.pcie := rfl
@[simp] theorem put_snap (s : State) (f : Fld) (v : Nat) : (s.put f v).snap = s.snap := rfl
@[simp] theorem put_fw (s : State) (f : Fld) (v : Nat) : (s.put f v).fw = s.fw := rfl
@[simp] theorem put_odo (s : State) (f : Fld) (v : Nat) : (s.put f v).odo = s.odo := rfl
@[simp] theorem put_pwm (s : State) (f : Fld) (v : Nat) : (s.put f v).pwm = s.pwm := rfl
@[simp] theorem put_plb (s : State) (f : Fld) (v : Nat) : (s.put f v).plb = s.plb := rfl
@[simp] theorem put_vid (s : State) (f : Fld) (v : Nat) : (s.put f v).vid = s.vid := rfl
@[simp] theorem put_aud (s : State) (f : Fld) (v : Nat) : (s.put f v).aud = s.aud := rfl
@[simp] theorem put_net (s : State) (f : Fld) (v : Nat) : (s.put f v).net = s.net := rfl
@[simp] theorem put_jnc (s : State) (f : Fld) (v : Nat) : (s.put f v).jnc = s.jnc := rfl
@[simp] theorem put_otp (s : State) (f : Fld) (v : Nat) : (s.put f v).otp = s.otp := rfl
@[simp] theorem put_keys (s : State) (f : Fld) (v : Nat) : (s.put f v).keys = s.keys := rfl
@[simp] theorem put_seals (s : State) (f : Fld) (v : Nat) : (s.put f v).seals = s.seals := rfl
@[simp] theorem put_signerBusy (s : State) (f : Fld) (v : Nat) : (s.put f v).signerBusy = s.signerBusy := rfl
@[simp] theorem put_marks (s : State) (f : Fld) (v : Nat) : (s.put f v).marks = s.marks := rfl
@[simp] theorem putB_pending (s : State) (f : Fld) (b : Bool) : (s.putB f b).pending = s.pending := rfl
@[simp] theorem putB_out (s : State) (f : Fld) (b : Bool) : (s.putB f b).out = s.out := rfl
@[simp] theorem putB_free (s : State) (f : Fld) (b : Bool) : (s.putB f b).free = s.free := rfl
@[simp] theorem putB_rom (s : State) (f : Fld) (b : Bool) : (s.putB f b).rom = s.rom := rfl
@[simp] theorem putB_sram (s : State) (f : Fld) (b : Bool) : (s.putB f b).sram = s.sram := rfl
@[simp] theorem putB_bkf (s : State) (f : Fld) (b : Bool) : (s.putB f b).bkf = s.bkf := rfl
@[simp] theorem putB_ddr (s : State) (f : Fld) (b : Bool) : (s.putB f b).ddr = s.ddr := rfl
@[simp] theorem putB_flash (s : State) (f : Fld) (b : Bool) : (s.putB f b).flash = s.flash := rfl
@[simp] theorem putB_clk (s : State) (f : Fld) (b : Bool) : (s.putB f b).clk = s.clk := rfl
@[simp] theorem putB_pwr (s : State) (f : Fld) (b : Bool) : (s.putB f b).pwr = s.pwr := rfl
@[simp] theorem putB_tme (s : State) (f : Fld) (b : Bool) : (s.putB f b).tme = s.tme := rfl
@[simp] theorem putB_cores (s : State) (f : Fld) (b : Bool) : (s.putB f b).cores = s.cores := rfl
@[simp] theorem putB_lock23 (s : State) (f : Fld) (b : Bool) : (s.putB f b).lock23 = s.lock23 := rfl
@[simp] theorem putB_lock45 (s : State) (f : Fld) (b : Bool) : (s.putB f b).lock45 = s.lock45 := rfl
@[simp] theorem putB_field (s : State) (f : Fld) (b : Bool) : (s.putB f b).field = s.field := rfl
@[simp] theorem putB_ddrCtl (s : State) (f : Fld) (b : Bool) : (s.putB f b).ddrCtl = s.ddrCtl := rfl
@[simp] theorem putB_bxm (s : State) (f : Fld) (b : Bool) : (s.putB f b).bxm = s.bxm := rfl
@[simp] theorem putB_dbg (s : State) (f : Fld) (b : Bool) : (s.putB f b).dbg = s.dbg := rfl
@[simp] theorem putB_fig (s : State) (f : Fld) (b : Bool) : (s.putB f b).fig = s.fig := rfl
@[simp] theorem putB_mbx (s : State) (f : Fld) (b : Bool) : (s.putB f b).mbx = s.mbx := rfl
@[simp] theorem putB_pcie (s : State) (f : Fld) (b : Bool) : (s.putB f b).pcie = s.pcie := rfl
@[simp] theorem putB_snap (s : State) (f : Fld) (b : Bool) : (s.putB f b).snap = s.snap := rfl
@[simp] theorem putB_fw (s : State) (f : Fld) (b : Bool) : (s.putB f b).fw = s.fw := rfl
@[simp] theorem putB_odo (s : State) (f : Fld) (b : Bool) : (s.putB f b).odo = s.odo := rfl
@[simp] theorem putB_pwm (s : State) (f : Fld) (b : Bool) : (s.putB f b).pwm = s.pwm := rfl
@[simp] theorem putB_plb (s : State) (f : Fld) (b : Bool) : (s.putB f b).plb = s.plb := rfl
@[simp] theorem putB_vid (s : State) (f : Fld) (b : Bool) : (s.putB f b).vid = s.vid := rfl
@[simp] theorem putB_aud (s : State) (f : Fld) (b : Bool) : (s.putB f b).aud = s.aud := rfl
@[simp] theorem putB_net (s : State) (f : Fld) (b : Bool) : (s.putB f b).net = s.net := rfl
@[simp] theorem putB_jnc (s : State) (f : Fld) (b : Bool) : (s.putB f b).jnc = s.jnc := rfl
@[simp] theorem putB_otp (s : State) (f : Fld) (b : Bool) : (s.putB f b).otp = s.otp := rfl
@[simp] theorem putB_keys (s : State) (f : Fld) (b : Bool) : (s.putB f b).keys = s.keys := rfl
@[simp] theorem putB_seals (s : State) (f : Fld) (b : Bool) : (s.putB f b).seals = s.seals := rfl
@[simp] theorem putB_signerBusy (s : State) (f : Fld) (b : Bool) : (s.putB f b).signerBusy = s.signerBusy := rfl
@[simp] theorem putB_marks (s : State) (f : Fld) (b : Bool) : (s.putB f b).marks = s.marks := rfl
@[simp] theorem putI_pending (s : State) (f : Fld) (z : Int) : (s.putI f z).pending = s.pending := rfl
@[simp] theorem putI_out (s : State) (f : Fld) (z : Int) : (s.putI f z).out = s.out := rfl
@[simp] theorem putI_free (s : State) (f : Fld) (z : Int) : (s.putI f z).free = s.free := rfl
@[simp] theorem putI_rom (s : State) (f : Fld) (z : Int) : (s.putI f z).rom = s.rom := rfl
@[simp] theorem putI_sram (s : State) (f : Fld) (z : Int) : (s.putI f z).sram = s.sram := rfl
@[simp] theorem putI_bkf (s : State) (f : Fld) (z : Int) : (s.putI f z).bkf = s.bkf := rfl
@[simp] theorem putI_ddr (s : State) (f : Fld) (z : Int) : (s.putI f z).ddr = s.ddr := rfl
@[simp] theorem putI_flash (s : State) (f : Fld) (z : Int) : (s.putI f z).flash = s.flash := rfl
@[simp] theorem putI_clk (s : State) (f : Fld) (z : Int) : (s.putI f z).clk = s.clk := rfl
@[simp] theorem putI_pwr (s : State) (f : Fld) (z : Int) : (s.putI f z).pwr = s.pwr := rfl
@[simp] theorem putI_tme (s : State) (f : Fld) (z : Int) : (s.putI f z).tme = s.tme := rfl
@[simp] theorem putI_cores (s : State) (f : Fld) (z : Int) : (s.putI f z).cores = s.cores := rfl
@[simp] theorem putI_lock23 (s : State) (f : Fld) (z : Int) : (s.putI f z).lock23 = s.lock23 := rfl
@[simp] theorem putI_lock45 (s : State) (f : Fld) (z : Int) : (s.putI f z).lock45 = s.lock45 := rfl
@[simp] theorem putI_field (s : State) (f : Fld) (z : Int) : (s.putI f z).field = s.field := rfl
@[simp] theorem putI_ddrCtl (s : State) (f : Fld) (z : Int) : (s.putI f z).ddrCtl = s.ddrCtl := rfl
@[simp] theorem putI_bxm (s : State) (f : Fld) (z : Int) : (s.putI f z).bxm = s.bxm := rfl
@[simp] theorem putI_dbg (s : State) (f : Fld) (z : Int) : (s.putI f z).dbg = s.dbg := rfl
@[simp] theorem putI_fig (s : State) (f : Fld) (z : Int) : (s.putI f z).fig = s.fig := rfl
@[simp] theorem putI_mbx (s : State) (f : Fld) (z : Int) : (s.putI f z).mbx = s.mbx := rfl
@[simp] theorem putI_pcie (s : State) (f : Fld) (z : Int) : (s.putI f z).pcie = s.pcie := rfl
@[simp] theorem putI_snap (s : State) (f : Fld) (z : Int) : (s.putI f z).snap = s.snap := rfl
@[simp] theorem putI_fw (s : State) (f : Fld) (z : Int) : (s.putI f z).fw = s.fw := rfl
@[simp] theorem putI_odo (s : State) (f : Fld) (z : Int) : (s.putI f z).odo = s.odo := rfl
@[simp] theorem putI_pwm (s : State) (f : Fld) (z : Int) : (s.putI f z).pwm = s.pwm := rfl
@[simp] theorem putI_plb (s : State) (f : Fld) (z : Int) : (s.putI f z).plb = s.plb := rfl
@[simp] theorem putI_vid (s : State) (f : Fld) (z : Int) : (s.putI f z).vid = s.vid := rfl
@[simp] theorem putI_aud (s : State) (f : Fld) (z : Int) : (s.putI f z).aud = s.aud := rfl
@[simp] theorem putI_net (s : State) (f : Fld) (z : Int) : (s.putI f z).net = s.net := rfl
@[simp] theorem putI_jnc (s : State) (f : Fld) (z : Int) : (s.putI f z).jnc = s.jnc := rfl
@[simp] theorem putI_otp (s : State) (f : Fld) (z : Int) : (s.putI f z).otp = s.otp := rfl
@[simp] theorem putI_keys (s : State) (f : Fld) (z : Int) : (s.putI f z).keys = s.keys := rfl
@[simp] theorem putI_seals (s : State) (f : Fld) (z : Int) : (s.putI f z).seals = s.seals := rfl
@[simp] theorem putI_signerBusy (s : State) (f : Fld) (z : Int) : (s.putI f z).signerBusy = s.signerBusy := rfl
@[simp] theorem putI_marks (s : State) (f : Fld) (z : Int) : (s.putI f z).marks = s.marks := rfl
@[simp] theorem bump_pending (s : State) (f : Fld) (n : Nat) : (s.bump f n).pending = s.pending := rfl
@[simp] theorem bump_out (s : State) (f : Fld) (n : Nat) : (s.bump f n).out = s.out := rfl
@[simp] theorem bump_free (s : State) (f : Fld) (n : Nat) : (s.bump f n).free = s.free := rfl
@[simp] theorem bump_rom (s : State) (f : Fld) (n : Nat) : (s.bump f n).rom = s.rom := rfl
@[simp] theorem bump_sram (s : State) (f : Fld) (n : Nat) : (s.bump f n).sram = s.sram := rfl
@[simp] theorem bump_bkf (s : State) (f : Fld) (n : Nat) : (s.bump f n).bkf = s.bkf := rfl
@[simp] theorem bump_ddr (s : State) (f : Fld) (n : Nat) : (s.bump f n).ddr = s.ddr := rfl
@[simp] theorem bump_flash (s : State) (f : Fld) (n : Nat) : (s.bump f n).flash = s.flash := rfl
@[simp] theorem bump_clk (s : State) (f : Fld) (n : Nat) : (s.bump f n).clk = s.clk := rfl
@[simp] theorem bump_pwr (s : State) (f : Fld) (n : Nat) : (s.bump f n).pwr = s.pwr := rfl
@[simp] theorem bump_tme (s : State) (f : Fld) (n : Nat) : (s.bump f n).tme = s.tme := rfl
@[simp] theorem bump_cores (s : State) (f : Fld) (n : Nat) : (s.bump f n).cores = s.cores := rfl
@[simp] theorem bump_lock23 (s : State) (f : Fld) (n : Nat) : (s.bump f n).lock23 = s.lock23 := rfl
@[simp] theorem bump_lock45 (s : State) (f : Fld) (n : Nat) : (s.bump f n).lock45 = s.lock45 := rfl
@[simp] theorem bump_field (s : State) (f : Fld) (n : Nat) : (s.bump f n).field = s.field := rfl
@[simp] theorem bump_ddrCtl (s : State) (f : Fld) (n : Nat) : (s.bump f n).ddrCtl = s.ddrCtl := rfl
@[simp] theorem bump_bxm (s : State) (f : Fld) (n : Nat) : (s.bump f n).bxm = s.bxm := rfl
@[simp] theorem bump_dbg (s : State) (f : Fld) (n : Nat) : (s.bump f n).dbg = s.dbg := rfl
@[simp] theorem bump_fig (s : State) (f : Fld) (n : Nat) : (s.bump f n).fig = s.fig := rfl
@[simp] theorem bump_mbx (s : State) (f : Fld) (n : Nat) : (s.bump f n).mbx = s.mbx := rfl
@[simp] theorem bump_pcie (s : State) (f : Fld) (n : Nat) : (s.bump f n).pcie = s.pcie := rfl
@[simp] theorem bump_snap (s : State) (f : Fld) (n : Nat) : (s.bump f n).snap = s.snap := rfl
@[simp] theorem bump_fw (s : State) (f : Fld) (n : Nat) : (s.bump f n).fw = s.fw := rfl
@[simp] theorem bump_odo (s : State) (f : Fld) (n : Nat) : (s.bump f n).odo = s.odo := rfl
@[simp] theorem bump_pwm (s : State) (f : Fld) (n : Nat) : (s.bump f n).pwm = s.pwm := rfl
@[simp] theorem bump_plb (s : State) (f : Fld) (n : Nat) : (s.bump f n).plb = s.plb := rfl
@[simp] theorem bump_vid (s : State) (f : Fld) (n : Nat) : (s.bump f n).vid = s.vid := rfl
@[simp] theorem bump_aud (s : State) (f : Fld) (n : Nat) : (s.bump f n).aud = s.aud := rfl
@[simp] theorem bump_net (s : State) (f : Fld) (n : Nat) : (s.bump f n).net = s.net := rfl
@[simp] theorem bump_jnc (s : State) (f : Fld) (n : Nat) : (s.bump f n).jnc = s.jnc := rfl
@[simp] theorem bump_otp (s : State) (f : Fld) (n : Nat) : (s.bump f n).otp = s.otp := rfl
@[simp] theorem bump_keys (s : State) (f : Fld) (n : Nat) : (s.bump f n).keys = s.keys := rfl
@[simp] theorem bump_seals (s : State) (f : Fld) (n : Nat) : (s.bump f n).seals = s.seals := rfl
@[simp] theorem bump_signerBusy (s : State) (f : Fld) (n : Nat) : (s.bump f n).signerBusy = s.signerBusy := rfl
@[simp] theorem bump_marks (s : State) (f : Fld) (n : Nat) : (s.bump f n).marks = s.marks := rfl
@[simp] theorem bumpWrap_pending (s : State) (f : Fld) (n : Nat) : (s.bumpWrap f n).pending = s.pending := rfl
@[simp] theorem bumpWrap_out (s : State) (f : Fld) (n : Nat) : (s.bumpWrap f n).out = s.out := rfl
@[simp] theorem bumpWrap_free (s : State) (f : Fld) (n : Nat) : (s.bumpWrap f n).free = s.free := rfl
@[simp] theorem bumpWrap_rom (s : State) (f : Fld) (n : Nat) : (s.bumpWrap f n).rom = s.rom := rfl
@[simp] theorem bumpWrap_sram (s : State) (f : Fld) (n : Nat) : (s.bumpWrap f n).sram = s.sram := rfl
@[simp] theorem bumpWrap_bkf (s : State) (f : Fld) (n : Nat) : (s.bumpWrap f n).bkf = s.bkf := rfl
@[simp] theorem bumpWrap_ddr (s : State) (f : Fld) (n : Nat) : (s.bumpWrap f n).ddr = s.ddr := rfl
@[simp] theorem bumpWrap_flash (s : State) (f : Fld) (n : Nat) : (s.bumpWrap f n).flash = s.flash := rfl
@[simp] theorem bumpWrap_clk (s : State) (f : Fld) (n : Nat) : (s.bumpWrap f n).clk = s.clk := rfl
@[simp] theorem bumpWrap_pwr (s : State) (f : Fld) (n : Nat) : (s.bumpWrap f n).pwr = s.pwr := rfl
@[simp] theorem bumpWrap_tme (s : State) (f : Fld) (n : Nat) : (s.bumpWrap f n).tme = s.tme := rfl
@[simp] theorem bumpWrap_cores (s : State) (f : Fld) (n : Nat) : (s.bumpWrap f n).cores = s.cores := rfl
@[simp] theorem bumpWrap_lock23 (s : State) (f : Fld) (n : Nat) : (s.bumpWrap f n).lock23 = s.lock23 := rfl
@[simp] theorem bumpWrap_lock45 (s : State) (f : Fld) (n : Nat) : (s.bumpWrap f n).lock45 = s.lock45 := rfl
@[simp] theorem bumpWrap_field (s : State) (f : Fld) (n : Nat) : (s.bumpWrap f n).field = s.field := rfl
@[simp] theorem bumpWrap_ddrCtl (s : State) (f : Fld) (n : Nat) : (s.bumpWrap f n).ddrCtl = s.ddrCtl := rfl
@[simp] theorem bumpWrap_bxm (s : State) (f : Fld) (n : Nat) : (s.bumpWrap f n).bxm = s.bxm := rfl
@[simp] theorem bumpWrap_dbg (s : State) (f : Fld) (n : Nat) : (s.bumpWrap f n).dbg = s.dbg := rfl
@[simp] theorem bumpWrap_fig (s : State) (f : Fld) (n : Nat) : (s.bumpWrap f n).fig = s.fig := rfl
@[simp] theorem bumpWrap_mbx (s : State) (f : Fld) (n : Nat) : (s.bumpWrap f n).mbx = s.mbx := rfl
@[simp] theorem bumpWrap_pcie (s : State) (f : Fld) (n : Nat) : (s.bumpWrap f n).pcie = s.pcie := rfl
@[simp] theorem bumpWrap_snap (s : State) (f : Fld) (n : Nat) : (s.bumpWrap f n).snap = s.snap := rfl
@[simp] theorem bumpWrap_fw (s : State) (f : Fld) (n : Nat) : (s.bumpWrap f n).fw = s.fw := rfl
@[simp] theorem bumpWrap_odo (s : State) (f : Fld) (n : Nat) : (s.bumpWrap f n).odo = s.odo := rfl
@[simp] theorem bumpWrap_pwm (s : State) (f : Fld) (n : Nat) : (s.bumpWrap f n).pwm = s.pwm := rfl
@[simp] theorem bumpWrap_plb (s : State) (f : Fld) (n : Nat) : (s.bumpWrap f n).plb = s.plb := rfl
@[simp] theorem bumpWrap_vid (s : State) (f : Fld) (n : Nat) : (s.bumpWrap f n).vid = s.vid := rfl
@[simp] theorem bumpWrap_aud (s : State) (f : Fld) (n : Nat) : (s.bumpWrap f n).aud = s.aud := rfl
@[simp] theorem bumpWrap_net (s : State) (f : Fld) (n : Nat) : (s.bumpWrap f n).net = s.net := rfl
@[simp] theorem bumpWrap_jnc (s : State) (f : Fld) (n : Nat) : (s.bumpWrap f n).jnc = s.jnc := rfl
@[simp] theorem bumpWrap_otp (s : State) (f : Fld) (n : Nat) : (s.bumpWrap f n).otp = s.otp := rfl
@[simp] theorem bumpWrap_keys (s : State) (f : Fld) (n : Nat) : (s.bumpWrap f n).keys = s.keys := rfl
@[simp] theorem bumpWrap_seals (s : State) (f : Fld) (n : Nat) : (s.bumpWrap f n).seals = s.seals := rfl
@[simp] theorem bumpWrap_signerBusy (s : State) (f : Fld) (n : Nat) : (s.bumpWrap f n).signerBusy = s.signerBusy := rfl
@[simp] theorem bumpWrap_marks (s : State) (f : Fld) (n : Nat) : (s.bumpWrap f n).marks = s.marks := rfl
@[simp] theorem mark_pending (s : State) (a : Nat) (w : Word) : (s.mark a w).pending = s.pending := rfl
@[simp] theorem mark_out (s : State) (a : Nat) (w : Word) : (s.mark a w).out = s.out := rfl
@[simp] theorem mark_free (s : State) (a : Nat) (w : Word) : (s.mark a w).free = s.free := rfl
@[simp] theorem mark_regs (s : State) (a : Nat) (w : Word) : (s.mark a w).regs = s.regs := rfl
@[simp] theorem mark_rom (s : State) (a : Nat) (w : Word) : (s.mark a w).rom = s.rom := rfl
@[simp] theorem mark_sram (s : State) (a : Nat) (w : Word) : (s.mark a w).sram = s.sram := rfl
@[simp] theorem mark_bkf (s : State) (a : Nat) (w : Word) : (s.mark a w).bkf = s.bkf := rfl
@[simp] theorem mark_ddr (s : State) (a : Nat) (w : Word) : (s.mark a w).ddr = s.ddr := rfl
@[simp] theorem mark_flash (s : State) (a : Nat) (w : Word) : (s.mark a w).flash = s.flash := rfl
@[simp] theorem mark_clk (s : State) (a : Nat) (w : Word) : (s.mark a w).clk = s.clk := rfl
@[simp] theorem mark_pwr (s : State) (a : Nat) (w : Word) : (s.mark a w).pwr = s.pwr := rfl
@[simp] theorem mark_tme (s : State) (a : Nat) (w : Word) : (s.mark a w).tme = s.tme := rfl
@[simp] theorem mark_cores (s : State) (a : Nat) (w : Word) : (s.mark a w).cores = s.cores := rfl
@[simp] theorem mark_lock23 (s : State) (a : Nat) (w : Word) : (s.mark a w).lock23 = s.lock23 := rfl
@[simp] theorem mark_lock45 (s : State) (a : Nat) (w : Word) : (s.mark a w).lock45 = s.lock45 := rfl
@[simp] theorem mark_field (s : State) (a : Nat) (w : Word) : (s.mark a w).field = s.field := rfl
@[simp] theorem mark_ddrCtl (s : State) (a : Nat) (w : Word) : (s.mark a w).ddrCtl = s.ddrCtl := rfl
@[simp] theorem mark_bxm (s : State) (a : Nat) (w : Word) : (s.mark a w).bxm = s.bxm := rfl
@[simp] theorem mark_dbg (s : State) (a : Nat) (w : Word) : (s.mark a w).dbg = s.dbg := rfl
@[simp] theorem mark_fig (s : State) (a : Nat) (w : Word) : (s.mark a w).fig = s.fig := rfl
@[simp] theorem mark_mbx (s : State) (a : Nat) (w : Word) : (s.mark a w).mbx = s.mbx := rfl
@[simp] theorem mark_pcie (s : State) (a : Nat) (w : Word) : (s.mark a w).pcie = s.pcie := rfl
@[simp] theorem mark_snap (s : State) (a : Nat) (w : Word) : (s.mark a w).snap = s.snap := rfl
@[simp] theorem mark_fw (s : State) (a : Nat) (w : Word) : (s.mark a w).fw = s.fw := rfl
@[simp] theorem mark_odo (s : State) (a : Nat) (w : Word) : (s.mark a w).odo = s.odo := rfl
@[simp] theorem mark_pwm (s : State) (a : Nat) (w : Word) : (s.mark a w).pwm = s.pwm := rfl
@[simp] theorem mark_plb (s : State) (a : Nat) (w : Word) : (s.mark a w).plb = s.plb := rfl
@[simp] theorem mark_vid (s : State) (a : Nat) (w : Word) : (s.mark a w).vid = s.vid := rfl
@[simp] theorem mark_aud (s : State) (a : Nat) (w : Word) : (s.mark a w).aud = s.aud := rfl
@[simp] theorem mark_net (s : State) (a : Nat) (w : Word) : (s.mark a w).net = s.net := rfl
@[simp] theorem mark_jnc (s : State) (a : Nat) (w : Word) : (s.mark a w).jnc = s.jnc := rfl
@[simp] theorem mark_otp (s : State) (a : Nat) (w : Word) : (s.mark a w).otp = s.otp := rfl
@[simp] theorem mark_keys (s : State) (a : Nat) (w : Word) : (s.mark a w).keys = s.keys := rfl
@[simp] theorem mark_seals (s : State) (a : Nat) (w : Word) : (s.mark a w).seals = s.seals := rfl
@[simp] theorem mark_signerBusy (s : State) (a : Nat) (w : Word) : (s.mark a w).signerBusy = s.signerBusy := rfl
@[simp] theorem flag_pending (s : State) (f : Fld) (b : Nat) : (s.flag f b).pending = s.pending := rfl
@[simp] theorem flag_out (s : State) (f : Fld) (b : Nat) : (s.flag f b).out = s.out := rfl
@[simp] theorem flag_free (s : State) (f : Fld) (b : Nat) : (s.flag f b).free = s.free := rfl
@[simp] theorem flag_rom (s : State) (f : Fld) (b : Nat) : (s.flag f b).rom = s.rom := rfl
@[simp] theorem flag_sram (s : State) (f : Fld) (b : Nat) : (s.flag f b).sram = s.sram := rfl
@[simp] theorem flag_bkf (s : State) (f : Fld) (b : Nat) : (s.flag f b).bkf = s.bkf := rfl
@[simp] theorem flag_ddr (s : State) (f : Fld) (b : Nat) : (s.flag f b).ddr = s.ddr := rfl
@[simp] theorem flag_flash (s : State) (f : Fld) (b : Nat) : (s.flag f b).flash = s.flash := rfl
@[simp] theorem flag_clk (s : State) (f : Fld) (b : Nat) : (s.flag f b).clk = s.clk := rfl
@[simp] theorem flag_pwr (s : State) (f : Fld) (b : Nat) : (s.flag f b).pwr = s.pwr := rfl
@[simp] theorem flag_tme (s : State) (f : Fld) (b : Nat) : (s.flag f b).tme = s.tme := rfl
@[simp] theorem flag_cores (s : State) (f : Fld) (b : Nat) : (s.flag f b).cores = s.cores := rfl
@[simp] theorem flag_lock23 (s : State) (f : Fld) (b : Nat) : (s.flag f b).lock23 = s.lock23 := rfl
@[simp] theorem flag_lock45 (s : State) (f : Fld) (b : Nat) : (s.flag f b).lock45 = s.lock45 := rfl
@[simp] theorem flag_field (s : State) (f : Fld) (b : Nat) : (s.flag f b).field = s.field := rfl
@[simp] theorem flag_ddrCtl (s : State) (f : Fld) (b : Nat) : (s.flag f b).ddrCtl = s.ddrCtl := rfl
@[simp] theorem flag_bxm (s : State) (f : Fld) (b : Nat) : (s.flag f b).bxm = s.bxm := rfl
@[simp] theorem flag_dbg (s : State) (f : Fld) (b : Nat) : (s.flag f b).dbg = s.dbg := rfl
@[simp] theorem flag_fig (s : State) (f : Fld) (b : Nat) : (s.flag f b).fig = s.fig := rfl
@[simp] theorem flag_mbx (s : State) (f : Fld) (b : Nat) : (s.flag f b).mbx = s.mbx := rfl
@[simp] theorem flag_pcie (s : State) (f : Fld) (b : Nat) : (s.flag f b).pcie = s.pcie := rfl
@[simp] theorem flag_snap (s : State) (f : Fld) (b : Nat) : (s.flag f b).snap = s.snap := rfl
@[simp] theorem flag_fw (s : State) (f : Fld) (b : Nat) : (s.flag f b).fw = s.fw := rfl
@[simp] theorem flag_odo (s : State) (f : Fld) (b : Nat) : (s.flag f b).odo = s.odo := rfl
@[simp] theorem flag_pwm (s : State) (f : Fld) (b : Nat) : (s.flag f b).pwm = s.pwm := rfl
@[simp] theorem flag_plb (s : State) (f : Fld) (b : Nat) : (s.flag f b).plb = s.plb := rfl
@[simp] theorem flag_vid (s : State) (f : Fld) (b : Nat) : (s.flag f b).vid = s.vid := rfl
@[simp] theorem flag_aud (s : State) (f : Fld) (b : Nat) : (s.flag f b).aud = s.aud := rfl
@[simp] theorem flag_net (s : State) (f : Fld) (b : Nat) : (s.flag f b).net = s.net := rfl
@[simp] theorem flag_jnc (s : State) (f : Fld) (b : Nat) : (s.flag f b).jnc = s.jnc := rfl
@[simp] theorem flag_otp (s : State) (f : Fld) (b : Nat) : (s.flag f b).otp = s.otp := rfl
@[simp] theorem flag_keys (s : State) (f : Fld) (b : Nat) : (s.flag f b).keys = s.keys := rfl
@[simp] theorem flag_seals (s : State) (f : Fld) (b : Nat) : (s.flag f b).seals = s.seals := rfl
@[simp] theorem flag_signerBusy (s : State) (f : Fld) (b : Nat) : (s.flag f b).signerBusy = s.signerBusy := rfl
@[simp] theorem unflag_pending (s : State) (f : Fld) : (s.unflag f).pending = s.pending := rfl
@[simp] theorem unflag_out (s : State) (f : Fld) : (s.unflag f).out = s.out := rfl
@[simp] theorem unflag_free (s : State) (f : Fld) : (s.unflag f).free = s.free := rfl
@[simp] theorem unflag_rom (s : State) (f : Fld) : (s.unflag f).rom = s.rom := rfl
@[simp] theorem unflag_sram (s : State) (f : Fld) : (s.unflag f).sram = s.sram := rfl
@[simp] theorem unflag_bkf (s : State) (f : Fld) : (s.unflag f).bkf = s.bkf := rfl
@[simp] theorem unflag_ddr (s : State) (f : Fld) : (s.unflag f).ddr = s.ddr := rfl
@[simp] theorem unflag_flash (s : State) (f : Fld) : (s.unflag f).flash = s.flash := rfl
@[simp] theorem unflag_clk (s : State) (f : Fld) : (s.unflag f).clk = s.clk := rfl
@[simp] theorem unflag_pwr (s : State) (f : Fld) : (s.unflag f).pwr = s.pwr := rfl
@[simp] theorem unflag_tme (s : State) (f : Fld) : (s.unflag f).tme = s.tme := rfl
@[simp] theorem unflag_cores (s : State) (f : Fld) : (s.unflag f).cores = s.cores := rfl
@[simp] theorem unflag_lock23 (s : State) (f : Fld) : (s.unflag f).lock23 = s.lock23 := rfl
@[simp] theorem unflag_lock45 (s : State) (f : Fld) : (s.unflag f).lock45 = s.lock45 := rfl
@[simp] theorem unflag_field (s : State) (f : Fld) : (s.unflag f).field = s.field := rfl
@[simp] theorem unflag_ddrCtl (s : State) (f : Fld) : (s.unflag f).ddrCtl = s.ddrCtl := rfl
@[simp] theorem unflag_bxm (s : State) (f : Fld) : (s.unflag f).bxm = s.bxm := rfl
@[simp] theorem unflag_dbg (s : State) (f : Fld) : (s.unflag f).dbg = s.dbg := rfl
@[simp] theorem unflag_fig (s : State) (f : Fld) : (s.unflag f).fig = s.fig := rfl
@[simp] theorem unflag_mbx (s : State) (f : Fld) : (s.unflag f).mbx = s.mbx := rfl
@[simp] theorem unflag_pcie (s : State) (f : Fld) : (s.unflag f).pcie = s.pcie := rfl
@[simp] theorem unflag_snap (s : State) (f : Fld) : (s.unflag f).snap = s.snap := rfl
@[simp] theorem unflag_fw (s : State) (f : Fld) : (s.unflag f).fw = s.fw := rfl
@[simp] theorem unflag_odo (s : State) (f : Fld) : (s.unflag f).odo = s.odo := rfl
@[simp] theorem unflag_pwm (s : State) (f : Fld) : (s.unflag f).pwm = s.pwm := rfl
@[simp] theorem unflag_plb (s : State) (f : Fld) : (s.unflag f).plb = s.plb := rfl
@[simp] theorem unflag_vid (s : State) (f : Fld) : (s.unflag f).vid = s.vid := rfl
@[simp] theorem unflag_aud (s : State) (f : Fld) : (s.unflag f).aud = s.aud := rfl
@[simp] theorem unflag_net (s : State) (f : Fld) : (s.unflag f).net = s.net := rfl
@[simp] theorem unflag_jnc (s : State) (f : Fld) : (s.unflag f).jnc = s.jnc := rfl
@[simp] theorem unflag_otp (s : State) (f : Fld) : (s.unflag f).otp = s.otp := rfl
@[simp] theorem unflag_keys (s : State) (f : Fld) : (s.unflag f).keys = s.keys := rfl
@[simp] theorem unflag_seals (s : State) (f : Fld) : (s.unflag f).seals = s.seals := rfl
@[simp] theorem unflag_signerBusy (s : State) (f : Fld) : (s.unflag f).signerBusy = s.signerBusy := rfl
@[simp] theorem unflag_marks (s : State) (f : Fld) : (s.unflag f).marks = s.marks := rfl
@[simp] theorem clean_out (s : State) : s.clean.out = [] := rfl
@[simp] theorem emit_out (s : State) (o : Out) : (s.emit o).out = s.out ++ [o] := rfl

/-- A ball driven changes the outputs only, and those only where boundary scan does not hold the balls. -/
theorem drive_only (s : State) (o : Out) : s.drive o = { s with out := if s.scanHeld then s.out else s.out ++ [o] } := by
  unfold State.drive
  split <;> rfl

/-! ### Reading registers past other updates -/

theorem reg_of_regs {s t : State} (h : s.regs = t.regs) (a : Nat) : s.reg a = t.reg a := by simp [State.reg, h]

theorem get_of_regs {s t : State} (h : s.regs = t.regs) (f : Fld) : s.get f = t.get f := by simp [State.get, State.reg, h]

@[simp] theorem clean_reg (s : State)  (x : Nat) : (s.clean).reg x = s.reg x := rfl
@[simp] theorem clean_get (s : State)  (x : Fld) : (s.clean).get x = s.get x := rfl
@[simp] theorem emit_reg (s : State) (o : Out) (x : Nat) : (s.emit o).reg x = s.reg x := rfl
@[simp] theorem emit_get (s : State) (o : Out) (x : Fld) : (s.emit o).get x = s.get x := rfl
@[simp] theorem mark_reg (s : State) (a : Nat) (w : Word) (x : Nat) : (s.mark a w).reg x = s.reg x := rfl
@[simp] theorem mark_get (s : State) (a : Nat) (w : Word) (x : Fld) : (s.mark a w).get x = s.get x := rfl
@[simp] theorem modBay_reg (s : State) (b : Nat) (g : Bay → Bay) (x : Nat) : (s.modBay b g).reg x = s.reg x := rfl
@[simp] theorem modBay_get (s : State) (b : Nat) (g : Bay → Bay) (x : Fld) : (s.modBay b g).get x = s.get x := rfl
@[simp] theorem modRing_reg (s : State) (r : Nat) (g : RingSet → RingSet) (x : Nat) : (s.modRing r g).reg x = s.reg x := rfl
@[simp] theorem modRing_get (s : State) (r : Nat) (g : RingSet → RingSet) (x : Fld) : (s.modRing r g).get x = s.get x := rfl
@[simp] theorem modFn_reg (s : State) (n : Nat) (g : PcieFn → PcieFn) (x : Nat) : (s.modFn n g).reg x = s.reg x := rfl
@[simp] theorem modFn_get (s : State) (n : Nat) (g : PcieFn → PcieFn) (x : Fld) : (s.modFn n g).get x = s.get x := rfl
@[simp] theorem modEnd_reg (s : State) (r : Nat) (g : Endpoint → Endpoint) (x : Nat) : (s.modEnd r g).reg x = s.reg x := rfl
@[simp] theorem modEnd_get (s : State) (r : Nat) (g : Endpoint → Endpoint) (x : Fld) : (s.modEnd r g).get x = s.get x := rfl

/-! ### The seal -/

theorem wf_trimMem (n : Nat) (m : List (Nat × Byte)) : Memory.wf n (trimMem n m) := by
  refine ⟨swf_snorm _ _, fun p hp => ?_⟩
  obtain ⟨q, _, e⟩ := mem_snorm hp
  have h2 := (swf_snorm (d := zeroByte) (fun a v => if a < n then v else 0) m).2 p hp
  by_contra hn
  apply h2
  have : p.1 = q.1 := by rw [e]
  rw [e] at hn ⊢
  simp at hn
  simp [zeroByte, Nat.not_lt.2 hn]

theorem trimMem_eq_self {n : Nat} {m : List (Nat × Byte)} (h : Memory.wf n m) : trimMem n m = m :=
  snorm_eq_self h.1 fun p hp => by simp [h.2 p hp]

/-- A byte of a trimmed memory. -/
theorem sget_trimMem (n : Nat) (m : List (Nat × Byte)) (k : Nat) :
    sget zeroByte (trimMem n m) k = if k < n then sget zeroByte m k else 0 := by
  rw [trimMem, sget_snorm]
  intro k; simp [zeroByte]

theorem readBytes_trimMem (n : Nat) (m : List (Nat × Byte)) (a k : Nat) (h : a + k ≤ n) :
    readBytes zeroByte (trimMem n m) a k = readBytes zeroByte m a k := by
  apply List.map_congr_left
  intro i hi
  have := List.mem_range.1 hi
  rw [sget_trimMem, if_pos (by omega)]

/-- Whatever the state, `seal` establishes the invariant. -/
theorem sealed_seal (s : State) : s.seal.Sealed := by
  refine ⟨swf_snorm (d := regReset) (fun a v => v &&& regMask a) s.regs, fun p hp => ?_, wf_trimMem _ s.rom, wf_trimMem _ s.sram, wf_trimMem _ s.bkf, wf_trimMem _ s.ddr,
    swf_snorm (d := erasedByte) (fun _ v => v) s.flash, wf_trimMem _ s.dbg.ram, fun q hq => ?_⟩
  · obtain ⟨q, _, e⟩ := mem_snorm (d := regReset) (f := fun a v => v &&& regMask a) (l := s.regs) hp
    rw [e]
    apply BitVec.eq_of_getLsbD_eq
    intro i _
    simp
    intro _ h
    simp [h]
  · simp only [State.seal, Vector.toList_map, List.mem_map] at hq
    obtain ⟨x, _, rfl⟩ := hq
    exact wf_trimMem _ _

/-- A sealed state is what `seal` makes of it. -/
theorem seal_eq_self {s : State} (h : s.Sealed) : s.seal = s := by
  obtain ⟨h1, h2, h3, h4, h5, h6, h7, h8, h9⟩ := h
  have e1 : snorm regReset (fun a v => v &&& regMask a) s.regs = s.regs := by
    refine snorm_eq_self h1 fun p hp => ?_
    have := h2 p hp
    apply BitVec.eq_of_getLsbD_eq
    intro i hi
    have hb := congrArg (fun w : Word => w.getLsbD i) this
    simp [hi] at hb
    simp only [BitVec.getLsbD_and]
    cases hv : p.2.getLsbD i <;> simp_all
  have e9 : (s.mbx.rings.map fun q => { q with mem := trimMem ringSize q.mem }) = s.mbx.rings := by
    apply Vector.ext
    intro i hi
    simp only [Vector.getElem_map]
    have := trimMem_eq_self (h9 s.mbx.rings[i] (by simp))
    rw [this]
  simp only [State.seal, e1, trimMem_eq_self h3, trimMem_eq_self h4, trimMem_eq_self h5, trimMem_eq_self h6, trimMem_eq_self h8, e9]
  rw [snorm_eq_self h7 fun _ _ => rfl]

theorem sealed_pending (s : State) (l : List Instr) : ({ s with pending := l } : State).Sealed ↔ s.Sealed := Iff.rfl

/-- What a command leaves is sealed. -/
theorem sealed_after (s : State) (f : State → State) : (s.after f).Sealed := (sealed_pending _ _).2 (sealed_seal _)

/-- A command whose effect keeps the invariant leaves exactly its effect. -/
theorem after_eq {s : State} {f : State → State} (h : (f s.clean).Sealed) :
    s.after f = { f s.clean with pending := s.pending } := by
  simp only [State.after, seal_eq_self h]

/-- Sealing a state whose registers alone have changed. -/
theorem seal_regs {u : State} (h : u.Sealed) (r : List (Nat × Word)) :
    ({ u with regs := r } : State).seal = { u with regs := snorm regReset (fun a v => v &&& regMask a) r } := by
  have e := seal_eq_self h
  have hs : ({ u with regs := r } : State).seal = { u.seal with regs := snorm regReset (fun a v => v &&& regMask a) r } := rfl
  rw [hs, e]

/-- A register after sealing. -/
theorem sget_sealRegs (r : List (Nat × Word)) (a : Nat) :
    sget regReset (snorm regReset (fun a v => v &&& regMask a) r) a = sget regReset r a &&& regMask a :=
  sget_snorm regReset_and_regMask _ _

/-! ### What a command leaves in each field -/

@[simp] theorem after_pending (s : State) (f : State → State) : (s.after f).pending = s.pending := rfl
@[simp] theorem after_out (s : State) (g : State → State) : (s.after g).out = (g s.clean).out := rfl
@[simp] theorem after_free (s : State) (g : State → State) : (s.after g).free = (g s.clean).free := rfl
@[simp] theorem after_clk (s : State) (g : State → State) : (s.after g).clk = (g s.clean).clk := rfl
@[simp] theorem after_pwr (s : State) (g : State → State) : (s.after g).pwr = (g s.clean).pwr := rfl
@[simp] theorem after_tme (s : State) (g : State → State) : (s.after g).tme = (g s.clean).tme := rfl
@[simp] theorem after_cores (s : State) (g : State → State) : (s.after g).cores = (g s.clean).cores := rfl
@[simp] theorem after_lock23 (s : State) (g : State → State) : (s.after g).lock23 = (g s.clean).lock23 := rfl
@[simp] theorem after_lock45 (s : State) (g : State → State) : (s.after g).lock45 = (g s.clean).lock45 := rfl
@[simp] theorem after_field (s : State) (g : State → State) : (s.after g).field = (g s.clean).field := rfl
@[simp] theorem after_ddrCtl (s : State) (g : State → State) : (s.after g).ddrCtl = (g s.clean).ddrCtl := rfl
@[simp] theorem after_bxm (s : State) (g : State → State) : (s.after g).bxm = (g s.clean).bxm := rfl
@[simp] theorem after_fig (s : State) (g : State → State) : (s.after g).fig = (g s.clean).fig := rfl
@[simp] theorem after_pcie (s : State) (g : State → State) : (s.after g).pcie = (g s.clean).pcie := rfl
@[simp] theorem after_snap (s : State) (g : State → State) : (s.after g).snap = (g s.clean).snap := rfl
@[simp] theorem after_fw (s : State) (g : State → State) : (s.after g).fw = (g s.clean).fw := rfl
@[simp] theorem after_odo (s : State) (g : State → State) : (s.after g).odo = (g s.clean).odo := rfl
@[simp] theorem after_pwm (s : State) (g : State → State) : (s.after g).pwm = (g s.clean).pwm := rfl
@[simp] theorem after_plb (s : State) (g : State → State) : (s.after g).plb = (g s.clean).plb := rfl
@[simp] theorem after_vid (s : State) (g : State → State) : (s.after g).vid = (g s.clean).vid := rfl
@[simp] theorem after_aud (s : State) (g : State → State) : (s.after g).aud = (g s.clean).aud := rfl
@[simp] theorem after_net (s : State) (g : State → State) : (s.after g).net = (g s.clean).net := rfl
@[simp] theorem after_jnc (s : State) (g : State → State) : (s.after g).jnc = (g s.clean).jnc := rfl
@[simp] theorem after_otp (s : State) (g : State → State) : (s.after g).otp = (g s.clean).otp := rfl
@[simp] theorem after_keys (s : State) (g : State → State) : (s.after g).keys = (g s.clean).keys := rfl
@[simp] theorem after_seals (s : State) (g : State → State) : (s.after g).seals = (g s.clean).seals := rfl
@[simp] theorem after_signerBusy (s : State) (g : State → State) : (s.after g).signerBusy = (g s.clean).signerBusy := rfl
@[simp] theorem after_marks (s : State) (g : State → State) : (s.after g).marks = (g s.clean).marks := rfl

theorem after_reg (s : State) (g : State → State) (a : Nat) : (s.after g).reg a = (g s.clean).reg a &&& regMask a := by
  simp only [State.after, State.seal, State.reg]
  exact sget_snorm regReset_and_regMask _ _

/-- The field is laid out by its register's table. -/
abbrev Fld.Within (f : Fld) : Prop :=
  f.Ok ∧ BitVec.ofNat 32 (2 ^ (f.hi + 1) - 2 ^ f.lo) &&& regMask f.addr = BitVec.ofNat 32 (2 ^ (f.hi + 1) - 2 ^ f.lo)

theorem fieldMask_getLsbD (hi lo i : Nat) (h : lo ≤ hi ∧ hi ≤ 31) (hi32 : i < 32) :
    (BitVec.ofNat 32 (2 ^ (hi + 1) - 2 ^ lo)).getLsbD i = decide (lo ≤ i ∧ i ≤ hi) := by
  have e : 2 ^ (hi + 1) - 2 ^ lo = (2 ^ (hi + 1 - lo) - 1) * 2 ^ lo := by
    rw [Nat.sub_mul, ← Nat.pow_add, Nat.one_mul, Nat.sub_add_cancel (by omega)]
  rw [BitVec.getLsbD_ofNat, e, testBit_mulPow, Nat.testBit_two_pow_sub_one]
  by_cases h1 : lo ≤ i <;> by_cases h2 : i ≤ hi <;> simp [h1, h2, hi32] <;> omega

/-- A command leaves in a field what its effect puts there. -/
theorem after_get (s : State) (g : State → State) (f : Fld) (h : f.Within) : (s.after g).get f = (g s.clean).get f := by
  apply Nat.eq_of_testBit_eq
  intro i
  simp only [State.get, field_testBit, after_reg, BitVec.getLsbD_and]
  by_cases hi2 : i < f.hi + 1 - f.lo
  · have hm := congrArg (fun w : Word => w.getLsbD (f.lo + i)) h.2
    have h1 := h.1
    simp only [BitVec.getLsbD_and] at hm
    rw [fieldMask_getLsbD _ _ _ h1 (by omega)] at hm
    have : decide (f.lo ≤ f.lo + i ∧ f.lo + i ≤ f.hi) = true := by simp; omega
    rw [this] at hm
    simp at hm
    simp [hm]
  · simp [hi2]

theorem after_bit (s : State) (g : State → State) (f : Fld) (h : f.Within) : (s.after g).bit f = (g s.clean).bit f := by
  simp only [State.bit, after_get s g f h]

/-- A whole register of which the table lays out every bit. -/
theorem after_reg_full (s : State) (g : State → State) (a : Nat) (h : regMask a = BitVec.allOnes 32) :
    (s.after g).reg a = (g s.clean).reg a := by
  rw [after_reg, h]; exact BitVec.and_allOnes

/-- A sealed state's registers hold no reserved bit. -/
theorem reg_and_mask {s : State} (h : s.Sealed) (a : Nat) : s.reg a &&& regMask a = s.reg a := by
  have e := seal_eq_self h
  have : s.seal.reg a = s.reg a &&& regMask a := by
    simp only [State.seal, State.reg]
    exact sget_snorm regReset_and_regMask _ _
  rw [← this, e]

/-- A command leaves alone every register that its effect leaves alone. -/
theorem after_reg_same {s : State} (hs : s.Sealed) (g : State → State) (a : Nat) (h : (g s.clean).reg a = s.reg a) :
    (s.after g).reg a = s.reg a := by
  rw [after_reg, h, reg_and_mask hs]

/-! ### The frame of every meaning -/

theorem run_next (s : State) (f : State → State) : run s f = .next (s.after f) := rfl

theorem runIf_true {ok : Bool} (h : ok = true) (s : State) (f : State → State) : runIf ok s f = .next (s.after f) := by simp [runIf, h, run]

theorem runIf_next {ok : Bool} {s t : State} {f : State → State} (h : runIf ok s f = .next t) : ok = true ∧ t = s.after f := by
  unfold runIf run at h
  split at h
  · rename_i hk; cases h; exact ⟨hk, rfl⟩
  · cases h

/-- A command of a clocked unit acts where the derived clocks run, and else leaves the state but for the outputs (R20, R23). -/
theorem runClk_of_runs {s : State} (h : s.stands = false) (f : State → State) : runClk s f = .next (s.after f) := by
  have : s.clean.stands = false := h
  simp only [runClk, run, State.after, this]
  rfl

theorem runClk_of_stands {s : State} (h : s.stands = true) (f : State → State) : runClk s f = .next (s.after id) := by
  have : s.clean.stands = true := h
  simp only [runClk, run, State.after, this]
  rfl

theorem runIfClk_of_runs {ok : Bool} {s : State} (hok : ok = true) (h : s.stands = false) (f : State → State) :
    runIfClk ok s f = .next (s.after f) := by
  simp only [runIfClk, runIf, hok, if_true]
  exact runClk_of_runs h f

/-- Reset is sealed. -/
theorem sealed_reset : State.reset.Sealed := by
  refine ⟨swf_nil, by simp [State.reset], ?_, ?_, ?_, ?_, swf_nil, ?_, ?_⟩
  all_goals first
    | exact ⟨swf_nil, by simp [State.reset]⟩
    | (intro q hq; simp [State.reset] at hq; subst hq; exact ⟨swf_nil, by simp⟩)


end Sys2Proof.Machine
end

