-- ==== Sys2Proof/Laws/Cores.lean ====
section
/-! SUPPORT. Laws of the steward cores (06): pairs, the fetch, memory reads that change no byte, and the boundary rule of R180 for an
instruction that retires. -/

namespace Sys2Proof.Machine

/-! ### Pairs -/

theorem lead_of_leads {s : State} {c : Nat} (h : s.follows c = false) : s.lead c = c := by simp [State.lead, h]

/-- The core that leads a unit follows none. -/
theorem follows_lead (s : State) (c : Nat) : s.follows (s.lead c) = false := by
  unfold State.lead
  split
  · rename_i h
    simp only [State.follows] at h ⊢
    simp at h
    rcases h with (rfl | ⟨rfl, _⟩) | ⟨rfl, _⟩ <;> simp
  · rename_i h; simpa using h

@[simp] theorem lead_lead (s : State) (c : Nat) : s.lead (s.lead c) = s.lead c := lead_of_leads (follows_lead s c)

/-- An instruction of a follower is its unit's. -/
theorem isa_lead (s : State) (c : Nat) (op : Except Word CoreOp) : s.isa (s.lead c) op = s.isa c op := by
  simp only [State.isa, lead_lead]

theorem core_modCore_self (s : State) {c : Nat} (f : Core → Core) (h : c < 6) : (s.modCore c f).core c = f (s.core c) :=
  vget_vmod_self _ _ h

theorem core_modCore_ne (s : State) {c d : Nat} (f : Core → Core) (h : d ≠ c) : (s.modCore c f).core d = s.core d :=
  vget_vmod_ne _ _ h

theorem modCore_modCore (s : State) (c : Nat) (f g : Core → Core) : (s.modCore c f).modCore c g = s.modCore c (g ∘ f) := by
  unfold State.modCore vmod
  split <;> simp

/-- g0 reads 0 (R166). -/
@[simp] theorem coreReg_zero (k : Core) : k.reg 0 = 0 := by simp [Core.reg]

/-- A written register reads as written, but for g0 (R166). -/
theorem coreReg_setReg (k : Core) (r x : BitVec 5) (v : Word) : (k.setReg r v).reg x = if x = r ∧ x ≠ 0 then v else k.reg x := by
  unfold Core.setReg
  by_cases hr : r = 0
  · subst hr
    by_cases hx : x = 0 <;> simp [hx]
  · simp only [hr, if_false, Core.reg]
    by_cases hx : x = 0
    · simp [hx]
    · simp only [hx, if_false, ne_eq, not_false_eq_true, and_true]
      by_cases h : x = r
      · subst h; simp [vget_vmod_self _ _ x.isLt]
      · rw [if_neg h, vget_vmod_ne]
        intro e; exact h (BitVec.eq_of_toNat_eq e)

/-- Only the registers change. -/
theorem setReg_only (k : Core) (r : BitVec 5) (v : Word) : k.setReg r v = { k with g := (k.setReg r v).g } := by
  unfold Core.setReg; split <;> rfl

/-! ### Reads change marks of the memories only -/

/-- What reading a memory may change: error counters and addresses (registers of blocks BKF and DDR) with their marks, and the write-back
queue. -/
def State.OnlyMarks (s t : State) : Prop :=
  ∃ r w m, t = { s with regs := r, field := { s.field with wb := w }, marks := m } ∧
    ∀ a, a / 65536 ≠ 0x4018 → a / 65536 ≠ 0x4019 → sget regReset r a = s.reg a

theorem onlyMarks_refl (s : State) : s.OnlyMarks s := ⟨s.regs, s.field.wb, s.marks, rfl, fun _ _ _ => rfl⟩

theorem onlyMarks_trans {s t u : State} (h : s.OnlyMarks t) (k : t.OnlyMarks u) : s.OnlyMarks u := by
  obtain ⟨r, w, m, rfl, h⟩ := h
  obtain ⟨r', w', m', rfl, k⟩ := k
  exact ⟨r', w', m', rfl, fun a h1 h2 => (k a h1 h2).trans (h a h1 h2)⟩

theorem onlyMarks_put (s : State) (f : Fld) (v : Nat) (h : f.addr / 65536 = 0x4018 ∨ f.addr / 65536 = 0x4019) : s.OnlyMarks (s.put f v) :=
  ⟨(s.put f v).regs, s.field.wb, s.marks, rfl, fun a h1 h2 => reg_put_ne s f v a (by rintro rfl; rcases h with h | h <;> contradiction)⟩

theorem onlyMarks_mark (s : State) (a : Nat) (w : Word) : s.OnlyMarks (s.mark a w) :=
  ⟨s.regs, s.field.wb, (s.mark a w).marks, rfl, fun _ _ _ => rfl⟩

theorem onlyMarks_queueWb (s : State) (g : Nat) : s.OnlyMarks (s.queueWb g) := by
  unfold State.queueWb
  split
  · exact onlyMarks_refl s
  · split
    · exact ⟨s.regs, s.field.wb ++ [g], s.marks, rfl, fun _ _ _ => rfl⟩
    · exact onlyMarks_put _ _ _ (.inl rfl)

theorem onlyMarks_noteUe (s : State) (g : Nat) (d : Bool) : s.OnlyMarks (s.noteUe g d) := by
  unfold State.noteUe
  have h1 : s.OnlyMarks (s.bump Fd.BKF_ECC_UE) := onlyMarks_put _ _ _ (.inl rfl)
  have h2 := fun x : State => onlyMarks_put x Fd.BKF_ERR_ADDR_VALID (x.get Fd.BKF_ERR_ADDR_VALID ||| 1) (.inl rfl)
  have h3 := fun x : State => onlyMarks_put x Fd.BKF_ERR_ADDR_DYNAMIC (if d then 1 else 0) (.inl rfl)
  have h4 := fun x : State => onlyMarks_put x Fd.BKF_ERR_ADDR_ADDR (g * 16) (.inl rfl)
  simp only
  split
  · exact h1
  · exact onlyMarks_trans h1 (onlyMarks_trans (h2 _) (onlyMarks_trans (onlyMarks_mark _ _ _) (onlyMarks_trans (h3 _) (h4 _))))

theorem onlyMarks_checkGranule (s : State) (g : Nat) (d : Bool) : s.OnlyMarks (s.checkGranule g d).2 := by
  unfold State.checkGranule
  split
  · exact onlyMarks_refl s
  · exact onlyMarks_trans (onlyMarks_put _ _ _ (.inl rfl)) (onlyMarks_queueWb _ _)
  · exact onlyMarks_noteUe _ _ _
  · exact onlyMarks_noteUe _ _ _

theorem onlyMarks_checkWord (s : State) (w : Nat) : s.OnlyMarks (s.checkWord w).2 := by
  unfold State.checkWord
  split
  · exact onlyMarks_refl s
  all_goals exact onlyMarks_put _ _ _ (.inr rfl)

theorem onlyMarks_bkfRead (fuel : Nat) (s : State) (a n : Nat) : s.OnlyMarks (s.bkfRead fuel a n).2 := by
  induction fuel generalizing s a n with
  | zero => cases n <;> exact onlyMarks_refl s
  | succ f ih =>
    cases n with
    | zero => exact onlyMarks_refl s
    | succ n =>
      simp only [State.bkfRead]
      split
      · exact onlyMarks_refl s
      · split
        · exact onlyMarks_trans (onlyMarks_checkGranule _ _ _) (ih _ _ _)
        · exact onlyMarks_checkGranule _ _ _

theorem onlyMarks_ddrRead (fuel : Nat) (s : State) (a n : Nat) : s.OnlyMarks (s.ddrRead fuel a n).2 := by
  induction fuel generalizing s a n with
  | zero => cases n <;> exact onlyMarks_refl s
  | succ f ih =>
    cases n with
    | zero => exact onlyMarks_refl s
    | succ n =>
      simp only [State.ddrRead]
      split
      · exact onlyMarks_refl s
      · split
        · exact onlyMarks_trans (onlyMarks_checkWord _ _) (ih _ _ _)
        · exact onlyMarks_checkWord _ _

/-- Reading a memory changes no byte of any, no core and no register outside the memories' own blocks. -/
theorem onlyMarks_readPlace (s : State) (p : Place) (n : Nat) : s.OnlyMarks (s.readPlace p n).2 := by
  cases p <;> simp only [State.readPlace]
  all_goals first
    | exact onlyMarks_bkfRead _ _ _ _
    | exact onlyMarks_ddrRead _ _ _ _
    | exact onlyMarks_refl s

/-! ### The fetch -/

/-- What a fetch that moves nothing may change: core `c`'s instruction cache, and the free values that a new line draws. -/
def State.OnlyFetched (s t : State) (c : Nat) : Prop :=
  ∃ ic n, t = { s with cores := vmod s.cores c (fun k => { k with icache := ic }), free := n }

theorem vmod_congr {α : Type} {n : Nat} [Inhabited α] (v : Vector α n) {i : Nat} {f g : α → α} (h : f (vget v i) = g (vget v i)) :
    vmod v i f = vmod v i g := by
  unfold vmod
  split
  · rename_i hi
    have e : vget v i = v[i] := by simp [vget, hi]
    rw [e] at h
    rw [h]
  · rfl

theorem vmod_self {α : Type} {n : Nat} [Inhabited α] (v : Vector α n) {i : Nat} (f : α → α) (hf : f (vget v i) = vget v i) : vmod v i f = v := by
  rw [vmod_congr (g := id) v hf]
  unfold vmod
  split
  · simp
  · rfl

theorem modCore_congr (s : State) {c : Nat} {f g : Core → Core} (h : f (s.core c) = g (s.core c)) : s.modCore c f = s.modCore c g := by
  simp only [State.modCore, vmod_congr s.cores h]

theorem icache_onlyFetched (s : State) (c : Nat) (f : Core → List CLine) (n : Nat) :
    s.OnlyFetched (({ s with free := n } : State).modCore c fun k => { k with icache := f k }) c :=
  ⟨f (s.core c), n, modCore_congr ({ s with free := n } : State) (f := fun k => { k with icache := f k }) (g := fun k => { k with icache := f (s.core c) }) rfl⟩

theorem onlyFetched_refl (s : State) (c : Nat) : s.OnlyFetched s c :=
  ⟨(s.core c).icache, s.free, by rw [vmod_self]; rfl⟩

theorem fillI_onlyFetched (s : State) {c : Nat} (l : CLine) : s.OnlyFetched (s.fillI c l) c := by
  unfold State.fillI State.struck
  simp only
  split
  · exact icache_onlyFetched s c _ (s.free + 1)
  · exact icache_onlyFetched s c _ (s.free + 2)

/-- A sound line, or none, has no parity error (R174). -/
theorem parity_sound {s : State} {c k : Nat} (h : ∀ l, lineAt k (s.core c).icache = some l → (l.bad || l.badFollower && s.locked c) = false) :
    s.parity c k true = s := by
  unfold State.parity
  simp only [if_true]
  split
  · rfl
  · rename_i l hl
    simp [h l hl]

/-- An access that has its answer changes nothing (R141, R155). -/
theorem askPort_answered {s : State} {c a n : Nat} {ask : Asker} {p : Place} {l : List Byte}
    (h : ((s.core c).asked ask a n).any (fun x => x.ans.isSome) = true) : (s.askPort c ask a p n l).2 = s := by
  unfold State.askPort
  generalize hq : (s.core c).asked ask a n = q at h ⊢
  cases q with
  | none => cases h
  | some x => rfl

/-- A fetch that succeeds, where it moves nothing. -/
theorem fetchOk_onlyFetched (s : State) {c : Nat} (h : (s.fetchOk c).1 = some true) (hs : s.fetchStill c = true) :
    s.OnlyFetched (s.fetchOk c).2 c := by
  revert h
  unfold State.fetchStill at hs
  unfold State.fetchOk
  simp only at hs ⊢
  generalize hp : s.placeFor c .fetch (4 * (s.core c).pc.toNat) = p at hs ⊢
  have hpar : s.parity c p.key true = s := parity_sound fun l hl => by rw [hl] at hs; simpa only [Bool.not_eq_true'] using hs
  simp only [hpar, ite_self]
  split
  · intro h; cases h
  split
  · intro _; exact onlyFetched_refl s c
  · rename_i hmiss
    have hn : lineAt p.key (s.core c).icache = none := by simpa using hmiss
    rw [hn] at hs
    simp only at hs
    split
    · intro h; cases h
    split
    · rename_i hc
      rw [if_pos hc] at hs
      have hk := askPort_answered (p := keyPlace (p.key / 32 * 32)) (l := []) hs
      split
      · rename_i l s1 hm
        intro _
        rw [hm] at hk
        rw [show s1 = s from hk]
        exact fillI_onlyFetched s _
      · intro h; cases h
      · intro h; cases h
    · rename_i hc
      rw [if_neg hc] at hs
      have hk := askPort_answered (p := p) (l := []) hs
      split
      · rename_i hm
        intro _
        rw [hm] at hk
        rw [show _ = s from hk]
        exact onlyFetched_refl s c
      · intro h; cases h
      · intro h; cases h

/-! ### An instruction that retires (R180) -/

theorem isa_done {s u : State} {c : Nat} {op : CoreOp} (h2 : s.follows c = false) (h3 : s.coreRuns c = true)
    (h4 : (s.core c).asyncAt = none) (h5 : (s.core c).stepping = false) (h6 : s.irq c = none) (h7 : (s.core c).waits = false)
    (h8 : (s.fetchOk c).1 = some true)
    (hd : (s.fetchOk c).2.execOp c false op = .done u) : s.isa c (.ok op) = u.boundary c false := by
  have hq : s.quietStep c = false := by simp [State.quietStep, h5]
  have ha : s.attempt c (.ok op) = .done u := by
    unfold State.attempt
    generalize hf : s.fetchOk c = r at h8 hd
    obtain ⟨b, s1⟩ := r
    cases h8
    simpa using hd
  simp only [State.isa, lead_of_leads h2, h3, hq, h4, ha, h6, h5, h7]
  simp

theorem isa_trap {s u : State} {c code : Nat} {addr : Word} {op : CoreOp} (h2 : s.follows c = false) (h3 : s.coreRuns c = true)
    (h4 : (s.core c).asyncAt = none) (h5 : (s.core c).stepping = false) (h7 : (s.core c).waits = false) (h8 : (s.fetchOk c).1 = some true)
    (hd : (s.fetchOk c).2.execOp c false op = .trap u code addr) :
    s.isa c (.ok op) = (u.takeExc c code addr (code = xECALL_S)).boundary c false := by
  have hq : s.quietStep c = false := by simp [State.quietStep, h5]
  have ha : s.attempt c (.ok op) = .trap u code addr := by
    unfold State.attempt
    generalize hf : s.fetchOk c = r at h8 hd
    obtain ⟨b, s1⟩ := r
    cases h8
    simpa using hd
  simp only [State.isa, lead_of_leads h2, h3, hq, h4, ha, h5, h7]
  simp

/-! ### What a retiring instruction leaves -/

theorem sealed_parts {s : State} (h : s.Sealed) (cs : Vector Core 6) (n : Nat) :
    ({ s with out := [], cores := cs, free := n } : State).Sealed := h

theorem get_congr {s t : State} {f : Fld} (h : t.reg f.addr = s.reg f.addr) : t.get f = s.get f := by simp only [State.get, h]

theorem mates_mem_lt {s : State} {c d : Nat} (hc : c < 6) (hf : s.follows c = false) (h : d ∈ s.mates c) :
    d < 6 ∧ (d = c ∨ (d = c + 1 ∧ s.locked c = true)) := by
  unfold State.mates at h
  rw [lead_of_leads hf] at h
  split at h
  · rename_i hl
    simp at h
    rcases h with rfl | rfl
    · exact ⟨hc, .inl rfl⟩
    · refine ⟨?_, .inr ⟨rfl, hl⟩⟩
      have : c ≠ 5 := by
        rintro rfl
        simp [State.locked] at hl
        simp [State.follows, hl] at hf
      omega
  · simp at h
    exact ⟨by omega, .inl h⟩

theorem mem_mates_iff {s : State} {c d : Nat} (hf : s.follows c = false) :
    d ∈ s.mates c ↔ d = c ∨ (d = c + 1 ∧ s.locked c = true) := by
  unfold State.mates
  rw [lead_of_leads hf]
  split
  · rename_i h; simp [h]
  · rename_i h; simp [h]

/-- The state `x` as a fetch may have left it, with these cores. -/
def State.fetched (x : State) (cs : Vector Core 6) (n : Nat) : State := { x with out := [], cores := cs, free := n }

/-- A core's instruction that has made `k` of core `c` and `x` of the rest leaves just that at the boundary that follows, where no halt
waits and the locked partner follows (R164, R507). -/
theorem leaves_of_boundary {s x : State} {c : Nat} {k : Core} {f : State → State} (hc : c < 6) (hx : x.Sealed)
    (hp : x.pending = s.pending) (h23 : x.lock23 = s.lock23) (h45 : x.lock45 = s.lock45) (hg : x.dbg.grpHalt = s.dbg.grpHalt)
    (hxr : x.regs = s.regs) (hst : s.stands = false) (hfol : s.follows c = false) (hno : s.haltWanted c = false)
    {cs0 : Vector Core 6} {n : Nat} {ic : List CLine}
    (hf : f s.clean = (x.fetched cs0 n).boundary c false) (hk0 : vget cs0 c = { k with icache := ic })
    (hcs0 : ∀ d, d < 6 → d ≠ c → vget cs0 d = s.core d) :
    ∃ t, runClk s f = .next t ∧ s.Leaves x t c k := by
  refine ⟨_, runClk_of_runs hst f, ?_⟩
  generalize hcs1 : vmod cs0 c (fun k => { k with fetched := none, loaded := none }) = cs
  have hk : vget cs c = { k with icache := ic, fetched := none, loaded := none } := by rw [← hcs1, vget_vmod_self _ _ hc, hk0]
  have hcs : ∀ d, d < 6 → d ≠ c → vget cs d = s.core d := fun d h6 hd => by rw [← hcs1, vget_vmod_ne _ _ hd, hcs0 d h6 hd]
  have hmod : (x.fetched cs0 n).modCore c (fun k => { k with fetched := none, loaded := none }) = x.fetched cs n := by rw [← hcs1]; rfl
  unfold State.boundary at hf
  simp only [hmod, Bool.false_and, Bool.false_eq_true, if_false] at hf
  generalize hu : x.fetched cs n = u at hf
  have hlock : u.lock23 = s.lock23 ∧ u.lock45 = s.lock45 := by rw [← hu]; exact ⟨h23, h45⟩
  have hfl : ∀ d, u.follows d = s.follows d := by intro d; simp [State.follows, hlock]
  have hlk : ∀ d, u.locked d = s.locked d := by intro d; simp [State.locked, hlock]
  have hl : u.lead c = c := lead_of_leads (by rw [hfl, hfol])
  have hmates : u.mates c = s.mates c := by simp only [State.mates, hlk, hl, lead_of_leads hfol]
  have hw : u.haltWanted c = false := by
    unfold State.haltWanted at hno ⊢
    rw [hmates]
    rw [List.any_eq_false] at hno ⊢
    intro d hd'
    have := hno d hd'
    have e1 : u.bit (Fd.DBG_CTL_HALT_REQ d) = s.bit (Fd.DBG_CTL_HALT_REQ d) := by
      simp only [State.bit]
      rw [get_congr]
      rw [← hu]
      exact reg_of_regs hxr _
    have e2 : u.dbg.grpHalt = s.dbg.grpHalt := by rw [← hu]; exact hg
    rw [e1, e2]; exact this
  have hb : f s.clean = u.mirror c := by rw [hf]; simp [State.haltPoll, hl, hw]
  have hm : u.mirror c = x.fetched (u.mirror c).cores n := by
    rw [← hu]
    unfold State.mirror
    simp only
    split <;> rfl
  have hcs2 : ∀ d, d < 6 → vget (u.mirror c).cores d =
      if d ∈ s.mates c then { k with icache := ic, fetched := none, loaded := none } else s.core d := by
    intro d hd6
    have hucc : u.core c = { k with icache := ic, fetched := none, loaded := none } := by rw [← hu]; exact hk
    have hud : ∀ d, d < 6 → d ≠ c → u.core d = s.core d := fun d h6 hd' => by rw [← hu]; exact hcs d h6 hd'
    show (u.mirror c).core d = _
    unfold State.mirror
    simp only [hl, hlk]
    by_cases hk : s.locked c = true
    · simp only [hk, if_true]
      by_cases h1 : d = c + 1
      · subst h1
        rw [core_modCore_self _ _ hd6, hucc, if_pos ((mem_mates_iff hfol).2 (.inr ⟨rfl, hk⟩))]
      · rw [core_modCore_ne _ _ h1]
        by_cases h2 : d = c
        · subst h2; rw [hucc, if_pos ((mem_mates_iff hfol).2 (.inl rfl))]
        · rw [hud d hd6 h2, if_neg]
          intro hm; rcases (mem_mates_iff hfol).1 hm with hm | hm
          · exact h2 hm
          · exact h1 hm.1
    · have hk' : s.locked c = false := by simpa using hk
      simp only [hk', Bool.false_eq_true, if_false]
      by_cases h2 : d = c
      · subst h2; rw [hucc, if_pos ((mem_mates_iff hfol).2 (.inl rfl))]
      · rw [hud d hd6 h2, if_neg]
        intro hm; rcases (mem_mates_iff hfol).1 hm with hm | hm
        · exact h2 hm
        · exact hk hm.2
  generalize (u.mirror c).cores = cs' at hm hcs2
  have e3 : f s.clean = x.fetched cs' n := hb.trans hm
  have e4 : s.after f = { (f s.clean).seal with pending := s.pending } := rfl
  have e5 : (x.fetched cs' n).seal = x.fetched cs' n := seal_eq_self (sealed_parts hx cs' n)
  have e6 : s.after f = x.fetched cs' n := by
    rw [e4, e3, e5, ← hp]; rfl
  rw [e6]
  exact ⟨cs', n, ic, rfl, hcs2⟩

/-- What core `c` finds after its fetch. -/
structure State.Found (s v : State) (c : Nat) : Prop where
  core : v.core c = { s.core c with icache := (v.core c).icache }
  others : ∀ d, d ≠ c → v.core d = s.core d
  rest : ∃ cs n, v = s.fetched cs n

theorem found_fetch {s : State} {c : Nat} (hc : c < 6) (h : s.Ready c) : s.Found (s.clean.fetchOk c).2 c := by
  obtain ⟨ic, n, e⟩ := fetchOk_onlyFetched s.clean h.fetches h.still
  generalize (s.clean.fetchOk c).2 = v at e
  have hcore : v.core c = { s.core c with icache := ic } := by
    rw [e]
    show vget (vmod s.cores c _) c = _
    rw [vget_vmod_self _ _ hc]
    rfl
  refine ⟨by rw [hcore], fun d hd => ?_, _, n, e⟩
  rw [e]
  show vget (vmod s.cores c _) d = _
  rw [vget_vmod_ne _ _ hd]; rfl

theorem modCore_fetched {x v : State} {c : Nat} {k : Core} (hc : c < 6) {cs : Vector Core 6} {n : Nat}
    (hv : v = x.fetched cs n) : ∃ cs', v.modCore c (fun _ => k) = x.fetched cs' n ∧ vget cs' c = k ∧ ∀ d, d ≠ c → vget cs' d = v.core d :=
  ⟨vmod cs c fun _ => k, by rw [hv]; rfl, vget_vmod_self _ _ hc, fun d hd => by rw [hv]; exact vget_vmod_ne _ _ hd⟩

/-- An instruction that retires with `k` for core `c` and the effect `F` on the rest. -/
theorem run_leaves {s : State} {c : Nat} {op : CoreOp} {k : Core} (F : State → State) (hc : c < 6) (hs : s.Sealed) (hF : (F s).Sealed)
    (hcomm : ∀ cs n, F (s.fetched cs n) = (F s).fetched cs n) (hp : (F s).pending = s.pending)
    (h23 : (F s).lock23 = s.lock23) (h45 : (F s).lock45 = s.lock45) (hg : (F s).dbg.grpHalt = s.dbg.grpHalt)
    (hxr : (F s).regs = s.regs) (h : s.Issues c)
    (hd : ∀ v : State, s.Found v c → v.execOp c false op = .done ((F v).modCore c fun _ => { k with icache := (v.core c).icache })) :
    ∃ t, runClk s (fun s => s.isa c (.ok op)) = .next t ∧ s.Leaves (F s) t c k := by
  have hfd := found_fetch hc h.toReady
  have hx := hd _ hfd
  obtain ⟨cs, n, e⟩ := hfd.rest
  have hi := isa_done (s := s.clean) (op := op) h.leads h.runs h.noAsync h.noStep h.noIrq h.unwaiting h.fetches hx
  have hFv : F (s.clean.fetchOk c).2 = (F s).fetched cs n := by rw [e]; exact hcomm cs n
  obtain ⟨cs', e1, e2, e3⟩ := modCore_fetched (k := { k with icache := ((s.clean.fetchOk c).2.core c).icache }) hc hFv
  refine leaves_of_boundary (cs0 := cs') (n := n) hc hF hp h23 h45 hg hxr h.clocked h.leads h.noHalt (hi.trans (by rw [e1])) e2
    fun d _ hd => ?_
  rw [e3 d hd, ← hfd.others d hd, hFv, e]; rfl

/-- An instruction that changes core `c` alone. -/
theorem run_retires {s : State} {c : Nat} {op : CoreOp} {k : Core} (hc : c < 6) (hs : s.Sealed) (h : s.Issues c)
    (hd : ∀ v : State, s.Found v c → v.execOp c false op = .done (v.modCore c fun _ => { k with icache := (v.core c).icache })) :
    ∃ t, runClk s (fun s => s.isa c (.ok op)) = .next t ∧ s.Retires t c k :=
  run_leaves id hc hs hs (fun _ _ => rfl) rfl rfl rfl rfl rfl h hd

theorem greg_of_core {s v : State} {c : Nat} (h : v.core c = { s.core c with icache := (v.core c).icache }) (r : BitVec 5) :
    v.greg c r = s.greg c r := by
  unfold State.greg Core.reg
  rw [h]

/-- An instruction that writes one register (R166, R190). -/
theorem run_result {s : State} {c : Nat} {op : CoreOp} {rd : BitVec 5} {v : Word} (hc : c < 6) (hs : s.Sealed) (h : s.Issues c)
    (hx : ∀ u : State, s.Found u c → u.execOp c false op = u.result c rd v) :
    ∃ t, runClk s (fun s => s.isa c (.ok op)) = .next t ∧ s.Retires t c { (s.core c).setReg rd v with pc := (s.core c).pc + 1 } := by
  apply run_retires hc hs h
  intro u hu
  rw [hx u hu]
  unfold State.result State.advance State.setG
  rw [modCore_modCore]
  congr 1
  apply modCore_congr
  simp only [Function.comp]
  rw [hu.core]
  unfold Core.setReg
  split <;> rfl

/-! ### Exceptions -/

theorem tracing_off {s : State} {c : Nat} (h : s.Untraced c) : s.tracing c = false := by
  simp [State.tracing, h.noRam, h.noPort]

theorem modSrc_self (s : State) (i : Nat) : s.modSrc i (fun q => q) = s := by
  unfold State.modSrc
  rw [vmod_self _ _ rfl]

theorem traceExc_off {s : State} {c : Nat} (h : s.Untraced c) (a b d : Nat) : s.traceExc c a b d = s := by
  unfold State.traceExc State.tracePacket
  simp [tracing_off h]

theorem traceSync_off {s : State} {c : Nat} (h : s.Untraced c) : s.traceSync c = s := by
  unfold State.traceSync
  simp [tracing_off h, h.off]

theorem traceMoved_off {s : State} {c : Nat} (h : s.Untraced c) (l : Level) : s.traceMoved c l = s := by
  unfold State.traceMoved
  simp [h.off, traceSync_off h]

/-- Untraced depends on the sinks' registers and the source only. -/
theorem untraced_modCore {s : State} {c : Nat} (h : s.Untraced c) (f : Core → Core) : (s.modCore c f).Untraced c := ⟨h.1, h.2, h.3⟩

/-- Entry into S or F writes that level's registers and the core's pc and level, and clears the reservation (R177). -/
theorem enterExc_off {s : State} {c : Nat} (h : s.Untraced c) (toF intr : Bool) (code : Nat) (addr : Word) :
    s.enterExc c toF intr code addr = s.modCore c fun _ => (s.core c).entered toF intr code addr := by
  unfold State.enterExc
  simp only [traceExc_off h]
  rw [traceMoved_off (untraced_modCore h _)]
  apply modCore_congr
  cases toF <;> rfl

theorem entered_icache (k : Core) (ic : List CLine) (toF intr : Bool) (code : Nat) (addr : Word) :
    ({ k with icache := ic } : Core).entered toF intr code addr = { k.entered toF intr code addr with icache := ic } := rfl

theorem untraced_found {s v : State} {c : Nat} (h : s.Untraced c) (hf : s.Found v c) : v.Untraced c := by
  obtain ⟨cs, n, e⟩ := hf.rest
  rw [e]
  exact ⟨h.noRam, h.noPort, h.off⟩

/-- An exception of an instruction of core `c`, taken at the level R175 gives, where no exception stands at that level (R177, R178). -/
theorem run_traps {s : State} {c code : Nat} {addr : Word} {op : CoreOp} (hc : c < 6) (hs : s.Sealed) (h : s.Issues c) (hu : s.Untraced c)
    (toF : Bool) (hF : toF = ((s.core c).level = .f || code = xECALL_S)) (hx : ((s.core c).exc toF).inexc = false)
    (hsx : (s.core c).level = .s → (s.core c).sx.inexc = false)
    (hd : ∀ v : State, s.Found v c → v.execOp c false op = .trap v code addr) :
    ∃ t, runClk s (fun s => s.isa c (.ok op)) = .next t ∧ s.Retires t c ((s.core c).entered toF false code addr) := by
  have hfd := found_fetch hc h.toReady
  have hxx := hd _ hfd
  have huv := untraced_found hu hfd
  obtain ⟨cs, n, e⟩ := hfd.rest
  have hi := isa_trap (s := s.clean) (op := op) h.leads h.runs h.noAsync h.noStep h.unwaiting h.fetches hxx
  have hcore := hfd.core
  have hoth := hfd.others
  generalize (s.clean.fetchOk c).2 = v at *
  have ht : v.takeExc c code addr (code = xECALL_S) = v.modCore c fun _ => (v.core c).entered toF false code addr := by
    unfold State.takeExc
    rw [hcore]
    have e1 : ((s.core c).level = .s && (s.core c).sx.inexc && (!(decide (code = xECALL_S)) || decide (code = xECALL_S))) = false := by
      by_cases hl : (s.core c).level = .s
      · simp [hsx hl]
      · simp [hl]
    have e2 : (toF && (s.core c).fx.inexc && decide (c = 0)) = false := by
      cases toF
      · rfl
      · have : (s.core c).fx.inexc = false := hx
        simp [this]
    simp only [e1, ← hF, e2, Bool.false_eq_true, if_false]
    rw [enterExc_off huv, ← hcore]
  rw [ht, hcore, entered_icache] at hi
  obtain ⟨cs', e1, e2, e3⟩ := modCore_fetched (k := { (s.core c).entered toF false code addr with icache := (v.core c).icache }) hc e
  refine leaves_of_boundary (cs0 := cs') (n := n) hc hs rfl rfl rfl rfl rfl h.clocked h.leads h.noHalt (hi.trans (by rw [e1])) e2
    fun d _ hd => ?_
  rw [e3 d hd, ← hoth d hd]

end Sys2Proof.Machine
end

