-- ==== Sys2Proof/Laws/Events.lean ====
section
/-! SUPPORT. What posting an event can do (09): the fields it touches, the ring it writes, and that it is a `Posts`. -/

namespace Sys2Proof.Machine

theorem ring_modRing_self (s : State) {r : Nat} (f : RingSet → RingSet) (h : r < 9) : (s.modRing r f).ring r = f (s.ring r) :=
  vget_vmod_self _ _ h

theorem ring_modRing_ne (s : State) {r i : Nat} (f : RingSet → RingSet) (h : i ≠ r) : (s.modRing r f).ring i = s.ring i :=
  vget_vmod_ne _ _ h

/-- An MSI-X vector touches the functions' pending bits and the outputs. -/
theorem msix_shape (s : State) (n v : Nat) : ∃ f o, s.msix n v = { s with pcie := { s.pcie with fns := f }, out := o } := by
  unfold State.msix
  split
  · exact ⟨s.pcie.fns, _, rfl⟩
  · exact ⟨_, s.out, rfl⟩

/-- Posting to one ring set touches the rings, firmware's counters, the functions' pending bits and the outputs. -/
theorem postRaw_shape (s : State) (r code kind measure : Nat) (arg : List Byte) (force : Bool) :
    ∃ q w f o, s.postRaw r code kind measure arg force =
      { s with mbx := { s.mbx with rings := q }, fw := { s.fw with bays := w }, pcie := { s.pcie with fns := f }, out := o } := by
  simp only [State.postRaw]
  split
  · unfold State.loseEvent
    simp only []
    split
    · exact ⟨_, _, s.pcie.fns, s.out, rfl⟩
    · exact ⟨_, s.fw.bays, s.pcie.fns, s.out, rfl⟩
  · split
    · obtain ⟨f, o, e⟩ := msix_shape (s.modRing r fun q =>
        { q with
          mem := writeBytes zeroByte (eventBytes code kind (if (s.ring r).lostMark then 1 else 0) q.evtSeq measure arg) (0x1000 + 32 * (q.evtPi.toNat % 64)) q.mem
          evtPi := q.evtPi + 1, evtSeq := q.evtSeq + 1, lostMark := false }) r 1
      exact ⟨_, s.fw.bays, f, o, e⟩
    · exact ⟨_, s.fw.bays, s.pcie.fns, s.out, rfl⟩

theorem post_shape (s : State) (r code : Nat) (arg : List Byte) :
    ∃ q w f o, s.post r code arg =
      { s with mbx := { s.mbx with rings := q }, fw := { s.fw with bays := w }, pcie := { s.pcie with fns := f }, out := o } := by
  unfold State.post
  obtain ⟨q, w, f, o, e⟩ := postRaw_shape s r code 0 s.fig.measure arg false
  simp only []
  split
  · obtain ⟨q', w', f', o', e'⟩ := postRaw_shape (s.postRaw r code 0 s.fig.measure arg false) 8 code 0 s.fig.measure arg false
    rw [e', e]
    exact ⟨q', w', f', o', rfl⟩
  · exact ⟨q, w, f, o, e⟩

/-- Registers and memories stay. -/
theorem post_reg (s : State) (r code : Nat) (arg : List Byte) (a : Nat) : (s.post r code arg).reg a = s.reg a := by
  obtain ⟨_, _, _, _, e⟩ := post_shape s r code arg
  rw [e]; rfl

theorem post_memKept (s : State) (r code : Nat) (arg : List Byte) : s.MemKept (s.post r code arg) := by
  obtain ⟨_, _, _, _, e⟩ := post_shape s r code arg
  rw [e]; exact ⟨rfl, rfl, rfl, rfl, rfl⟩

theorem ring_msix (s : State) (n v i : Nat) : (s.msix n v).ring i = s.ring i := by
  obtain ⟨_, _, e⟩ := msix_shape s n v
  rw [e]; rfl

/-- Posting to ring set `r` leaves the others. -/
theorem ring_postRaw_ne (s : State) {r i : Nat} (code kind measure : Nat) (arg : List Byte) (force : Bool) (h : i ≠ r) :
    (s.postRaw r code kind measure arg force).ring i = s.ring i := by
  simp only [State.postRaw]
  split
  · unfold State.loseEvent
    simp only []
    split
    · exact ring_modRing_ne _ _ h
    · exact ring_modRing_ne _ _ h
  · split
    · rw [ring_msix]; exact ring_modRing_ne _ _ h
    · exact ring_modRing_ne _ _ h

/-- Posting is what `Posts` says (R247, R253). -/
theorem postRaw_posts (s : State) {r : Nat} (code kind measure : Nat) (arg : List Byte) (h : r < 9) :
    s.Posts (s.postRaw r code kind measure arg false) r code kind measure arg := by
  by_cases hf : ((!s.ready rMBX && !false) || decide (((s.ring r).evtPi - (s.ring r).evtCi).toNat ≥ 64)) = true
  · have e : s.postRaw r code kind measure arg false = s.loseEvent r := by simp only [State.postRaw]; rw [if_pos hf]
    have er : (s.loseEvent r).ring r =
        { s.ring r with evtLost := min 65535 ((s.ring r).evtLost + 1), evtSeq := (s.ring r).evtSeq + 1, lostMark := true } := by
      unfold State.loseEvent
      simp only []
      split
      · exact ring_modRing_self s _ h
      · exact ring_modRing_self s _ h
    rw [e]
    refine ⟨by rw [er], ?_, ?_⟩
    · intro h1 h2
      exfalso
      rcases Bool.or_eq_true _ _ ▸ hf with h3 | h3
      · simp [h1] at h3
      · exact absurd (of_decide_eq_true h3) (by omega)
    · intro _
      rw [er]
      exact ⟨rfl, rfl, rfl⟩
  · have er : (s.postRaw r code kind measure arg false).ring r = { s.ring r with
        mem := writeBytes zeroByte (eventBytes code kind (if (s.ring r).lostMark then 1 else 0) (s.ring r).evtSeq measure arg)
          (0x1000 + 32 * ((s.ring r).evtPi.toNat % 64)) (s.ring r).mem
        evtPi := (s.ring r).evtPi + 1, evtSeq := (s.ring r).evtSeq + 1, lostMark := false } := by
      simp only [State.postRaw]
      rw [if_neg hf]
      split
      · rw [ring_msix]; exact ring_modRing_self s _ h
      · exact ring_modRing_self s _ h
    have hl : (eventBytes code kind (if (s.ring r).lostMark then 1 else 0) (s.ring r).evtSeq measure arg).length = 32 := by
      simp [eventBytes, fixLen_length]
    refine ⟨by rw [er], ?_, ?_⟩
    · intro _ _
      rw [er]
      refine ⟨rfl, ?_⟩
      have := readBytes_writeBytes (d := zeroByte) (eventBytes code kind (if (s.ring r).lostMark then 1 else 0) (s.ring r).evtSeq measure arg)
        (0x1000 + 32 * ((s.ring r).evtPi.toNat % 64)) (s.ring r).mem
      rwa [hl] at this
    · intro hh
      exfalso
      apply hf
      rw [Bool.or_eq_true]
      rcases hh with h1 | h1
      · exact .inl (by simp [h1])
      · exact .inr (decide_eq_true h1)

theorem post_posts (s : State) {r : Nat} (code : Nat) (arg : List Byte) (h : r < 9) :
    s.Posts (s.post r code arg) r code 0 s.fig.measure arg := by
  have hp := postRaw_posts s code 0 s.fig.measure arg h
  unfold State.post
  simp only []
  split
  · rename_i h0
    have e : ((s.postRaw r code 0 s.fig.measure arg false).postRaw 8 code 0 s.fig.measure arg false).ring r =
        (s.postRaw r code 0 s.fig.measure arg false).ring r := ring_postRaw_ne _ _ _ _ _ _ (by omega)
    exact ⟨by rw [e]; exact hp.seq, by rw [e]; exact hp.written, by rw [e]; exact hp.lost⟩
  · exact hp

/-- An event of bay 0 reaches the PF as well (R253a). -/
theorem post_zero_posts_pf (s : State) (code : Nat) (arg : List Byte) : s.Posts (s.post 0 code arg) 8 code 0 s.fig.measure arg := by
  have hr : (s.postRaw 0 code 0 s.fig.measure arg false).ring 8 = s.ring 8 := ring_postRaw_ne _ _ _ _ _ _ (by omega)
  have hm : (s.postRaw 0 code 0 s.fig.measure arg false).ready rMBX = s.ready rMBX := by
    obtain ⟨_, _, _, _, e⟩ := postRaw_shape s 0 code 0 s.fig.measure arg false
    rw [e]; rfl
  have hp := postRaw_posts (s.postRaw 0 code 0 s.fig.measure arg false) code 0 s.fig.measure arg (r := 8) (by omega)
  have e : s.post 0 code arg = (s.postRaw 0 code 0 s.fig.measure arg false).postRaw 8 code 0 s.fig.measure arg false := rfl
  rw [e]
  refine ⟨by rw [hp.seq, hr], fun h1 h2 => ?_, fun h => ?_⟩
  · have := hp.written (by rw [hm]; exact h1) (by rw [hr]; exact h2)
    rwa [hr] at this
  · have := hp.lost (by rw [hm, hr]; exact h)
    rwa [hr] at this

/-- The rings that an event of ring set `r` does not reach. -/
theorem ring_post_ne (s : State) {r i : Nat} (code : Nat) (arg : List Byte) (h : i ≠ r) (h8 : r = 0 → i ≠ 8) :
    (s.post r code arg).ring i = s.ring i := by
  unfold State.post
  simp only []
  split
  · rename_i h0
    rw [ring_postRaw_ne _ _ _ _ _ _ (h8 h0), ring_postRaw_ne _ _ _ _ _ _ h]
  · exact ring_postRaw_ne _ _ _ _ _ _ h

/-! ### Frames compose -/

theorem regsKept_trans {s t u : State} {bs : List Nat} (h : s.RegsKept t bs) (k : t.RegsKept u bs) : s.RegsKept u bs :=
  fun a ha => (k a ha).trans (h a ha)

theorem regsBut_trans {s t u : State} {l : List Nat} (h : s.RegsBut t l) (k : t.RegsBut u l) : s.RegsBut u l :=
  fun a ha => (k a ha).trans (h a ha)

theorem regsBut_put (s : State) (f : Fld) (v : Nat) : s.RegsBut (s.put f v) [f.addr] :=
  fun a ha => reg_put_ne s f v a (by simpa using ha)

theorem memKept_trans {s t u : State} (h : s.MemKept t) (k : t.MemKept u) : s.MemKept u :=
  ⟨k.1.trans h.1, k.2.1.trans h.2.1, k.2.2.1.trans h.2.2.1, k.2.2.2.1.trans h.2.2.2.1, k.2.2.2.2.trans h.2.2.2.2⟩

/-- A command keeps every register that its effect keeps. -/
theorem after_regsBut {s : State} (hs : s.Sealed) (g : State → State) {l : List Nat} (h : s.RegsBut (g s.clean) l) : s.RegsBut (s.after g) l :=
  fun a ha => after_reg_same hs g a (h a ha)

end Sys2Proof.Machine
end

