-- ==== Sys2Proof/Laws/Mailbox.lean ====
section
/-! SUPPORT. What a mailbox command row can do (09): the bytes of R251 give back the command's fields, and a command that its ring set takes at
once and whose shared checks pass runs its meaning on `State.given` and is answered. -/

namespace Sys2Proof.Machine

/-! ### The 64 bytes of a command (R251) -/

theorem leNat_one (b : Byte) : leNat [b] = b.toNat := by simp [leNat]

theorem fixLen_take {α : Type} (z : α) (n : Nat) (a b : List α) (h : a.length = n) : fixLen z n (a ++ b) = a := by
  subst h; simp [fixLen]

theorem mailBytes_length (op : Nat) (m : Mail) : (mailBytes op m).length = 64 := by
  simp [mailBytes, fixLen_length]

/-- A field of a list that starts with a prefix of known length. -/
theorem fieldAt_append (p q r : List Byte) (o k : Nat) (hp : p.length = o) (hq : q.length = k) : fieldAt (p ++ (q ++ r)) o k = leNat q := by
  subst hp
  unfold fieldAt
  rw [List.drop_left, fixLen_take _ _ _ _ hq]

theorem cOp_mailBytes (op : Nat) (m : Mail) (h : op < 65536) : cOp (mailBytes op m) = op := by
  have e : mailBytes op m = [] ++ (natLe 2 op ++ ([m.flags] ++ natLe 1 m.pay.length ++ natLe 4 m.seq.toNat ++ natLe 4 m.tag.toNat ++ [m.bay] ++
      [0, 0, 0] ++ fixLen 0 48 m.pay)) := by simp [mailBytes, List.append_assoc]
  unfold cOp
  rw [e, fieldAt_append [] _ _ 0 2 rfl (natLe_length _ _), leNat_natLe]
  omega

theorem cFlags_mailBytes (op : Nat) (m : Mail) : cFlags (mailBytes op m) = m.flags.toNat := by
  have e : mailBytes op m = natLe 2 op ++ ([m.flags] ++ (natLe 1 m.pay.length ++ natLe 4 m.seq.toNat ++ natLe 4 m.tag.toNat ++ [m.bay] ++
      [0, 0, 0] ++ fixLen 0 48 m.pay)) := by simp [mailBytes, List.append_assoc]
  unfold cFlags
  rw [e, fieldAt_append _ [m.flags] _ 2 1 (natLe_length _ _) rfl, leNat_one]

theorem cSeq_mailBytes (op : Nat) (m : Mail) : cSeq (mailBytes op m) = m.seq := by
  have e : mailBytes op m = (natLe 2 op ++ [m.flags] ++ natLe 1 m.pay.length) ++ (natLe 4 m.seq.toNat ++ (natLe 4 m.tag.toNat ++ [m.bay] ++
      [0, 0, 0] ++ fixLen 0 48 m.pay)) := by simp [mailBytes, List.append_assoc]
  unfold cSeq
  rw [e, fieldAt_append _ _ _ _ _ (by simp) (natLe_length _ _), leNat_natLe]
  have := m.seq.isLt
  rw [Nat.mod_eq_of_lt (by omega)]
  simp

theorem cBay_mailBytes (op : Nat) (m : Mail) : cBay (mailBytes op m) = m.bay.toNat := by
  have e : mailBytes op m = (natLe 2 op ++ [m.flags] ++ natLe 1 m.pay.length ++ natLe 4 m.seq.toNat ++ natLe 4 m.tag.toNat) ++ ([m.bay] ++
      ([0, 0, 0] ++ fixLen 0 48 m.pay)) := by simp [mailBytes, List.append_assoc]
  unfold cBay
  rw [e, fieldAt_append _ [m.bay] _ 12 1 (by simp) rfl, leNat_one]

theorem cPay_mailBytes (op : Nat) (m : Mail) : cPay (mailBytes op m) = fixLen 0 48 m.pay := by
  have e : mailBytes op m = (natLe 2 op ++ [m.flags] ++ natLe 1 m.pay.length ++ natLe 4 m.seq.toNat ++ natLe 4 m.tag.toNat ++ [m.bay] ++
      [0, 0, 0]) ++ fixLen 0 48 m.pay := by simp [mailBytes, List.append_assoc]
  unfold cPay
  rw [e, List.drop_left' (by simp), fixLen_eq _ (fixLen_length _ _ _)]

/-! ### A command that is taken at once -/

/-- The opcode of the entry that the table gives for `op`. -/
theorem findCmd_op {op : Nat} {k : Cmd} (h : findCmd op = some k) : k.op = op := by
  have := List.find?_some h
  simpa using this

/-- The visit's end: the ring set stays in the rotation while its ring is not empty (R249). -/
def State.visited (s : State) (r : Nat) : State :=
  { s with mbx := { s.mbx with active := if s.waitingCmds r ≠ 0 then s.mbx.active ||| (1#9 <<< r) else s.mbx.active &&& ~~~(1#9 <<< r) } }

/-- Where the shared checks pass, judging a command is running its meaning, but for BAY_WAKE. -/
theorem judge_passes {s : State} {op : Nat} {m : Mail} {g : State} (hop : op < 65536) (hp : s.Passes op m) (hw : op ≠ 0x0212)
    (hb : ∀ b, g.bayState b = s.bayState b) (hr : ∀ i, g.ready i = s.ready i) :
    g.judge m.ring.val (mailBytes op m) false = .answer (g.cmdRun op (m.cx op)) := by
  obtain ⟨k, hk, h1, h2, h3, h4⟩ := hp
  have ho := findCmd_op hk
  have hn : (k.needs.find? fun i => !g.ready i) = none := by
    rw [List.find?_eq_none]
    intro i hi
    simp [hr, h3 i hi]
  unfold State.judge
  simp only [cOp_mailBytes op m hop, cBay_mailBytes, cFlags_mailBytes, hk, h1, hb, ho, h2, hn, h4, cSeq_mailBytes, cPay_mailBytes]
  simp [hw, Mail.cx]

/-- The bell that a producer rings latches its ring set (R248). -/
theorem inRotation_ringBell (s : State) {r i : Nat} (hr : r < 9) (hi : i < 9) (hq : s.inRotation i = false) :
    (s.ringBell r).inRotation i = decide (i = r) := by
  unfold State.inRotation at hq ⊢
  simp only [Bool.or_eq_false_iff] at hq
  have e : (s.ringBell r).reg Reg.MBX_DBLATCH = s.reg Reg.MBX_DBLATCH ||| (1#32 <<< r) := reg_setReg_self _ _ _
  have e2 : (s.ringBell r).mbx.active = s.mbx.active := rfl
  rw [e, e2, hq.2, BitVec.getLsbD_or, hq.1]
  simp only [Bool.false_or, Bool.or_false, BitVec.getLsbD_shiftLeft]
  by_cases h : i = r
  · subst h; simp; omega
  · rcases Nat.lt_or_gt_of_ne h with h' | h'
    · simp [h', h]
    · have : i - r ≠ 0 := by omega
      simp [h, BitVec.getLsbD_one, this]

theorem rotRing_mod (p : Nat) : rotRing (p % 9) = rotRing p := by simp [rotRing]

/-- Every ring set has a place in the rotation. -/
theorem rotRing_hits (n r : Nat) (hr : r < 9) : ∃ i, i < 9 ∧ rotRing (n + i) = r := by
  refine ⟨((if r = 8 then 0 else r + 1) + 9 - n % 9) % 9, Nat.mod_lt _ (by omega), ?_⟩
  unfold rotRing
  split <;> split <;> omega

theorem rotRing_next {p r : Nat} (hp : p < 9) (h : rotRing p = r) : (p + 1) % 9 = if r = 8 then 1 else (r + 2) % 9 := by
  subst h
  unfold rotRing
  split <;> split <;> omega

/-- Where only ring set `r` is latched or in the rotation, it is visited (R249). -/
theorem commandTake_one {s : State} {r : Nat} (hr : r < 9) (hm : s.ready rMBX = true) (h : ∀ i, i < 9 → s.inRotation i = decide (i = r)) :
    s.commandTake = (s.rotated r).visit r := by
  unfold State.commandTake
  simp only [hm, Bool.not_true, Bool.false_eq_true, if_false]
  have hrot : ∀ n, rotRing n < 9 := by intro n; unfold rotRing; split <;> omega
  cases hf : (List.range 9).find? fun i => s.inRotation (rotRing (s.mbx.next + i)) with
  | none =>
    exfalso
    obtain ⟨i, hi, e⟩ := rotRing_hits s.mbx.next r hr
    rw [List.find?_eq_none] at hf
    have := hf i (List.mem_range.2 hi)
    rw [e, h r hr] at this
    simp at this
  | some i =>
    have h1 := List.find?_some hf
    rw [h _ (hrot _)] at h1
    have h2 : rotRing (s.mbx.next + i) = r := by simpa using h1
    have h3 : rotRing ((s.mbx.next + i) % 9) = r := by rw [rotRing_mod, h2]
    simp only [h3, rotRing_next (Nat.mod_lt _ (by omega)) h3]
    rfl

/-- What a mailbox row whose command is taken at once does: its meaning runs on `State.given`, the blocks it names are freed, the answer goes
out, and the visit ends. -/
theorem mail_accepts {s : State} {op : Nat} {m : Mail} (hop : op < 65536) (hs : s.Accepts op m) (hw : op ≠ 0x0212)
    {x y : State} {st : Nat} {pay : List Byte} (hy : (s.given op m).cmdRun op (m.cx op) = (st, pay, y))
    (hx : x = y.freeBlocks m.ring.val (mailBytes op m)) :
    s.clean.mail op m =
      ((x.modEntry m.ring.val m.seq fun e => { e with did := some (st, pay) }).respond m.ring.val (mailBytes op m) 0 st pay).visited m.ring.val := by
  obtain ⟨ht, hp⟩ := hs
  have hr9 : m.ring.val < 9 := m.ring.isLt
  have hidle : (s.ring m.ring.val).cmdPi - (s.ring m.ring.val).cmdCi = 0 := by rw [ht.idle]; simp
  generalize hz : (s.clean.modRing m.ring.val fun q =>
      { q with mem := writeBytes zeroByte (mailBytes op m) (64 * (q.cmdPi.toNat % 32)) q.mem, cmdPi := q.cmdPi + 1 }) = z
  have hzr : z.ring m.ring.val = { s.ring m.ring.val with
      mem := writeBytes zeroByte (mailBytes op m) (64 * ((s.ring m.ring.val).cmdPi.toNat % 32)) (s.ring m.ring.val).mem
      cmdPi := (s.ring m.ring.val).cmdPi + 1 } := by
    rw [← hz]; exact ring_modRing_self s.clean _ hr9
  have hzregs : z.regs = s.regs := by rw [← hz]; rfl
  have hzw : z.mbx.waiting = s.mbx.waiting := by rw [← hz]; rfl
  generalize hv : ((z.ringBell m.ring.val).rotated m.ring.val).clearBell m.ring.val = v
  have hgiven : s.given op m = v.take m.ring.val (mailBytes op m) := by unfold State.given; rw [hz, hv]
  have hvr : v.ring m.ring.val = z.ring m.ring.val := by rw [← hv]; rfl
  have hany : (v.mbx.waiting.any fun y => y.1 = m.ring.val) = false := by
    have : v.mbx.waiting = s.mbx.waiting := by rw [← hv]; exact hzw
    rw [this, List.any_eq_false]
    intro y hy
    simpa using ht.unheld y hy
  have hn : v.waitingCmds m.ring.val = 1 := by
    unfold State.waitingCmds
    rw [hvr, hzr]
    simp only
    rw [← ht.idle]
    have : (s.ring m.ring.val).cmdPi + 1 - (s.ring m.ring.val).cmdPi = 1 := by ring
    rw [this]; rfl
  have hroom : ¬ ((v.ring m.ring.val).rspPi - (v.ring m.ring.val).rspCi).toNat ≥ 32 := by
    rw [hvr, hzr]; simpa using ht.room
  have hslot : v.slotCmd m.ring.val = mailBytes op m := by
    unfold State.slotCmd
    rw [hvr, hzr]
    simp only [← ht.idle]
    have := readBytes_writeBytes (d := zeroByte) (mailBytes op m) (64 * ((s.ring m.ring.val).cmdPi.toNat % 32)) (s.ring m.ring.val).mem
    rwa [mailBytes_length] at this
  have hback : ((v.ring m.ring.val).expSeq - cSeq (mailBytes op m)).toNat = 0 := by
    rw [hvr, hzr, cSeq_mailBytes]
    simp [ht.expected]
  have htake : v.takeFrom m.ring.val = (v.take m.ring.val (mailBytes op m)).serve m.ring.val (mailBytes op m) false := by
    unfold State.takeFrom
    simp only [hany, hn, hslot, hback]
    simp only [Bool.false_or]
    rw [if_neg (by simp), if_neg (by omega), if_neg hroom]
    exact if_pos trivial
  have hreg : ∀ a, a ≠ Reg.MBX_DBLATCH → (s.given op m).reg a = s.reg a := by
    intro a ha
    have : (s.given op m).reg a = v.reg a := by rw [hgiven]; rfl
    rw [this, ← hv]
    unfold State.clearBell State.ringBell State.rotated
    rw [reg_setReg_ne _ _ ha]
    show (z.setReg _ _).reg a = _
    rw [reg_setReg_ne _ _ ha]
    exact reg_of_regs hzregs a
  have hj : ∃ j, ((s.given op m).ring m.ring.val).journal = j ++ [{ seq := cSeq (mailBytes op m), cmd := mailBytes op m, state := .taken, rsp := [] }] := by
    rw [hgiven]
    unfold State.take
    rw [ring_modRing_self _ _ hr9]
    exact ⟨_, rfl⟩
  have h0 : (s.given op m).replayFlag m.ring.val m.seq = 0 := by
    obtain ⟨j, e⟩ := hj
    unfold State.replayFlag
    rw [e, List.reverse_append]
    simp [cSeq_mailBytes]
  have h1 : (s.given op m).journalled m.ring.val (mailBytes op m) = true := by
    obtain ⟨j, e⟩ := hj
    unfold State.journalled
    rw [e]
    simp
  have hserve : (s.given op m).serve m.ring.val (mailBytes op m) false =
      (x.modEntry m.ring.val m.seq fun e => { e with did := some (st, pay) }).respond m.ring.val (mailBytes op m) 0 st pay := by
    unfold State.serve
    rw [judge_passes hop hp hw (fun b => ?_) (fun i => ?_), hy]
    · simp only [cSeq_mailBytes, ← hx, h0, h1, if_true]
    · have hne : (bayStateFld b).addr ≠ Reg.MBX_DBLATCH := by
        simp [bayStateFld]
      simp only [State.bayState, State.get, hreg _ hne]
    · have hne : (rdyBit i).addr ≠ Reg.MBX_DBLATCH := by
        unfold rdyBit
        simp only [Reg.MBX_DBLATCH]
        split <;> simp
      simp only [State.ready, State.bit, State.get, hreg _ hne]
      rfl
  have hidle' : (s.clean.waitingCmds m.ring.val = 0 && s.clean.quiet) = true := by
    have h1 : s.clean.waitingCmds m.ring.val = 0 := by
      unfold State.waitingCmds
      show ((s.ring m.ring.val).cmdPi - (s.ring m.ring.val).cmdCi).toNat = 0
      rw [hidle]; rfl
    have h2 : s.clean.quiet = true := ht.quiet
    simp [h1, h2]
  unfold State.mail
  simp only []
  rw [if_pos (by simpa using hidle'), hz, commandTake_one hr9 ?_ ?_]
  · unfold State.visit
    simp only []
    rw [hv, htake, ← hgiven, hserve]
    rfl
  · have hne : (rdyBit rMBX).addr ≠ Reg.MBX_DBLATCH := by decide
    have h2 := ht.serving
    simp only [State.ready, State.bit, State.get] at h2 ⊢
    have e : (z.ringBell m.ring.val).reg (rdyBit rMBX).addr = z.reg (rdyBit rMBX).addr := reg_setReg_ne _ _ hne
    simp only [e, reg_of_regs hzregs]
    exact h2
  · intro i hi
    have hq : z.inRotation i = false := by
      have h2 := ht.quiet
      unfold State.quiet at h2
      rw [List.all_eq_true] at h2
      have h3 := h2 i (List.mem_range.2 hi)
      have : z.inRotation i = s.inRotation i := by
        unfold State.inRotation
        rw [reg_of_regs hzregs]
        rw [← hz]; rfl
      rw [this]
      simpa using h3
    exact inRotation_ringBell z hr9 hi hq

/-! ### The answer (R252, R260) -/

/-- A ring set's record after an answer, before its ring is sealed. -/
def RingSet.answered (q : RingSet) (c l : List Byte) : RingSet :=
  { q with
    mem := writeBytes zeroByte l (0x800 + 64 * (q.rspPi.toNat % 32)) q.mem
    rspPi := q.rspPi + 1
    journal := (q.journal.map fun e => if e.seq = cSeq c then { e with state := .done, rsp := l } else e).map fun e =>
      if e.seq = cSeq c then { e with state := .delivered } else e }

theorem hostRing_modRing (s : State) (r i : Nat) (f : RingSet → RingSet) : (s.modRing r f).hostRing i = s.hostRing i := rfl

/-- An answer touches its ring set, the functions' pending bits and the outputs; the host that consumes responses is told (R218). -/
theorem respond_shape (s : State) {r : Nat} (c : List Byte) (status : Nat) (pay : List Byte) (h : r < 9) :
    ∃ f o, s.respond r c 0 status pay = { s with
      mbx := { s.mbx with rings := vmod s.mbx.rings r fun q => q.answered c (rspBytes c 0 status pay) }
      pcie := { s.pcie with fns := f }, out := o } ∧
      (s.hostRing r = true → Out.msix r 0 ∈ o ∨ (vget f r).pend.getLsbD 0 = true) := by
  have hv : ∀ (v : Vector RingSet 9) (f g : RingSet → RingSet), vmod (vmod v r f) r g = vmod v r (g ∘ f) := by
    intro v f g
    simp [vmod, h]
  unfold State.respond State.writeRsp State.modEntry
  simp only [hostRing_modRing]
  by_cases hh : s.hostRing r = true
  · rw [if_pos hh]
    unfold State.msix
    split
    · refine ⟨s.pcie.fns, s.out ++ [.msix r 0], ?_, fun _ => .inl (by simp)⟩
      simp only [State.modRing, State.emit, hv]
      rfl
    · refine ⟨vmod s.pcie.fns r fun f => { f with pend := f.pend ||| (1#64 <<< 0) }, s.out, ?_, fun _ => .inr ?_⟩
      · simp only [State.modRing, State.modFn, hv]
        rfl
      · rw [vget_vmod_self _ _ h]
        simp
  · rw [if_neg hh]
    refine ⟨s.pcie.fns, s.out, ?_, fun k => absurd k hh⟩
    simp only [State.modRing, hv]
    rfl

/-- A ring set after a command: its record, with its ring cut to its size. -/
theorem ring_after (s : State) (g : State → State) {i : Nat} (h : i < 9) :
    (s.after g).ring i = { (g s.clean).ring i with mem := trimMem ringSize ((g s.clean).ring i).mem } := by
  simp [State.after, State.seal, State.ring, vget, h]

/-- The ring sets in `State.given`. -/
theorem given_ring (s : State) (op : Nat) (m : Mail) : ∃ j, (s.given op m).ring m.ring.val =
    { s.ring m.ring.val with
      mem := writeBytes zeroByte (mailBytes op m) (64 * ((s.ring m.ring.val).cmdPi.toNat % 32)) (s.ring m.ring.val).mem
      cmdPi := (s.ring m.ring.val).cmdPi + 1, cmdCi := (s.ring m.ring.val).cmdCi + 1, expSeq := (s.ring m.ring.val).expSeq + 1
      journal := j ++ [{ seq := cSeq (mailBytes op m), cmd := mailBytes op m, state := .taken, rsp := [] }] } := by
  have hr9 : m.ring.val < 9 := m.ring.isLt
  unfold State.given State.take
  rw [ring_modRing_self _ _ hr9]
  generalize hz : (s.clean.modRing m.ring.val fun q =>
      { q with mem := writeBytes zeroByte (mailBytes op m) (64 * (q.cmdPi.toNat % 32)) q.mem, cmdPi := q.cmdPi + 1 }) = z
  have e : (((z.ringBell m.ring.val).rotated m.ring.val).clearBell m.ring.val).ring m.ring.val = { s.ring m.ring.val with
      mem := writeBytes zeroByte (mailBytes op m) (64 * ((s.ring m.ring.val).cmdPi.toNat % 32)) (s.ring m.ring.val).mem
      cmdPi := (s.ring m.ring.val).cmdPi + 1 } := by rw [← hz]; exact ring_modRing_self s.clean _ hr9
  rw [e]
  exact ⟨_, rfl⟩

theorem given_ring_ne (s : State) (op : Nat) (m : Mail) {i : Nat} (h : i ≠ m.ring.val) : (s.given op m).ring i = s.ring i := by
  unfold State.given State.take
  rw [ring_modRing_ne _ _ h]
  exact ring_modRing_ne s.clean _ h

theorem rspBytes_length (c : List Byte) (fl st : Nat) (pay : List Byte) : (rspBytes c fl st pay).length = 64 := by
  simp [rspBytes, fixLen_length]

/-- A sealed state's rings are no longer than a ring area. -/
theorem ring_wf {s : State} (h : s.Sealed) {i : Nat} (hi : i < 9) : trimMem ringSize (s.ring i).mem = (s.ring i).mem := by
  obtain ⟨_, _, _, _, _, _, _, _, h9⟩ := h
  exact trimMem_eq_self (h9 _ (by simp [State.ring, vget, hi]))

/-- A command that is taken at once, whose effect `x` leaves the memories and the rings as they were, is answered (R252, R260). -/
theorem mail_answers {s : State} {op : Nat} {m : Mail} (hs : s.Sealed) (hop : op < 65536) (ha : s.Accepts op m) (hw : op ≠ 0x0212)
    {x y : State} {st : Nat} {pay : List Byte} (hy : (s.given op m).cmdRun op (m.cx op) = (st, pay, y))
    (hx : x = y.freeBlocks m.ring.val (mailBytes op m)) (hrings : ∀ i, x.ring i = (s.given op m).ring i) (hmem : s.MemKept x) (hram : x.dbg.ram = s.dbg.ram) (hpend : x.pending = s.pending)
    (hhost : x.hostRing m.ring.val = s.hostRing m.ring.val) :
    s.Answers x (s.after fun s => s.mail op m) op m st pay := by
  have hr9 : m.ring.val < 9 := m.ring.isLt
  have e0 := mail_accepts hop ha hw hy hx
  generalize hv : (x.modEntry m.ring.val m.seq fun e => { e with did := some (st, pay) }) = v at e0
  have hvs : v.ring m.ring.val = { x.ring m.ring.val with
      journal := (x.ring m.ring.val).journal.map fun e => if e.seq = m.seq then { e with did := some (st, pay) } else e } := by
    rw [← hv]; exact ring_modRing_self x _ hr9
  have hvn : ∀ i, i ≠ m.ring.val → v.ring i = x.ring i := by intro i hi; rw [← hv]; exact ring_modRing_ne x _ hi
  have hvx : v = { x with mbx := v.mbx } := by rw [← hv]; rfl
  have hvw : v.mbx.waiting = x.mbx.waiting := by rw [← hv]; rfl
  have hvh : v.hostRing m.ring.val = x.hostRing m.ring.val := by rw [← hv]; rfl
  obtain ⟨f, o, e1, told⟩ := respond_shape v (mailBytes op m) st pay hr9
  rw [e1] at e0
  obtain ⟨j, hg⟩ := given_ring s op m
  -- the ring sets of what the command leaves
  have hself : (s.clean.mail op m).ring m.ring.val = (v.ring m.ring.val).answered (mailBytes op m) (rspBytes (mailBytes op m) 0 st pay) := by
    rw [e0]; exact vget_vmod_self _ _ hr9
  have hother : ∀ i, i ≠ m.ring.val → (s.clean.mail op m).ring i = s.ring i := by
    intro i hi
    have e2 : (s.clean.mail op m).ring i = v.ring i := by rw [e0]; exact vget_vmod_ne _ _ hi
    rw [e2, hvn i hi, hrings, given_ring_ne s op m hi]
  have ht := ring_after s (fun s => s.mail op m) hr9
  rw [hself, hvs, hrings, hg] at ht
  have hl := rspBytes_length (mailBytes op m) 0 st pay
  refine ⟨⟨?_, ?_, ?_, ?_, ?_, ?_, ?_⟩, ?_, ?_, ?_⟩
  · rw [ht]
    simp only [RingSet.answered]
    rw [readBytes_trimMem _ _ _ _ (by simp only [ringSize]; omega), readBytes_writeBytes_disjoint _ _ _ _ _ (by omega)]
    have := readBytes_writeBytes (d := zeroByte) (mailBytes op m) (64 * ((s.ring m.ring.val).cmdPi.toNat % 32)) (s.ring m.ring.val).mem
    rwa [mailBytes_length] at this
  · rw [ht]
    simp only [RingSet.answered]
    rw [readBytes_trimMem _ _ _ _ (by simp only [ringSize]; omega)]
    have := readBytes_writeBytes (d := zeroByte) (rspBytes (mailBytes op m) 0 st pay) (0x800 + 64 * ((s.ring m.ring.val).rspPi.toNat % 32))
      (writeBytes zeroByte (mailBytes op m) (64 * ((s.ring m.ring.val).cmdPi.toNat % 32)) (s.ring m.ring.val).mem)
    rwa [hl] at this
  · rw [ht]; rfl
  · rw [ht]
    refine ⟨?_, rfl⟩
    show (s.ring m.ring.val).cmdCi + 1 = (s.ring m.ring.val).cmdPi + 1
    rw [ha.1.idle]
  · rw [ht]; rfl
  · rw [ht]
    refine ⟨{ seq := m.seq, cmd := mailBytes op m, state := .delivered, rsp := rspBytes (mailBytes op m) 0 st pay, did := some (st, pay) }, ?_, rfl, rfl,
      rfl, rfl⟩
    simp only [RingSet.answered, List.map_append, List.map_cons, List.map_nil, List.mem_append, List.mem_singleton, if_true, cSeq_mailBytes]
    exact .inr trivial
  · intro hh
    rw [← hhost, ← hvh] at hh
    have ho : (s.after fun s => s.mail op m).out = o := by
      show (s.clean.mail op m).out = o
      rw [e0]; rfl
    have hf : (s.after fun s => s.mail op m).pcie.fns = f := by
      show (s.clean.mail op m).pcie.fns = f
      rw [e0]; rfl
    rw [ho, hf]
    exact told hh
  · obtain ⟨m1, m2, m3, m4, m5⟩ := hmem
    have e := seal_eq_self hs
    have b1 : trimMem romSize s.rom = s.rom := congrArg State.rom e
    have b2 : trimMem sramSize s.sram = s.sram := congrArg State.sram e
    have b3 : trimMem bkfSize s.bkf = s.bkf := congrArg State.bkf e
    have b4 : trimMem ddrSize s.ddr = s.ddr := congrArg State.ddr e
    have b5 : snorm erasedByte (fun _ v => v) s.flash = s.flash := congrArg State.flash e
    have b6 : trimMem traceSize s.dbg.ram = s.dbg.ram := congrArg (fun s => s.dbg.ram) e
    refine ⟨o, (s.after fun s => s.mail op m).regs, (s.after fun s => s.mail op m).mbx, f, x.marks, ?_, ?_⟩
    case refine_2 =>
      rw [← hvw]
      show (s.clean.mail op m).mbx.waiting = _
      rw [e0]; rfl
    have e3 : s.after (fun s => s.mail op m) = { x with
        pending := s.pending, out := o, regs := (s.after fun s => s.mail op m).regs, mbx := (s.after fun s => s.mail op m).mbx
        pcie := { x.pcie with fns := f }
        rom := trimMem romSize x.rom, sram := trimMem sramSize x.sram, bkf := trimMem bkfSize x.bkf, ddr := trimMem ddrSize x.ddr
        flash := snorm erasedByte (fun _ v => v) x.flash, dbg := { x.dbg with ram := trimMem traceSize x.dbg.ram } } := by
      simp only [State.after, State.seal]
      rw [e0, hvx]
      rfl
    rw [e3]
    simp only [m1, m2, m3, m4, m5, hram, b1, b2, b3, b4, b5, b6, ← hpend]
    rw [← m1, ← m2, ← m3, ← m4, ← m5, ← hram]
  · intro a
    rw [after_reg]
    have : (s.clean.mail op m).reg a = x.reg a := by rw [e0, hvx]; rfl
    rw [this]
  · intro i hi
    by_cases h : i = m.ring.val
    · subst h
      rw [ht, hrings, hg]
      exact ⟨rfl, rfl, fun k => absurd rfl k⟩
    · have hi2 : (s.after fun s => s.mail op m).ring i = x.ring i := by
        rw [ring_after s _ hi, hother i h, hrings, given_ring_ne s op m h, ring_wf hs hi]
      rw [hi2]
      exact ⟨rfl, rfl, fun _ => rfl⟩

end Sys2Proof.Machine
end

