-- ==== Sys2Proof/Tests/Slice0.lean ====
section
/-! SUPPORT. Tests: the checks of `Instr.wf` refuse what they name; words of each core-instruction family, written out from the encodings of the
spec, decode to their instruction; single steps; and for every statement of Obligations.lean with hypotheses a theorem `witness_<Name>` that
gives, for each of its clauses, a state and operands that meet all the clause's hypotheses. -/

namespace Sys2Proof.Tests

open Sys2Proof Sys2Proof.Machine

set_option Elab.async false
set_option exponentiation.threshold 1024
set_option maxRecDepth 100000
set_option synthInstance.maxHeartbeats 2000000
set_option synthInstance.maxSize 100000

/-- Addresses rise strictly from `n` on, and each entry passes `ok`. -/
def rises {β : Type} (ok : Nat × β → Bool) : Nat → List (Nat × β) → Bool
  | _, [] => true
  | n, p :: t => Nat.ble n p.1 && (ok p && rises ok (p.1 + 1) t)

theorem rises_le {β : Type} {ok : Nat × β → Bool} {l : List (Nat × β)} {n : Nat} (h : rises ok n l = true) :
    ∀ p ∈ l, n ≤ p.1 ∧ ok p = true := by
  induction l generalizing n with
  | nil => simp
  | cons a l ih =>
    simp only [rises, Bool.and_eq_true] at h
    intro p hp
    cases hp with
    | head => exact ⟨Nat.le_of_ble_eq_true h.1, h.2.1⟩
    | tail _ hp => exact ⟨Nat.le_trans (Nat.le_of_ble_eq_true h.1) (Nat.le_of_succ_le (ih h.2.2 p hp).1), (ih h.2.2 p hp).2⟩

theorem rises_lt {β : Type} {ok : Nat × β → Bool} {l : List (Nat × β)} {n : Nat} (h : rises ok n l = true) :
    List.Pairwise (fun p q => p.1 < q.1) l := by
  induction l generalizing n with
  | nil => exact .nil
  | cons a l ih =>
    simp only [rises, Bool.and_eq_true] at h
    exact .cons (fun p hp => (rises_le h.2.2 p hp).1) (ih h.2.2)

def memOk (n : Nat) (p : Nat × Byte) : Bool := !Nat.beq p.2.toNat 0 && Nat.blt p.1 n
def regOk (p : Nat × Word) : Bool := !Nat.beq p.2.toNat (regReset p.1).toNat && Nat.beq (p.2 &&& ~~~ regMask p.1).toNat 0
def flashOk (p : Nat × Byte) : Bool := !Nat.beq p.2.toNat 255

theorem wf_of {n : Nat} {m : List (Nat × Byte)} (h : rises (memOk n) 0 m = true) : Memory.wf n m := by
  refine ⟨⟨rises_lt h, fun p hp => ?_⟩, fun p hp => ?_⟩ <;> have := (rises_le h p hp).2 <;> simp [memOk] at this
  · intro e; rw [e] at this; simp [zeroByte] at this
  · simpa [Nat.blt] using this.2

theorem sealed_of {s : State} (h : (rises regOk 0 s.regs && (rises (memOk romSize) 0 s.rom && (rises (memOk sramSize) 0 s.sram &&
    (rises (memOk bkfSize) 0 s.bkf && (rises (memOk ddrSize) 0 s.ddr && (rises flashOk 0 s.flash && (rises (memOk traceSize) 0 s.dbg.ram &&
    s.mbx.rings.toList.all fun q => rises (memOk ringSize) 0 q.mem))))))) = true) : s.Sealed := by
  simp only [Bool.and_eq_true, List.all_eq_true] at h
  obtain ⟨h1, h2, h3, h4, h5, h6, h7, h8⟩ := h
  refine ⟨⟨rises_lt h1, fun p hp e => ?_⟩, fun p hp => ?_, wf_of h2, wf_of h3, wf_of h4, wf_of h5, ⟨rises_lt h6, fun p hp e => ?_⟩, wf_of h7,
    fun q hq => wf_of (h8 q hq)⟩
  · have := (rises_le h1 p hp).2
    simp [regOk, e] at this
  · have := (rises_le h1 p hp).2
    simp only [regOk, Bool.and_eq_true, Nat.beq_eq] at this
    exact BitVec.eq_of_toNat_eq this.2
  · have := (rises_le h6 p hp).2
    simp [flashOk, e, erasedByte] at this

/-! Hypotheses of statements as decidable conditions. -/

theorem ready_of {s : State} {c : Nat} (h : s.follows c = false ∧ s.coreRuns c = true ∧ s.stands = false ∧ (s.core c).waits = false ∧
    (s.core c).asyncAt = none ∧ (s.core c).stepping = false ∧ s.haltWanted c = false ∧ (s.clean.fetchOk c).1 = some true ∧ s.fetchStill c = true) :
    s.Ready c := by
  obtain ⟨h1, h2, h3, h4, h5, h6, h7, h8, h9⟩ := h
  exact ⟨h1, h2, h3, h4, h5, h6, h7, h8, h9⟩

theorem issues_of {s : State} {c : Nat} (h : (s.follows c = false ∧ s.coreRuns c = true ∧ s.stands = false ∧ (s.core c).waits = false ∧
    (s.core c).asyncAt = none ∧ (s.core c).stepping = false ∧ s.haltWanted c = false ∧ (s.clean.fetchOk c).1 = some true ∧
    s.fetchStill c = true) ∧ s.irq c = none) : s.Issues c :=
  ⟨ready_of h.1, h.2⟩

theorem untraced_of {s : State} {c : Nat} (h : s.sinkRam c = false ∧ s.sinkPort c = false ∧ (s.src c).on = false) : s.Untraced c :=
  ⟨h.1, h.2.1, h.2.2⟩

theorem drained_of {s : State} {c : Nat} (h : s.busy c = false ∧ ∀ e ∈ s.bxm.held, e.2.core ≠ c) : s.Drained c := ⟨h.1, h.2⟩

theorem noNext_of {α : Type} {o : Option (Nat × α)} {n : Nat} {q : Prop} (h : o.all (fun p => decide (p.1 ≠ n)) = true ∧ ¬ q) :
    ¬((∃ t, o = some (n, t)) ∨ q) := by
  rintro (⟨t, rfl⟩ | x)
  · simp at h
  · exact h.2 x

theorem takes_of {s : State} {m : Mail} (h : m.pay.length ≤ 48 ∧ s.stands = false ∧ s.ready rMBX = true ∧ s.quiet = true ∧
    (s.ring m.ring.val).cmdPi = (s.ring m.ring.val).cmdCi ∧ (∀ x ∈ s.mbx.waiting, x.1 ≠ m.ring.val) ∧
    ((s.ring m.ring.val).rspPi - (s.ring m.ring.val).rspCi).toNat < 32 ∧ m.seq = (s.ring m.ring.val).expSeq) : s.Takes m := by
  obtain ⟨h1, h2, h3, h4, h5, h6, h7, h8⟩ := h
  exact ⟨h1, h2, h3, h4, h5, h6, h7, h8⟩

theorem accepts_of {s : State} {op : Nat} {m : Mail} (h : (m.pay.length ≤ 48 ∧ s.stands = false ∧ s.ready rMBX = true ∧ s.quiet = true ∧
    (s.ring m.ring.val).cmdPi = (s.ring m.ring.val).cmdCi ∧ (∀ x ∈ s.mbx.waiting, x.1 ≠ m.ring.val) ∧
    ((s.ring m.ring.val).rspPi - (s.ring m.ring.val).rspCi).toNat < 32 ∧ m.seq = (s.ring m.ring.val).expSeq) ∧
    (findCmd op).any (fun k => mayServe k.on m.ring.val m.bay.toNat &&
      (decide (bayGate k.on op (s.bayState m.bay.toNat) (bitAt m.flags.toNat 0) = .go) && (k.needs.all (fun i => s.ready i) &&
      k.payloadOk (mailBytes op m)))) = true) : s.Accepts op m := by
  obtain ⟨h0, h⟩ := h
  rw [Option.any_eq_true] at h
  obtain ⟨k, hk, h⟩ := h
  simp only [Bool.and_eq_true, decide_eq_true_eq, List.all_eq_true] at h
  exact ⟨takes_of h0, k, hk, h⟩

/-! A result with its parts, from what the result is. -/

theorem noRun_of {p : Prop} {P : Nat → Prop} (h : ¬ p) : ∀ run, ¬(p ∧ P run) := fun _ x => h x.1

theorem noSome_of {α : Type} {o : Option α} {P : α → Prop} (h : o.isNone = true) : ∀ a, ¬(o = some a ∧ P a) := by
  rintro a ⟨rfl, -⟩; cases h

theorem nilAll_of {α : Type} {l : List α} {P : α → Prop} (h : l.isEmpty = true) : ∀ e, e ∈ l → P e := by
  cases l <;> simp_all

theorem some_of {α : Type} [Inhabited α] {x : Option α} (h : x.isSome = true) : x = some (x.getD default) := by
  cases x <;> simp_all

theorem pair_of {α β : Type} [Inhabited α] {x : Option α × β} (h : x.1.isSome = true) : x = (some (x.1.getD default), x.2) := by
  obtain ⟨x | x, b⟩ := x <;> simp_all

theorem fst_of {α β : Type} {x : α × β} {a : α} (h : x.1 = a) : x = (a, x.2) := by
  obtain ⟨x, b⟩ := x
  simp_all

theorem cons_of {α : Type} [Inhabited α] {x : List α} (h : x.isEmpty = false) : x = x.headD default :: x.tail := by
  cases x <;> simp_all

theorem any_of {α : Type} {o : Option α} {P : α → Prop} [DecidablePred P] (h : o.any (fun a => decide (P a)) = true) : ∃ a, o = some a ∧ P a := by
  cases o <;> simp_all

theorem groups0_of {s : State} {b : Nat} (h : ∀ g, g < 8 → bitAt (s.grpField g 13 8) b = false) : ∀ m, s.groupsOn b m = 0 := by
  intro m
  have : ∀ p : Nat → Bool, (List.range 8).filter (fun g => bitAt (s.grpField g 13 8) b && p g) = [] := fun p =>
    List.filter_eq_nil_iff.2 fun g hg => by simp [h g (List.mem_range.1 hg)]
  simp [State.groupsOn, this]

theorem imageOk_of {roll : BitVec 64} {l : List Byte} (hash : ∀ k, bytesN 48 (Config.sha384 k) = bytesN 48 Config.fwRoot)
    (sig : ∀ k d g, Config.ecVerify true k d g = true) (h : (l.take 4 = magicCHFW ∧ imageLoadLen l ≤ 458752 ∧
      0x80 + imageLoadLen l + 96 ≤ l.length ∧ fieldAt l 8 4 ≤ 64) ∧ countBits roll ≤ fieldAt l 8 4) : imageOk roll l = true := by
  obtain ⟨⟨h1, h2, h3, h4⟩, h5⟩ := h
  simp [imageOk, h1, h2, h3, h4, h5, hash, sig]

theorem given {p q q' : Prop} (hp : p) (f : q' → q) : q' → p ∧ q := fun h => ⟨hp, f h⟩

theorem memory_of {p : Place} (h : (match p with | .sram _ => true | .ddr _ => true | _ => false) = true) : ∃ o, p = .sram o ∨ p = .ddr o := by
  cases p <;> simp_all

theorem noReg_of {p : Place} (h : (match p with | .reg _ => true | _ => false) = false) : ∀ r, p ≠ .reg r := by
  rintro r rfl; cases h

theorem still_of {s : State} (h : s.fig.ends.all (fun e => e.2.fifo.isEmpty && !e.2.gap) = true) : s.Still := by
  intro r
  suffices H : ∀ l : List (Nat × Endpoint), l.all (fun e => e.2.fifo.isEmpty && !e.2.gap) = true →
      (sget (fun _ => ({} : Endpoint)) l r).fifo = [] ∧ (sget (fun _ => ({} : Endpoint)) l r).gap = false from H _ h
  intro l hl
  induction l with
  | nil => exact ⟨rfl, rfl⟩
  | cons p l ih =>
    obtain ⟨a, e⟩ := p
    simp only [List.all_cons, Bool.and_eq_true, Bool.not_eq_true', List.isEmpty_iff] at hl
    by_cases ha : r = a
    · subst ha; simpa [sget] using hl.1
    · rw [sget, if_neg ha]; exact ih hl.2

theorem allUntraced_of {s : State} (h : ∀ c, c < 6 → s.sinkRam c = false ∧ s.sinkPort c = false ∧ (s.src c).on = false) :
    ∀ c, c < 6 → s.Untraced c := fun c hc => untraced_of (h c hc)

theorem groups_of {A : Nat → Prop} {B : Nat → Nat → Prop} (h : ∀ g, g < 8 → ∀ k, k < 6 → ¬(A g ∧ B g k)) :
    ∀ g k, k < 6 → ¬(g < 8 ∧ A g ∧ B g k) := fun g k hk x => h g x.1 k hk x.2

theorem noShare_of {p q : Prop} {l : List Sched} {i : Nat} (h : (¬ p ∧ ¬ q) ∧ ∀ x ∈ l, (match x.eff with | .shareMake j _ => decide (j ≠ i) | _ => true) = true) :
    ¬(p ∨ q ∨ ∃ x, x ∈ l ∧ ∃ y, x.eff = Effect.shareMake i y) := by
  rintro (x | x | ⟨x, hx, y, e⟩)
  · exact h.1.1 x
  · exact h.1.2 x
  · have := h.2 x hx
    simp [e] at this

def anyCmd : Cmd := ⟨0, .any, .i, [], 0, []⟩

def anyOp : CoreOp := .lui 0 0

theorem noRom_of {p : Place} (h : (match p with | .rom _ => true | _ => false) = false) : ∀ o, p ≠ .rom o := by
  rintro r rfl; cases h

theorem takeKey_of {s : State} {n key : Nat} (h : s.keyBad n = false ∧ (s.slotRec n).share ^^^ (s.slotRec n).mask = key)
    (ht : (s.slotRec n).tag = s.tagOf n (s.keyType n) (s.keyUsage n) (s.keyOwner n) ((s.slotRec n).share ^^^ (s.slotRec n).mask)) :
    (s.takeKey n).1 = some key := by
  simp [State.takeKey, h.1, ht, h.2]

theorem useKey_of {s : State} {n u key : Nat} (h : (s.keyBad n = false ∧ (s.slotRec n).share ^^^ (s.slotRec n).mask = key) ∧
    (s.keyType n = 0xF || !bitAt (s.keyUsage n) u || !(flagTypes u).contains (s.keyType n) || (wideType (s.keyType n) && n % 2 = 1)) = false)
    (ht : (s.slotRec n).tag = s.tagOf n (s.keyType n) (s.keyUsage n) (s.keyOwner n) ((s.slotRec n).share ^^^ (s.slotRec n).mask)) :
    (s.useKey n u).1 = .ok key := by
  have hk := takeKey_of h.1 ht
  simp only [State.useKey, h.1.1, Bool.false_eq_true, if_false, h.2]
  split <;> simp_all

/-- Slot `n` holds `key`, sealed with the tag of its settings (R447). -/
def withKey (n key : Nat) (s : State) : State :=
  s.modKeys fun k => { k with slots := vmod k.slots n fun _ => ⟨key, 0, s.tagOf n (s.keyType n) (s.keyUsage n) (s.keyOwner n) key⟩ }

theorem withKey_rec {n key : Nat} {s t : State} (hk : t.keys = (withKey n key s).keys) (hn : n < 64) :
    t.slotRec n = ⟨key, 0, s.tagOf n (s.keyType n) (s.keyUsage n) (s.keyOwner n) key⟩ := by
  rw [State.slotRec, hk]
  simp [withKey, State.modKeys, vmod, vget, hn]

theorem tag_of {n key : Nat} {s t : State} (hk : t.keys = (withKey n key s).keys)
    (h : n < 64 ∧ t.otp.drkA = s.otp.drkA ∧ t.otp.drkB = s.otp.drkB ∧ t.keyType n = s.keyType n ∧ t.keyUsage n = s.keyUsage n ∧
      t.keyOwner n = s.keyOwner n) :
    (t.slotRec n).tag = t.tagOf n (t.keyType n) (t.keyUsage n) (t.keyOwner n) ((t.slotRec n).share ^^^ (t.slotRec n).mask) ∧
      (t.slotRec n).share ^^^ (t.slotRec n).mask = key := by
  obtain ⟨hn, ha, hb, h1, h2, h3⟩ := h
  rw [withKey_rec hk hn, h1, h2, h3]
  simp [State.tagOf, State.tagKey, State.drk, ha, hb]

theorem given_keys (s : State) (op : Nat) (m : Mail) : (s.given op m).keys = s.keys := rfl

theorem takeKey_with {key : Nat} (s : State) {n m : Nat} {t : State} (hk : t.keys = (withKey n key s).keys)
    (h : m = n ∧ (n < 64 ∧ t.otp.drkA = s.otp.drkA ∧ t.otp.drkB = s.otp.drkB ∧ t.keyType n = s.keyType n ∧ t.keyUsage n = s.keyUsage n ∧
      t.keyOwner n = s.keyOwner n) ∧ t.keyBad n = false) : (t.takeKey m).1 = some key := by
  obtain ⟨rfl, h, hb⟩ := h
  exact takeKey_of ⟨hb, (tag_of hk h).2⟩ (tag_of hk h).1

theorem takeKey_pair {key : Nat} (s : State) {n m : Nat} {t : State} (hk : t.keys = (withKey n key s).keys)
    (h : m = n ∧ (n < 64 ∧ t.otp.drkA = s.otp.drkA ∧ t.otp.drkB = s.otp.drkB ∧ t.keyType n = s.keyType n ∧ t.keyUsage n = s.keyUsage n ∧
      t.keyOwner n = s.keyOwner n) ∧ t.keyBad n = false) : t.takeKey m = (some key, (t.takeKey m).2) :=
  fst_of (takeKey_with s hk h)

theorem useKey_with {key : Nat} (s : State) {n m u : Nat} {t : State} (hk : t.keys = (withKey n key s).keys)
    (h : m = n ∧ (n < 64 ∧ t.otp.drkA = s.otp.drkA ∧ t.otp.drkB = s.otp.drkB ∧ t.keyType n = s.keyType n ∧ t.keyUsage n = s.keyUsage n ∧
      t.keyOwner n = s.keyOwner n) ∧ t.keyBad n = false ∧
      (t.keyType n = 0xF || !bitAt (t.keyUsage n) u || !(flagTypes u).contains (t.keyType n) || (wideType (t.keyType n) && n % 2 = 1)) = false) :
    (t.useKey m u).1 = .ok key := by
  obtain ⟨rfl, h, hb, hu⟩ := h
  exact useKey_of ⟨⟨hb, (tag_of hk h).2⟩, hu⟩ (tag_of hk h).1

theorem useKey_ex {key : Nat} (s : State) {n m u : Nat} {t : State} (hk : t.keys = (withKey n key s).keys)
    (h : m = n ∧ (n < 64 ∧ t.otp.drkA = s.otp.drkA ∧ t.otp.drkB = s.otp.drkB ∧ t.keyType n = s.keyType n ∧ t.keyUsage n = s.keyUsage n ∧
      t.keyOwner n = s.keyOwner n) ∧ t.keyBad n = false ∧
      (t.keyType n = 0xF || !bitAt (t.keyUsage n) u || !(flagTypes u).contains (t.keyType n) || (wideType (t.keyType n) && n % 2 = 1)) = false) :
    ∃ key z, t.useKey m u = (.ok key, z) :=
  ⟨_, _, Prod.ext (useKey_with s hk h) rfl⟩

theorem signTag {key : Nat} {s : State} {ty n m : Nat} (h : m = n ∧ (withKey n key s).keyType n = ty ∧ n < 64) :
    ((withKey n key s).slotRec m).tag = (withKey n key s).tagOf m ty ((withKey n key s).keyUsage m) ((withKey n key s).keyOwner m)
      (((withKey n key s).slotRec m).share ^^^ ((withKey n key s).slotRec m).mask) := by
  obtain ⟨rfl, h, hn⟩ := h
  subst h
  exact (tag_of rfl ⟨hn, rfl, rfl, rfl, rfl, rfl⟩).1

/-- Slot `n`, which holds `key`, has been read: its shares are fresh (R447). -/
def tookKey (n key : Nat) (s : State) : State :=
  s.draw.2.modKeys fun k => { k with slots := vmod k.slots n fun q => { q with share := key ^^^ s.draw.1 % 2 ^ 512, mask := s.draw.1 % 2 ^ 512 } }

theorem useKey_took {key : Nat} (s : State) {n m u : Nat} {t : State} (hk : t.keys = (withKey n key s).keys)
    (h : m = n ∧ (n < 64 ∧ t.otp.drkA = s.otp.drkA ∧ t.otp.drkB = s.otp.drkB ∧ t.keyType n = s.keyType n ∧ t.keyUsage n = s.keyUsage n ∧
      t.keyOwner n = s.keyOwner n) ∧ t.keyBad n = false ∧
      (t.keyType n = 0xF || !bitAt (t.keyUsage n) u || !(flagTypes u).contains (t.keyType n) || (wideType (t.keyType n) && n % 2 = 1)) = false) :
    t.useKey m u = (.ok key, tookKey n key t) := by
  obtain ⟨rfl, h, hb, hu⟩ := h
  obtain ⟨h1, h2⟩ := tag_of hk h
  rw [h2] at h1
  simp only [State.useKey, hb, Bool.false_eq_true, if_false, hu, State.takeKey, h2, h1, ne_eq, not_true_eq_false]
  rfl

theorem blockBytes_keys (s : State) (b first len : Nat) : (s.blockBytes b first len).2.keys = s.keys := by
  unfold State.blockBytes
  generalize blockRuns _ _ _ = l
  suffices H : ∀ acc : Option (List Byte) × State, (l.foldl (fun acc r =>
    match acc with
    | (some l, s) =>
      match s.readPlace (s.windowPlace b r.1) r.2 with
      | (some m, s1) => (some (l ++ m), s1)
      | (none, s1) => (none, s1)
    | x => x) acc).2.keys = acc.2.keys from H (some [], s)
  induction l with
  | nil => exact fun _ => rfl
  | cons r l ih =>
    rintro ⟨_ | q, s⟩
    · exact ih _
    · rw [List.foldl_cons, ih]
      obtain ⟨_, _, _, e, -⟩ := onlyMarks_readPlace s (s.windowPlace b r.1) r.2
      have : (s.readPlace (s.windowPlace b r.1) r.2).2.keys = s.keys := by rw [e]
      dsimp only
      split <;> simp_all

theorem idle_keys (s : State) (b k n : Nat) : (s.blocksIdle b k n).keys = s.keys := by
  unfold State.blocksIdle State.each
  generalize List.range n = l
  induction l generalizing s with
  | nil => rfl
  | cons a l ih =>
    rw [List.foldl_cons, ih]
    split <;> rfl

theorem challenge_keys (s : State) (b : Nat) (x : Option Challenge) : (s.setChallenge b x).keys = s.keys := rfl

theorem figVerifies_with {key : Nat} (s : State) {n b : Nat} {img : List Byte} {t : State} (sig : ∀ p k d g, Config.ecVerify p k d g = true)
    (hk : t.keys = (withKey n key s).keys) (h : t.figKeySlot b = n ∧ (n < 64 ∧ t.otp.drkA = s.otp.drkA ∧ t.otp.drkB = s.otp.drkB ∧
      t.keyType n = s.keyType n ∧ t.keyUsage n = s.keyUsage n ∧ t.keyOwner n = s.keyOwner n) ∧ t.keyBad n = false ∧
      (t.keyType n = 0xF || !bitAt (t.keyUsage n) uFIGURE || !(flagTypes uFIGURE).contains (t.keyType n) || (wideType (t.keyType n) && n % 2 = 1)) = false) :
    t.figVerifies b img = (true, tookKey n key t) := by
  simp only [State.figVerifies, useKey_took s hk ⟨h.1, h.2⟩, verifyWith, sig]

theorem authHolds_with {key : Nat} (s : State) {n b : Nat} {x : Challenge} {l : List Byte} {t : State} (sig : ∀ p k d g, Config.ecVerify p k d g = true)
    (hk : t.keys = (withKey n key s).keys)
    (h : ((l.take 4 = [0x43, 0x44, 0x41, 0x31] ∧ fieldAt l 4 1 = x.level ∧ fieldAt l 5 1 = x.cores ∧ fieldAt l 6 1 = b ∧
        fieldAt l 8 4 = (t.reg Reg.SYS_CHIP_ID).toNat ∧ (l.drop 0x10).take 32 = x.nonce) ∧
        (t.bit Fd.PLB_STATE_VALID = true ∧ t.sec < fieldAt l 0x30 8 % 2 ^ 48) ∧ t.keyType n = 3 ∧ t.keyOwner n = b) ∧
      fieldAt l 7 1 = n ∧ (n < 64 ∧ t.otp.drkA = s.otp.drkA ∧ t.otp.drkB = s.otp.drkB ∧
      t.keyType n = s.keyType n ∧ t.keyUsage n = s.keyUsage n ∧ t.keyOwner n = s.keyOwner n) ∧ t.keyBad n = false ∧
      (t.keyType n = 0xF || !bitAt (t.keyUsage n) uDEBUG || !(flagTypes uDEBUG).contains (t.keyType n) || (wideType (t.keyType n) && n % 2 = 1)) = false) :
    t.authHolds b x l = (true, tookKey n key t) := by
  obtain ⟨⟨⟨h1, h2, h3, h4, h5, h6⟩, ⟨h7, h8⟩, h9, h10⟩, e, hn, hr⟩ := h
  have hn64 : ¬ n > 63 := by have := hn.1; omega
  have hu := useKey_took s (m := n) (u := uDEBUG) hk ⟨rfl, hn, hr⟩
  simp only [State.authHolds, e, hu, h1, h2, h3, h4, h5, h6, h7, h8, h9, h10, hn64, verifyWith, sig]
  simp

theorem openBlob_of {s : State} {b ty usage : Nat} {l : List Byte} (opens : ∀ k iv aad c, Config.gcmOpen k iv aad c = some [])
    (h : fieldAt l 5 1 = b ∧ l.take 4 = magicCKB1 ∧ fieldAt l 4 1 ≤ 2 ∧ fieldAt l 4 1 = ty ∧ fieldAt l 6 2 = usage) :
    s.openBlob b l = some (ty, usage, 0) := by
  obtain ⟨h1, h2, h3, h4, h5⟩ := h
  have z : beNat (bytesN 64 []) = 0 := by decide
  simp only [State.openBlob, h1, h2, h4, h5, opens]
  have : ¬ ty > 2 := by omega
  simp [this, z]

theorem bkfWrite_ok (f : Nat) (s : State) (a : Nat) (l : List Byte) (h : a % 16 = 0 ∧ l.length % 16 = 0 ∧ a + l.length ≤ bkfSize ∧ l.length < 16 * f) :
    (s.bkfWrite f a l).1 = true := by
  induction f generalizing s a l with
  | zero => omega
  | succ f ih =>
    obtain ⟨h1, h2, h3, h4⟩ := h
    cases l with
    | nil => rfl
    | cons x l =>
      have e : min (x :: l).length (16 - a % 16) = 16 := by rw [h1]; simp only [List.length_cons] at h2 ⊢; omega
      have g : ¬ a ≥ bkfSize := by simp only [List.length_cons] at h3; omega
      have hl : ((x :: l).drop 16).length = (x :: l).length - 16 := List.length_drop
      simp only [State.bkfWrite, e, g, if_true, if_false]
      exact ih _ _ _ ⟨by omega, by omega, by omega, by omega⟩

theorem bytesN_len (n : Nat) (l : List Byte) : (bytesN n l).length = n := fixLen_length 0 n l

theorem bytesN_some (n : Nat) (l : List Byte) : (bytesN (n + 1) l).isEmpty = false := by
  have := bytesN_len (n + 1) l
  cases h : bytesN (n + 1) l <;> simp_all

theorem mayPut {s : State} {b : Fin 8} {p : Place} {n : Nat} {l : List Byte} (h : b = 0 ∨ s.granted b p (0 + (n + 1)) true = true) :
    b = 0 ∨ s.granted b p (0 + (bytesN (n + 1) l).length) (!(bytesN (n + 1) l).isEmpty) = true := by
  rw [bytesN_len, bytesN_some]; exact h

theorem mayNotPut {s : State} {b : Fin 8} {p : Place} {n : Nat} {l : List Byte} (h : ¬(b = 0 ∨ s.granted b p (0 + (n + 1)) true = true)) :
    ¬(b = 0 ∨ s.granted b p (0 + (bytesN (n + 1) l).length) (!(bytesN (n + 1) l).isEmpty) = true) := by
  rw [bytesN_len, bytesN_some]; exact h

theorem putFits {o n m : Nat} {l : List Byte} (h : o + n ≤ m) : o + (bytesN n l).length ≤ m := by rw [bytesN_len]; exact h

/-- A request that meets no other is granted where its target can grant now. -/
theorem granted_alone {s : State} {r : BusReq} (h : s.bxm.reqs = [] ∧ (r.target ≠ 2 ∧ r.target ≠ 3) ∧ r.master < 8 ∧ (s.grantCycle r.target).isSome = true) :
    s.grantsNow r = true := by
  obtain ⟨h0, ⟨h1, h2⟩, h3, h4⟩ := h
  have e : (s.busPost r).busHeads r.target = [{ r with id := s.bxm.next }] := by
    have : ∀ m, m < 8 → (List.range 8).filterMap (fun k => [{ r with id := s.bxm.next }].find? fun q => q.target = r.target && q.master = k) =
        [{ r with id := s.bxm.next }] ∨ r.master ≠ m := by
      intro m hm
      by_cases hr : r.master = m
      · refine .inl ?_
        interval_cases m <;> simp [hr, List.range_succ]
      · exact .inr hr
    simpa [State.busHeads, State.busPost, State.modBxm, h0] using (this r.master h3).resolve_right (fun h => h rfl)
  have g : (s.busPost r).grantCycle r.target = s.grantCycle r.target := rfl
  have p : (s.busPost r).busPick r.target = some { r with id := s.bxm.next } := by
    simp only [State.busPick, e]
    split
    · rename_i q hq
      split at hq
      · cases hq
      · simp only [List.find?] at hq; split at hq <;> simp_all
    · by_cases hp : vget (s.busPost r).bxm.ptr r.target < r.master <;> simp [hp]
  simp [State.grantsNow, h1, h2, p, g, h4]

theorem blob_len (s : State) (b ty u key : Nat) (iv : List Byte) (h : ty ≠ 3) : (s.blobOf b ty u key iv).length = 112 := by
  simp only [State.blobOf, if_neg h, List.length_append, bytesN_len]
  rfl

theorem wroteBlob {s t : State} {p : Place} {b ty u key : Nat} {iv : List Byte} (o : Nat) (h : ty ≠ 3 ∧ p = .bkf o ∧ o % 16 = 0 ∧ o + 112 ≤ bkfSize) :
    (t.writePlace none p (s.blobOf b ty u key iv)).1 = true := by
  obtain ⟨h0, rfl, h1, h2⟩ := h
  have := blob_len s b ty u key iv h0
  exact bkfWrite_ok _ _ _ _ (by omega)

theorem jobKey_with {key : Nat} (s : State) {b n u : Nat} {t : State} (hk : t.keys = (withKey n key s).keys)
    (h : (n ≤ 63 ∧ t.keyOwner n = b) ∧ (n < 64 ∧ t.otp.drkA = s.otp.drkA ∧ t.otp.drkB = s.otp.drkB ∧ t.keyType n = s.keyType n ∧
      t.keyUsage n = s.keyUsage n ∧ t.keyOwner n = s.keyOwner n) ∧ t.keyBad n = false ∧
      (t.keyType n = 0xF || !bitAt (t.keyUsage n) u || !(flagTypes u).contains (t.keyType n) || (wideType (t.keyType n) && n % 2 = 1)) = false) :
    (t.jobKey b n u).1 = .ok key := by
  have h63 : ¬ n > 63 := by omega
  simp only [State.jobKey, h63, h.1.2, useKey_took s (m := n) (u := u) hk ⟨rfl, h.2⟩]
  simp

theorem has_of {s : State} {b : Nat} {got prev : List (List Byte)} {l : List Byte} (id : Nat)
    (h : got = prev ++ [l] ∧ s.keys.run = some { bay := b, got := prev, wait := some id } ∧ s.answerTo id = some (some l)) :
    ∃ id l prev, got = prev ++ [l] ∧ s.keys.run = some { bay := b, got := prev, wait := some id } ∧ s.answerTo id = some (some l) :=
  ⟨id, l, prev, h⟩

/-- The flash holds images of length 0. -/
def blank (s : State) : State :=
  { s with flash := [(0x10000C, 0), (0x10000D, 0), (0x10000E, 0), (0x10000F, 0), (0x20000C, 0), (0x20000D, 0), (0x20000E, 0), (0x20000F, 0)] }

def up : State := { State.reset with
  lock45 := true
  regs := [(0x40000004, 8), (0x40000020, 4), (0x40000024, 4), (0x40000028, 4), (0x4000002C, 4), (0x40000030, 4), (0x40000034, 4),
    (0x40000040, 0x20), (0x40020000, 0x3FFFF), (0x40020004, 2), (0x40020184, 1), (0x401A0104, 0x400000), (0x401A0124, 0x40000),
    (0x401A0144, 0x40000)] }

def gs (seed : Nat) : Vector Word 32 := Vector.ofFn fun i => BitVec.ofNat 32 
  (match (i.val * 7 + seed) % 9 with
   | 0 => 0 | 1 => 0x80000000 | 2 => 0xFFFFFFFF | 3 => 0x08040100 + 4 * i | 4 => 0x10000040 + i | 5 => 0x7FFFFFFF | 6 => 5 | 7 => 0x08040123 | _ => 123456789 * i)

abbrev M := Machine.State

def allRgn : Vector Rgn 8 := Vector.replicate 8 { base := 0, en := true, x := true, w := true, r := true, last := BitVec.allOnes 27 }

def core (lv : Machine.Level) (seed : Nat) : Core :=
  { g := gs seed, pc := 0x08040100 / 4, level := lv, rgn := allRgn, bay := 1,
    sx := { ppl := .u, vec := 0x4000, epc := 0x55, pien := true }, fx := { ppl := .s, vec := 0x800, epc := 0x77, pien := true }, cycle := 0x123456789ABC, resv := some 3
    icache := [{ line := 0x08040100 / 32, data := List.replicate 32 0 }] }

def withCores (s : Machine.State) (f : Nat → Core) : Machine.State :=
  { s with cores := Vector.ofFn fun i => f i.val }

def isa (lv : Machine.Level) (seed : Nat) : Machine.State := withCores up (fun i => core lv (seed + i / 2 * 0))

def bytes (n seed : Nat) : List (Nat × Byte) := ((List.range n).map fun i => (i, BitVec.ofNat 8 (i * 37 + seed + 1))).filter (·.2 ≠ 0)

def mem (s : State) : State := { s with sram := (bytes 16 3).map fun p => (p.1 + 0x40000, p.2), bkf := bytes 16 5, ddr := bytes 16 7 }

def cached (s : Machine.State) : Machine.State :=
  { s with cores := Vector.ofFn fun i => let k := vget s.cores i; { k with dcache := (k.g.toList.map fun x =>
     let key := (s.place i x.toNat).key; ({ line := key / 32, data := (List.range 32).map fun j => BitVec.ofNat 8 (j * 77 + key) } : CLine)).eraseDups } }

/-! ### Commands that no one can present are ill formed -/

def longMail : Mail := ⟨8, 0, 0, 0, 0, List.replicate 49 0⟩

theorem test_wf_payload : (Instr.sysNop longMail).wellFormed = false := by decide
theorem test_wf_illegal_word : (Instr.illegalInstruction 0 0x04630002).wellFormed = false := by decide
theorem test_wf_window_read : (Instr.windowRead 1 0xFFFFFFF 2).wellFormed = false := by decide
theorem test_wf_window_read_empty : (Instr.windowRead 1 0 0).wellFormed = false := by decide
theorem test_wf_window_write : (Instr.windowWrite 1 0xFFFFFFF [1, 2]).wellFormed = false := by decide
theorem test_wf_snap_doorbell : (Instr.snapWriteIgnored 0x1003).wellFormed = false := by decide
theorem test_wf_bay_rings_pf : (Instr.doorbellRing 8 false).wellFormed = false := by decide
theorem test_wf_csi_sample : (Instr.csiPacket 0 0 0 0 0x2B true [65536]).wellFormed = false := by decide
theorem test_wf_audio_output : (Instr.audioCaptureEmit 7).wellFormed = false := by decide
theorem test_ill_formed_refused : exec (.sysNop longMail) State.reset = .refused .illFormed := rfl

/-! ### Words of core instructions, field by field from the formats and codes of R189 and R190 -/

theorem test_decode_sub : decodeCore 0b000000_00100_00101_00110_00000000001#32 = some (.alu .sub 4 5 6) := by decide +kernel
theorem test_decode_mulhu : decodeCore 0b000000_11111_00001_00010_00000010010#32 = some (.alu .mulhu 31 1 2) := by decide +kernel
theorem test_decode_addi : decodeCore 0b000001_00011_00011_0000000000000010#32 = some (.imm .addi 3 3 2) := by decide +kernel
theorem test_decode_srai : decodeCore 0b000111_00001_00010_0000000000011111#32 = some (.shift .srai 1 2 31) := by decide +kernel
theorem test_decode_srai_must_be_0 : decodeCore 0b000111_00001_00010_0000000000100000#32 = none := by decide +kernel
theorem test_decode_lui : decodeCore 0b001010_00111_00000_1000000000000001#32 = some (.lui 7 0x8001) := by decide +kernel
theorem test_decode_lui_must_be_0 : decodeCore 0b001010_00111_00001_1000000000000001#32 = none := by decide +kernel
theorem test_decode_lbu : decodeCore 0b010001_00101_00011_0000000000000000#32 = some (.load .lbu 5 3 0) := by decide +kernel
theorem test_decode_sw : decodeCore 0b011010_00101_00010_1111111111111100#32 = some (.store .sw 5 2 0xFFFC) := by decide +kernel
theorem test_decode_sc : decodeCore 0b011011_00001_00010_00011_00000000000#32 = some (.sc 1 2 3) := by decide +kernel
theorem test_decode_bne : decodeCore 0b100001_00011_00110_1111111111111011#32 = some (.branch .bne 3 6 0xFFFB) := by decide +kernel
theorem test_decode_jal : decodeCore 0b101001_11111111111111111111111110#32 = some (.jal 0x3FFFFFE) := by decide +kernel
theorem test_decode_jalr : decodeCore 0b101010_00000_00001_0000000000000000#32 = some (.jalr 0 1 0) := by decide +kernel
theorem test_decode_ctlr : decodeCore 0b111100_00101_00000_0000000000010000#32 = some (.ctlr 5 0x10) := by decide +kernel
theorem test_decode_ctlw : decodeCore 0b111101_00000_00101_0000000000010000#32 = some (.ctlw 0x10 5) := by decide +kernel
theorem test_decode_eret : decodeCore 0b111111_00000_00000_00000_00000000001#32 = some .eret := by decide +kernel
theorem test_decode_dinv : decodeCore 0b111111_00000_01001_00000_00000010010#32 = some (.dinv 9) := by decide +kernel
theorem test_decode_undefined : decodeCore 0b110000_00000_00000_00000_00000000000#32 = none := by decide +kernel

/-! ### Single steps -/

/-- The state that an outcome goes on with. -/
def nextOf : Host.Outcome State Fault Refusal → Option State
  | .next s => some s
  | _ => none

/-- Core 4 at level S with general register 5 at `v`. -/
def withG5 (v : Word) : State := { isa .s 1 with cores := (isa .s 1).cores.map fun k => { k with g := k.g.set 5 v } }

theorem test_addi_wraps : (nextOf (exec (.addi 4 6 5 2) (withG5 0xFFFFFFFF))).map (fun t => (t.greg 4 6, t.greg 4 5)) = some (1, 0xFFFFFFFF) := by
  decide +kernel
theorem test_addi_sign_extends : (nextOf (exec (.addi 4 6 5 0xFFFD) (withG5 2))).map (·.greg 4 6) = some 0xFFFFFFFF := by decide +kernel
theorem test_andi_zero_extends : (nextOf (exec (.andi 4 6 5 0xFFFD) (withG5 0xFFFFFFFF))).map (·.greg 4 6) = some 0xFFFD := by decide +kernel
theorem test_g0_reads_0 : (nextOf (exec (.addi 4 0 5 1) (withG5 7))).map (·.greg 4 0) = some 0 := by decide +kernel
theorem test_div_by_0 : (nextOf (exec (.div 4 6 5 0) (withG5 7))).map (·.greg 4 6) = some 0xFFFFFFFF := by decide +kernel
theorem test_div_min_by_minus_1 : (nextOf (exec (.div 4 6 5 7) { withG5 0x80000000 with
    cores := (withG5 0x80000000).cores.map fun k => { k with g := k.g.set 7 0xFFFFFFFF } })).map (·.greg 4 6) = some 0x80000000 := by decide +kernel
theorem test_lui : (nextOf (exec (.lui 4 6 0x8001) (withG5 0))).map (·.greg 4 6) = some 0x80010000 := by decide +kernel
theorem test_branch_not_taken : (nextOf (exec (.bne 4 5 5 0x7FFF) (withG5 3))).map (fun t => (t.core 4).pc) = some (((withG5 3).core 4).pc + 1) := by
  decide +kernel
theorem test_front_first : (nextOf (step { State.reset with pending := [.systemReset, .debugReset] })).map (·.pending) = some [.debugReset] := by
  decide +kernel
theorem test_idle_ticks : (nextOf (step State.reset)).isSome = true := by decide +kernel
theorem test_reset_no_commands : State.reset.pending = [] := rfl

theorem reset_sealed : State.reset.Sealed := sealed_of (by decide +kernel)

/-- A state that meets the hypotheses of `Obligations.StepRunsFront`. -/
theorem witness_StepRunsFront :
    State.reset.Sealed ∧ State.reset.pending = [] ∧ State.reset.bit Fd.SYS_CLKSTAT_BEAT_ALIGNED = false ∧ State.reset.clk.gateAt = none :=
  ⟨reset_sealed, rfl, by decide +kernel, rfl⟩

/-- States that meet the hypotheses of `Obligations.StepsKeepSealed`: one whose step goes on, one whose step refuses. -/
theorem witness_StepsKeepSealed :
    (State.reset.Sealed ∧ ∃ t, step State.reset = .next t) ∧
    (let s := { State.reset with pending := [.sysNop longMail] }
     s.Sealed ∧ ∃ r, step s = .refused r) := by
  refine ⟨⟨reset_sealed, ?_⟩, sealed_of (by decide +kernel), .illFormed, rfl⟩
  have h := test_idle_ticks
  revert h
  generalize step State.reset = o
  intro h
  cases o with
  | next t => exact ⟨t, rfl⟩
  | fault f => cases h
  | refused r => cases h

/-- A word that meets the hypothesis of `Obligations.CoreWordsRoundTrip`. -/
theorem witness_CoreWordsRoundTrip : decodeCore 0b001010_00111_00000_1000000000000001#32 = some (.lui 7 0x8001) := test_decode_lui

/-- The last slot, core, bay and port that `Obligations.ResetIsSealed` speaks of. -/
theorem witness_ResetIsSealed : 63 < 64 ∧ 5 < 6 ∧ 7 < 8 := by decide

namespace SetW2

def su : Machine.State := mem (isa .u 1)

def ss : Machine.State := mem (isa .s 1)

def sf : Machine.State := mem (isa .f 1)

theorem sf_sealed : State.Sealed sf := sealed_of (by decide +kernel)

theorem ss_sealed : State.Sealed ss := sealed_of (by decide +kernel)

theorem su_sealed : State.Sealed su := sealed_of (by decide +kernel)

/-- Boot ROM and working SRAM have changed places. -/
def tight : M := sf.put Fd.SYS_REMAP_SWAP 1

def g8 (v : Word) (k : Core) : Core := { k with g := k.g.set 8 v }

/-- General register 8 points into the second memory. -/
def far : M := { su with cores := su.cores.map (g8 0x80000040) }

/-- General register 8 points into the working SRAM's part of the bay. -/
def near : M := { su with cores := su.cores.map (g8 0x08040120) }

/-- States that meet the hypotheses of `Obligations.AluResults`, clause by clause. -/
theorem witness_AluResults :
  (let c : Fin 6 := 4;
   let s : State := su;
   s.Sealed ∧ s.Issues ↑c) :=
  ((given su_sealed issues_of))
  (by decide +kernel)

/-- States that meet the hypotheses of `Obligations.BranchesAndJumps`, clause by clause. -/
theorem witness_BranchesAndJumps :
  (let c : Fin 6 := 4;
   let s : State := su;
   s.Sealed ∧ s.Issues ↑c ∧ s.Untraced ↑c) :=
  ((given su_sealed (And.imp issues_of untraced_of)))
  (by decide +kernel)

/-- States that meet the hypotheses of `Obligations.ControlReads`, clause by clause. -/
theorem witness_ControlReads :
  (let c : Fin 6 := 4;
   let s : State := su;
   s.Sealed ∧ s.Issues ↑c) ∧
  (let c : Fin 6 := 4;
   let s : State := ss;
   let k : Core := s.core ↑c;
   let l : Nat := k.level.rank;
   s.Sealed ∧ s.Issues ↑c ∧ 1 ≤ l) ∧
  (let c : Fin 6 := 4;
   let s : State := sf;
   let k : Core := s.core ↑c;
   let l : Nat := k.level.rank;
   s.Sealed ∧ s.Issues ↑c ∧ 2 ≤ l) :=
  (And.imp (given su_sealed issues_of) <|
  And.imp (given ss_sealed (And.imp issues_of id)) <|
  (given sf_sealed (And.imp issues_of id)))
  (by decide +kernel)

/-- States that meet the hypotheses of `Obligations.ExceptionEntry`, clause by clause. -/
theorem witness_ExceptionEntry :
  (let c : Fin 6 := 4;
   let s : State := su;
   let k : Core := s.core ↑c;
   s.Sealed ∧ s.Issues ↑c ∧ s.Untraced ↑c ∧ k.level = Level.u ∧ ((if false = true then k.fx else k.sx).inexc = false) ∧ (k.level = Level.s →
     k.sx.inexc = false)) ∧
  (let c : Fin 6 := 4;
   let s : State := ss;
   let k : Core := s.core ↑c;
   s.Sealed ∧ s.Issues ↑c ∧ s.Untraced ↑c ∧ k.level = Level.s ∧ ((if true = true then k.fx else k.sx).inexc = false) ∧ (k.level = Level.s →
     k.sx.inexc = false)) ∧
  (let c : Fin 6 := 4;
   let s : State := sf;
   let k : Core := s.core ↑c;
   s.Sealed ∧ s.Issues ↑c ∧ s.Untraced ↑c ∧ k.level = Level.f ∧ ((if true = true then k.fx else k.sx).inexc = false) ∧ (k.level = Level.s →
     k.sx.inexc = false)) ∧
  (let c : Fin 6 := 4;
   let s : State := su;
   let w : Word := 4227858434#32;
   let k : Core := s.core ↑c;
   s.Sealed ∧ s.Issues ↑c ∧ s.Untraced ↑c ∧ decodeCore w = none ∧ ((if decide (k.level = Level.f) = true then k.fx else k.sx).inexc = false) ∧
     (k.level = Level.s → k.sx.inexc = false)) ∧
  (let c : Fin 6 := 4;
   let n : BitVec 12 := 819#12;
   let s : State := su;
   let k : Core := s.core ↑c;
   s.Sealed ∧ s.Issues ↑c ∧ s.Untraced ↑c ∧ scrLevels n.toNat false = none ∧ ((if decide (k.level = Level.f) = true then k.fx else k.sx).inexc =
     false) ∧ (k.level = Level.s → k.sx.inexc = false)) ∧
  (let c : Fin 6 := 4;
   let n : BitVec 12 := 16#12;
   let s : State := su;
   let r : Nat := ((scrLevels n.toNat false).getD default).fst;
   let w : Nat := ((scrLevels n.toNat false).getD default).snd;
   let k : Core := s.core ↑c;
   s.Sealed ∧ s.Issues ↑c ∧ s.Untraced ↑c ∧ scrLevels n.toNat false = some (r, w) ∧ k.level.rank < r ∧ ((if decide (k.level = Level.f) = true then
     k.fx else k.sx).inexc = false) ∧ (k.level = Level.s → k.sx.inexc = false)) ∧
  (let c : Fin 6 := 4;
   let n : BitVec 12 := 0#12;
   let s : State := su;
   let r : Nat := ((scrLevels n.toNat false).getD default).fst;
   let w : Nat := ((scrLevels n.toNat false).getD default).snd;
   let k : Core := s.core ↑c;
   s.Sealed ∧ s.Issues ↑c ∧ s.Untraced ↑c ∧ scrLevels n.toNat false = some (r, w) ∧ k.level.rank < w ∧ ((if decide (k.level = Level.f) = true then
     k.fx else k.sx).inexc = false) ∧ (k.level = Level.s → k.sx.inexc = false)) ∧
  (let c : Fin 6 := 4;
   let ra : BitVec 5 := 6#5;
   let i : BitVec 16 := 0#16;
   let s : State := su;
   let k : Core := s.core ↑c;
   let a : Word := s.greg (↑c) ra + BitVec.signExtend 32 i;
   s.Sealed ∧ s.Issues ↑c ∧ s.Untraced ↑c ∧ BitVec.toNat a % 2 ≠ 0 ∧ ((if decide (k.level = Level.f) = true then k.fx else k.sx).inexc = false) ∧
     (k.level = Level.s → k.sx.inexc = false)) ∧
  (let c : Fin 6 := 4;
   let ra : BitVec 5 := 6#5;
   let i : BitVec 16 := 0#16;
   let s : State := su;
   let k : Core := s.core ↑c;
   let a : Word := s.greg (↑c) ra + BitVec.signExtend 32 i;
   s.Sealed ∧ s.Issues ↑c ∧ s.Untraced ↑c ∧ BitVec.toNat a % 4 ≠ 0 ∧ ((if decide (k.level = Level.f) = true then k.fx else k.sx).inexc = false) ∧
     (k.level = Level.s → k.sx.inexc = false)) ∧
  (let c : Fin 6 := 4;
   let ra : BitVec 5 := 6#5;
   let s : State := su;
   let k : Core := s.core ↑c;
   let b : Word := s.greg (↑c) ra;
   s.Sealed ∧ s.Issues ↑c ∧ s.Untraced ↑c ∧ BitVec.toNat b % 4 ≠ 0 ∧ ((if decide (k.level = Level.f) = true then k.fx else k.sx).inexc = false) ∧
     (k.level = Level.s → k.sx.inexc = false)) ∧
  (let c : Fin 6 := 4;
   let s : State := su;
   let k : Core := s.core ↑c;
   s.Sealed ∧ s.Issues ↑c ∧ s.Untraced ↑c ∧ s.levelEnabled (↑c) false = false ∧ ((if decide (k.level = Level.f) = true then k.fx else k.sx).inexc =
     false) ∧ (k.level = Level.s → k.sx.inexc = false)) :=
  (And.imp (given su_sealed (And.imp issues_of (And.imp untraced_of id))) <|
  And.imp (given ss_sealed (And.imp issues_of (And.imp untraced_of id))) <|
  And.imp (given sf_sealed (And.imp issues_of (And.imp untraced_of id))) <|
  And.imp (given su_sealed (And.imp issues_of (And.imp untraced_of id))) <|
  And.imp (given su_sealed (And.imp issues_of (And.imp untraced_of id))) <|
  And.imp (given su_sealed (And.imp issues_of (And.imp untraced_of id))) <|
  And.imp (given su_sealed (And.imp issues_of (And.imp untraced_of id))) <|
  And.imp (given su_sealed (And.imp issues_of (And.imp untraced_of id))) <|
  And.imp (given su_sealed (And.imp issues_of (And.imp untraced_of id))) <|
  And.imp (given su_sealed (And.imp issues_of (And.imp untraced_of id))) <|
  (given su_sealed (And.imp issues_of (And.imp untraced_of id))))
  (by decide +kernel)

/-- States that meet the hypotheses of `Obligations.StoresArePosted`, clause by clause. -/
theorem witness_StoresArePosted :
  (let c : Fin 6 := 4;
   let rs : BitVec 5 := 6#5;
   let ra : BitVec 5 := 8#5;
   let i : BitVec 16 := 0#16;
   let s : State := far;
   let k : Core := s.core ↑c;
   let a : Nat := BitVec.toNat (s.greg (↑c) ra + BitVec.signExtend 32 i);
   let p : Place := s.place (↑c) a;
   let v : Word := s.greg (↑c) rs;
   let q : BusReq :=
      { master := if ↑c < 2 then 0 else ↑c - 1, core := ↑c, level := k.level, target := p.target, addr := a, key := p.key, data := [BitVec.extractLsb' 0 8 v], since := s.clk.now };
   s.Sealed ∧ s.Issues ↑c ∧ k.loaded = none ∧ k.region Rgn.w a = true ∧ (∀ (r : Nat), p ≠ Place.reg r) ∧ a % [BitVec.extractLsb' 0 8 v].length = 0 ∧
     s.coreMay (↑c) p [BitVec.extractLsb' 0 8 v].length true = true ∧ s.tcm (↑c) a = false ∧ s.posted ↑c < 4 ∧ s.grantsNow q = false) ∧
  (let c : Fin 6 := 4;
   let rs : BitVec 5 := 6#5;
   let ra : BitVec 5 := 8#5;
   let i : BitVec 16 := 0#16;
   let s : State := near;
   let m : Nat := 262432;
   let k : Core := s.core ↑c;
   let a : Nat := BitVec.toNat (s.greg (↑c) ra + BitVec.signExtend 32 i);
   let p : Place := s.place (↑c) a;
   let v : Word := s.greg (↑c) rs;
   let q : BusReq :=
      { master := if ↑c < 2 then 0 else ↑c - 1, core := ↑c, level := k.level, target := p.target, addr := a, key := p.key, data := [BitVec.extractLsb' 0 8 v], since := s.clk.now };
   s.Sealed ∧ s.Issues ↑c ∧ k.loaded = none ∧ k.region Rgn.w a = true ∧ (∀ (r : Nat), p ≠ Place.reg r) ∧ a % [BitVec.extractLsb' 0 8 v].length = 0 ∧
     s.coreMay (↑c) p [BitVec.extractLsb' 0 8 v].length true = true ∧ s.tcm (↑c) a = false ∧ s.posted ↑c < 4 ∧ s.grantsNow q = true ∧ p = Place.sram
     m) ∧
  (let c : Fin 6 := 0;
   let rs : BitVec 5 := 6#5;
   let ra : BitVec 5 := 11#5;
   let i : BitVec 16 := 3#16;
   let s : State := tight;
   let k : Core := s.core ↑c;
   let a : Nat := BitVec.toNat (s.greg (↑c) ra + BitVec.signExtend 32 i);
   let p : Place := s.place (↑c) a;
   let v : Word := s.greg (↑c) rs;
   s.Sealed ∧ s.Issues ↑c ∧ k.loaded = none ∧ k.region Rgn.w a = true ∧ (∀ (r : Nat), p ≠ Place.reg r) ∧ a % [BitVec.extractLsb' 0 8 v].length = 0 ∧
     s.coreMay (↑c) p [BitVec.extractLsb' 0 8 v].length true = true ∧ s.tcm (↑c) a = true) ∧
  (let c : Fin 6 := 4;
   let rs : BitVec 5 := 6#5;
   let ra : BitVec 5 := 8#5;
   let i : BitVec 16 := 0#16;
   let s : State := far;
   let k : Core := s.core ↑c;
   let a : Nat := BitVec.toNat (s.greg (↑c) ra + BitVec.signExtend 32 i);
   let p : Place := s.place (↑c) a;
   let v : Word := s.greg (↑c) rs;
   let q : BusReq :=
      { master := if ↑c < 2 then 0 else ↑c - 1, core := ↑c, level := k.level, target := p.target, addr := a, key := p.key, data := [BitVec.extractLsb' 0 8 v, BitVec.extractLsb' 8 8 v], since := s.clk.now };
   s.Sealed ∧ s.Issues ↑c ∧ k.loaded = none ∧ k.region Rgn.w a = true ∧ (∀ (r : Nat), p ≠ Place.reg r) ∧ a % [BitVec.extractLsb' 0 8 v,
     BitVec.extractLsb' 8 8 v].length = 0 ∧ s.coreMay (↑c) p [BitVec.extractLsb' 0 8 v, BitVec.extractLsb' 8 8 v].length true = true ∧ s.tcm (↑c) a
     = false ∧ s.posted ↑c < 4 ∧ s.grantsNow q = false) ∧
  (let c : Fin 6 := 4;
   let rs : BitVec 5 := 6#5;
   let ra : BitVec 5 := 8#5;
   let i : BitVec 16 := 0#16;
   let s : State := near;
   let m : Nat := 262432;
   let k : Core := s.core ↑c;
   let a : Nat := BitVec.toNat (s.greg (↑c) ra + BitVec.signExtend 32 i);
   let p : Place := s.place (↑c) a;
   let v : Word := s.greg (↑c) rs;
   let q : BusReq :=
      { master := if ↑c < 2 then 0 else ↑c - 1, core := ↑c, level := k.level, target := p.target, addr := a, key := p.key, data := [BitVec.extractLsb' 0 8 v, BitVec.extractLsb' 8 8 v], since := s.clk.now };
   s.Sealed ∧ s.Issues ↑c ∧ k.loaded = none ∧ k.region Rgn.w a = true ∧ (∀ (r : Nat), p ≠ Place.reg r) ∧ a % [BitVec.extractLsb' 0 8 v,
     BitVec.extractLsb' 8 8 v].length = 0 ∧ s.coreMay (↑c) p [BitVec.extractLsb' 0 8 v, BitVec.extractLsb' 8 8 v].length true = true ∧ s.tcm (↑c) a
     = false ∧ s.posted ↑c < 4 ∧ s.grantsNow q = true ∧ p = Place.sram m) ∧
  (let c : Fin 6 := 0;
   let rs : BitVec 5 := 6#5;
   let ra : BitVec 5 := 11#5;
   let i : BitVec 16 := 3#16;
   let s : State := tight;
   let k : Core := s.core ↑c;
   let a : Nat := BitVec.toNat (s.greg (↑c) ra + BitVec.signExtend 32 i);
   let p : Place := s.place (↑c) a;
   let v : Word := s.greg (↑c) rs;
   s.Sealed ∧ s.Issues ↑c ∧ k.loaded = none ∧ k.region Rgn.w a = true ∧ (∀ (r : Nat), p ≠ Place.reg r) ∧ a % [BitVec.extractLsb' 0 8 v,
     BitVec.extractLsb' 8 8 v].length = 0 ∧ s.coreMay (↑c) p [BitVec.extractLsb' 0 8 v, BitVec.extractLsb' 8 8 v].length true = true ∧ s.tcm (↑c) a
     = true) ∧
  (let c : Fin 6 := 4;
   let rs : BitVec 5 := 6#5;
   let ra : BitVec 5 := 8#5;
   let i : BitVec 16 := 0#16;
   let s : State := far;
   let k : Core := s.core ↑c;
   let a : Nat := BitVec.toNat (s.greg (↑c) ra + BitVec.signExtend 32 i);
   let p : Place := s.place (↑c) a;
   let v : Word := s.greg (↑c) rs;
   let q : BusReq :=
      { master := if ↑c < 2 then 0 else ↑c - 1, core := ↑c, level := k.level, target := p.target, addr := a, key := p.key, data := [BitVec.extractLsb' 0 8 v, BitVec.extractLsb' 8 8 v, BitVec.extractLsb' 16 8 v, BitVec.extractLsb' 24 8 v], since := s.clk.now };
   s.Sealed ∧ s.Issues ↑c ∧ k.loaded = none ∧ k.region Rgn.w a = true ∧ (∀ (r : Nat), p ≠ Place.reg r) ∧ a % [BitVec.extractLsb' 0 8 v,
     BitVec.extractLsb' 8 8 v, BitVec.extractLsb' 16 8 v, BitVec.extractLsb' 24 8 v].length = 0 ∧ s.coreMay (↑c) p [BitVec.extractLsb' 0 8 v,
     BitVec.extractLsb' 8 8 v, BitVec.extractLsb' 16 8 v, BitVec.extractLsb' 24 8 v].length true = true ∧ s.tcm (↑c) a = false ∧ s.posted ↑c < 4 ∧
     s.grantsNow q = false) ∧
  (let c : Fin 6 := 4;
   let rs : BitVec 5 := 6#5;
   let ra : BitVec 5 := 8#5;
   let i : BitVec 16 := 0#16;
   let s : State := near;
   let m : Nat := 262432;
   let k : Core := s.core ↑c;
   let a : Nat := BitVec.toNat (s.greg (↑c) ra + BitVec.signExtend 32 i);
   let p : Place := s.place (↑c) a;
   let v : Word := s.greg (↑c) rs;
   let q : BusReq :=
      { master := if ↑c < 2 then 0 else ↑c - 1, core := ↑c, level := k.level, target := p.target, addr := a, key := p.key, data := [BitVec.extractLsb' 0 8 v, BitVec.extractLsb' 8 8 v, BitVec.extractLsb' 16 8 v, BitVec.extractLsb' 24 8 v], since := s.clk.now };
   s.Sealed ∧ s.Issues ↑c ∧ k.loaded = none ∧ k.region Rgn.w a = true ∧ (∀ (r : Nat), p ≠ Place.reg r) ∧ a % [BitVec.extractLsb' 0 8 v,
     BitVec.extractLsb' 8 8 v, BitVec.extractLsb' 16 8 v, BitVec.extractLsb' 24 8 v].length = 0 ∧ s.coreMay (↑c) p [BitVec.extractLsb' 0 8 v,
     BitVec.extractLsb' 8 8 v, BitVec.extractLsb' 16 8 v, BitVec.extractLsb' 24 8 v].length true = true ∧ s.tcm (↑c) a = false ∧ s.posted ↑c < 4 ∧
     s.grantsNow q = true ∧ p = Place.sram m) ∧
  (let c : Fin 6 := 0;
   let rs : BitVec 5 := 6#5;
   let ra : BitVec 5 := 11#5;
   let i : BitVec 16 := 3#16;
   let s : State := tight;
   let k : Core := s.core ↑c;
   let a : Nat := BitVec.toNat (s.greg (↑c) ra + BitVec.signExtend 32 i);
   let p : Place := s.place (↑c) a;
   let v : Word := s.greg (↑c) rs;
   s.Sealed ∧ s.Issues ↑c ∧ k.loaded = none ∧ k.region Rgn.w a = true ∧ (∀ (r : Nat), p ≠ Place.reg r) ∧ a % [BitVec.extractLsb' 0 8 v,
     BitVec.extractLsb' 8 8 v, BitVec.extractLsb' 16 8 v, BitVec.extractLsb' 24 8 v].length = 0 ∧ s.coreMay (↑c) p [BitVec.extractLsb' 0 8 v,
     BitVec.extractLsb' 8 8 v, BitVec.extractLsb' 16 8 v, BitVec.extractLsb' 24 8 v].length true = true ∧ s.tcm (↑c) a = true) :=
  (And.imp (And.imp sealed_of (And.imp issues_of (And.imp id (And.imp id (And.imp noReg_of id))))) <|
  And.imp (And.imp sealed_of (And.imp issues_of (And.imp id (And.imp id (And.imp noReg_of id))))) <|
  And.imp (And.imp sealed_of (And.imp issues_of (And.imp id (And.imp id (And.imp noReg_of id))))) <|
  And.imp (And.imp sealed_of (And.imp issues_of (And.imp id (And.imp id (And.imp noReg_of id))))) <|
  And.imp (And.imp sealed_of (And.imp issues_of (And.imp id (And.imp id (And.imp noReg_of id))))) <|
  And.imp (And.imp sealed_of (And.imp issues_of (And.imp id (And.imp id (And.imp noReg_of id))))) <|
  And.imp (And.imp sealed_of (And.imp issues_of (And.imp id (And.imp id (And.imp noReg_of id))))) <|
  And.imp (And.imp sealed_of (And.imp issues_of (And.imp id (And.imp id (And.imp noReg_of id))))) <|
  (And.imp sealed_of (And.imp issues_of (And.imp id (And.imp id (And.imp noReg_of id))))))
  (by decide +kernel)

end SetW2

namespace SetW3

def mc (f : Core → Core) (s : M) : M := { s with cores := s.cores.map f }

def su : M := mem (isa .u 1)

def g8 (v : Word) (r : Option Nat) (k : Core) : Core := { k with g := k.g.set 8 v, resv := r }

def miss : M := mc (g8 0x08040120 none) su

def resv : M := mc (g8 0x08040120 (some 0x00402009)) su

def base : M := mem (isa .f 1)

def b1 : M := mc (g8 0x09 none) base

def dark : M := base.put (rdyBit rAON) 0

theorem b1_sealed : State.Sealed b1 := sealed_of (by decide +kernel)

theorem base_sealed : State.Sealed base := sealed_of (by decide +kernel)

theorem dark_sealed : State.Sealed dark := sealed_of (by decide +kernel)

theorem miss_sealed : State.Sealed miss := sealed_of (by decide +kernel)

theorem resv_sealed : State.Sealed resv := sealed_of (by decide +kernel)

/-- General register 8 points into the second memory. -/
def far : M := mc (g8 0x80000040 none) su

/-- Every core has the answer to a load of `n` bytes at address `a`, the place `key`. -/
def got (n a key : Nat) (s : M) : M :=
  mc (fun k => { k with loaded := some { ask := .load, addr := a, key := key, n := n, id := 7, ans := some (some (List.replicate n 1)) } }) s

/-- Every core has the answer of its SC at address `a`, the place `key`: done. -/
def scDone (a key : Nat) (s : M) : M := mc (fun k => { k with loaded := some { ask := .sc, addr := a, key := key, n := 4, id := 7, ans := some (some [1]) } }) s

/-- General register 8 points into boot ROM. -/
def inRom : M := mc (g8 0x120 none) base

/-- Every core has the answer of its load at address `a`, the place `key`: an error response. -/
def gotNone (n a key : Nat) (s : M) : M := mc (fun k => { k with loaded := some { ask := .load, addr := a, key := key, n := n, id := 7, ans := some none } }) s

/-- Every core has the answer of its SC at address `a`, the place `key`: an error response. -/
def scNone (a key : Nat) (s : M) : M := mc (fun k => { k with loaded := some { ask := .sc, addr := a, key := key, n := 4, id := 7, ans := some none } }) s

/-- The bus matrix may grant at no target before a later cycle. -/
def later : M := { base with bxm := { base.bxm with grantFrom := base.bxm.grantFrom.map fun _ => 10 ^ 9 } }

/-- `s` with the virtual functions enabled. -/
def vf (s : M) : M := { s with pcie := { s.pcie with vfEnable := true } }

/-- States that meet the hypotheses of `Obligations.ControlWrites`, clause by clause. -/
theorem witness_ControlWrites :
  (let c : Fin 6 := 4;
   let s : State := b1;
   let k : Core := s.core ↑c;
   let l : Nat := k.level.rank;
   s.Sealed ∧ s.Issues ↑c ∧ 1 ≤ l) ∧
  (let c : Fin 6 := 4;
   let s : State := b1;
   let k : Core := s.core ↑c;
   let l : Nat := k.level.rank;
   s.Sealed ∧ s.Issues ↑c ∧ 2 ≤ l) ∧
  (let c : Fin 6 := 4;
   let ra : BitVec 5 := 8#5;
   let s : State := b1;
   let k : Core := s.core ↑c;
   let v : Word := s.greg (↑c) ra;
   let l : Nat := k.level.rank;
   s.Sealed ∧ s.Issues ↑c ∧ l = 2 ∧ k.bay = BitVec.extractLsb' 0 3 v) ∧
  (let c : Fin 6 := 4;
   let ra : BitVec 5 := 6#5;
   let s : State := b1;
   let k : Core := s.core ↑c;
   let v : Word := s.greg (↑c) ra;
   let l : Nat := k.level.rank;
   s.Sealed ∧ s.Issues ↑c ∧ l = 2 ∧ k.bay ≠ BitVec.extractLsb' 0 3 v ∧ s.Untraced ↑c) :=
  (And.imp (given b1_sealed (And.imp issues_of id)) <|
  And.imp (given b1_sealed (And.imp issues_of id)) <|
  And.imp (given b1_sealed (And.imp issues_of id)) <|
  (given b1_sealed (And.imp issues_of (And.imp id (And.imp id untraced_of)))))
  (by decide +kernel)

/-- States that meet the hypotheses of `Obligations.FunctionResets`, clause by clause. -/
theorem witness_FunctionResets :
  (let s : State := base;
   s.Sealed ∧ s.stands = false) :=
  ((given base_sealed id))
  (by decide +kernel)

/-- States that meet the hypotheses of `Obligations.LoadsFromMemory`, clause by clause. -/
theorem witness_LoadsFromMemory :
  (let c : Fin 6 := 4;
   let ra : BitVec 5 := 8#5;
   let i : BitVec 16 := 0#16;
   let s : State := far;
   let k : Core := s.core ↑c;
   let w : Word := s.greg (↑c) ra + BitVec.signExtend 32 i;
   let a : Nat := BitVec.toNat w;
   let p : Place := s.placeFor (↑c) Asker.load a;
   let line : Bool := s.cached (↑c) a p;
   let size : Nat → Nat := fun n => if line = true then 32 else n;
   let at_ : Nat := if line = true then p.key / 32 * 32 else p.key;
   let q : Nat → BusReq := fun n =>
      { master := if ↑c < 2 then 0 else ↑c - 1, core := ↑c, level := k.level, path := s.corePath ↑c, target := p.target, addr := a, key := at_, data := [], since := s.clk.now, ask := Asker.load, read := size n };
   s.Sealed ∧ s.Issues ↑c ∧ k.region Rgn.r a = true ∧ k.hit p.key = none ∧ (∀ (r : Nat), p ≠ Place.reg r) ∧ a % 1 = 0 ∧ k.loaded = none ∧ s.coreMay
     (↑c) p 1 false = true ∧ s.grantsNow (q 1) = false) ∧
  (let c : Fin 6 := 4;
   let ra : BitVec 5 := 8#5;
   let i : BitVec 16 := 0#16;
   let s : State := miss;
   let o : Nat := 262432;
   let k : Core := s.core ↑c;
   let w : Word := s.greg (↑c) ra + BitVec.signExtend 32 i;
   let a : Nat := BitVec.toNat w;
   let p : Place := s.placeFor (↑c) Asker.load a;
   let line : Bool := s.cached (↑c) a p;
   let size : Nat → Nat := fun n => if line = true then 32 else n;
   let at_ : Nat := if line = true then p.key / 32 * 32 else p.key;
   let q : Nat → BusReq := fun n =>
      { master := if ↑c < 2 then 0 else ↑c - 1, core := ↑c, level := k.level, path := s.corePath ↑c, target := p.target, addr := a, key := at_, data := [], since := s.clk.now, ask := Asker.load, read := size n };
   s.Sealed ∧ s.Issues ↑c ∧ k.region Rgn.r a = true ∧ k.hit p.key = none ∧ (∀ (r : Nat), p ≠ Place.reg r) ∧ a % 1 = 0 ∧ p = Place.sram o ∧ k.loaded
     = none ∧ s.coreMay (↑c) p 1 false = true ∧ s.grantsNow (q 1) = true) ∧
  (let c : Fin 6 := 4;
   let ra : BitVec 5 := 8#5;
   let i : BitVec 16 := 0#16;
   let s : State := got 32 0x80000040 (su.place 4 0x80000040).key far;
   let l : List Byte := List.replicate 32 1;
   let k : Core := s.core ↑c;
   let x : Wait := (k.loaded).getD default;
   let w : Word := s.greg (↑c) ra + BitVec.signExtend 32 i;
   let a : Nat := BitVec.toNat w;
   let p : Place := s.placeFor (↑c) Asker.load a;
   let line : Bool := s.cached (↑c) a p;
   let size : Nat → Nat := fun n => if line = true then 32 else n;
   s.Sealed ∧ s.Issues ↑c ∧ k.region Rgn.r a = true ∧ k.hit p.key = none ∧ (∀ (r : Nat), p ≠ Place.reg r) ∧ a % 1 = 0 ∧ k.loaded = some x ∧ x.ask =
     Asker.load ∧ x.addr = a ∧ x.n = size 1 ∧ x.ans = some (some l) ∧ l.length = size 1) ∧
  (let c : Fin 6 := 4;
   let ra : BitVec 5 := 8#5;
   let i : BitVec 16 := 0#16;
   let s : State := gotNone 32 0x80000040 (su.place 4 0x80000040).key far;
   let k : Core := s.core ↑c;
   let x : Wait := (k.loaded).getD default;
   let w : Word := s.greg (↑c) ra + BitVec.signExtend 32 i;
   let a : Nat := BitVec.toNat w;
   let p : Place := s.placeFor (↑c) Asker.load a;
   let line : Bool := s.cached (↑c) a p;
   let size : Nat → Nat := fun n => if line = true then 32 else n;
   s.Sealed ∧ s.Issues ↑c ∧ k.region Rgn.r a = true ∧ k.hit p.key = none ∧ (∀ (r : Nat), p ≠ Place.reg r) ∧ a % 1 = 0 ∧ k.loaded = some x ∧ x.ask =
     Asker.load ∧ x.addr = a ∧ x.n = size 1 ∧ x.ans = some none ∧ s.Untraced ↑c ∧ (k.exc (decide (k.level = Level.f))).inexc = false) ∧
  (let c : Fin 6 := 4;
   let ra : BitVec 5 := 8#5;
   let i : BitVec 16 := 0#16;
   let s : State := inRom;
   let o : Nat := 288;
   let k : Core := s.core ↑c;
   let w : Word := s.greg (↑c) ra + BitVec.signExtend 32 i;
   let a : Nat := BitVec.toNat w;
   let p : Place := s.placeFor (↑c) Asker.load a;
   let line : Bool := s.cached (↑c) a p;
   let size : Nat → Nat := fun n => if line = true then 32 else n;
   let at_ : Nat := if line = true then p.key / 32 * 32 else p.key;
   let q : Nat → BusReq := fun n =>
      { master := if ↑c < 2 then 0 else ↑c - 1, core := ↑c, level := k.level, path := s.corePath ↑c, target := p.target, addr := a, key := at_, data := [], since := s.clk.now, ask := Asker.load, read := size n };
   s.Sealed ∧ s.Issues ↑c ∧ k.region Rgn.r a = true ∧ k.hit p.key = none ∧ (∀ (r : Nat), p ≠ Place.reg r) ∧ p = Place.rom o ∧ a % 1 = 0 ∧ k.loaded =
     none ∧ s.coreMay (↑c) p 1 false = true ∧ s.grantsNow (q 1) = true) ∧
  (let c : Fin 6 := 4;
   let ra : BitVec 5 := 8#5;
   let i : BitVec 16 := 0#16;
   let s : State := far;
   let k : Core := s.core ↑c;
   let w : Word := s.greg (↑c) ra + BitVec.signExtend 32 i;
   let a : Nat := BitVec.toNat w;
   let p : Place := s.placeFor (↑c) Asker.load a;
   let line : Bool := s.cached (↑c) a p;
   let size : Nat → Nat := fun n => if line = true then 32 else n;
   let at_ : Nat := if line = true then p.key / 32 * 32 else p.key;
   let q : Nat → BusReq := fun n =>
      { master := if ↑c < 2 then 0 else ↑c - 1, core := ↑c, level := k.level, path := s.corePath ↑c, target := p.target, addr := a, key := at_, data := [], since := s.clk.now, ask := Asker.load, read := size n };
   s.Sealed ∧ s.Issues ↑c ∧ k.region Rgn.r a = true ∧ k.hit p.key = none ∧ (∀ (r : Nat), p ≠ Place.reg r) ∧ a % 2 = 0 ∧ k.loaded = none ∧ s.coreMay
     (↑c) p 2 false = true ∧ s.grantsNow (q 2) = false) ∧
  (let c : Fin 6 := 4;
   let ra : BitVec 5 := 8#5;
   let i : BitVec 16 := 0#16;
   let s : State := miss;
   let o : Nat := 262432;
   let k : Core := s.core ↑c;
   let w : Word := s.greg (↑c) ra + BitVec.signExtend 32 i;
   let a : Nat := BitVec.toNat w;
   let p : Place := s.placeFor (↑c) Asker.load a;
   let line : Bool := s.cached (↑c) a p;
   let size : Nat → Nat := fun n => if line = true then 32 else n;
   let at_ : Nat := if line = true then p.key / 32 * 32 else p.key;
   let q : Nat → BusReq := fun n =>
      { master := if ↑c < 2 then 0 else ↑c - 1, core := ↑c, level := k.level, path := s.corePath ↑c, target := p.target, addr := a, key := at_, data := [], since := s.clk.now, ask := Asker.load, read := size n };
   s.Sealed ∧ s.Issues ↑c ∧ k.region Rgn.r a = true ∧ k.hit p.key = none ∧ (∀ (r : Nat), p ≠ Place.reg r) ∧ a % 2 = 0 ∧ p = Place.sram o ∧ k.loaded
     = none ∧ s.coreMay (↑c) p 2 false = true ∧ s.grantsNow (q 2) = true) ∧
  (let c : Fin 6 := 4;
   let ra : BitVec 5 := 8#5;
   let i : BitVec 16 := 0#16;
   let s : State := got 32 0x80000040 (su.place 4 0x80000040).key far;
   let l : List Byte := List.replicate 32 1;
   let k : Core := s.core ↑c;
   let x : Wait := (k.loaded).getD default;
   let w : Word := s.greg (↑c) ra + BitVec.signExtend 32 i;
   let a : Nat := BitVec.toNat w;
   let p : Place := s.placeFor (↑c) Asker.load a;
   let line : Bool := s.cached (↑c) a p;
   let size : Nat → Nat := fun n => if line = true then 32 else n;
   s.Sealed ∧ s.Issues ↑c ∧ k.region Rgn.r a = true ∧ k.hit p.key = none ∧ (∀ (r : Nat), p ≠ Place.reg r) ∧ a % 2 = 0 ∧ k.loaded = some x ∧ x.ask =
     Asker.load ∧ x.addr = a ∧ x.n = size 2 ∧ x.ans = some (some l) ∧ l.length = size 2) ∧
  (let c : Fin 6 := 4;
   let ra : BitVec 5 := 8#5;
   let i : BitVec 16 := 0#16;
   let s : State := gotNone 32 0x80000040 (su.place 4 0x80000040).key far;
   let k : Core := s.core ↑c;
   let x : Wait := (k.loaded).getD default;
   let w : Word := s.greg (↑c) ra + BitVec.signExtend 32 i;
   let a : Nat := BitVec.toNat w;
   let p : Place := s.placeFor (↑c) Asker.load a;
   let line : Bool := s.cached (↑c) a p;
   let size : Nat → Nat := fun n => if line = true then 32 else n;
   s.Sealed ∧ s.Issues ↑c ∧ k.region Rgn.r a = true ∧ k.hit p.key = none ∧ (∀ (r : Nat), p ≠ Place.reg r) ∧ a % 2 = 0 ∧ k.loaded = some x ∧ x.ask =
     Asker.load ∧ x.addr = a ∧ x.n = size 2 ∧ x.ans = some none ∧ s.Untraced ↑c ∧ (k.exc (decide (k.level = Level.f))).inexc = false) ∧
  (let c : Fin 6 := 4;
   let ra : BitVec 5 := 8#5;
   let i : BitVec 16 := 0#16;
   let s : State := inRom;
   let o : Nat := 288;
   let k : Core := s.core ↑c;
   let w : Word := s.greg (↑c) ra + BitVec.signExtend 32 i;
   let a : Nat := BitVec.toNat w;
   let p : Place := s.placeFor (↑c) Asker.load a;
   let line : Bool := s.cached (↑c) a p;
   let size : Nat → Nat := fun n => if line = true then 32 else n;
   let at_ : Nat := if line = true then p.key / 32 * 32 else p.key;
   let q : Nat → BusReq := fun n =>
      { master := if ↑c < 2 then 0 else ↑c - 1, core := ↑c, level := k.level, path := s.corePath ↑c, target := p.target, addr := a, key := at_, data := [], since := s.clk.now, ask := Asker.load, read := size n };
   s.Sealed ∧ s.Issues ↑c ∧ k.region Rgn.r a = true ∧ k.hit p.key = none ∧ (∀ (r : Nat), p ≠ Place.reg r) ∧ p = Place.rom o ∧ a % 2 = 0 ∧ k.loaded =
     none ∧ s.coreMay (↑c) p 2 false = true ∧ s.grantsNow (q 2) = true) ∧
  (let c : Fin 6 := 4;
   let ra : BitVec 5 := 8#5;
   let i : BitVec 16 := 0#16;
   let s : State := far;
   let k : Core := s.core ↑c;
   let w : Word := s.greg (↑c) ra + BitVec.signExtend 32 i;
   let a : Nat := BitVec.toNat w;
   let p : Place := s.placeFor (↑c) Asker.load a;
   let line : Bool := s.cached (↑c) a p;
   let size : Nat → Nat := fun n => if line = true then 32 else n;
   let at_ : Nat := if line = true then p.key / 32 * 32 else p.key;
   let q : Nat → BusReq := fun n =>
      { master := if ↑c < 2 then 0 else ↑c - 1, core := ↑c, level := k.level, path := s.corePath ↑c, target := p.target, addr := a, key := at_, data := [], since := s.clk.now, ask := Asker.load, read := size n };
   s.Sealed ∧ s.Issues ↑c ∧ k.region Rgn.r a = true ∧ k.hit p.key = none ∧ (∀ (r : Nat), p ≠ Place.reg r) ∧ a % 4 = 0 ∧ k.loaded = none ∧ s.coreMay
     (↑c) p 4 false = true ∧ s.grantsNow (q 4) = false) ∧
  (let c : Fin 6 := 4;
   let ra : BitVec 5 := 8#5;
   let i : BitVec 16 := 0#16;
   let s : State := miss;
   let o : Nat := 262432;
   let k : Core := s.core ↑c;
   let w : Word := s.greg (↑c) ra + BitVec.signExtend 32 i;
   let a : Nat := BitVec.toNat w;
   let p : Place := s.placeFor (↑c) Asker.load a;
   let line : Bool := s.cached (↑c) a p;
   let size : Nat → Nat := fun n => if line = true then 32 else n;
   let at_ : Nat := if line = true then p.key / 32 * 32 else p.key;
   let q : Nat → BusReq := fun n =>
      { master := if ↑c < 2 then 0 else ↑c - 1, core := ↑c, level := k.level, path := s.corePath ↑c, target := p.target, addr := a, key := at_, data := [], since := s.clk.now, ask := Asker.load, read := size n };
   s.Sealed ∧ s.Issues ↑c ∧ k.region Rgn.r a = true ∧ k.hit p.key = none ∧ (∀ (r : Nat), p ≠ Place.reg r) ∧ a % 4 = 0 ∧ p = Place.sram o ∧ k.loaded
     = none ∧ s.coreMay (↑c) p 4 false = true ∧ s.grantsNow (q 4) = true) ∧
  (let c : Fin 6 := 4;
   let ra : BitVec 5 := 8#5;
   let i : BitVec 16 := 0#16;
   let s : State := got 32 0x80000040 (su.place 4 0x80000040).key far;
   let l : List Byte := List.replicate 32 1;
   let k : Core := s.core ↑c;
   let x : Wait := (k.loaded).getD default;
   let w : Word := s.greg (↑c) ra + BitVec.signExtend 32 i;
   let a : Nat := BitVec.toNat w;
   let p : Place := s.placeFor (↑c) Asker.load a;
   let line : Bool := s.cached (↑c) a p;
   let size : Nat → Nat := fun n => if line = true then 32 else n;
   s.Sealed ∧ s.Issues ↑c ∧ k.region Rgn.r a = true ∧ k.hit p.key = none ∧ (∀ (r : Nat), p ≠ Place.reg r) ∧ a % 4 = 0 ∧ k.loaded = some x ∧ x.ask =
     Asker.load ∧ x.addr = a ∧ x.n = size 4 ∧ x.ans = some (some l) ∧ l.length = size 4) ∧
  (let c : Fin 6 := 4;
   let ra : BitVec 5 := 8#5;
   let i : BitVec 16 := 0#16;
   let s : State := gotNone 32 0x80000040 (su.place 4 0x80000040).key far;
   let k : Core := s.core ↑c;
   let x : Wait := (k.loaded).getD default;
   let w : Word := s.greg (↑c) ra + BitVec.signExtend 32 i;
   let a : Nat := BitVec.toNat w;
   let p : Place := s.placeFor (↑c) Asker.load a;
   let line : Bool := s.cached (↑c) a p;
   let size : Nat → Nat := fun n => if line = true then 32 else n;
   s.Sealed ∧ s.Issues ↑c ∧ k.region Rgn.r a = true ∧ k.hit p.key = none ∧ (∀ (r : Nat), p ≠ Place.reg r) ∧ a % 4 = 0 ∧ k.loaded = some x ∧ x.ask =
     Asker.load ∧ x.addr = a ∧ x.n = size 4 ∧ x.ans = some none ∧ s.Untraced ↑c ∧ (k.exc (decide (k.level = Level.f))).inexc = false) :=
  (And.imp (And.imp sealed_of (And.imp issues_of (And.imp id (And.imp id (And.imp noReg_of id))))) <|
  And.imp (given miss_sealed (And.imp issues_of (And.imp id (And.imp id (And.imp noReg_of id))))) <|
  And.imp (And.imp sealed_of (And.imp issues_of (And.imp id (And.imp id (And.imp noReg_of (And.imp id (And.imp some_of id))))))) <|
  And.imp (And.imp sealed_of (And.imp issues_of (And.imp id (And.imp id (And.imp noReg_of (And.imp id (And.imp some_of (And.imp id (And.imp id
    (And.imp id (And.imp id (And.imp untraced_of id)))))))))))) <|
  And.imp (And.imp sealed_of (And.imp issues_of (And.imp id (And.imp id (And.imp noReg_of id))))) <|
  And.imp (And.imp sealed_of (And.imp issues_of (And.imp id (And.imp id (And.imp noReg_of id))))) <|
  And.imp (given miss_sealed (And.imp issues_of (And.imp id (And.imp id (And.imp noReg_of id))))) <|
  And.imp (And.imp sealed_of (And.imp issues_of (And.imp id (And.imp id (And.imp noReg_of (And.imp id (And.imp some_of id))))))) <|
  And.imp (And.imp sealed_of (And.imp issues_of (And.imp id (And.imp id (And.imp noReg_of (And.imp id (And.imp some_of (And.imp id (And.imp id
    (And.imp id (And.imp id (And.imp untraced_of id)))))))))))) <|
  And.imp (And.imp sealed_of (And.imp issues_of (And.imp id (And.imp id (And.imp noReg_of id))))) <|
  And.imp (And.imp sealed_of (And.imp issues_of (And.imp id (And.imp id (And.imp noReg_of id))))) <|
  And.imp (given miss_sealed (And.imp issues_of (And.imp id (And.imp id (And.imp noReg_of id))))) <|
  And.imp (And.imp sealed_of (And.imp issues_of (And.imp id (And.imp id (And.imp noReg_of (And.imp id (And.imp some_of id))))))) <|
  (And.imp sealed_of (And.imp issues_of (And.imp id (And.imp id (And.imp noReg_of (And.imp id (And.imp some_of (And.imp id (And.imp id (And.imp id
    (And.imp id (And.imp untraced_of id)))))))))))))
  (by decide +kernel)

/-- States that meet the hypotheses of `Obligations.LoadsFromMemory`, clause by clause (clauses 15 and on). -/
theorem witness_LoadsFromMemory_2 :
  (let c : Fin 6 := 4;
   let ra : BitVec 5 := 8#5;
   let i : BitVec 16 := 0#16;
   let s : State := inRom;
   let o : Nat := 288;
   let k : Core := s.core ↑c;
   let w : Word := s.greg (↑c) ra + BitVec.signExtend 32 i;
   let a : Nat := BitVec.toNat w;
   let p : Place := s.placeFor (↑c) Asker.load a;
   let line : Bool := s.cached (↑c) a p;
   let size : Nat → Nat := fun n => if line = true then 32 else n;
   let at_ : Nat := if line = true then p.key / 32 * 32 else p.key;
   let q : Nat → BusReq := fun n =>
      { master := if ↑c < 2 then 0 else ↑c - 1, core := ↑c, level := k.level, path := s.corePath ↑c, target := p.target, addr := a, key := at_, data := [], since := s.clk.now, ask := Asker.load, read := size n };
   s.Sealed ∧ s.Issues ↑c ∧ k.region Rgn.r a = true ∧ k.hit p.key = none ∧ (∀ (r : Nat), p ≠ Place.reg r) ∧ p = Place.rom o ∧ a % 4 = 0 ∧ k.loaded =
     none ∧ s.coreMay (↑c) p 4 false = true ∧ s.grantsNow (q 4) = true) ∧
  (let c : Fin 6 := 4;
   let ra : BitVec 5 := 8#5;
   let i : BitVec 16 := 0#16;
   let s : State := far;
   let k : Core := s.core ↑c;
   let w : Word := s.greg (↑c) ra + BitVec.signExtend 32 i;
   let a : Nat := BitVec.toNat w;
   let p : Place := s.placeFor (↑c) Asker.load a;
   let line : Bool := s.cached (↑c) a p;
   let size : Nat → Nat := fun n => if line = true then 32 else n;
   let at_ : Nat := if line = true then p.key / 32 * 32 else p.key;
   let q : Nat → BusReq := fun n =>
      { master := if ↑c < 2 then 0 else ↑c - 1, core := ↑c, level := k.level, path := s.corePath ↑c, target := p.target, addr := a, key := at_, data := [], since := s.clk.now, ask := Asker.load, read := size n };
   s.Sealed ∧ s.Issues ↑c ∧ k.region Rgn.r a = true ∧ k.hit p.key = none ∧ (∀ (r : Nat), p ≠ Place.reg r) ∧ (∃ o, p = Place.sram o ∨ p = Place.ddr
     o) ∧ a % 4 = 0 ∧ k.loaded = none ∧ s.coreMay (↑c) p 4 false = true ∧ s.grantsNow (q 4) = false) ∧
  (let c : Fin 6 := 4;
   let ra : BitVec 5 := 8#5;
   let i : BitVec 16 := 0#16;
   let s : State := miss;
   let o : Nat := 262432;
   let k : Core := s.core ↑c;
   let w : Word := s.greg (↑c) ra + BitVec.signExtend 32 i;
   let a : Nat := BitVec.toNat w;
   let p : Place := s.placeFor (↑c) Asker.load a;
   let line : Bool := s.cached (↑c) a p;
   let size : Nat → Nat := fun n => if line = true then 32 else n;
   let at_ : Nat := if line = true then p.key / 32 * 32 else p.key;
   let q : Nat → BusReq := fun n =>
      { master := if ↑c < 2 then 0 else ↑c - 1, core := ↑c, level := k.level, path := s.corePath ↑c, target := p.target, addr := a, key := at_, data := [], since := s.clk.now, ask := Asker.load, read := size n };
   s.Sealed ∧ s.Issues ↑c ∧ k.region Rgn.r a = true ∧ k.hit p.key = none ∧ (∀ (r : Nat), p ≠ Place.reg r) ∧ (∃ o, p = Place.sram o ∨ p = Place.ddr
     o) ∧ a % 4 = 0 ∧ p = Place.sram o ∧ k.loaded = none ∧ s.coreMay (↑c) p 4 false = true ∧ s.grantsNow (q 4) = true) ∧
  (let c : Fin 6 := 4;
   let ra : BitVec 5 := 8#5;
   let i : BitVec 16 := 0#16;
   let s : State := got 32 0x80000040 (su.place 4 0x80000040).key far;
   let l : List Byte := List.replicate 32 1;
   let k : Core := s.core ↑c;
   let x : Wait := (k.loaded).getD default;
   let w : Word := s.greg (↑c) ra + BitVec.signExtend 32 i;
   let a : Nat := BitVec.toNat w;
   let p : Place := s.placeFor (↑c) Asker.load a;
   let line : Bool := s.cached (↑c) a p;
   let size : Nat → Nat := fun n => if line = true then 32 else n;
   s.Sealed ∧ s.Issues ↑c ∧ k.region Rgn.r a = true ∧ k.hit p.key = none ∧ (∀ (r : Nat), p ≠ Place.reg r) ∧ (∃ o, p = Place.sram o ∨ p = Place.ddr
     o) ∧ a % 4 = 0 ∧ k.loaded = some x ∧ x.ask = Asker.load ∧ x.addr = a ∧ x.n = size 4 ∧ x.ans = some (some l) ∧ l.length = size 4) ∧
  (let c : Fin 6 := 4;
   let ra : BitVec 5 := 8#5;
   let i : BitVec 16 := 0#16;
   let s : State := gotNone 32 0x80000040 (su.place 4 0x80000040).key far;
   let k : Core := s.core ↑c;
   let x : Wait := (k.loaded).getD default;
   let w : Word := s.greg (↑c) ra + BitVec.signExtend 32 i;
   let a : Nat := BitVec.toNat w;
   let p : Place := s.placeFor (↑c) Asker.load a;
   let line : Bool := s.cached (↑c) a p;
   let size : Nat → Nat := fun n => if line = true then 32 else n;
   s.Sealed ∧ s.Issues ↑c ∧ k.region Rgn.r a = true ∧ k.hit p.key = none ∧ (∀ (r : Nat), p ≠ Place.reg r) ∧ (∃ o, p = Place.sram o ∨ p = Place.ddr
     o) ∧ a % 4 = 0 ∧ k.loaded = some x ∧ x.ask = Asker.load ∧ x.addr = a ∧ x.n = size 4 ∧ x.ans = some none ∧ s.Untraced ↑c ∧ (k.exc (decide
     (k.level = Level.f))).inexc = false) :=
  (And.imp (And.imp sealed_of (And.imp issues_of (And.imp id (And.imp id (And.imp noReg_of id))))) <|
  And.imp (And.imp sealed_of (And.imp issues_of (And.imp id (And.imp id (And.imp noReg_of (And.imp memory_of id)))))) <|
  And.imp (given miss_sealed (And.imp issues_of (And.imp id (And.imp id (And.imp noReg_of (And.imp memory_of id)))))) <|
  And.imp (And.imp sealed_of (And.imp issues_of (And.imp id (And.imp id (And.imp noReg_of (And.imp memory_of (And.imp id (And.imp some_of id))))))))
    <|
  (And.imp sealed_of (And.imp issues_of (And.imp id (And.imp id (And.imp noReg_of (And.imp memory_of (And.imp id (And.imp some_of (And.imp id
    (And.imp id (And.imp id (And.imp id (And.imp untraced_of id))))))))))))))
  (by decide +kernel)

/-- States that meet the hypotheses of `Obligations.LowWordReads`, clause by clause. -/
theorem witness_LowWordReads :
  (let s : State := base;
   let q : BusReq := s.regReq Asker.row Path.fw Reg.FGE_MEASURE_LO none;
   s.Sealed ∧ s.stands = false ∧ s.domOn 0 = true ∧ s.domOn 3 = true ∧ s.grantsNow q = true) ∧
  (let s : State := later;
   let q : BusReq := s.regReq Asker.row Path.fw Reg.FGE_MEASURE_LO none;
   s.Sealed ∧ s.stands = false ∧ s.domOn 0 = true ∧ s.domOn 3 = true ∧ s.grantsNow q = false) ∧
  (let s : State := base;
   let q : BusReq := s.regReq Asker.row Path.fw Reg.TME_SEC_LO none;
   s.Sealed ∧ s.stands = false ∧ s.domOn 0 = true ∧ s.domOn 3 = true ∧ s.grantsNow q = true) ∧
  (let s : State := later;
   let q : BusReq := s.regReq Asker.row Path.fw Reg.TME_SEC_LO none;
   s.Sealed ∧ s.stands = false ∧ s.domOn 0 = true ∧ s.domOn 3 = true ∧ s.grantsNow q = false) ∧
  (let s : State := base;
   let q : BusReq := s.regReq Asker.row Path.fw Reg.ODO_POS_LO none;
   s.Sealed ∧ s.stands = false ∧ s.domOn 0 = true ∧ s.domOn 3 = true ∧ s.grantsNow q = true) ∧
  (let s : State := later;
   let q : BusReq := s.regReq Asker.row Path.fw Reg.ODO_POS_LO none;
   s.Sealed ∧ s.stands = false ∧ s.domOn 0 = true ∧ s.domOn 3 = true ∧ s.grantsNow q = false) ∧
  (let s : State := base;
   let q : BusReq := s.regReq Asker.row Path.fw Reg.ODO_OFFSET_LO none;
   s.Sealed ∧ s.stands = false ∧ s.domOn 0 = true ∧ s.domOn 3 = true ∧ s.grantsNow q = true) ∧
  (let s : State := later;
   let q : BusReq := s.regReq Asker.row Path.fw Reg.ODO_OFFSET_LO none;
   s.Sealed ∧ s.stands = false ∧ s.domOn 0 = true ∧ s.domOn 3 = true ∧ s.grantsNow q = false) ∧
  (let s : State := base;
   let n : Fin 4 := 3;
   let q : BusReq := s.regReq Asker.row Path.fw (Reg.ODO_AXPOS_LO ↑n) none;
   s.Sealed ∧ s.stands = false ∧ s.domOn 0 = true ∧ s.domOn 3 = true ∧ s.grantsNow q = true) ∧
  (let s : State := later;
   let n : Fin 4 := 3;
   let q : BusReq := s.regReq Asker.row Path.fw (Reg.ODO_AXPOS_LO ↑n) none;
   s.Sealed ∧ s.stands = false ∧ s.domOn 0 = true ∧ s.domOn 3 = true ∧ s.grantsNow q = false) ∧
  (let s : State := base;
   s.Sealed ∧ s.stands = false ∧ s.domOn 0 = true ∧ s.domOn 3 = true) :=
  (And.imp (given base_sealed id) <|
  And.imp (And.imp sealed_of id) <|
  And.imp (given base_sealed id) <|
  And.imp (And.imp sealed_of id) <|
  And.imp (given base_sealed id) <|
  And.imp (And.imp sealed_of id) <|
  And.imp (given base_sealed id) <|
  And.imp (And.imp sealed_of id) <|
  And.imp (given base_sealed id) <|
  And.imp (And.imp sealed_of id) <|
  (given base_sealed id))
  (by decide +kernel)

/-- States that meet the hypotheses of `Obligations.PowerOnReset`, clause by clause. -/
theorem witness_PowerOnReset :
  (let s : State := base;
   s.Sealed) :=
  ((fun (_ : True) => base_sealed))
  (by decide +kernel)

/-- States that meet the hypotheses of `Obligations.SnapPortAndDoorbells`, clause by clause. -/
theorem witness_SnapPortAndDoorbells :
  (let s : State := base;
   s.Sealed ∧ s.stands = false ∧ s.ready rAON = true) ∧
  (let s : State := base;
   s.Sealed ∧ s.stands = false ∧ s.ready rAON = true ∧ s.ready rODO = true) ∧
  (let s : State := dark;
   s.Sealed ∧ s.stands = false ∧ (¬s.ready rAON = true)) ∧
  (let s : State := base;
   let w : BitVec 16 := 0#16;
   s.Sealed ∧ s.stands = false ∧ s.ready rAON = true ∧ (¬(4096 ≤ w.toNat ∧ w.toNat < 4104))) ∧
  (let s : State := base;
   let r : Fin 9 := 1;
   s.Sealed ∧ s.stands = false ∧ s.fnOn ↑r = false) ∧
  (let s : State := vf base;
   let r : Fin 9 := 1;
   s.Sealed ∧ s.stands = false ∧ s.fnOn ↑r = true ∧ s.hostBehind ↑r = false ∧ (r = 8 → s.fw.hostPhase ≠ 1 ∧ s.fw.hostPhase ≠ 2) ∧ s.hostRing ↑r =
     true) ∧
  (let s : State := (vf base).putB (Fd.MBX_CFG_PRODUCER 1) true;
   let r : Fin 9 := 1;
   s.Sealed ∧ s.stands = false ∧ s.fnOn ↑r = true ∧ s.hostBehind ↑r = false ∧ (r = 8 → s.fw.hostPhase ≠ 1 ∧ s.fw.hostPhase ≠ 2) ∧ (¬s.hostRing ↑r =
     true)) ∧
  (let s : State := base;
   let r : Fin 9 := 1;
   s.Sealed ∧ s.stands = false ∧ 1 ≤ ↑r ∧ ↑r ≤ 7 ∧ s.hostRing ↑r = true) ∧
  (let s : State := base.putB (Fd.MBX_CFG_PRODUCER 1) true;
   let r : Fin 9 := 1;
   s.Sealed ∧ s.stands = false ∧ 1 ≤ ↑r ∧ ↑r ≤ 7 ∧ (¬s.hostRing ↑r = true)) :=
  (And.imp (given base_sealed id) <|
  And.imp (given base_sealed id) <|
  And.imp (given dark_sealed id) <|
  And.imp (given base_sealed id) <|
  And.imp (given base_sealed id) <|
  And.imp (And.imp sealed_of id) <|
  And.imp (And.imp sealed_of id) <|
  And.imp (given base_sealed id) <|
  (And.imp sealed_of id))
  (by decide +kernel)

/-- States that meet the hypotheses of `Obligations.StoreConditional`, clause by clause. -/
theorem witness_StoreConditional :
  (let c : Fin 6 := 4;
   let ra : BitVec 5 := 8#5;
   let s : State := miss;
   let k : Core := s.core ↑c;
   let a : Word := s.greg (↑c) ra;
   let p : Place := s.placeFor (↑c) Asker.sc (BitVec.toNat a);
   s.Sealed ∧ s.Issues ↑c ∧ BitVec.toNat a % 4 = 0 ∧ k.region Rgn.w (BitVec.toNat a) = true ∧ (∃ o, p = Place.sram o ∨ p = Place.ddr o) ∧ k.resv =
     none ∧ k.loaded = none) ∧
  (let c : Fin 6 := 4;
   let ra : BitVec 5 := 8#5;
   let rb : BitVec 5 := 6#5;
   let s : State := mc (g8 0x80000040 (some 1)) su;
   let k : Core := s.core ↑c;
   let a : Word := s.greg (↑c) ra;
   let p : Place := s.placeFor (↑c) Asker.sc (BitVec.toNat a);
   let l : List Byte := natLe 4 (BitVec.toNat (s.greg (↑c) rb));
   let q : BusReq :=
      { master := if ↑c < 2 then 0 else ↑c - 1, core := ↑c, level := k.level, path := s.corePath ↑c, target := p.target, addr := BitVec.toNat a, key := p.key, data := l, since := s.clk.now, ask := Asker.sc };
   s.Sealed ∧ s.Issues ↑c ∧ BitVec.toNat a % 4 = 0 ∧ k.region Rgn.w (BitVec.toNat a) = true ∧ (∃ o, p = Place.sram o ∨ p = Place.ddr o) ∧ k.resv ≠
     none ∧ k.loaded = none ∧ s.coreMay (↑c) p 4 true = true ∧ s.grantsNow q = false) ∧
  (let c : Fin 6 := 4;
   let ra : BitVec 5 := 8#5;
   let rb : BitVec 5 := 6#5;
   let s : State := resv;
   let o : Nat := 262432;
   let k : Core := s.core ↑c;
   let a : Word := s.greg (↑c) ra;
   let p : Place := s.placeFor (↑c) Asker.sc (BitVec.toNat a);
   let l : List Byte := natLe 4 (BitVec.toNat (s.greg (↑c) rb));
   let q : BusReq :=
      { master := if ↑c < 2 then 0 else ↑c - 1, core := ↑c, level := k.level, path := s.corePath ↑c, target := p.target, addr := BitVec.toNat a, key := p.key, data := l, since := s.clk.now, ask := Asker.sc };
   s.Sealed ∧ s.Issues ↑c ∧ BitVec.toNat a % 4 = 0 ∧ k.region Rgn.w (BitVec.toNat a) = true ∧ (∃ o, p = Place.sram o ∨ p = Place.ddr o) ∧ p =
     Place.sram o ∧ k.loaded = none ∧ s.coreMay (↑c) p 4 true = true ∧ s.grantsNow q = true ∧ k.resv = some (p.key / 32)) ∧
  (let c : Fin 6 := 4;
   let ra : BitVec 5 := 8#5;
   let rb : BitVec 5 := 6#5;
   let s : State := mc (g8 0x08040120 (some 1)) su;
   let o : Nat := 262432;
   let k : Core := s.core ↑c;
   let a : Word := s.greg (↑c) ra;
   let p : Place := s.placeFor (↑c) Asker.sc (BitVec.toNat a);
   let l : List Byte := natLe 4 (BitVec.toNat (s.greg (↑c) rb));
   let q : BusReq :=
      { master := if ↑c < 2 then 0 else ↑c - 1, core := ↑c, level := k.level, path := s.corePath ↑c, target := p.target, addr := BitVec.toNat a, key := p.key, data := l, since := s.clk.now, ask := Asker.sc };
   s.Sealed ∧ s.Issues ↑c ∧ BitVec.toNat a % 4 = 0 ∧ k.region Rgn.w (BitVec.toNat a) = true ∧ (∃ o, p = Place.sram o ∨ p = Place.ddr o) ∧ p =
     Place.sram o ∧ k.loaded = none ∧ s.coreMay (↑c) p 4 true = true ∧ s.grantsNow q = true ∧ k.resv ≠ some (p.key / 32) ∧ k.resv ≠ none) ∧
  (let c : Fin 6 := 4;
   let ra : BitVec 5 := 8#5;
   let s : State := scDone 0x80000040 (su.place 4 0x80000040).key far;
   let done : Bool := true;
   let k : Core := s.core ↑c;
   let x : Wait := (k.loaded).getD default;
   let a : Word := s.greg (↑c) ra;
   let p : Place := s.placeFor (↑c) Asker.sc (BitVec.toNat a);
   s.Sealed ∧ s.Issues ↑c ∧ BitVec.toNat a % 4 = 0 ∧ k.region Rgn.w (BitVec.toNat a) = true ∧ (∃ o, p = Place.sram o ∨ p = Place.ddr o) ∧ k.loaded =
     some x ∧ x.ask = Asker.sc ∧ x.addr = BitVec.toNat a ∧ x.n = 4 ∧ (x.ans = some (some [if done = true then 1 else 0]))) ∧
  (let c : Fin 6 := 4;
   let ra : BitVec 5 := 8#5;
   let s : State := scNone 0x80000040 (su.place 4 0x80000040).key far;
   let k : Core := s.core ↑c;
   let x : Wait := (k.loaded).getD default;
   let a : Word := s.greg (↑c) ra;
   let p : Place := s.placeFor (↑c) Asker.sc (BitVec.toNat a);
   s.Sealed ∧ s.Issues ↑c ∧ BitVec.toNat a % 4 = 0 ∧ k.region Rgn.w (BitVec.toNat a) = true ∧ (∃ o, p = Place.sram o ∨ p = Place.ddr o) ∧ k.loaded =
     some x ∧ x.ask = Asker.sc ∧ x.addr = BitVec.toNat a ∧ x.n = 4 ∧ x.ans = some none ∧ s.Untraced ↑c ∧ (k.exc (decide (k.level = Level.f))).inexc
     = false) :=
  (And.imp (given miss_sealed (And.imp issues_of (And.imp id (And.imp id (And.imp memory_of id))))) <|
  And.imp (And.imp sealed_of (And.imp issues_of (And.imp id (And.imp id (And.imp memory_of id))))) <|
  And.imp (given resv_sealed (And.imp issues_of (And.imp id (And.imp id (And.imp memory_of id))))) <|
  And.imp (And.imp sealed_of (And.imp issues_of (And.imp id (And.imp id (And.imp memory_of id))))) <|
  And.imp (And.imp sealed_of (And.imp issues_of (And.imp id (And.imp id (And.imp memory_of (And.imp some_of id)))))) <|
  (And.imp sealed_of (And.imp issues_of (And.imp id (And.imp id (And.imp memory_of (And.imp some_of (And.imp id (And.imp id (And.imp id (And.imp id
    (And.imp untraced_of id))))))))))))
  (by decide +kernel)

/-- States that meet the hypotheses of `Obligations.SystemAndDebugReset`, clause by clause. -/
theorem witness_SystemAndDebugReset :
  (let s : State := base;
   s.Sealed) ∧
  (let s : State := base;
   s.Sealed ∧ s.stands = false) :=
  (And.imp (fun (_ : True) => base_sealed) <|
  (given base_sealed id))
  (by decide +kernel)

end SetW3

namespace SetW4

def mc (f : Core → Core) (s : M) : M := { s with cores := s.cores.map f }

def su : M := mem (isa .u 1)

def ss : M := mem (isa .s 1)

def sf : M := mem (isa .f 1)

def base : M := { sf with pcie := { vfEnable := true } }

def plat (s : M) : M := mc (fun k => { k with platform := true }) s

def timer (s : M) : M := mc (fun k => { k with ie := 1, timecmp := 5, sx := { k.sx with ien := true } }) s

def async (s : M) : M := mc (fun k => { k with async := [(.s, 0x77)] }) s

def ext (s : M) : M := mc (fun k => { k with ie := 2, sx := { k.sx with ien := true }, fx := { k.fx with ien := true } })
  (((s.setReg Reg.MBX_DBLATCH 3).modRing 1 fun q => { q with pegIe := true }).put (Fd.PEG_DSTAT_PENDING 1) 1)

def pu : M := plat su

def tu : M := timer su

def au : M := async su

def xu : M := ext su

def xf : M := ext sf

def st (v : Nat) (s : M) : M := (List.range 6).foldl (fun s c => s.put (Fd.SYS_CORECTL_STATE c) v) s

def held : M := { st 0 su with lock45 := false }

def heldLocked : M := (held.putB Fd.SYS_PAIR_LOCK23 true).putB Fd.SYS_PAIR_LOCK45 true

def resting : M := st 2 xu

def sl (now : Nat) (cur : Nat) (two : Bool) (idle : Idle) (s : M) : M :=
  let s := s.modBay 1 fun b => { b with coreUnit := 0x82, sliceFirst := 0, sliceLen := 4 }
  let s := if two then (s.modBay 2 fun b => { b with coreUnit := 0x82, sliceFirst := 4, sliceLen := 4, entry := 0x08040200 }).put (bayStateFld 2) bRUNNING else s
  { mc (fun k => { k with bay := BitVec.ofNat 3 cur, idle := idle }) s with tme := { s.tme with t := now * 2 ^ 48 }, lock23 := true }

def sliceIn : M := sl 0 2 true .no su

def sliceOut : M := sl 600000 1 false .no su

def sliceBack : M := st 2 (sl 0 1 false .ran su)

def sliceHalted : M := st 3 (sl 300000 1 true .no su)

def en (s : M) : M := (List.range 6).foldl (fun s c => s.setReg (Reg.DBG_EN c) 0x1FFFF) s

def debugged : M := en ss

def cold : M := (((base.putB Fd.SYS_CLKSTAT_BEAT_ALIGNED false).putB Fd.SYS_CLKSTAT_MDLL_LOCK true).put (rdyBit rAON) 0).put (rdyBit rCLK) 1

def cold1 : M := { cold with clk := { cold.clk with ka := 3000000 } }

def osc3 : M := base.put Fd.SYS_CLKSTAT_OSC_SEL 3

def pd (v : Nat) : M := (List.range 14).foldl (fun s c => s.put (Fd.PWR_STATE_STATE c) v) (base.put Fd.PWR_POLICY_GATE 0x3FF)

def pd0 : M := pd 0

def pd1 : M := pd 1

def pd2 : M := pd 2

def pd3 : M := pd 3

def pd4 : M := pd 4

def pd1u : M := { pd 1 with pwr := Vector.replicate 14 { upWanted := true } }

def free0 : M := (st 0 pd0).put (bayStateFld 1) bEMPTY

def pegs (v : Nat) (s : M) : M := (List.range 8).foldl (fun s b => ((s.put ⟨Reg.PEG_STATE b 0, 1, 0⟩ v).put ⟨Reg.PEG_STATE b 1, 3, 2⟩ v).put ⟨Reg.PEG_STATE b 255, 31, 30⟩ v) s

def running (s : State) : State :=
  { s with mbx := {}, pcie := { vfEnable := true }, out := [], regs := [(0x40000040, 0x22222222), (0x40020004, 0xFF), (0x40020180, 1), (0x40020188, 1), (0x4002018C, 1),
      (0x40020190, 1), (0x40020194, 1), (0x40020198, 1), (0x4002019C, 1)].foldl (fun l p => sset regReset p.1 p.2 l) s.regs }

def pg (v : Nat) : M := pegs v (running base)

def pg0 : M := pg 0

def pg1 : M := pg 1

def pg3 : M := pg 3

def q1 : M := { pg1 with pcie := { pg1.pcie with hq := Vector.replicate 8 [3,4], dq := Vector.replicate 8 [0xFFF], hqLost := Vector.replicate 8 true } }

def wn : M := { ((((running base).put (Fd.PEG_WIN_BASE 1) 1).put (Fd.PEG_WIN_TARGET 1) 0)) with mbx := base.mbx }

def nr : M := (((base.put (rdyBit rPCIE) 0)))

def hostBoot : M := { nr with fw := { nr.fw with hostPhase := 1 } }

def grants (s : M) : M := (List.range 8).foldl (fun s b => ((s.put (Fd.BXM_BKF_BASE b) 0).put (Fd.BXM_BKF_LEN b) 64)) s

def win : M := grants (pegs 1 wn)

theorem au_sealed : State.Sealed au := sealed_of (by decide +kernel)

theorem base_sealed : State.Sealed base := sealed_of (by decide +kernel)

theorem cold_sealed : State.Sealed cold := sealed_of (by decide +kernel)

theorem cold1_sealed : State.Sealed cold1 := sealed_of (by decide +kernel)

theorem debugged_sealed : State.Sealed debugged := sealed_of (by decide +kernel)

theorem free0_sealed : State.Sealed free0 := sealed_of (by decide +kernel)

theorem held_sealed : State.Sealed held := sealed_of (by decide +kernel)

theorem heldLocked_sealed : State.Sealed heldLocked := sealed_of (by decide +kernel)

theorem hostBoot_sealed : State.Sealed hostBoot := sealed_of (by decide +kernel)

theorem nr_sealed : State.Sealed nr := sealed_of (by decide +kernel)

theorem osc3_sealed : State.Sealed osc3 := sealed_of (by decide +kernel)

theorem pd1_sealed : State.Sealed pd1 := sealed_of (by decide +kernel)

theorem pd1u_sealed : State.Sealed pd1u := sealed_of (by decide +kernel)

theorem pd2_sealed : State.Sealed pd2 := sealed_of (by decide +kernel)

theorem pd3_sealed : State.Sealed pd3 := sealed_of (by decide +kernel)

theorem pd4_sealed : State.Sealed pd4 := sealed_of (by decide +kernel)

theorem pg0_sealed : State.Sealed pg0 := sealed_of (by decide +kernel)

theorem pg3_sealed : State.Sealed pg3 := sealed_of (by decide +kernel)

theorem pu_sealed : State.Sealed pu := sealed_of (by decide +kernel)

theorem q1_sealed : State.Sealed q1 := sealed_of (by decide +kernel)

theorem resting_sealed : State.Sealed resting := sealed_of (by decide +kernel)

theorem sf_sealed : State.Sealed sf := sealed_of (by decide +kernel)

theorem sliceBack_sealed : State.Sealed sliceBack := sealed_of (by decide +kernel)

theorem sliceHalted_sealed : State.Sealed sliceHalted := sealed_of (by decide +kernel)

theorem sliceIn_sealed : State.Sealed sliceIn := sealed_of (by decide +kernel)

theorem sliceOut_sealed : State.Sealed sliceOut := sealed_of (by decide +kernel)

theorem ss_sealed : State.Sealed ss := sealed_of (by decide +kernel)

theorem su_sealed : State.Sealed su := sealed_of (by decide +kernel)

theorem tu_sealed : State.Sealed tu := sealed_of (by decide +kernel)

theorem win_sealed : State.Sealed win := sealed_of (by decide +kernel)

theorem xf_sealed : State.Sealed xf := sealed_of (by decide +kernel)

theorem xu_sealed : State.Sealed xu := sealed_of (by decide +kernel)

/-- Not locked, with the reference there for 1,024 cycles and more. -/
def unl : M := { base.putB Fd.SYS_CLKSTAT_MDLL_LOCK false with clk := { base.clk with ka := 10 ^ 6 } }

/-- The line of the next instruction is cached, and a store of core 2 is under way. -/
def loaded : M :=
  let s := mc (fun k => { k with icache := [{ line := (ss.place 2 (4 * k.pc.toNat)).key / 32, data := List.replicate 32 0 }] }) ss
  { s with bxm := { s.bxm with reqs := [{ master := 2, core := 2, level := .s, target := 2, addr := 0x10000040, key := 0, data := [1], since := 0 }] } }

/-- A slice begins while the core is at level F and takes no PLATFORM. -/
def sliceShut : M := mc (fun k => { k with level := .f }) (sl 0 2 true .no su)

def fasync : M := mc (fun k => { k with async := [(.f, 0x77)] }) su

/-- Function 1's window access waits for the bus matrix, which has its answer; the run time is 10 ms. -/
def asking (op : HostOp) (wait : Option (Nat × Nat)) (ans : List (Nat × Option (List Byte))) : M :=
  { win with pcie := { win.pcie with asks := [{ fn := 1, op := op, ofs := 0, since := 0, wait := wait }] }, bxm := { win.bxm with answers := ans }
             plb := { win.plb with run := 10 ^ 7 * 2 ^ 48 } }

def behind : M := { pg0 with pcie := { pg0.pcie with asks := [{ fn := 1, op := .bar2Write 0 0 }] } }

/-- No virtual function is enabled. -/
def noVf : M := { base with pcie := {} }

/-- Every function is in D3hot. -/
def asleep : M := { base with pcie := { vfEnable := true, fns := Vector.replicate 9 { d3 := true } } }

def noMbx : M := base.putB (rdyBit rMBX) false

def vacant : M := base.put (bayStateFld 1) bEMPTY

/-- A core of the bay has a store under way. -/
def storing : M := { pg0 with bxm := { pg0.bxm with reqs := [{ master := 2, core := 2, level := .s, target := 2, addr := 0x10000040, key := 0, data := [1], since := 0 }] } }

/-- Requests of the host and of the device for one peg stand in one step. -/
def both : M := { q1 with pending := [.devicePegRequest 1 3] }

/-- 1,024 phase errors of 0 are 0. -/
theorem zeros_getD (i : Nat) : (List.replicate 1024 (0 : Int)).getD i 0 = 0 := by
  rw [List.getD_eq_getElem?_getD, List.getElem?_replicate]
  split <;> rfl

/-- States that meet the hypotheses of `Obligations.ClockRoot`, clause by clause. -/
theorem witness_ClockRoot :
  (let s : State := unl;
   let errs : List Int := List.replicate 1024 0;
   let locked : Bool := s.bit Fd.SYS_CLKSTAT_MDLL_LOCK;
   let osc : Nat := 40 / 2 ^ s.get Fd.SYS_CLKSTAT_OSC_SEL;
   s.Sealed ∧ s.get Fd.SYS_CLKSTAT_OSC_SEL ≠ 3 ∧ locked = false ∧ s.clk.gateAt = none ∧ (1024 ≤ errs.length ∧ s.clk.mdllFrom + 1024 * osc ≤ s.clk.ka
     ∧ ∀ (i : Nat), i < 1024 → -16 ≤ errs.getD i 0 ∧ errs.getD i 0 ≤ 16)) ∧
  (let s : State := osc3;
   let errs : List Int := [];
   let osc : Nat := 40 / 2 ^ s.get Fd.SYS_CLKSTAT_OSC_SEL;
   s.Sealed ∧ (s.get Fd.SYS_CLKSTAT_OSC_SEL = 3 ∨ ¬(1024 ≤ errs.length ∧ s.clk.mdllFrom + 1024 * osc ≤ s.clk.ka ∧ ∀ (i : Nat), i < 1024 → -16 ≤
     errs.getD i 0 ∧ errs.getD i 0 ≤ 16))) ∧
  (let s : State := cold;
   let locked : Bool := s.bit Fd.SYS_CLKSTAT_MDLL_LOCK;
   let aligned : Bool := s.bit Fd.SYS_CLKSTAT_BEAT_ALIGNED;
   s.Sealed ∧ locked = true ∧ aligned = false) ∧
  (let s : State := cold;
   let err : Int := 65;
   let late : Nat := 0;
   let locked : Bool := s.bit Fd.SYS_CLKSTAT_MDLL_LOCK;
   let osc : Nat := 40 / 2 ^ s.get Fd.SYS_CLKSTAT_OSC_SEL;
   s.Sealed ∧ locked = true ∧ (err < -64 ∨ 64 < err ∨ 2 * osc ≤ late)) ∧
  (let s : State := osc3;
   let err : Int := 0;
   let late : Nat := 0;
   let locked : Bool := s.bit Fd.SYS_CLKSTAT_MDLL_LOCK;
   let osc : Nat := 40 / 2 ^ s.get Fd.SYS_CLKSTAT_OSC_SEL;
   s.Sealed ∧ (locked = false ∨ ¬(err < -64 ∨ 64 < err ∨ 2 * osc ≤ late))) ∧
  (let s : State := cold1;
   s.Sealed ∧ s.stands = false ∧ s.ready rCLK = true ∧ s.ready rAON = false ∧ 500000 ≤ s.tline) :=
  (And.imp (And.imp sealed_of <| And.imp id <| And.imp id <| And.imp id <| And.imp id <| And.imp id fun (_ : True) i _ => by rw [zeros_getD i]; decide) <|
  And.imp (given osc3_sealed id) <|
  And.imp (given cold_sealed id) <|
  And.imp (given cold_sealed id) <|
  And.imp (given osc3_sealed id) <|
  (given cold1_sealed id))
  (by decide +kernel)

/-- States that meet the hypotheses of `Obligations.CoresRunAndSwitch`, clause by clause. -/
theorem witness_CoresRunAndSwitch :
  (let c : Fin 6 := 2;
   let s : State := held;
   s.Sealed ∧ s.stands = false ∧ s.follows ↑c = false ∧ s.Untraced ↑c ∧ 2 ≤ ↑c ∧ s.domOn (↑c + 2) = true ∧ (∀ (d : Nat), d < 6 → d / 2 = ↑c / 2 →
     s.coreState d = 0) ∧ s.bit (Fd.DBG_CTL_HALT_ON_RESET ↑c) = false ∧ (s.src ↑c).ctxLost = false ∧ (s.bit (if ↑c < 4 then Fd.SYS_PAIR_LOCK23 else
     Fd.SYS_PAIR_LOCK45) = false)) ∧
  (let c : Fin 6 := 2;
   let s : State := heldLocked;
   s.Sealed ∧ s.stands = false ∧ s.follows ↑c = false ∧ s.Untraced ↑c ∧ (↑c = 2 ∨ ↑c = 4) ∧ s.domOn (↑c + 2) = true ∧ (∀ (d : Nat), d < 6 → d / 2 =
     ↑c / 2 → s.coreState d = 0) ∧ s.bit (Fd.DBG_CTL_HALT_ON_RESET ↑c) = false ∧ (s.src ↑c).ctxLost = false ∧ (s.bit (if ↑c < 4 then
     Fd.SYS_PAIR_LOCK23 else Fd.SYS_PAIR_LOCK45) = true)) ∧
  (let c : Fin 6 := 2;
   let s : State := held;
   s.Sealed ∧ s.stands = false ∧ s.follows ↑c = false ∧ s.Untraced ↑c ∧ 2 ≤ ↑c ∧ s.domOn (↑c + 2) = true) ∧
  (let c : Fin 6 := 2;
   let s : State := resting;
   let code : Nat := (s.irq ↑c).getD 0;
   let k : Core := s.core ↑c;
   s.Sealed ∧ s.stands = false ∧ s.follows ↑c = false ∧ s.Untraced ↑c ∧ s.coreState ↑c = 2 ∧ k.idle = Idle.no ∧ k.asyncAt = none ∧ (k.platform =
     true ∧ code = 18 ∨ k.platform = false ∧ s.irq ↑c = some code) ∧ s.haltWanted ↑c = false) ∧
  (let c : Fin 6 := 2;
   let s : State := sliceIn;
   let b : Nat := s.sliceBay ↑c;
   let k : Core := s.core ↑c;
   let serves : Nat := (s.servedBays ↑c).length;
   s.Sealed ∧ s.stands = false ∧ s.follows ↑c = false ∧ s.Untraced ↑c ∧ 2 ≤ ↑c ∧ s.sliceBay ↑c = b ∧ (2 ≤ serves ∧ b ≠ k.bay.toNat) ∧ b ≠ 0 ∧
     (s.coreState ↑c = 1 ∨ s.coreState ↑c = 2) ∧ (s.platformOpen ↑c = true ∧ s.Drained ↑c ∧ k.waits = false ∧ s.haltWanted ↑c = false)) ∧
  (let c : Fin 6 := 2;
   let s : State := sliceOut;
   let b : Nat := s.sliceBay ↑c;
   let k : Core := s.core ↑c;
   let serves : Nat := (s.servedBays ↑c).length;
   s.Sealed ∧ s.stands = false ∧ s.follows ↑c = false ∧ s.Untraced ↑c ∧ 2 ≤ ↑c ∧ s.sliceBay ↑c = b ∧ 1 ≤ serves ∧ b = 0 ∧ (2 ≤ serves ∧ b ≠
     k.bay.toNat ∨ k.idle = Idle.no) ∧ s.coreState ↑c = 1 ∧ (s.platformOpen ↑c = true ∧ s.Drained ↑c ∧ k.waits = false ∧ s.haltWanted ↑c = false)) ∧
  (let c : Fin 6 := 2;
   let s : State := sliceBack;
   let b : Nat := s.sliceBay ↑c;
   let k : Core := s.core ↑c;
   let serves : Nat := (s.servedBays ↑c).length;
   s.Sealed ∧ s.stands = false ∧ s.follows ↑c = false ∧ s.Untraced ↑c ∧ 2 ≤ ↑c ∧ s.sliceBay ↑c = b ∧ 1 ≤ serves ∧ (¬(2 ≤ serves ∧ b ≠ k.bay.toNat))
     ∧ b ≠ 0 ∧ k.idle = Idle.ran ∧ s.coreState ↑c = 2 ∧ s.haltWanted ↑c = false) ∧
  (let c : Fin 6 := 2;
   let s : State := sliceShut;
   let b : Nat := s.sliceBay ↑c;
   let k : Core := s.core ↑c;
   let serves : Nat := (s.servedBays ↑c).length;
   s.Sealed ∧ s.stands = false ∧ s.follows ↑c = false ∧ s.Untraced ↑c ∧ 2 ≤ ↑c ∧ s.sliceBay ↑c = b ∧ (2 ≤ serves ∧ b ≠ k.bay.toNat) ∧ s.coreState ↑c
     = 1 ∧ s.platformOpen ↑c = false) ∧
  (let c : Fin 6 := 2;
   let s : State := sliceHalted;
   let b : Nat := s.sliceBay ↑c;
   let k : Core := s.core ↑c;
   let serves : Nat := (s.servedBays ↑c).length;
   s.Sealed ∧ s.stands = false ∧ s.follows ↑c = false ∧ s.Untraced ↑c ∧ 2 ≤ ↑c ∧ s.sliceBay ↑c = b ∧ (2 ≤ serves ∧ b ≠ k.bay.toNat) ∧ s.coreState ↑c
     = 3) :=
  (And.imp (given held_sealed (And.imp id (And.imp id (And.imp untraced_of id)))) <|
  And.imp (given heldLocked_sealed (And.imp id (And.imp id (And.imp untraced_of id)))) <|
  And.imp (given held_sealed (And.imp id (And.imp id (And.imp untraced_of id)))) <|
  And.imp (given resting_sealed (And.imp id (And.imp id (And.imp untraced_of id)))) <|
  And.imp (given sliceIn_sealed (And.imp id (And.imp id (And.imp untraced_of (And.imp id (And.imp id (And.imp id (And.imp id (And.imp id ((And.imp
    id (And.imp drained_of id)))))))))))) <|
  And.imp (given sliceOut_sealed (And.imp id (And.imp id (And.imp untraced_of (And.imp id (And.imp id (And.imp id (And.imp id (And.imp id (And.imp
    id ((And.imp id (And.imp drained_of id))))))))))))) <|
  And.imp (given sliceBack_sealed (And.imp id (And.imp id (And.imp untraced_of id)))) <|
  And.imp (And.imp sealed_of (And.imp id (And.imp id (And.imp untraced_of id)))) <|
  (given sliceHalted_sealed (And.imp id (And.imp id (And.imp untraced_of id)))))
  (by decide +kernel)

/-- States that meet the hypotheses of `Obligations.EntryAndReturn`, clause by clause. -/
theorem witness_EntryAndReturn :
  (let c : Fin 6 := 2;
   let s : State := su;
   let k : Core := s.core ↑c;
   s.Sealed ∧ s.Untraced ↑c ∧ s.Issues ↑c ∧ k.level = Level.u ∧ k.sx.inexc = false) ∧
  (let c : Fin 6 := 2;
   let s : State := ss;
   let k : Core := s.core ↑c;
   s.Sealed ∧ s.Untraced ↑c ∧ s.Issues ↑c ∧ k.level = Level.s ∧ k.sx.inexc = false ∧ k.fx.inexc = false) ∧
  (let c : Fin 6 := 2;
   let s : State := sf;
   let k : Core := s.core ↑c;
   s.Sealed ∧ s.Untraced ↑c ∧ s.Issues ↑c ∧ k.level = Level.f) ∧
  (let c : Fin 6 := 2;
   let s : State := ss;
   let k : Core := s.core ↑c;
   s.Sealed ∧ s.Untraced ↑c ∧ s.Issues ↑c ∧ k.level = Level.s) ∧
  (let c : Fin 6 := 2;
   let s : State := pu;
   let k : Core := s.core ↑c;
   s.Sealed ∧ s.Untraced ↑c ∧ s.follows ↑c = false ∧ s.coreRuns ↑c = true ∧ s.stands = false ∧ k.waits = false ∧ k.bound = false ∧ s.haltWanted ↑c =
     false ∧ k.async = [] ∧ k.platform = true ∧ (k.level = Level.f → k.fx.ien = true)) ∧
  (let c : Fin 6 := 2;
   let s : State := tu;
   let k : Core := s.core ↑c;
   s.Sealed ∧ s.Untraced ↑c ∧ s.follows ↑c = false ∧ s.coreRuns ↑c = true ∧ s.stands = false ∧ k.waits = false ∧ k.bound = false ∧ s.haltWanted ↑c =
     false ∧ k.async = [] ∧ k.platform = false ∧ (s.extPending ↑c && k.ie.getLsbD 1) = false ∧ k.ie.getLsbD 0 = true ∧ k.timecmp ≤ k.cycle ∧
     (k.level = Level.u ∨ k.level = Level.s ∧ k.sx.ien = true)) :=
  (And.imp (given su_sealed (And.imp untraced_of (And.imp issues_of id))) <|
  And.imp (given ss_sealed (And.imp untraced_of (And.imp issues_of id))) <|
  And.imp (given sf_sealed (And.imp untraced_of (And.imp issues_of id))) <|
  And.imp (given ss_sealed (And.imp untraced_of (And.imp issues_of id))) <|
  And.imp (given pu_sealed (And.imp untraced_of id)) <|
  (given tu_sealed (And.imp untraced_of id)))
  (by decide +kernel)

/-- States that meet the hypotheses of `Obligations.FencesRestAndBreak`, clause by clause. -/
theorem witness_FencesRestAndBreak :
  (let c : Fin 6 := 2;
   let s : State := loaded;
   s.Sealed ∧ s.Ready ↑c ∧ s.Untraced ↑c ∧ s.busy ↑c = true) ∧
  (let c : Fin 6 := 2;
   let s : State := ss;
   s.Sealed ∧ s.Ready ↑c ∧ s.Untraced ↑c ∧ s.irq ↑c = none ∧ s.busy ↑c = false) ∧
  (let c : Fin 6 := 2;
   let s : State := ss;
   let k : Core := s.core ↑c;
   s.Sealed ∧ s.Ready ↑c ∧ s.Untraced ↑c ∧ s.irq ↑c = none ∧ k.level ≠ Level.u) ∧
  (let c : Fin 6 := 2;
   let s : State := ss;
   s.Sealed ∧ s.Ready ↑c ∧ s.Untraced ↑c ∧ s.irq ↑c = none) ∧
  (let c : Fin 6 := 2;
   let s : State := plat ss;
   let k : Core := s.core ↑c;
   s.Sealed ∧ s.Ready ↑c ∧ s.Untraced ↑c ∧ k.level ≠ Level.u ∧ (k.platform = true ∨ s.irq ↑c ≠ none)) ∧
  (let c : Fin 6 := 2;
   let s : State := loaded;
   let k : Core := s.core ↑c;
   s.Sealed ∧ s.Ready ↑c ∧ s.Untraced ↑c ∧ k.level ≠ Level.u ∧ k.platform = false ∧ s.irq ↑c = none ∧ s.busy ↑c = true) ∧
  (let c : Fin 6 := 2;
   let s : State := ss;
   let k : Core := s.core ↑c;
   s.Sealed ∧ s.Ready ↑c ∧ s.Untraced ↑c ∧ k.level ≠ Level.u ∧ k.platform = false ∧ s.irq ↑c = none ∧ s.busy ↑c = false) ∧
  (let c : Fin 6 := 2;
   let s : State := debugged;
   s.Sealed ∧ s.Ready ↑c ∧ s.Untraced ↑c ∧ s.irq ↑c = none ∧ s.levelEnabled (↑c) false = true ∧ (∀ (m : Option Nat), s.groupsOn 0 m = 0)) :=
  (And.imp (And.imp sealed_of (And.imp ready_of (And.imp untraced_of id))) <|
  And.imp (given ss_sealed (And.imp ready_of (And.imp untraced_of id))) <|
  And.imp (given ss_sealed (And.imp ready_of (And.imp untraced_of id))) <|
  And.imp (given ss_sealed (And.imp ready_of (And.imp untraced_of id))) <|
  And.imp (And.imp sealed_of (And.imp ready_of (And.imp untraced_of id))) <|
  And.imp (And.imp sealed_of (And.imp ready_of (And.imp untraced_of id))) <|
  And.imp (given ss_sealed (And.imp ready_of (And.imp untraced_of id))) <|
  (given debugged_sealed (And.imp ready_of (And.imp untraced_of (And.imp id (And.imp id groups0_of))))))
  (by decide +kernel)

/-- States that meet the hypotheses of `Obligations.InterruptsAndReports`, clause by clause. -/
theorem witness_InterruptsAndReports :
  (let c : Fin 6 := 2;
   let s : State := au;
   let k : Core := s.core ↑c;
   let lv : Machine.Level := ((k.async).headD default).1;
   let ad : Word := ((k.async).headD default).2;
   let rest : List (Machine.Level × Word) := (k.async).tail;
   s.Sealed ∧ s.follows ↑c = false ∧ s.coreRuns ↑c = true ∧ s.stands = false ∧ (s.core ↑c).waits = false ∧ (s.core ↑c).bound = false ∧ s.Untraced ↑c
     ∧ s.haltWanted ↑c = false ∧ k.async = (lv, ad) :: rest ∧ lv ≠ Level.f ∧ k.level ≠ Level.f ∧ k.sx.inexc = false) ∧
  (let c : Fin 6 := 2;
   let s : State := fasync;
   let k : Core := s.core ↑c;
   let lv : Machine.Level := ((k.async).headD default).1;
   let ad : Word := ((k.async).headD default).2;
   let rest : List (Machine.Level × Word) := (k.async).tail;
   s.Sealed ∧ s.follows ↑c = false ∧ s.coreRuns ↑c = true ∧ s.stands = false ∧ (s.core ↑c).waits = false ∧ (s.core ↑c).bound = false ∧ s.Untraced ↑c
     ∧ s.haltWanted ↑c = false ∧ k.async = (lv, ad) :: rest ∧ lv = Level.f ∧ k.fx.inexc = false) ∧
  (let c : Fin 6 := 2;
   let s : State := pu;
   let k : Core := s.core ↑c;
   s.Sealed ∧ s.follows ↑c = false ∧ s.coreRuns ↑c = true ∧ s.stands = false ∧ (s.core ↑c).waits = false ∧ (s.core ↑c).bound = false ∧ s.Untraced ↑c
     ∧ s.haltWanted ↑c = false ∧ k.async = [] ∧ k.platform = true ∧ (k.level = Level.f → k.fx.ien = true)) ∧
  (let c : Fin 6 := 0;
   let s : State := xf;
   let k : Core := s.core ↑c;
   s.Sealed ∧ s.follows ↑c = false ∧ s.coreRuns ↑c = true ∧ s.stands = false ∧ (s.core ↑c).waits = false ∧ (s.core ↑c).bound = false ∧ s.Untraced ↑c
     ∧ s.haltWanted ↑c = false ∧ k.async = [] ∧ k.platform = false ∧ s.extPending ↑c = true ∧ k.ie.getLsbD 1 = true ∧ ↑c < 2 ∧ k.level = Level.f ∧
     k.fx.ien = true) ∧
  (let c : Fin 6 := 2;
   let s : State := xu;
   let k : Core := s.core ↑c;
   s.Sealed ∧ s.follows ↑c = false ∧ s.coreRuns ↑c = true ∧ s.stands = false ∧ (s.core ↑c).waits = false ∧ (s.core ↑c).bound = false ∧ s.Untraced ↑c
     ∧ s.haltWanted ↑c = false ∧ k.async = [] ∧ k.platform = false ∧ s.extPending ↑c = true ∧ k.ie.getLsbD 1 = true ∧ 2 ≤ ↑c ∧ (k.level = Level.u ∨
     k.level = Level.s ∧ k.sx.ien = true)) ∧
  (let c : Fin 6 := 2;
   let s : State := tu;
   let k : Core := s.core ↑c;
   s.Sealed ∧ s.follows ↑c = false ∧ s.coreRuns ↑c = true ∧ s.stands = false ∧ (s.core ↑c).waits = false ∧ (s.core ↑c).bound = false ∧ s.Untraced ↑c
     ∧ s.haltWanted ↑c = false ∧ k.async = [] ∧ k.platform = false ∧ (s.extPending ↑c && k.ie.getLsbD 1) = false ∧ k.ie.getLsbD 0 = true ∧ k.timecmp
     ≤ k.cycle ∧ (k.level = Level.u ∨ k.level = Level.s ∧ k.sx.ien = true)) :=
  (And.imp (given au_sealed (And.imp id (And.imp id (And.imp id (And.imp id (And.imp id (And.imp untraced_of (And.imp id (And.imp cons_of
    id))))))))) <|
  And.imp (And.imp sealed_of (And.imp id (And.imp id (And.imp id (And.imp id (And.imp id (And.imp untraced_of (And.imp id (And.imp cons_of
    id))))))))) <|
  And.imp (given pu_sealed (And.imp id (And.imp id (And.imp id (And.imp id (And.imp id (And.imp untraced_of id))))))) <|
  And.imp (given xf_sealed (And.imp id (And.imp id (And.imp id (And.imp id (And.imp id (And.imp untraced_of id))))))) <|
  And.imp (given xu_sealed (And.imp id (And.imp id (And.imp id (And.imp id (And.imp id (And.imp untraced_of id))))))) <|
  (given tu_sealed (And.imp id (And.imp id (And.imp id (And.imp id (And.imp id (And.imp untraced_of id))))))))
  (by decide +kernel)

/-- States that meet the hypotheses of `Obligations.PcieAndWindow`, clause by clause. -/
theorem witness_PcieAndWindow :
  (let s : State := nr;
   s.Sealed ∧ s.stands = false ∧ s.ready rPCIE = false) ∧
  (let s : State := noVf;
   let fn : Fin 9 := 3;
   let q : ConfigReq := .readAer;
   s.Sealed ∧ s.stands = false ∧ s.ready rPCIE = true ∧ s.fnThere ↑fn = false ∧ isConfigRead q = true) ∧
  (let s : State := noVf;
   let fn : Fin 9 := 3;
   let q : ConfigReq := .aspm true;
   s.Sealed ∧ s.stands = false ∧ s.ready rPCIE = true ∧ s.fnThere ↑fn = false ∧ (¬isConfigRead q = true)) ∧
  (let s : State := base;
   let fn : Fin 9 := 3;
   s.Sealed ∧ s.stands = false ∧ s.ready rPCIE = true ∧ s.fnThere ↑fn = true) ∧
  (let s : State := base;
   let fn : Fin 9 := 8;
   let f : PcieFn := vget s.pcie.fns ↑fn;
   s.Sealed ∧ s.stands = false ∧ s.ready rPCIE = true ∧ s.fnThere ↑fn = true ∧ f.pend = 0) ∧
  (let s : State := base;
   let fn : Fin 9 := 8;
   s.Sealed ∧ s.stands = false ∧ s.ready rPCIE = true ∧ s.fnThere ↑fn = true ∧ fn = 8) ∧
  (let s : State := noVf;
   let fn : Fin 9 := 8;
   s.Sealed ∧ s.stands = false ∧ s.ready rPCIE = true ∧ s.fnThere ↑fn = true ∧ fn = 8 ∧ s.pcie.vfEnable = false) ∧
  (let s : State := base;
   let fn : Fin 9 := 3;
   s.Sealed ∧ s.stands = false ∧ s.ready rPCIE = true ∧ s.fnThere ↑fn = true ∧ fn ≠ 8) ∧
  (let s : State := base;
   let fn : Fin 9 := 3;
   let code : BitVec 3 := 2;
   s.Sealed ∧ s.stands = false ∧ s.ready rPCIE = true ∧ s.fnThere ↑fn = true ∧ code.toNat ≤ 2) ∧
  (let s : State := nr;
   s.Sealed ∧ s.stands = false ∧ s.fnOn 8 = true) ∧
  (let s : State := nr;
   let v : Fin 9 := 1;
   s.Sealed ∧ s.stands = false ∧ ↑v < 8 ∧ s.fnOn ↑v = true) ∧
  (let s : State := nr;
   s.Sealed ∧ s.stands = false) ∧
  (let s : State := win;
   let n : Fin 8 := 1;
   let o : BitVec 28 := 0#28;
   let k : Fin 4097 := 2;
   let place : Place := s.windowPlace (↑n) o.toNat;
   s.Sealed ∧ s.stands = false ∧ (s.fnOn ↑n = true ∧ s.ready rMBX = true ∧ s.bayState ↑n ≠ bEMPTY ∧ s.bayState ↑n ≠ bDRAINING ∧ 1 ≤ ↑k ∧ o.toNat %
     65536 + ↑k ≤ 65536 ∧ s.granted (↑n) place (↑k) false = true ∧ s.peg (↑n) (o.toNat / 65536) = pHOST ∧ ∀ (q : HostAsk), q ∈ s.pcie.asks → q.fn ≠
     ↑n)) ∧
  (let s : State := win;
   let n : Fin 8 := 1;
   let o : BitVec 28 := 0#28;
   let l : List (BitVec 8) := [1, 2];
   let place : Place := s.windowPlace (↑n) o.toNat;
   s.Sealed ∧ s.stands = false ∧ (s.fnOn ↑n = true ∧ s.ready rMBX = true ∧ s.bayState ↑n ≠ bEMPTY ∧ s.bayState ↑n ≠ bDRAINING ∧ 1 ≤ l.length ∧
     o.toNat % 65536 + l.length ≤ 65536 ∧ s.granted (↑n) place l.length true = true ∧ s.peg (↑n) (o.toNat / 65536) = pHOST ∧ ∀ (q : HostAsk), q ∈
     s.pcie.asks → q.fn ≠ ↑n)) :=
  (And.imp (given nr_sealed id) <|
  And.imp (And.imp sealed_of id) <|
  And.imp (And.imp sealed_of id) <|
  And.imp (given base_sealed id) <|
  And.imp (given base_sealed id) <|
  And.imp (given base_sealed id) <|
  And.imp (And.imp sealed_of id) <|
  And.imp (given base_sealed id) <|
  And.imp (given base_sealed id) <|
  And.imp (given nr_sealed id) <|
  And.imp (given nr_sealed id) <|
  And.imp (given nr_sealed id) <|
  And.imp (given win_sealed id) <|
  (given win_sealed id))
  (by decide +kernel)

/-- States that meet the hypotheses of `Obligations.PcieAndWindow`, clause by clause (clauses 15 and on). -/
theorem witness_PcieAndWindow_2 :
  (let s : State := asking (.read 2 []) (some (5, 2)) [(5, some [1, 2])];
   let n : Fin 8 := 1;
   let o : BitVec 28 := 0#28;
   let id : Nat := 5;
   let l : List Byte := [1, 2];
   let since : Nat := 0;
   s.Sealed ∧ s.stands = false ∧ s.keys.run = none ∧ s.bxm.answers = [(id, some l)] ∧ s.pcie.asks =
     [{ fn := ↑n, op := HostOp.read l.length [], ofs := o.toNat, since := since, wait := some (id, l.length) }]) ∧
  (let s : State := asking (.write [1, 2]) (some (5, 2)) [(5, some [])];
   let n : Fin 8 := 1;
   let o : BitVec 28 := 0#28;
   let id : Nat := 5;
   let l : List Byte := [];
   let since : Nat := 0;
   let m : List Byte := [1, 2];
   s.Sealed ∧ s.stands = false ∧ s.keys.run = none ∧ s.bxm.answers = [(id, some l)] ∧ s.pcie.asks =
     [{ fn := ↑n, op := HostOp.write m, ofs := o.toNat, since := since, wait := some (id, m.length) }]) ∧
  (let s : State := noVf;
   let n : Fin 8 := 1;
   let o : BitVec 28 := 0#28;
   let k : Fin 4097 := 4096;
   s.Sealed ∧ s.stands = false ∧ 1 ≤ ↑k ∧ o.toNat + ↑k ≤ 2 ^ 28 ∧ s.fnThere ↑n = false) ∧
  (let s : State := asleep;
   let n : Fin 8 := 1;
   let o : BitVec 28 := 0#28;
   let k : Fin 4097 := 4096;
   s.Sealed ∧ s.stands = false ∧ 1 ≤ ↑k ∧ o.toNat + ↑k ≤ 2 ^ 28 ∧ s.fnThere ↑n = true ∧ s.fnOn ↑n = false) ∧
  (let s : State := noMbx;
   let n : Fin 8 := 1;
   let o : BitVec 28 := 0#28;
   let k : Fin 4097 := 4096;
   s.Sealed ∧ s.stands = false ∧ 1 ≤ ↑k ∧ o.toNat + ↑k ≤ 2 ^ 28 ∧ s.fnOn ↑n = true ∧ s.windowAbsent ↑n = false ∧ s.ready rMBX = false) ∧
  (let s : State := vacant;
   let n : Fin 8 := 1;
   let o : BitVec 28 := 0#28;
   let k : Fin 4097 := 4096;
   s.Sealed ∧ s.stands = false ∧ 1 ≤ ↑k ∧ o.toNat + ↑k ≤ 2 ^ 28 ∧ s.fnOn ↑n = true ∧ (s.bayState ↑n = bEMPTY ∨ s.bayState ↑n = bDRAINING)) ∧
  (let s : State := vacant;
   let n : Fin 8 := 1;
   let o : BitVec 28 := 0#28;
   let l : List (BitVec 8) := [1, 2];
   s.Sealed ∧ s.stands = false ∧ 1 ≤ l.length ∧ o.toNat + l.length ≤ 2 ^ 28 ∧ s.fnOn ↑n = true ∧ s.windowAbsent ↑n = true) ∧
  (let s : State := noMbx;
   let n : Fin 8 := 1;
   let o : BitVec 28 := 0#28;
   let l : List (BitVec 8) := [1, 2];
   s.Sealed ∧ s.stands = false ∧ 1 ≤ l.length ∧ o.toNat + l.length ≤ 2 ^ 28 ∧ s.fnOn ↑n = true ∧ s.windowAbsent ↑n = false ∧ s.ready rMBX = false) ∧
  (let s : State := asking (.read 2 []) none [];
   let n : Fin 8 := 1;
   let o : BitVec 28 := 0#28;
   let k : Nat := 2;
   let got : List Byte := [];
   let since : Nat := 0;
   let w : Option (Nat × Nat) := none;
   s.Sealed ∧ s.stands = false ∧ s.pcie.asks = [{ fn := ↑n, op := HostOp.read k got, ofs := o.toNat, since := since, wait := w }] ∧ since + 1000 *
     s.get Fd.PCI_CTO_TIMEOUT ≤ s.runNs) ∧
  (let s : State := nr;
   s.Sealed ∧ s.stands = false ∧ s.fw.hostPhase ≠ 1 ∧ s.fw.hostPhase ≠ 2) ∧
  (let s : State := hostBoot;
   s.Sealed ∧ s.stands = false ∧ s.fw.hostPhase = 1) :=
  (And.imp (And.imp sealed_of id) <|
  And.imp (And.imp sealed_of id) <|
  And.imp (And.imp sealed_of id) <|
  And.imp (And.imp sealed_of id) <|
  And.imp (And.imp sealed_of id) <|
  And.imp (And.imp sealed_of id) <|
  And.imp (And.imp sealed_of id) <|
  And.imp (And.imp sealed_of id) <|
  And.imp (And.imp sealed_of id) <|
  And.imp (given nr_sealed id) <|
  (given hostBoot_sealed id))
  (by decide +kernel)

/-- States that meet the hypotheses of `Obligations.PegsAndRaise`, clause by clause. -/
theorem witness_PegsAndRaise :
  (let s : State := behind;
   let n : Fin 8 := 1;
   s.Sealed ∧ s.stands = false ∧ s.fnOn ↑n = true ∧ s.hostBehind ↑n = true) ∧
  (let s : State := both;
   let n : Fin 8 := 1;
   let w : Word := 3;
   let d : BitVec 32 := 3;
   s.Sealed ∧ s.stands = false ∧ s.fnOn ↑n = true ∧ s.hostBehind ↑n = false ∧ s.pending = [Instr.devicePegRequest n d] ∧ d.toNat % 4096 =
     BitVec.toNat w % 4096) ∧
  (let s : State := storing;
   let n : Fin 8 := 1;
   let ahead : List Nat := s.earlier (s.bayCores ↑n);
   s.Sealed ∧ s.stands = false ∧ ahead ≠ []) ∧
  (let s : State := ((q1.put (bayStateFld 1) bEMPTY).put (rdyBit rMBX) 0);
   let n : Fin 8 := 1;
   let host : Bool := true;
   let w : Word := 3;
   s.Sealed ∧ s.stands = false ∧ host = true ∧ s.fnOn ↑n = true ∧ s.hostBehind ↑n = false ∧ s.deviceAsks (↑n) (BitVec.toNat w % 4096) = false ∧
     s.bayState ↑n = bEMPTY ∧ s.ready rMBX = false) ∧
  (let s : State := pg0;
   let n : Fin 8 := 1;
   let p : BitVec 12 := 17#12;
   let tg : BitVec 2 := 1#2;
   let host : Bool := false;
   let ahead : List Nat := s.earlier (s.bayCores ↑n);
   let q : Word → BusReq := fun x => s.regReq Asker.peg (Path.bay n (Fin.ofNat 6 ((s.bayCores ↑n).headD 0))) (Reg.PEG_REQ ↑n) (some x);
   let word : BitVec 32 := BitVec.ofNat 32 (p.toNat + 65536 * tg.toNat);
   let cur : Nat := s.peg (↑n) p.toNat;
   let mine : Nat := if host = true then pHOST else pDEVICE;
   s.Sealed ∧ s.stands = false ∧ (if host = true then s.fnOn ↑n = true ∧ s.hostBehind ↑n = false ∧ s.deviceAsks (↑n) (word.toNat % 4096) = false ∧
     (s.bayState ↑n = bEMPTY → s.ready rMBX = true) else ahead = [] ∧ s.pcie.pegHeld = [] ∧ s.grantsNow (q word) = true) ∧ tg.toNat ≠ pFAULT ∧
     tg.toNat ≠ cur ∧ (cur = pIDLE ∨ cur = mine)) ∧
  (let s : State := pg0;
   let n : Fin 8 := 1;
   let p : BitVec 12 := 17#12;
   let tg : BitVec 2 := 0#2;
   let host : Bool := false;
   let ahead : List Nat := s.earlier (s.bayCores ↑n);
   let q : Word → BusReq := fun x => s.regReq Asker.peg (Path.bay n (Fin.ofNat 6 ((s.bayCores ↑n).headD 0))) (Reg.PEG_REQ ↑n) (some x);
   let word : BitVec 32 := BitVec.ofNat 32 (p.toNat + 65536 * tg.toNat);
   let cur : Nat := s.peg (↑n) p.toNat;
   let mine : Nat := if host = true then pHOST else pDEVICE;
   s.Sealed ∧ s.stands = false ∧ (if host = true then s.fnOn ↑n = true ∧ s.hostBehind ↑n = false ∧ s.deviceAsks (↑n) (word.toNat % 4096) = false ∧
     (s.bayState ↑n = bEMPTY → s.ready rMBX = true) else ahead = [] ∧ s.pcie.pegHeld = [] ∧ s.grantsNow (q word) = true) ∧ tg.toNat = cur ∧ (cur =
     pIDLE ∨ cur = mine)) ∧
  (let s : State := pg0;
   let n : Fin 8 := 1;
   let p : BitVec 12 := 17#12;
   let tg : BitVec 2 := 3#2;
   let host : Bool := false;
   let ahead : List Nat := s.earlier (s.bayCores ↑n);
   let q : Word → BusReq := fun x => s.regReq Asker.peg (Path.bay n (Fin.ofNat 6 ((s.bayCores ↑n).headD 0))) (Reg.PEG_REQ ↑n) (some x);
   let word : BitVec 32 := BitVec.ofNat 32 (p.toNat + 65536 * tg.toNat);
   let cur : Nat := s.peg (↑n) p.toNat;
   s.Sealed ∧ s.stands = false ∧ (if host = true then s.fnOn ↑n = true ∧ s.hostBehind ↑n = false ∧ s.deviceAsks (↑n) (word.toNat % 4096) = false ∧
     (s.bayState ↑n = bEMPTY → s.ready rMBX = true) else ahead = [] ∧ s.pcie.pegHeld = [] ∧ s.grantsNow (q word) = true) ∧ cur ≠ pFAULT ∧ (tg.toNat
     = pFAULT ∨ cur = if host = true then pDEVICE else pHOST)) ∧
  (let s : State := pg3;
   let n : Fin 8 := 1;
   let p : BitVec 12 := 17#12;
   let tg : BitVec 2 := 1;
   let host : Bool := false;
   let ahead : List Nat := s.earlier (s.bayCores ↑n);
   let q : Word → BusReq := fun x => s.regReq Asker.peg (Path.bay n (Fin.ofNat 6 ((s.bayCores ↑n).headD 0))) (Reg.PEG_REQ ↑n) (some x);
   let word : BitVec 32 := BitVec.ofNat 32 (p.toNat + 65536 * tg.toNat);
   let cur : Nat := s.peg (↑n) p.toNat;
   s.Sealed ∧ s.stands = false ∧ (if host = true then s.fnOn ↑n = true ∧ s.hostBehind ↑n = false ∧ s.deviceAsks (↑n) (word.toNat % 4096) = false ∧
     (s.bayState ↑n = bEMPTY → s.ready rMBX = true) else ahead = [] ∧ s.pcie.pegHeld = [] ∧ s.grantsNow (q word) = true) ∧ cur = pFAULT) ∧
  (let s : State := pg0;
   let n : Fin 8 := 1;
   let host : Bool := false;
   let w : Word := 4294967295#32;
   let ahead : List Nat := s.earlier (s.bayCores ↑n);
   let q : Word → BusReq := fun x => s.regReq Asker.peg (Path.bay n (Fin.ofNat 6 ((s.bayCores ↑n).headD 0))) (Reg.PEG_REQ ↑n) (some x);
   s.Sealed ∧ s.stands = false ∧ (if host = true then s.fnOn ↑n = true ∧ s.hostBehind ↑n = false ∧ s.deviceAsks (↑n) (BitVec.toNat w % 4096) = false
     ∧ (s.bayState ↑n = bEMPTY → s.ready rMBX = true) else ahead = [] ∧ s.pcie.pegHeld = [] ∧ s.grantsNow (q w) = true) ∧ (2 ^ 18 ≤ BitVec.toNat w ∨
     bitsOf (BitVec.toNat w) 15 12 ≠ 0)) ∧
  (let s : State := q1;
   let n : Fin 8 := 1;
   let x : BitVec 12 := (vget s.pcie.hq ↑n).headD default;
   let l : List (BitVec 12) := (vget s.pcie.hq ↑n).tail;
   s.Sealed ∧ s.stands = false ∧ s.fnOn ↑n = true ∧ s.hostBehind ↑n = false ∧ vget s.pcie.hq ↑n = x :: l) ∧
  (let s : State := q1;
   let n : Fin 8 := 1;
   let x : BitVec 12 := (vget s.pcie.dq ↑n).headD default;
   let l : List (BitVec 12) := (vget s.pcie.dq ↑n).tail;
   s.Sealed ∧ s.stands = false ∧ vget s.pcie.dq ↑n = x :: l) ∧
  (let s : State := pg0;
   let n : Fin 8 := 1;
   s.Sealed ∧ s.stands = false ∧ s.fnOn ↑n = true ∧ s.hostBehind ↑n = false ∧ vget s.pcie.hq ↑n = []) ∧
  (let s : State := pg0;
   s.Sealed ∧ s.stands = false) :=
  (And.imp (And.imp sealed_of id) <|
  And.imp (And.imp sealed_of id) <|
  And.imp (And.imp sealed_of id) <|
  And.imp (And.imp sealed_of id) <|
  And.imp (given pg0_sealed id) <|
  And.imp (given pg0_sealed id) <|
  And.imp (given pg0_sealed id) <|
  And.imp (given pg3_sealed id) <|
  And.imp (given pg0_sealed id) <|
  And.imp (given q1_sealed (And.imp id (And.imp id (And.imp id cons_of)))) <|
  And.imp (given q1_sealed (And.imp id cons_of)) <|
  And.imp (given pg0_sealed id) <|
  (given pg0_sealed id))
  (by decide +kernel)

/-- States that meet the hypotheses of `Obligations.PowerDomains`, clause by clause. -/
theorem witness_PowerDomains :
  (let s : State := free0;
   let d : Fin 14 := 4;
   let st : Nat := s.get (Fd.PWR_STATE_STATE ↑d);
   s.Sealed ∧ s.stands = false ∧ 4 ≤ ↑d ∧ s.mayGate ↑d = true ∧ st = 0) ∧
  (let s : State := base;
   let d : Fin 14 := 4;
   s.Sealed ∧ s.stands = false ∧ 4 ≤ ↑d ∧ s.mayGate ↑d = false) ∧
  (let s : State := pd1;
   let d : Fin 14 := 4;
   let st : Nat := s.get (Fd.PWR_STATE_STATE ↑d);
   s.Sealed ∧ s.stands = false ∧ 4 ≤ ↑d ∧ st = 1 ∧ (↑d < 8 ∨ 12 ≤ ↑d ∨ s.engineBusy (↑d - 8) = 0) ∧ (vget s.pwr ↑d).upWanted = false) ∧
  (let s : State := pd1u;
   let d : Fin 14 := 4;
   let st : Nat := s.get (Fd.PWR_STATE_STATE ↑d);
   s.Sealed ∧ s.stands = false ∧ 4 ≤ ↑d ∧ st = 1 ∧ (↑d < 8 ∨ 12 ≤ ↑d ∨ s.engineBusy (↑d - 8) = 0) ∧ (vget s.pwr ↑d).upWanted = true) ∧
  (let s : State := pd2;
   let d : Fin 14 := 4;
   let st : Nat := s.get (Fd.PWR_STATE_STATE ↑d);
   s.Sealed ∧ s.stands = false ∧ 4 ≤ ↑d ∧ st = 2) ∧
  (let s : State := pd2;
   let d : Fin 14 := 4;
   let st : Nat := s.get (Fd.PWR_STATE_STATE ↑d);
   s.Sealed ∧ s.stands = false ∧ 4 ≤ ↑d ∧ st = 2 ∧ ↑d < 8) ∧
  (let s : State := pd1;
   let d : Fin 14 := 4;
   let st : Nat := s.get (Fd.PWR_STATE_STATE ↑d);
   s.Sealed ∧ s.stands = false ∧ 4 ≤ ↑d ∧ st = 1) ∧
  (let s : State := pd3;
   let d : Fin 14 := 4;
   let st : Nat := s.get (Fd.PWR_STATE_STATE ↑d);
   s.Sealed ∧ s.stands = false ∧ 4 ≤ ↑d ∧ st = 3) ∧
  (let s : State := pd4;
   let d : Fin 14 := 4;
   let st : Nat := s.get (Fd.PWR_STATE_STATE ↑d);
   s.Sealed ∧ s.stands = false ∧ 4 ≤ ↑d ∧ st = 4 ∧ (vget s.pwr ↑d).downWanted = false) :=
  (And.imp (given free0_sealed id) <|
  And.imp (given base_sealed id) <|
  And.imp (given pd1_sealed id) <|
  And.imp (given pd1u_sealed id) <|
  And.imp (given pd2_sealed id) <|
  And.imp (given pd2_sealed id) <|
  And.imp (given pd1_sealed id) <|
  And.imp (given pd3_sealed id) <|
  (given pd4_sealed id))
  (by decide +kernel)

end SetW4

namespace SetW11

def mc (f : Core → Core) (s : M) : M := { s with cores := s.cores.map f }

def su : M := mem (isa .u 1)

def line0 : CLine := { line := 0x08040120 / 32, data := (List.range 32).map (BitVec.ofNat 8) }

def withLine (k : Core) : Core := { k with g := k.g.set 8 0x08040120, resv := none, dcache := [line0] }

def hitU : M := mc withLine su

theorem hitU_sealed : State.Sealed hitU := sealed_of (by decide +kernel)

/-- States that meet the hypotheses of `Obligations.LoadsThatHit`, clause by clause. -/
theorem witness_LoadsThatHit :
  (let c : Fin 6 := 4;
   let ra : BitVec 5 := 8#5;
   let i : BitVec 16 := 0#16;
   let s : State := hitU;
   let ln : CLine := ((s.core ↑c).hit (s.place (↑c) (BitVec.toNat (s.greg (↑c) ra + BitVec.signExtend 32 i))).key).getD default;
   let k : Core := s.core ↑c;
   let a : Nat := BitVec.toNat (s.greg (↑c) ra + BitVec.signExtend 32 i);
   let p : Place := s.place (↑c) a;
   s.Sealed ∧ s.Issues ↑c ∧ k.loaded = none ∧ s.cached (↑c) a p = true ∧ k.region Rgn.r a = true ∧ k.hit p.key = some ln ∧ (ln.bad || ln.badFollower
     && s.locked ↑c) = false ∧ p.key % 32 = a % 32 ∧ ln.data.length = 32) ∧
  (let c : Fin 6 := 4;
   let ra : BitVec 5 := 8#5;
   let i : BitVec 16 := 0#16;
   let s : State := hitU;
   let ln : CLine := ((s.core ↑c).hit (s.place (↑c) (BitVec.toNat (s.greg (↑c) ra + BitVec.signExtend 32 i))).key).getD default;
   let k : Core := s.core ↑c;
   let a : Nat := BitVec.toNat (s.greg (↑c) ra + BitVec.signExtend 32 i);
   let p : Place := s.place (↑c) a;
   s.Sealed ∧ s.Issues ↑c ∧ k.loaded = none ∧ s.cached (↑c) a p = true ∧ k.region Rgn.r a = true ∧ k.hit p.key = some ln ∧ (ln.bad || ln.badFollower
     && s.locked ↑c) = false ∧ p.key % 32 = a % 32 ∧ ln.data.length = 32 ∧ a % 2 = 0) ∧
  (let c : Fin 6 := 4;
   let ra : BitVec 5 := 8#5;
   let i : BitVec 16 := 0#16;
   let s : State := hitU;
   let ln : CLine := ((s.core ↑c).hit (s.place (↑c) (BitVec.toNat (s.greg (↑c) ra + BitVec.signExtend 32 i))).key).getD default;
   let k : Core := s.core ↑c;
   let a : Nat := BitVec.toNat (s.greg (↑c) ra + BitVec.signExtend 32 i);
   let p : Place := s.place (↑c) a;
   s.Sealed ∧ s.Issues ↑c ∧ k.loaded = none ∧ s.cached (↑c) a p = true ∧ k.region Rgn.r a = true ∧ k.hit p.key = some ln ∧ (ln.bad || ln.badFollower
     && s.locked ↑c) = false ∧ p.key % 32 = a % 32 ∧ ln.data.length = 32 ∧ a % 4 = 0) ∧
  (let c : Fin 6 := 4;
   let ra : BitVec 5 := 8#5;
   let i : BitVec 16 := 0#16;
   let s : State := hitU;
   let ln : CLine := ((s.core ↑c).hit (s.place (↑c) (BitVec.toNat (s.greg (↑c) ra + BitVec.signExtend 32 i))).key).getD default;
   let k : Core := s.core ↑c;
   let a : Nat := BitVec.toNat (s.greg (↑c) ra + BitVec.signExtend 32 i);
   let p : Place := s.place (↑c) a;
   s.Sealed ∧ s.Issues ↑c ∧ k.loaded = none ∧ s.cached (↑c) a p = true ∧ k.region Rgn.r a = true ∧ k.hit p.key = some ln ∧ (ln.bad || ln.badFollower
     && s.locked ↑c) = false ∧ p.key % 32 = a % 32 ∧ ln.data.length = 32 ∧ a % 4 = 0 ∧ (∀ (o : Nat), p ≠ Place.rom o)) :=
  (And.imp (given hitU_sealed (And.imp issues_of (And.imp id (And.imp id (And.imp id (And.imp some_of id)))))) <|
  And.imp (given hitU_sealed (And.imp issues_of (And.imp id (And.imp id (And.imp id (And.imp some_of id)))))) <|
  And.imp (given hitU_sealed (And.imp issues_of (And.imp id (And.imp id (And.imp id (And.imp some_of id)))))) <|
  (given hitU_sealed (And.imp issues_of (And.imp id (And.imp id (And.imp id (And.imp some_of (And.imp id (And.imp id (And.imp id (And.imp id
    noRom_of)))))))))))
  (by decide +kernel)

end SetW11

namespace SetA4

/-- States that meet the hypotheses of `Obligations.FollowerActsAsUnit`, clause by clause. -/
theorem witness_FollowerActsAsUnit :
  (let c : Fin 6 := 1;
   let l : Fin 6 := 0;
   let s : State := mem (isa Level.u 1);
   s.follows ↑c = true ∧ ↑l + 1 = ↑c) ∧
  (let c : Fin 6 := 1;
   let l : Fin 6 := 0;
   let w : Word := 4227858434#32;
   let s : State := mem (isa Level.u 1);
   s.follows ↑c = true ∧ ↑l + 1 = ↑c ∧ decodeCore w = none) :=
  (And.imp id <|
  id)
  (by decide +kernel)

end SetA4

namespace SetB3

def base : M := mem (isa .f 1)

def pr (n : Nat) : M := { base with fw := { base.fw with pairResets := List.replicate n base.ns }, clk := { base.clk with ka := 10^10 } }

/-- The watchdog's time has run out. -/
def run0 (n : Nat) : M := { pr n with plb := { (pr n).plb with run := 10 ^ 10 * 2 ^ 48 } }

/-- States that meet the hypotheses of `Obligations.PlatformFaults`, clause by clause. -/
theorem witness_PlatformFaults :
  (let s : State := pr 0;
   s.Sealed ∧ s.stands = false ∧ s.Untraced 0 ∧ s.bit (Fd.DBG_CTL_HALT_ON_RESET 0) = false ∧ (s.src 0).ctxLost = false ∧ ((List.filter (fun t =>
     decide (s.ns - t < 10000000000)) s.fw.pairResets).length < 3) ∧ s.coreState 0 ≠ 0) ∧
  (let s : State := pr 0;
   s.Sealed ∧ s.stands = false ∧ s.Untraced 0 ∧ s.bit (Fd.DBG_CTL_HALT_ON_RESET 0) = false ∧ (s.src 0).ctxLost = false ∧ ((List.filter (fun t =>
     decide (s.ns - t < 10000000000)) s.fw.pairResets).length < 3)) ∧
  (let s : State := run0 0;
   s.Sealed ∧ s.stands = false ∧ s.Untraced 0 ∧ s.bit (Fd.DBG_CTL_HALT_ON_RESET 0) = false ∧ (s.src 0).ctxLost = false ∧ ((List.filter (fun t =>
     decide (s.ns - t < 10000000000)) s.fw.pairResets).length < 3) ∧ (s.coreState 0 ≠ 3 ∧ s.fw.kick + s.get Fd.SYS_WDOGCFG_WDOG_MS * 1000000 ≤
     s.runNs)) ∧
  (let s : State := pr 0;
   let v : Word := 0#32;
   s.Sealed ∧ s.stands = false ∧ s.Untraced 0 ∧ s.bit (Fd.DBG_CTL_HALT_ON_RESET 0) = false ∧ (s.src 0).ctxLost = false ∧ ((List.filter (fun t =>
     decide (s.ns - t < 10000000000)) s.fw.pairResets).length < 3) ∧ v ≠ 12648430) ∧
  (let s : State := pr 3;
   s.Sealed ∧ s.stands = false ∧ s.Untraced 0 ∧ s.bit (Fd.DBG_CTL_HALT_ON_RESET 0) = false ∧ (s.src 0).ctxLost = false ∧ (¬(List.filter (fun t =>
     decide (s.ns - t < 10000000000)) s.fw.pairResets).length < 3)) ∧
  (let s : State := run0 3;
   s.Sealed ∧ s.stands = false ∧ s.Untraced 0 ∧ s.bit (Fd.DBG_CTL_HALT_ON_RESET 0) = false ∧ (s.src 0).ctxLost = false ∧ (¬(List.filter (fun t =>
     decide (s.ns - t < 10000000000)) s.fw.pairResets).length < 3) ∧ (s.coreState 0 ≠ 3 ∧ s.fw.kick + s.get Fd.SYS_WDOGCFG_WDOG_MS * 1000000 ≤
     s.runNs)) ∧
  (let s : State := pr 0;
   s.Sealed ∧ s.stands = false ∧ s.Untraced 0 ∧ s.bit (Fd.DBG_CTL_HALT_ON_RESET 0) = false ∧ (s.src 0).ctxLost = false) ∧
  (let s : State := { (pr 1) with lock23 := true };
   let b : Nat := (s.core 2).bay.toNat;
   s.Sealed ∧ s.stands = false ∧ s.Untraced 0 ∧ s.bit (Fd.DBG_CTL_HALT_ON_RESET 0) = false ∧ (s.src 0).ctxLost = false ∧ s.lock23 = true ∧
     s.coreState 2 ≠ 0 ∧ (∀ (d : Nat), d < 6 → s.coreState d ≠ 3) ∧ (s.core 2).bay.toNat = b ∧ b ≠ 0 ∧ s.bayState b = bRUNNING ∧ BitVec.getLsbD
     (s.reg Reg.SYS_BAYPOL) b = false) :=
  (And.imp (And.imp sealed_of (And.imp id (And.imp untraced_of id))) <|
  And.imp (And.imp sealed_of (And.imp id (And.imp untraced_of id))) <|
  And.imp (And.imp sealed_of (And.imp id (And.imp untraced_of id))) <|
  And.imp (And.imp sealed_of (And.imp id (And.imp untraced_of id))) <|
  And.imp (And.imp sealed_of (And.imp id (And.imp untraced_of id))) <|
  And.imp (And.imp sealed_of (And.imp id (And.imp untraced_of id))) <|
  And.imp (And.imp sealed_of (And.imp id (And.imp untraced_of id))) <|
  (And.imp sealed_of (And.imp id (And.imp untraced_of id))))
  (by decide +kernel)

end SetB3

namespace SetB5

def base : M := mem (isa .f 1)

theorem base_sealed : State.Sealed base := sealed_of (by decide +kernel)

/-- States that meet the hypotheses of `Obligations.StaticResetAndRecovery`, clause by clause. -/
theorem witness_StaticResetAndRecovery :
  (let s : State := base;
   s.Sealed ∧ s.stands = false ∧ (∀ (i : Nat), i < 4 → (vget s.seals i).active = false)) ∧
  (let s : State :=
      { pending := base.pending, out := base.out, free := base.free, regs := base.regs, rom := base.rom, sram := base.sram, bkf := base.bkf, ddr := base.ddr, flash := base.flash, clk := base.clk, pwr := base.pwr, tme := base.tme, cores := base.cores, lock23 := base.lock23, lock45 := base.lock45, field := base.field, ddrCtl := base.ddrCtl, bxm := base.bxm, dbg := base.dbg, fig := base.fig, mbx := base.mbx, pcie := base.pcie, snap := base.snap, fw := have base : Fw := base.fw; { base with sched := [{ measure := 3, period := 1000, eff := Effect.commit 1, origin := none }], board := [(1075380224, 3)], saved := [(1075314688 + 16, 5)], staticDue := true }, odo := base.odo, pwm := base.pwm, plb := base.plb, vid := base.vid, aud := base.aud, net := base.net, jnc := base.jnc, otp := base.otp, keys := base.keys, seals := base.seals, signerBusy := base.signerBusy };
   s.Sealed ∧ s.stands = false ∧ s.fw.staticDue = true ∧ (∀ (e : Nat × Word), e ∈ s.fw.board → boardMay e.fst = true) ∧ (∀ (p : Nat × Word), p ∈
     s.fw.saved → p.fst / 65536 ∈ staticBlocks) ∧ ((List.map (fun x => x.fst) s.fw.saved).Nodup)) :=
  (And.imp (given base_sealed id) <|
  (And.imp sealed_of id))
  (by decide +kernel)

end SetB5

namespace SetW6

def idle : M := { isa .f 1 with pcie := {} }

def running (s : State) : State :=
  { s with mbx := {}, pcie := {}, out := [], regs := [(0x40000040, 0x22222222), (0x40020004, 0xFF), (0x40020180, 1), (0x40020188, 1), (0x4002018C, 1),
      (0x40020190, 1), (0x40020194, 1), (0x40020198, 1), (0x4002019C, 1)].foldl (fun l p => sset regReset p.1 p.2 l) s.regs }

def ml (ring bay flags : Nat) (pay : List Byte) : Mail := { ring := Fin.ofNat 9 ring, flags := BitVec.ofNat 8 flags, seq := 0, tag := 0x55, bay := BitVec.ofNat 8 bay, pay := pay }

def pl (n : Nat) (l : List (Nat × Nat × Nat)) : List Byte := l.foldl (fun a (o, k, v) => a.take o ++ natLe k v ++ a.drop (o + k)) (natLe n 0)

def all : M := running idle

def grant (s : M) : M := (s.put (Fd.BXM_BKF_BASE 1) 0).put (Fd.BXM_BKF_LEN 1) 64

def bst (v : Nat) (s : M) : M := s.put (bayStateFld 1) v

def pegs (v : Nat) (s : M) : M := (s.setReg (Reg.PEG_STATE 0 0) (BitVec.ofNat 32 v)).setReg (Reg.PEG_STATE 1 0) (BitVec.ofNat 32 v)

def pegFault : M := pegs 0xFFFFFFFF all

def G : Geom := { turnLen := 1024, period := 1000, turns := 480, tail := 2000, replay := 1 }

def figPart : Part := { bay := 1, geom := G, ppm := 0, partId := 7, allotOfs := 128, allot := [], acts := [], descs := [], routes := [], carries := [] }

def staged : M := all.setStaged 1 (some figPart)

def commit : M := { all with fig := { all.fig with commits := [(1, 10, figPart)] }, fw := { all.fw with sched := [{ measure := 10, period := 1000, eff := .commit 1, origin := none }] } }

def lut : List Byte := pl 44 [(0,1,2),(1,1,5),(2,1,3),(3,1,1),(4,4,0x12345678),(8,4,77),(12,4,0xFFFFFFFF)]

def setKey (n ty usage owner key : Nat) (s : M) : M :=
  (((s.put (Fd.KEY_SLOT_OWNER n) owner).put (Fd.KEY_SLOT_TYPE n) ty).put (Fd.KEY_SLOT_USAGE n) usage).modKeys fun k =>
    { k with slots := vmod k.slots n fun _ => { share := key, mask := 0, tag := s.tagOf n ty usage owner key } }

def k0 : M := { ((grant (pegs 0xAAAAAAAA all)).put (Fd.KEY_SLOT_OWNER 2) 1) with otp := { all.otp with drkA := .good 5 6 } }

def k1 : M := setKey 40 1 (2 ^ uSIGN) 0 99 (setKey 13 1 (2 ^ uSEAL) 1 99 (setKey 10 2 (2 ^ uSIGN + 2 ^ uEXPORTABLE) 1 77 (setKey 4 0 (2 ^ uDERIVE + 2 ^ uEXPORTABLE + 1) 1 4 k0)))

def k2 : M := k1.modBay 1 fun b => { b with phase := [(0x1C4,0xFF)], coreUnit := 2 }

def ring (r : Nat) (ci : Nat) (cmds : List (List Byte)) (f : RingSet → RingSet) (s : M) : M :=
  let s := s.modRing r fun q => f { q with cmdPi := BitVec.ofNat 16 (ci + cmds.length), cmdCi := BitVec.ofNat 16 ci, mem := writeBytes zeroByte cmds.flatten (64 * (ci % 32)) [] }
  { (s.setReg Reg.MBX_DBLATCH (1 <<< r)) with mbx := { s.mbx with next := (r + 1) % 9 } }

def cm (op seq bay fl : Nat) (p : List Byte) : List Byte := mailBytes op { ml 8 bay fl p with seq := BitVec.ofNat 32 seq }

def je (st : JState) (c : List Byte) : JEntry := { seq := cSeq c, cmd := c, state := st, rsp := rspBytes c 0 0 [] }

def box (c : List Byte) : M := ring 8 31 [c] (fun q => { q with expSeq := 5 }) all

def badOp : M := box (cm 0x999 5 1 0 [])

def badRing : M := ring 1 31 [cm 0x600 5 1 0 (pl 12 [])] (fun q => { q with expSeq := 5 }) all

def badState : M := bst bEMPTY (box (cm 0x303 5 1 0 []))

def badReady : M := (box (cm 0x303 5 1 0 [])).putB (rdyBit rFGE) false

def badPay : M := box (cm 0x301 5 1 0 (pl 12 [(11, 1, 1)]))

def badSeq : M := box (cm 0x303 6 1 0 [])

def repeated : M := ring 8 31 [cm 0x303 3 1 0 []] (fun q => { q with expSeq := 5, journal := [je .done (cm 0x303 3 1 0 [])] }) all

def full : M := ring 8 31 [cm 0x303 5 1 0 []] (fun q => { q with expSeq := 5, rspPi := 33 }) all

def overrun : M := ring 8 31 [] (fun q => { q with cmdPi := 64 }) all

def down : M := all.putB (rdyBit rMBX) false

def done : M := { all with fw := { all.fw with done := [⟨⟨8, 9, 0x300⟩, 0⟩] } }

def replay : M := { down with fw := { all.fw with stage := 2 } }

def replayN : M := (replay.modRing 8 fun q => { q with rspPi := 70, journal := [je .taken (cm 0xC06 1 0 0 [5])] })

def b0 : M := { (((idle.put Fd.SYS_STRAP_BOOT_SEL 0).put (rdyBit rKEY) 0).put (rdyBit rPWM) 0) with otp := { idle.otp with provisioned := true }, fw := { idle.fw with entered := none } }

def b2 : M := b0.put Fd.SYS_STRAP_BOOT_SEL 2

def recBad : M := { b2 with fw := { b2.fw with entered := some 5, hostRecord := some [0,1,2] } }

def record : List Byte := let body := natLe 4 Reg.BKF_SCRUB ++ natLe 4 7; magicCHBD ++ natLe 4 1 ++ natLe 4 (crc32 body).toNat ++ natLe 4 0 ++ body

def recGood : M := { recBad with fw := { recBad.fw with hostRecord := some record } }

def chunk : M := let s := { b2 with fw := { b2.fw with hostPhase := 2 } }; s.modRing 8 fun q => { q with mem := [(0, 7), (0x1801, 0x18)] }

theorem all_sealed : State.Sealed all := sealed_of (by decide +kernel)

theorem b0_sealed : State.Sealed b0 := sealed_of (by decide +kernel)

theorem b2_sealed : State.Sealed b2 := sealed_of (by decide +kernel)

theorem badOp_sealed : State.Sealed badOp := sealed_of (by decide +kernel)

theorem badPay_sealed : State.Sealed badPay := sealed_of (by decide +kernel)

theorem badReady_sealed : State.Sealed badReady := sealed_of (by decide +kernel)

theorem badRing_sealed : State.Sealed badRing := sealed_of (by decide +kernel)

theorem badSeq_sealed : State.Sealed badSeq := sealed_of (by decide +kernel)

theorem badState_sealed : State.Sealed badState := sealed_of (by decide +kernel)

theorem chunk_sealed : State.Sealed chunk := sealed_of (by decide +kernel)

theorem commit_sealed : State.Sealed commit := sealed_of (by decide +kernel)

theorem done_sealed : State.Sealed done := sealed_of (by decide +kernel)

theorem down_sealed : State.Sealed down := sealed_of (by decide +kernel)

theorem full_sealed : State.Sealed full := sealed_of (by decide +kernel)

theorem k0_sealed : State.Sealed k0 := sealed_of (by decide +kernel)

theorem k2_sealed : State.Sealed k2 := sealed_of (by decide +kernel)

theorem overrun_sealed : State.Sealed overrun := sealed_of (by decide +kernel)

theorem pegFault_sealed : State.Sealed pegFault := sealed_of (by decide +kernel)

theorem recBad_sealed : State.Sealed recBad := sealed_of (by decide +kernel)

theorem recGood_sealed : State.Sealed recGood := sealed_of (by decide +kernel)

theorem repeated_sealed : State.Sealed repeated := sealed_of (by decide +kernel)

theorem replay_sealed : State.Sealed replay := sealed_of (by decide +kernel)

theorem replayN_sealed : State.Sealed replayN := sealed_of (by decide +kernel)

theorem staged_sealed : State.Sealed staged := sealed_of (by decide +kernel)

/-- Both banks hold the header of an image of length 0. -/
def headed (s : State) : State :=
  { s with flash := [0, 1].flatMap fun k => ((magicCHFW ++ List.replicate 12 (0 : Byte)).zipIdx.filter fun p => p.2 < 4 ∨ 8 ≤ p.2).map fun p => (bankBase k + p.2, p.1) }

/-- Host boot waits for chunks; the bytes it has are `l`. -/
def hostBuf (l : List Byte) : M := { b2 with fw := { b2.fw with hostPhase := 1, hostBuf := l } }

/-- Slots 4 and 6 of the key store are bay 1's, of type 3, for figures and for debug records. -/
def slots : M :=
  let s := k0.modBay 1 fun b => { b with figKey := 4 }
  [(4, 2 ^ uFIGURE), (6, 2 ^ uDEBUG)].foldl (fun s p => ((s.put (Fd.KEY_SLOT_OWNER p.1) 1).put (Fd.KEY_SLOT_TYPE p.1) 3).put (Fd.KEY_SLOT_USAGE p.1) p.2) s

/-- An image without sections (R80, R81). -/
def image : List Byte := pl 128 [(0,4,0x44474946), (4,2,0x100), (6,1,1), (8,4,224), (12,4,1024), (16,4,1000), (20,4,480), (24,2,2000), (28,1,1), (0x60,4,128),
  (0x64,1,2)] ++ List.replicate 96 0

def blob : List Byte := pl 144 [(4,1,0), (5,1,1), (6,2,1)] |>.drop 4 |> (magicCKB1 ++ ·)

def record1 : List Byte := pl 160 [(0,4,0x31414443), (4,1,1), (5,1,4), (6,1,1), (7,1,6), (8,4,(slots.reg Reg.SYS_CHIP_ID).toNat), (0x30,4,1000)]

/-- Bay 1's first block holds `l`. -/
def block (l : List Byte) (s : State) : State := { s with bkf := writeBytes zeroByte l 0 s.bkf }

def figured0 : M := block image slots

def debugged0 : M := block record1 { slots.putB Fd.PLB_STATE_VALID true with dbg := { slots.dbg with challenges := [(1, ⟨1, 4, List.replicate 32 0⟩)] } }

/-- A commit of bay 1 for measure 10 with its entry of the schedule. -/
def blobbed : M := block blob k1

/-- States that meet the hypotheses of `Obligations.BootAndBoard`, clause by clause, where the engines of Config answer as the premises say (their results are opaque). -/
theorem witness_BootAndBoard_verified (hash : ∀ k, bytesN 48 (Config.sha384 k) = bytesN 48 Config.fwRoot) (sig : ∀ k d g, Config.ecVerify true k d g
    = true) :
  (let s : State := headed b0;
   let img : List Byte := s.bankImage s.bootBank;
   s.Sealed ∧ s.stands = false ∧ (s.ready rCLK = true ∧ s.fw.entered = none ∧ s.fw.hostPhase = 0 ∧ s.bit Fd.SYS_FLTSUM_BOOT_FAIL = false ∧
     s.otp.provisioned = true) ∧ (¬s.get Fd.SYS_STRAP_BOOT_SEL = 2) ∧ imageOk s.otp.rollback img = true) ∧
  (let s : State := hostBuf (magicCHFW ++ List.replicate 220 0);
   let q : List (Nat × Byte) := (s.ring 8).mem;
   let chunk : Nat := leNat (readBytes zeroByte q 6144 4);
   s.Sealed ∧ s.stands = false ∧ s.fw.hostPhase = 1 ∧ chunk = 0 ∧ imageOk s.otp.rollback s.fw.hostBuf = true) :=
  (And.imp (And.imp sealed_of (And.imp id (And.imp id (And.imp id ((imageOk_of hash sig)))))) <|
  (And.imp sealed_of (And.imp id (And.imp id (And.imp id ((imageOk_of hash sig)))))))
  (by decide +kernel)

/-- States that meet the hypotheses of `Obligations.BootAndBoard`, clause by clause. -/
theorem witness_BootAndBoard :
  (let s : State := (blank b0);
   let img : List Byte := s.bankImage s.bootBank;
   s.Sealed ∧ s.stands = false ∧ (s.ready rCLK = true ∧ s.fw.entered = none ∧ s.fw.hostPhase = 0 ∧ s.bit Fd.SYS_FLTSUM_BOOT_FAIL = false ∧
     s.otp.provisioned = true) ∧ (¬s.get Fd.SYS_STRAP_BOOT_SEL = 2) ∧ imageOk s.otp.rollback img = false ∧ imageOk s.otp.rollback (s.bankImage (1 -
     s.bootBank)) = false) ∧
  (let s : State := b2;
   s.Sealed ∧ s.stands = false ∧ (s.ready rCLK = true ∧ s.fw.entered = none ∧ s.fw.hostPhase = 0 ∧ s.bit Fd.SYS_FLTSUM_BOOT_FAIL = false ∧
     s.otp.provisioned = true) ∧ s.get Fd.SYS_STRAP_BOOT_SEL = 2) ∧
  (let n : Nat := 6144;
   let s : State := chunk;
   let q : List (Nat × Byte) := (s.ring 8).mem;
   let chunk : Nat := leNat (readBytes zeroByte q 6144 4);
   s.Sealed ∧ s.stands = false ∧ (s.fw.hostPhase = 1 ∨ s.fw.hostPhase = 2) ∧ chunk = n ∧ 0 < n ∧ n ≤ 6144) ∧
  (let s : State := hostBuf [];
   let q : List (Nat × Byte) := (s.ring 8).mem;
   let chunk : Nat := leNat (readBytes zeroByte q 6144 4);
   s.Sealed ∧ s.stands = false ∧ s.fw.hostPhase = 1 ∧ chunk = 0 ∧ imageOk s.otp.rollback s.fw.hostBuf = false) ∧
  (let s : State := recBad;
   let l : List Byte := s.fw.hostRecord.getD default;
   let record : Option (List Byte) := if s.get Fd.SYS_STRAP_BOOT_SEL = 2 then s.fw.hostRecord else some (s.flashBytes 524288 (16 + 8 * min 4096
      (fieldAt (s.flashBytes 524288 16) 4 4)));
   s.Sealed ∧ s.stands = false ∧ s.fw.entered ≠ none ∧ s.ready rPWM = false ∧ record = some l ∧ boardEntries l = none) ∧
  (let s : State := recGood;
   let l : List Byte := s.fw.hostRecord.getD default;
   let es : List (Nat × Word) := (boardEntries l).getD default;
   let record : Option (List Byte) := if s.get Fd.SYS_STRAP_BOOT_SEL = 2 then s.fw.hostRecord else some (s.flashBytes 524288 (16 + 8 * min 4096
      (fieldAt (s.flashBytes 524288 16) 4 4)));
   s.Sealed ∧ s.stands = false ∧ s.fw.entered ≠ none ∧ s.ready rPWM = false ∧ record = some l ∧ boardEntries l = some es) ∧
  (let s : State := recBad;
   s.Sealed ∧ s.stands = false ∧ s.fw.entered ≠ none ∧ s.ready rKEY = false ∧ s.bit Fd.KEY_STAT_OTP_SPENT = false ∧ s.otp.provisioned = true) ∧
  (let s : State := b0;
   let fitted : Fin 4 := 3;
   let rates : BitVec 4 := 15;
   s.Sealed ∧ s.stands = false ∧ s.ready rBOARD = true ∧ s.fw.staticDue = false ∧ s.ddrCtl.training = false ∧ (s.get Fd.DDR_CFG_CAP ≤ ↑fitted ∧
     rates.getLsbD (s.get Fd.DDR_CFG_RATE) = true)) ∧
  (let s : State := b0;
   let fitted : Fin 4 := 3;
   let rates : BitVec 4 := 0;
   s.Sealed ∧ s.stands = false ∧ s.ready rBOARD = true ∧ s.fw.staticDue = false ∧ s.ddrCtl.training = false ∧ (¬(s.get Fd.DDR_CFG_CAP ≤ ↑fitted ∧
     rates.getLsbD (s.get Fd.DDR_CFG_RATE) = true))) :=
  (And.imp (And.imp sealed_of id) <|
  And.imp (given b2_sealed id) <|
  And.imp (given chunk_sealed id) <|
  And.imp (And.imp sealed_of id) <|
  And.imp (given recBad_sealed (And.imp id (And.imp id (And.imp id (And.imp some_of id))))) <|
  And.imp (given recGood_sealed (And.imp id (And.imp id (And.imp id (And.imp some_of some_of))))) <|
  And.imp (given recBad_sealed id) <|
  And.imp (given b0_sealed id) <|
  (given b0_sealed id))
  (by decide +kernel)

/-- States that meet the hypotheses of `Obligations.FigureCommands`, clause by clause, where the engines of Config answer as the premises say (their results are opaque). -/
theorem witness_FigureCommands_verified (sig : ∀ p k d g, Config.ecVerify p k d g = true) :
  (let s : State := withKey 4 5 figured0;
   let m : Mail := ml 8 1 0 (pl 8 [(2, 2, 1), (4, 4, 224)]);
   let b : Nat := m.bay.toNat;
   let g : State := s.given 768 m;
   let img : List Byte := (g.blockBytes b (m.f 0 2) (m.f 4 4)).1.getD default;
   let y : State := (g.blockBytes b (m.f 0 2) (m.f 4 4)).2;
   let z : State := tookKey 4 5 y;
   s.Sealed ∧ s.Accepts 768 m ∧ g.blocksReady b (m.f 0 2) (m.f 2 2) = true ∧ m.f 4 4 ≤ 65536 * m.f 2 2 ∧ g.blockBytes b (m.f 0 2) (m.f 4 4) = (some
     img, y) ∧ s.ready rKEY = true ∧ y.figVerifies b img = (true, z) ∧ Load.checks z b img { keyReady := true, verifies := true } (g.otherParts b) =
     none) ∧
  (let s : State := withKey 4 5 figured0;
   let m : Mail := ml 8 1 0 (pl 8 [(2, 2, 1), (4, 4, 224)]);
   let i : Nat := 0;
   let b : Nat := m.bay.toNat;
   let g : State := s.given 768 m;
   let img : List Byte := (g.blockBytes b (m.f 0 2) (m.f 4 4)).1.getD default;
   let y : State := (g.blockBytes b (m.f 0 2) (m.f 4 4)).2;
   let z : State := tookKey 4 5 y;
   s.Sealed ∧ s.Accepts 768 m ∧ g.blocksReady b (m.f 0 2) (m.f 2 2) = true ∧ m.f 4 4 ≤ 65536 * m.f 2 2 ∧ g.blockBytes b (m.f 0 2) (m.f 4 4) = (some
     img, y) ∧ s.ready rKEY = true ∧ y.figVerifies b img = (true, z) ∧ Load.checks z b img { keyReady := true, verifies := true } (g.otherParts b) =
     none ∧ i < m.f 2 2) :=
  (And.imp (And.imp sealed_of (And.imp accepts_of (And.imp id (And.imp id (And.imp pair_of (And.imp id (And.imp (figVerifies_with figured0 sig
    ((blockBytes_keys _ _ _ _).trans (given_keys _ _ _))) id))))))) <|
  (And.imp sealed_of (And.imp accepts_of (And.imp id (And.imp id (And.imp pair_of (And.imp id (And.imp (figVerifies_with figured0 sig
    ((blockBytes_keys _ _ _ _).trans (given_keys _ _ _))) id))))))))
  (by decide +kernel)

/-- States that meet the hypotheses of `Obligations.FigureCommands`, clause by clause. -/
theorem witness_FigureCommands :
  (let s : State := staged;
   let m : Mail := ml 8 1 0 (natLe 8 10);
   let k : Nat := 10;
   let b : Nat := m.bay.toNat;
   let q : Part := (vget s.fig.staged b).getD default;
   let g : State := s.given 769 m;
   let per : Nat := s.partPeriod (some q);
   s.Sealed ∧ s.Accepts 769 m ∧ vget s.fig.staged b = some q ∧ s.chooseMeasure per (m.f 0 8) = some k ∧ (q.acts ≠ [] → ((s.geometryChange per k
     q).isSome = true → k * per % 1000000 = 0) ∧ Load.commitChecks (g.grantsAt per k) b (Load.mateOf q (vget s.fig.carry b)) (g.partsAt per k b) =
     none ∧ (g.grantsAt per k).laterFail b (Load.mateOf q (vget s.fig.carry b)) (g.grantsMet per k b) = none)) ∧
  (let s : State := staged;
   let m : Mail := ml 8 1 0 (natLe 4 0);
   s.Sealed ∧ s.Accepts 770 m ∧ m.f 0 1 = 0) ∧
  (let s : State := staged;
   let m : Mail := ml 8 1 0 (natLe 4 1);
   let b : Nat := m.bay.toNat;
   s.Sealed ∧ s.Accepts 770 m ∧ m.f 0 1 = 1 ∧ (∀ (c : Nat × Nat × Part), c ∈ s.fig.commits → c.fst ≠ b)) ∧
  (let s : State := commit;
   let m : Mail := ml 8 1 0 (natLe 4 1);
   let k : Nat := 10;
   let q : Part := figPart;
   let b : Nat := m.bay.toNat;
   let e : Sched := (List.find? (fun y => decide (y.eff = Effect.commit b) && decide (y.measure = k)) s.fw.sched).getD default;
   s.Sealed ∧ s.Accepts 770 m ∧ m.f 0 1 = 1 ∧ (List.find? (fun x => decide (x.fst = b)) s.fig.commits.reverse = some (b, k, q)) ∧ (List.find? (fun y
     => decide (y.eff = Effect.commit b) && decide (y.measure = k)) s.fw.sched = some e) ∧ s.tme.t + 100000 * 2 ^ 48 ≤ timePoint e.period k) ∧
  (let s : State := staged;
   let m : Mail := ml 8 1 0 [];
   s.Sealed ∧ s.Accepts 771 m) ∧
  (let s : State := staged;
   let m : Mail := ml 8 1 0 lut;
   let es : List Nat := if m.f 0 1 = 255 then [0, 1, 2, 3] else [m.f 0 1];
   s.Sealed ∧ s.Accepts 784 m ∧ (m.f 0 1 ≤ 3 ∨ m.f 0 1 = 255) ∧ 1 ≤ m.f 2 1 ∧ m.f 2 1 ≤ 10 ∧ m.f 3 1 ≤ 1 ∧ m.f 1 1 + m.f 2 1 ≤ 256 ∧ (∀ (e : Nat), e
     ∈ es → s.domOn (8 + e) = true)) :=
  (And.imp (given staged_sealed (And.imp accepts_of (And.imp some_of id))) <|
  And.imp (given staged_sealed (And.imp accepts_of id)) <|
  And.imp (given staged_sealed (And.imp accepts_of id)) <|
  And.imp (given commit_sealed (And.imp accepts_of (And.imp id (And.imp id (And.imp some_of id))))) <|
  And.imp (given staged_sealed accepts_of) <|
  (given staged_sealed (And.imp accepts_of id)))
  (by decide +kernel)

/-- States that meet the hypotheses of `Obligations.KeyCommands`, clause by clause. -/
theorem witness_KeyCommands :
  (let s : State := k0;
   let m : Mail := ml 8 1 0 (pl 4 [(0, 1, 2), (2, 2, 1)]);
   let b : Nat := m.bay.toNat;
   let n : Nat := m.f 0 1;
   s.Sealed ∧ s.Accepts 3072 m ∧ m.f 1 1 ≤ 2 ∧ usageOk (m.f 1 1) (m.f 2 2) = true ∧ s.destStatus b n (m.f 1 1) = 0 ∧ s.noEntropy = false) ∧
  (let s : State := (withKey 10 77 k1);
   let m : Mail := ml 8 1 0 (pl 8 [(4, 1, 10)]);
   let key : Nat := 77;
   let y : State := tookKey 10 77 (s.given 3074 m);
   let b : Nat := m.bay.toNat;
   let g : State := s.given 3074 m;
   let k : Nat := m.f 0 2;
   let i : Nat := m.f 4 1;
   let z : State := (State.drawBytes 12 y).snd;
   let l : List Byte := z.blobOf b (s.keyType i) (s.keyUsage i) key (State.drawBytes 12 y).fst;
   let w : State := (z.writePlace none (z.windowPlace b (65536 * k)) l).2;
   s.Sealed ∧ s.Accepts 3074 m ∧ g.blocksReady b k 1 = true ∧ i ≤ 63 ∧ s.keyOwner i = b ∧ (s.noEntropy = false ∨ s.keyType i = 3) ∧ g.useKey i
     uEXPORTABLE = (Except.ok key, y) ∧ z.writePlace none (z.windowPlace b (65536 * k)) l = (true, w)) ∧
  (let s : State := (withKey 4 4 k1);
   let m : Mail := ml 8 1 0 (pl 36 [(0, 1, 4), (1, 1, 2), (2, 2, 1), (4, 8, 7)]);
   let ty : Nat := 0;
   let key : Nat := 4;
   let y : State := tookKey 4 4 (s.given 3075 m);
   let b : Nat := m.bay.toNat;
   let n : Nat := m.f 0 1;
   let dst : Nat := m.f 1 1;
   let usage : Nat := m.f 2 2;
   s.Sealed ∧ s.Accepts 3075 m ∧ derivedType usage = some ty ∧ n ≤ 63 ∧ s.keyOwner n = b ∧ s.destStatus b dst ty = 0 ∧ (bitAt usage uEXPORTABLE =
     true → bitAt (s.keyUsage n) uEXPORTABLE = true) ∧ (s.given 3075 m).useKey n uDERIVE = (Except.ok key, y)) ∧
  (let s : State := k0;
   let m : Mail := ml 8 0 0 (pl 4 [(0, 1, 255)]);
   let n : Nat := m.f 0 1;
   s.Sealed ∧ s.Accepts 3076 m ∧ m.f 1 1 ≤ 1 ∧ n = 255 ∧ s.hasIdentity = true) ∧
  (let s : State := (withKey 40 99 k1);
   let m : Mail := ml 8 0 0 (pl 4 [(0, 1, 40)]);
   let key : Nat := 99;
   let b : Nat := m.bay.toNat;
   let n : Nat := m.f 0 1;
   let y : State := ((s.given 3076 m).takeKey n).2;
   s.Sealed ∧ s.Accepts 3076 m ∧ m.f 1 1 ≤ 1 ∧ n ≤ 63 ∧ (s.keyType n = 1 ∨ (s.keyType n = 2 ∨ s.keyType n = 3) ∧ n % 2 = 0) ∧ s.keyOwner n = b ∧
     s.keyBad n = false ∧ (s.given 3076 m).takeKey n = (some key, y)) ∧
  (let s : State := k0;
   let m : Mail := ml 8 0 0 (pl 4 [(0, 1, 40)]);
   let b : Nat := m.bay.toNat;
   let n : Nat := m.f 0 1;
   s.Sealed ∧ s.Accepts 3077 m ∧ n ≤ 63 ∧ (¬((s.keyType n = 2 ∨ s.keyType n = 3) ∧ n % 2 = 1)) ∧ s.keyOwner n = b ∧ s.slotBusy n = false) ∧
  (let s : State := k0;
   let m : Mail := ml 8 0 0 (pl 4 [(0, 1, 40)]);
   let n : Nat := m.f 0 1;
   s.Sealed ∧ s.Accepts 3078 m ∧ 1 ≤ n ∧ n ≤ 48 ∧ s.noEntropy = false) :=
  (And.imp (given k0_sealed (And.imp accepts_of id)) <|
  And.imp (And.imp sealed_of (And.imp accepts_of (And.imp id (And.imp id (And.imp id (And.imp id (And.imp (useKey_took (n := 10) k1 (given_keys _ _
    _)) ((fun h => fst_of (wroteBlob 0 h)))))))))) <|
  And.imp (And.imp sealed_of (And.imp accepts_of (And.imp id (And.imp id (And.imp id (And.imp id (And.imp id ((useKey_took (n := 4) k1 (given_keys _
    _ _)))))))))) <|
  And.imp (given k0_sealed (And.imp accepts_of id)) <|
  And.imp (And.imp sealed_of (And.imp accepts_of (And.imp id (And.imp id (And.imp id (And.imp id (And.imp id ((takeKey_pair (n := 40) k1 (given_keys
    _ _ _)))))))))) <|
  And.imp (given k0_sealed (And.imp accepts_of id)) <|
  (given k0_sealed (And.imp accepts_of id)))
  (by decide +kernel)

/-- States that meet the hypotheses of `Obligations.KeyCommands`, clause by clause, where the engines of Config answer as the premises say (their results are opaque). -/
theorem witness_KeyCommands_opened (opens : ∀ k iv aad c, Config.gcmOpen k iv aad c = some []) :
  (let s : State := blobbed;
   let m : Mail := ml 8 1 0 (pl 8 [(4, 1, 2)]);
   let ty : Nat := 0;
   let usage : Nat := 1;
   let key : Nat := 0;
   let b : Nat := m.bay.toNat;
   let g : State := s.given 3073 m;
   let l : List Byte := (g.blockBytes b (m.f 0 2) 144).1.getD default;
   let y : State := (g.blockBytes b (m.f 0 2) 144).2;
   let z : State := y.blocksIdle b (m.f 0 2) 1;
   let i : Nat := m.f 4 1;
   s.Sealed ∧ s.Accepts 3073 m ∧ g.blocksReady b (m.f 0 2) 1 = true ∧ i ≤ 63 ∧ g.blockBytes b (m.f 0 2) 144 = (some l, y) ∧ z.keyOwner i = b ∧
     z.openBlob b l = some (ty, usage, key) ∧ usageOk ty usage = true ∧ z.destStatus b i ty = 0) :=
  ((And.imp sealed_of (And.imp accepts_of (And.imp id (And.imp id (And.imp pair_of (And.imp id (And.imp (openBlob_of opens) id))))))))
  (by decide +kernel)

/-- States that meet the hypotheses of `Obligations.MailboxService`, clause by clause. -/
theorem witness_MailboxService :
  (let s : State := badOp;
   let r : Nat := rotRing s.mbx.next;
   let q : RingSet := s.ring r;
   let n : Nat := (q.cmdPi - q.cmdCi).toNat;
   let c : List Byte := readBytes zeroByte q.mem (64 * (q.cmdCi.toNat % 32)) 64;
   s.Sealed ∧ s.stands = false ∧ r < 9 ∧ rotRing s.mbx.next = r ∧ s.inRotation r = true ∧ s.ready rMBX = true ∧ (∀ (x : Nat × List Byte), x ∈
     s.mbx.waiting → x.fst ≠ r) ∧ 1 ≤ n ∧ n ≤ 32 ∧ (q.rspPi - q.rspCi).toNat < 32 ∧ cSeq c = q.expSeq ∧ findCmd (cOp c) = none) ∧
  (let s : State := badRing;
   let r : Nat := rotRing s.mbx.next;
   let q : RingSet := s.ring r;
   let n : Nat := (q.cmdPi - q.cmdCi).toNat;
   let c : List Byte := readBytes zeroByte q.mem (64 * (q.cmdCi.toNat % 32)) 64;
   let k : Cmd := (findCmd (cOp c)).getD anyCmd;
   let b : Nat := cBay c;
   s.Sealed ∧ s.stands = false ∧ r < 9 ∧ rotRing s.mbx.next = r ∧ s.inRotation r = true ∧ s.ready rMBX = true ∧ (∀ (x : Nat × List Byte), x ∈
     s.mbx.waiting → x.fst ≠ r) ∧ 1 ≤ n ∧ n ≤ 32 ∧ (q.rspPi - q.rspCi).toNat < 32 ∧ cSeq c = q.expSeq ∧ findCmd (cOp c) = some k ∧ mayServe k.on r b
     = false) ∧
  (let s : State := badState;
   let r : Nat := rotRing s.mbx.next;
   let st : Nat := stBAY_ABSENT;
   let q : RingSet := s.ring r;
   let n : Nat := (q.cmdPi - q.cmdCi).toNat;
   let c : List Byte := readBytes zeroByte q.mem (64 * (q.cmdCi.toNat % 32)) 64;
   let k : Cmd := (findCmd (cOp c)).getD anyCmd;
   let b : Nat := cBay c;
   s.Sealed ∧ s.stands = false ∧ r < 9 ∧ rotRing s.mbx.next = r ∧ s.inRotation r = true ∧ s.ready rMBX = true ∧ (∀ (x : Nat × List Byte), x ∈
     s.mbx.waiting → x.fst ≠ r) ∧ 1 ≤ n ∧ n ≤ 32 ∧ (q.rspPi - q.rspCi).toNat < 32 ∧ cSeq c = q.expSeq ∧ findCmd (cOp c) = some k ∧ mayServe k.on r b
     = true ∧ bayGate k.on k.op (s.bayState b) (bitAt (cFlags c) 0) = Gate.no st) ∧
  (let s : State := badReady;
   let r : Nat := rotRing s.mbx.next;
   let q : RingSet := s.ring r;
   let n : Nat := (q.cmdPi - q.cmdCi).toNat;
   let c : List Byte := readBytes zeroByte q.mem (64 * (q.cmdCi.toNat % 32)) 64;
   let k : Cmd := (findCmd (cOp c)).getD anyCmd;
   let i : Nat := (List.find? (fun j => !s.ready j) k.needs).getD default;
   let b : Nat := cBay c;
   s.Sealed ∧ s.stands = false ∧ r < 9 ∧ rotRing s.mbx.next = r ∧ s.inRotation r = true ∧ s.ready rMBX = true ∧ (∀ (x : Nat × List Byte), x ∈
     s.mbx.waiting → x.fst ≠ r) ∧ 1 ≤ n ∧ n ≤ 32 ∧ (q.rspPi - q.rspCi).toNat < 32 ∧ cSeq c = q.expSeq ∧ findCmd (cOp c) = some k ∧ mayServe k.on r b
     = true ∧ bayGate k.on k.op (s.bayState b) (bitAt (cFlags c) 0) = Gate.go ∧ (List.find? (fun j => !s.ready j) k.needs = some i)) ∧
  (let s : State := badPay;
   let r : Nat := rotRing s.mbx.next;
   let q : RingSet := s.ring r;
   let n : Nat := (q.cmdPi - q.cmdCi).toNat;
   let c : List Byte := readBytes zeroByte q.mem (64 * (q.cmdCi.toNat % 32)) 64;
   let k : Cmd := (findCmd (cOp c)).getD anyCmd;
   let b : Nat := cBay c;
   s.Sealed ∧ s.stands = false ∧ r < 9 ∧ rotRing s.mbx.next = r ∧ s.inRotation r = true ∧ s.ready rMBX = true ∧ (∀ (x : Nat × List Byte), x ∈
     s.mbx.waiting → x.fst ≠ r) ∧ 1 ≤ n ∧ n ≤ 32 ∧ (q.rspPi - q.rspCi).toNat < 32 ∧ cSeq c = q.expSeq ∧ findCmd (cOp c) = some k ∧ mayServe k.on r b
     = true ∧ bayGate k.on k.op (s.bayState b) (bitAt (cFlags c) 0) = Gate.go ∧ (List.find? (fun j => !s.ready j) k.needs = none) ∧ k.payloadOk c =
     false) ∧
  (let s : State := badSeq;
   let r : Nat := rotRing s.mbx.next;
   let q : RingSet := s.ring r;
   let n : Nat := (q.cmdPi - q.cmdCi).toNat;
   let c : List Byte := readBytes zeroByte q.mem (64 * (q.cmdCi.toNat % 32)) 64;
   s.Sealed ∧ s.stands = false ∧ r < 9 ∧ rotRing s.mbx.next = r ∧ s.inRotation r = true ∧ s.ready rMBX = true ∧ (∀ (x : Nat × List Byte), x ∈
     s.mbx.waiting → x.fst ≠ r) ∧ 1 ≤ n ∧ n ≤ 32 ∧ (q.rspPi - q.rspCi).toNat < 32 ∧ 32 < BitVec.toNat (q.expSeq - cSeq c)) ∧
  (let s : State := repeated;
   let r : Nat := rotRing s.mbx.next;
   let q : RingSet := s.ring r;
   let n : Nat := (q.cmdPi - q.cmdCi).toNat;
   let c : List Byte := readBytes zeroByte q.mem (64 * (q.cmdCi.toNat % 32)) 64;
   let e : JEntry := (List.find? (fun e => decide (e.seq = cSeq c) && decide (e.state ≠ JState.taken)) q.journal).getD default;
   s.Sealed ∧ s.stands = false ∧ r < 9 ∧ rotRing s.mbx.next = r ∧ s.inRotation r = true ∧ s.ready rMBX = true ∧ (∀ (x : Nat × List Byte), x ∈
     s.mbx.waiting → x.fst ≠ r) ∧ 1 ≤ n ∧ n ≤ 32 ∧ (q.rspPi - q.rspCi).toNat < 32 ∧ cSeq c ≠ q.expSeq ∧ BitVec.toNat (q.expSeq - cSeq c) ≤ 32 ∧
     (List.find? (fun e => decide (e.seq = cSeq c) && decide (e.state ≠ JState.taken)) q.journal = some e) ∧ e.rsp.length = 64) ∧
  (let s : State := full;
   let r : Nat := rotRing s.mbx.next;
   let q : RingSet := s.ring r;
   let n : Nat := (q.cmdPi - q.cmdCi).toNat;
   s.Sealed ∧ s.stands = false ∧ r < 9 ∧ rotRing s.mbx.next = r ∧ s.inRotation r = true ∧ s.ready rMBX = true ∧ (∀ (x : Nat × List Byte), x ∈
     s.mbx.waiting → x.fst ≠ r) ∧ 1 ≤ n ∧ n ≤ 32 ∧ (¬(q.rspPi - q.rspCi).toNat < 32)) ∧
  (let s : State := overrun;
   let r : Nat := rotRing s.mbx.next;
   let q : RingSet := s.ring r;
   let n : Nat := (q.cmdPi - q.cmdCi).toNat;
   s.Sealed ∧ s.stands = false ∧ r < 9 ∧ rotRing s.mbx.next = r ∧ s.inRotation r = true ∧ s.ready rMBX = true ∧ (∀ (x : Nat × List Byte), x ∈
     s.mbx.waiting → x.fst ≠ r) ∧ 32 < n) ∧
  (let s : State := down;
   s.Sealed ∧ s.stands = false ∧ s.ready rMBX = false) ∧
  (let s : State := done;
   let d : Done := (s.fw.done).headD default;
   let l : List Done := (s.fw.done).tail;
   s.Sealed ∧ s.stands = false ∧ s.fw.done = d :: l ∧ d.origin.ring < 9) ∧
  (let s : State := replay;
   s.Sealed ∧ s.stands = false ∧ s.ready rMBX = false ∧ 2 ≤ s.fw.stage ∧ (∀ (r : Nat), r < 9 → ∀ (e : JEntry), e ∈ (s.ring r).journal → e.state =
     JState.delivered)) ∧
  (let s : State := replayN;
   let e : JEntry := (s.ring 8).journal.headD default;
   let k : Cmd := (findCmd (cOp e.cmd)).getD anyCmd;
   s.Sealed ∧ s.stands = false ∧ s.ready rMBX = false ∧ 2 ≤ s.fw.stage ∧ (s.ring 8).journal = [e] ∧ e.state = JState.taken ∧ findCmd (cOp e.cmd) =
     some k ∧ k.cls = Cls.n ∧ e.seq = cSeq e.cmd ∧ (∀ (r : Nat), r < 8 → (s.ring r).journal = [])) :=
  (And.imp (given badOp_sealed id) <|
  And.imp (given badRing_sealed id) <|
  And.imp (given badState_sealed id) <|
  And.imp (given badReady_sealed (And.imp id (And.imp id (And.imp id (And.imp id (And.imp id (And.imp id (And.imp id (And.imp id (And.imp id
    (And.imp id (And.imp id (And.imp id (And.imp id some_of)))))))))))))) <|
  And.imp (given badPay_sealed id) <|
  And.imp (given badSeq_sealed id) <|
  And.imp (given repeated_sealed (And.imp id (And.imp id (And.imp id (And.imp id (And.imp id (And.imp id (And.imp id (And.imp id (And.imp id
    (And.imp id (And.imp id (And.imp some_of id))))))))))))) <|
  And.imp (given full_sealed id) <|
  And.imp (given overrun_sealed id) <|
  And.imp (given down_sealed id) <|
  And.imp (given done_sealed (And.imp id (And.imp cons_of id))) <|
  And.imp (given replay_sealed id) <|
  (given replayN_sealed id))
  (by decide +kernel)

/-- States that meet the hypotheses of `Obligations.SealAndDebugCommands`, clause by clause. -/
theorem witness_SealAndDebugCommands :
  (let s : State := k2;
   let m : Mail := ml 8 1 0 (pl 24 [(0, 1, 0), (1, 1, 13), (2, 2, 3600), (16, 8, 10)]);
   let k : Nat := 10;
   let b : Nat := m.bay.toNat;
   let i : Nat := m.f 0 1;
   let p : Nat := s.periodUs;
   let g : State := s.given 3328 m;
   let slot : Nat := m.f 1 1;
   s.Sealed ∧ s.Accepts 3328 m ∧ i ≤ 3 ∧ slot ≤ 63 ∧ 1 ≤ m.f 2 2 ∧ m.f 2 2 ≤ 3600 ∧ s.chooseMeasure p (m.f 16 8) = some k ∧ (g.grantsAt p k).phaseOf
     b (452 + i) ≠ 0 ∧ (g.grantsAt p k).keyOwner slot = b ∧ s.keyType slot = 1 ∧ bitAt (s.keyUsage slot) uSEAL = true ∧ s.noEntropy = false) ∧
  (let s : State := k2;
   let m : Mail := ml 8 1 0 (pl 16 [(8, 8, 10)]);
   let k : Nat := 10;
   let b : Nat := m.bay.toNat;
   let i : Nat := m.f 0 1;
   let p : Nat := s.periodUs;
   s.Sealed ∧ s.Accepts 3329 m ∧ i ≤ 3 ∧ (s.phaseOf b (452 + i) ≠ 0 ∨ (s.seal_ i).active = true) ∧ ((s.seal_ i).active = true → (s.seal_ i).bay = b)
     ∧ s.chooseMeasure p (m.f 8 8) = some k) ∧
  (let s : State := k2;
   let m : Mail := ml 8 1 0 (pl 4 []);
   let b : Nat := m.bay.toNat;
   let i : Nat := m.f 0 1;
   s.Sealed ∧ s.Accepts 3330 m ∧ i ≤ 3 ∧ ((s.seal_ i).bay = b ∨ s.phaseOf b (452 + i) ≠ 0)) ∧
  (let s : State := k2;
   let m : Mail := ml 8 0 0 (pl 4 [(0, 1, 2), (1, 1, 3)]);
   let b : Nat := m.bay.toNat;
   let i : Nat := m.f 0 1;
   let cs : Nat := m.f 1 1;
   s.Sealed ∧ s.Accepts 3840 m ∧ (i = 1 ∨ i = 2 ∧ m.ring = 8 ∧ b = 0) ∧ cs ≠ 0 ∧ cs < 64 ∧ (∀ (c : Nat), c < 6 → bitAt cs c = true → s.serves c b =
     true) ∧ s.noEntropy = false) ∧
  (let s : State := k2;
   let m : Mail := ml 8 0 0 (pl 16 [(0, 1, 3), (1, 1, 1), (2, 1, 1)]);
   let b : Nat := m.bay.toNat;
   let i : Nat := m.f 0 1;
   let cs : Nat := i;
   let lv : Nat := m.f 1 1;
   let sink : Nat := m.f 2 1;
   let filt : Nat := m.f 4 4;
   s.Sealed ∧ s.Accepts 3842 m ∧ cs < 64 ∧ lv ≤ 7 ∧ sink ≤ 2 ∧ filt < 256 ∧ filt % 16 ≤ 8 ∧ (bitAt lv 2 = true → m.ring = 8 ∧ b = 0) ∧ (∀ (c : Nat),
     c < 6 → bitAt cs c = true → s.serves c b = true ∧ (bitAt lv 1 = true → s.bit (enableFld (Reg.DBG_EN (s.lead c)) b 1) = true) ∧ (bitAt lv 2 =
     true → s.bit (enableFld (Reg.DBG_EN (s.lead c)) b 2) = true) ∧ (s.get (Fd.DBG_SINK_SINK (s.lead c)) = 0 ∨ s.get (Fd.DBG_SINK_SINK (s.lead c)) =
     sink ∨ (BitVec.toNat (s.reg (Reg.DBG_TEN (s.lead c))) &&& 131071 - 2 ^ b - 2 ^ (8 + b) - if m.ring = 8 ∧ b = 0 then 2 ^ 16 else 0) = 0))) ∧
  (let s : State := k2;
   let m : Mail := ml 8 1 0 [];
   s.Sealed ∧ s.Accepts 3843 m) :=
  (And.imp (given k2_sealed (And.imp accepts_of id)) <|
  And.imp (given k2_sealed (And.imp accepts_of id)) <|
  And.imp (given k2_sealed (And.imp accepts_of id)) <|
  And.imp (given k2_sealed (And.imp accepts_of id)) <|
  And.imp (given k2_sealed (And.imp accepts_of id)) <|
  (given k2_sealed accepts_of))
  (by decide +kernel)

/-- States that meet the hypotheses of `Obligations.SealAndDebugCommands`, clause by clause, where the engines of Config answer as the premises say (their results are opaque). -/
theorem witness_SealAndDebugCommands_verified (sig : ∀ p k d g, Config.ecVerify p k d g = true) :
  (let s : State := withKey 6 7 debugged0;
   let m : Mail := ml 8 1 0 (pl 4 []);
   let x : Challenge := ⟨1, 4, List.replicate 32 0⟩;
   let b : Nat := m.bay.toNat;
   let g : State := s.given 3841 m;
   let l : List Byte := (g.blockBytes b (m.f 0 2) 160).1.getD default;
   let y : State := (g.blockBytes b (m.f 0 2) 160).2;
   let z : State := y.blocksIdle b (m.f 0 2) 1;
   let w : State := tookKey 6 7 (z.setChallenge b none);
   s.Sealed ∧ s.Accepts 3841 m ∧ g.blocksReady b (m.f 0 2) 1 = true ∧ g.blockBytes b (m.f 0 2) 160 = (some l, y) ∧ (List.find? (fun x => decide
     (x.fst = b)) s.dbg.challenges = some (b, x)) ∧ (x.level = 2 → m.ring = 8) ∧ (z.setChallenge b none).authHolds b x l = (true, w)) :=
  ((And.imp sealed_of (And.imp accepts_of (And.imp id (And.imp pair_of (And.imp id (And.imp id ((authHolds_with debugged0 sig ((challenge_keys _ _
    _).trans ((idle_keys _ _ _ _).trans ((blockBytes_keys _ _ _ _).trans (given_keys _ _ _)))))))))))))
  (by decide +kernel)

/-- States that meet the hypotheses of `Obligations.SystemAndTelemetryCommands`, clause by clause. -/
theorem witness_SystemAndTelemetryCommands :
  (let s : State := all;
   let m : Mail := ml 8 0 0 [];
   s.Sealed ∧ s.Accepts 256 m) ∧
  (let s : State := all;
   let m : Mail := ml 8 0 0 [];
   s.Sealed ∧ s.Accepts 257 m) ∧
  (let s : State := all;
   let m : Mail := ml 8 1 0 (natLe 4 0);
   let b : Nat := m.bay.toNat;
   s.Sealed ∧ s.Accepts 517 m ∧ m.f 0 1 ≤ 1 ∧ (¬(b = 0 ∧ m.f 0 1 = 1)) ∧ (s.ring b).cmdPi = (s.ring b).cmdCi ∧ (s.ring b).rspPi = (s.ring b).rspCi) ∧
  (let s : State := all;
   let m : Mail := ml 8 0 0 [];
   s.Sealed ∧ s.Accepts 544 m) ∧
  (let s : State := pegFault;
   let m : Mail := ml 8 1 0 (natLe 4 0);
   let b : Nat := m.bay.toNat;
   s.Sealed ∧ s.Accepts 576 m ∧ m.f 0 2 < 4096 ∧ s.peg b (m.f 0 2) = pFAULT) ∧
  (let s : State := all;
   let m : Mail := ml 8 1 0 (natLe 4 0);
   let b : Nat := m.bay.toNat;
   s.Sealed ∧ s.Accepts 576 m ∧ m.f 0 2 < 4096 ∧ s.peg b (m.f 0 2) ≠ pFAULT) ∧
  (let s : State := all;
   let m : Mail := ml 8 1 0 (natLe 4 1 ++ natLe 4 (2 ^ 19 - 1));
   let b : Nat := m.bay.toNat;
   s.Sealed ∧ s.Accepts 577 m ∧ m.f 0 1 ≤ 1 ∧ m.f 4 4 < 2 ^ 19 ∧ (∀ (k : Nat), k < 256 → s.reg (Reg.PEG_STATE b k) = 0)) ∧
  (let s : State := all;
   let m : Mail := ml 8 0 0 (natLe 4 1073741824 ++ natLe 1 2 ++ natLe 3 0);
   let b : Nat := m.bay.toNat;
   s.Sealed ∧ s.Accepts 3584 m ∧ 1 ≤ m.f 4 1 ∧ m.f 4 1 ≤ 12 ∧ m.f 0 4 % 4 = 0 ∧ (∀ (i : Nat), i < m.f 4 1 → listedBlocks.contains ((m.f 0 4 + 4 * i)
     / 65536) = true ∧ s.bayReads b none (m.f 0 4 + 4 * i) = true)) ∧
  (let s : State := all;
   let m : Mail := ml 8 0 0 [];
   s.Sealed ∧ s.Accepts 3585 m) :=
  (And.imp (given all_sealed accepts_of) <|
  And.imp (given all_sealed accepts_of) <|
  And.imp (given all_sealed (And.imp accepts_of id)) <|
  And.imp (given all_sealed accepts_of) <|
  And.imp (given pegFault_sealed (And.imp accepts_of id)) <|
  And.imp (given all_sealed (And.imp accepts_of id)) <|
  And.imp (given all_sealed (And.imp accepts_of id)) <|
  And.imp (given all_sealed (And.imp accepts_of id)) <|
  (given all_sealed accepts_of))
  (by decide +kernel)

/-- States that meet the hypotheses of `Obligations.SystemAndTelemetryCommands`, clause by clause, where the engines of Config answer as the premises say (their results are opaque). -/
theorem witness_SystemAndTelemetryCommands_verified (hash : ∀ k, bytesN 48 (Config.sha384 k) = bytesN 48 Config.fwRoot) (sig : ∀ k d g,
    Config.ecVerify true k d g = true) :
  (let s : State := block (magicCHFW ++ List.replicate 220 0) k0;
   let m : Mail := ml 8 0 0 (pl 8 [(2, 2, 1), (4, 4, 224)]);
   let g : State := s.given 272 m;
   let l : List Byte := (g.blockBytes 0 (m.f 0 2) (m.f 4 4)).1.getD default;
   let y : State := (g.blockBytes 0 (m.f 0 2) (m.f 4 4)).2;
   s.Sealed ∧ s.Accepts 272 m ∧ g.blocksReady 0 (m.f 0 2) (m.f 2 2) = true ∧ m.f 4 4 ≤ 65536 * m.f 2 2 ∧ m.f 4 4 ≤ 1048576 ∧ g.blockBytes 0 (m.f 0
     2) (m.f 4 4) = (some l, y) ∧ imageOk s.otp.rollback l = true) ∧
  (let s : State := headed all;
   let m : Mail := ml 8 0 0 (pl 4 []);
   s.Sealed ∧ s.Accepts 273 m ∧ m.f 0 1 ≤ 1 ∧ imageOk s.otp.rollback (s.bankImage (m.f 0 1)) = true) :=
  (And.imp (And.imp sealed_of (And.imp accepts_of (And.imp id (And.imp id (And.imp id (And.imp pair_of ((imageOk_of hash sig)))))))) <|
  (And.imp sealed_of (And.imp accepts_of (And.imp id ((imageOk_of hash sig))))))
  (by decide +kernel)

end SetW6

namespace SetB6

def base : M := mem (isa .f 1)

def dn : M := (List.range 14).foldl (fun s c => s.put (Fd.PWR_STATE_STATE c) 2) base

theorem base_sealed : State.Sealed base := sealed_of (by decide +kernel)

theorem dn_sealed : State.Sealed dn := sealed_of (by decide +kernel)

/-- The bus matrix may grant at no target before a later cycle. -/
def later : M := { base with bxm := { base.bxm with grantFrom := base.bxm.grantFrom.map fun _ => 10 ^ 9 } }

/-- Core 0 has a store under way. -/
def storing : M := { base with bxm := { base.bxm with reqs := [{ master := 0, core := 0, level := .f, target := 2, addr := 0x10000040, key := 0, data := [1], since := 0 }] } }

/-- States that meet the hypotheses of `Obligations.RegisterWrites`, clause by clause. -/
theorem witness_RegisterWrites :
  (let s : State := later;
   let a : Word := 0x40050000#32;
   let v : Word := 5;
   let w : Nat := BitVec.toNat a;
   let q : Path → BusReq := fun p => s.regReq Asker.row p w (some v);
   s.Sealed ∧ s.stands = false ∧ (∀ (i : Nat), i < 6 → vget s.dbg.feed i = none) ∧ s.earlier [0] = [] ∧ s.grantsNow (q Path.fw) = false) ∧
  (let s : State := storing;
   s.Sealed ∧ s.stands = false ∧ (∀ (i : Nat), i < 6 → vget s.dbg.feed i = none) ∧ s.earlier [0] ≠ []) ∧
  (let s : State := base;
   let a : Word := 0x40050000#32;
   let v : Word := 5;
   let f : Family := ((findReg (0x40050000#32 : Word).toNat).get (by decide +kernel)).1;
   let ix : List Nat := ((findReg (0x40050000#32 : Word).toNat).get (by decide +kernel)).2;
   let x : FieldSpec := f.fields.head (by decide +kernel);
   let w : Nat := BitVec.toNat a;
   let q : Path → BusReq := fun p => s.regReq Asker.row p w (some v);
   s.Sealed ∧ s.stands = false ∧ (∀ (i : Nat), i < 6 → vget s.dbg.feed i = none) ∧ (s.earlier [0] = [] ∧ s.grantsNow (q Path.fw) = true) ∧ findReg w
     = some (f, ix) ∧ x ∈ f.fields ∧ (w % 4 = 0 ∧ listedBlocks.contains (w / 65536) = true) ∧ s.domOn (blockDomain (w / 65536)) = true ∧ ringArea w
     = none ∧ (¬w / 65536 ∈ 16384 :: 16385 :: 16387 :: 16417 :: 16419 :: 16465 :: dbgBlocks) ∧ w ≠ Reg.DDR_CFG ∧ w ≠ Reg.MBX_CFG 0 ∧ (∀ (i : Nat), i
     < 4 → w ≠ Reg.ODO_AXCFG i) ∧ (w / 65536 = 16390 → s.faultsLow = 0) ∧ s.marked w = 0) ∧
  (let s : State := base;
   let a : Word := 1077936136#32;
   let v : Word := 5;
   let b : Fin 8 := 0;
   let c : Fin 6 := 5;
   let w : Nat := BitVec.toNat a;
   let q : Path → BusReq := fun p => s.regReq Asker.row p w (some v);
   s.Sealed ∧ s.stands = false ∧ (∀ (i : Nat), i < 6 → vget s.dbg.feed i = none) ∧ (s.earlier [↑c] = [] ∧ s.grantsNow (q (Path.bay b c)) = true) ∧
     (w % 4 = 0 ∧ listedBlocks.contains (w / 65536) = true) ∧ ownRing (↑b) w = false ∧ s.bayWrites (↑b) (some ↑c) w = false) ∧
  (let s : State := base;
   let a : Word := 0#32;
   let v : Word := 5;
   let w : Nat := BitVec.toNat a;
   let q : Path → BusReq := fun p => s.regReq Asker.row p w (some v);
   s.Sealed ∧ s.stands = false ∧ (∀ (i : Nat), i < 6 → vget s.dbg.feed i = none) ∧ (¬w / 65536 ∈ dbgBlocks) ∧ s.grantsNow (q Path.tap) = true) ∧
  (let s : State := dn;
   let a : Word := 1077936136#32;
   let v : Word := 5;
   let w : Nat := BitVec.toNat a;
   let q : Path → BusReq := fun p => s.regReq Asker.row p w (some v);
   s.Sealed ∧ s.stands = false ∧ (∀ (i : Nat), i < 6 → vget s.dbg.feed i = none) ∧ (s.earlier [0] = [] ∧ s.grantsNow (q Path.fw) = true) ∧ (w % 4 =
     0 ∧ listedBlocks.contains (w / 65536) = true) ∧ s.domOn (blockDomain (w / 65536)) = false) ∧
  (let s : State := base;
   let e : Fin 4 := 0;
   let bays : BitVec 8 := 3;
   s.Sealed ∧ s.stands = false ∧ (∀ (i : Nat), i < 6 → vget s.dbg.feed i = none) ∧ s.earlier [0] = [] ∧ s.domOn (8 + ↑e) = true ∧ s.grantsNow
     (s.regReq Asker.row Path.fw (Reg.SE_LUTSWAP ↑e) (some (BitVec.setWidth 32 bays))) = true) :=
  (And.imp (And.imp sealed_of id) <|
  And.imp (And.imp sealed_of id) <|
  And.imp (given base_sealed id) <|
  And.imp (given base_sealed id) <|
  And.imp (given base_sealed id) <|
  And.imp (given dn_sealed id) <|
  (given base_sealed id))
  (by decide +kernel)

end SetB6

namespace SetC3

def base : M := mem (isa .f 1)

def ml (ring bay flags : Nat) (pay : List Byte) : Mail := { ring := Fin.ofNat 9 ring, flags := BitVec.ofNat 8 flags, seq := 0, tag := 0x55, bay := BitVec.ofNat 8 bay, pay := pay }

def pl (n : Nat) (l : List (Nat × Nat × Nat)) : List Byte := l.foldl (fun a (o, k, v) => a.take o ++ natLe k v ++ a.drop (o + k)) (natLe n 0)

def bst (b v : Nat) (s : M) : M := { (s.setBayState b v) with mbx := base.mbx, pcie := base.pcie, out := [] }

def bb : M := bst 2 bRUNNING base

def sh : Share := ⟨true, 1, 2, 0, 0, 0, 1⟩

def sharesOn (s : M) : M := { s with fw := { s.fw with shares := s.fw.shares.set 3 (some sh) |>.set 0 (some {sh with memory := false, source := 5}) } }

theorem base_sealed : State.Sealed base := sealed_of (by decide +kernel)

theorem bb_sealed : State.Sealed bb := sealed_of (by decide +kernel)

/-- States that meet the hypotheses of `Obligations.CommandIsHandedOver`, clause by clause. -/
theorem witness_CommandIsHandedOver :
  (let s : State := base;
   let m : Mail := ml 0 1 0 [1, 2, 3];
   s.Sealed ∧ m.pay.length ≤ 48) ∧
  (let s : State := base;
   let m : Mail := ml 0 1 0 [1, 2, 3];
   let i : Nat := 1;
   let r : Nat := ↑m.ring;
   s.Sealed ∧ m.pay.length ≤ 48 ∧ i < 9 ∧ i ≠ r) ∧
  (let s : State := base;
   let m : Mail := ml 0 1 0 [1, 2, 3];
   let a : Nat := 64;
   let r : Nat := ↑m.ring;
   s.Sealed ∧ m.pay.length ≤ 48 ∧ (¬(64 * ((s.ring r).cmdPi.toNat % 32) ≤ a ∧ a < 64 * ((s.ring r).cmdPi.toNat % 32) + 64))) ∧
  (let s : State := base;
   let m : Mail := ml 0 1 0 [1, 2, 3];
   let p : Nat := 1;
   let n : Nat := 1;
   s.Sealed ∧ m.pay.length ≤ 48 ∧ 0 < p ∧ n ≠ 0) ∧
  (let s : State := base;
   let m : Mail := ml 0 1 0 [1, 2, 3];
   let p : Nat := 1;
   let n : Nat := 0;
   s.Sealed ∧ m.pay.length ≤ 48 ∧ 0 < p ∧ n = 0) :=
  (And.imp (given base_sealed id) <|
  And.imp (given base_sealed id) <|
  And.imp (given base_sealed id) <|
  And.imp (given base_sealed id) <|
  (given base_sealed id))
  (by decide +kernel)

/-- States that meet the hypotheses of `Obligations.GrantCommands`, clause by clause. -/
theorem witness_GrantCommands :
  (let s : State := base;
   let m : Mail := ml 8 1 0 (pl 20 [(0, 2, 3), (2, 2, 1), (4, 8, 255), (12, 8, 10)]);
   let k : Nat := 10;
   let b : Nat := m.bay.toNat;
   let p : Nat := s.periodUs;
   let g : State := s.given 513 m;
   let first : Nat := m.f 0 2;
   let n : Nat := m.f 2 2;
   let mask : BitVec 64 := BitVec.ofNat 64 (m.f 4 8);
   let e : Effect := Effect.grantPhase b first n mask;
   let x : State := (g.grantsAt p k).grantEffect e;
   s.Sealed ∧ s.Accepts 513 m ∧ 1 ≤ n ∧ n ≤ 512 ∧ (∀ (r : Nat), first ≤ r → r < first + n → r < 512 ∧ Load.phased r = true) ∧ s.chooseMeasure p (m.f
     12 8) = some k ∧ (∀ (r : Nat), first ≤ r → r < first + n → ∀ (i : Nat), i < 8 → i ≠ b → (g.grantsAt p k).phaseOf i r &&& mask = 0) ∧ (∀ (r :
     Nat), first ≤ r → r < first + n → r < 256 → List.foldl (fun v i => v ||| x.phaseOf i r) (0#64) (List.range 8) ≠ BitVec.allOnes 64) ∧ (∀ (q :
     Part), q ∈ g.partsOf b → ∀ (a : Nat × Nat), a ∈ q.allot → first ≤ a.fst → a.fst < first + n → BitVec.ofNat 64 a.snd &&& ~~~mask = 0) ∧
     (have x : Machine.State := (s.grantsAt p k).grantEffect e; x.laterFault State.grantClash (s.laterGrants p k) = false ∧ x.laterFault (fun g y =>
     (g.grantEffect y).starved y) (s.laterGrants p k) = false)) ∧
  (let s : State := base;
   let m : Mail := ml 8 1 0 (pl 20 [(0, 2, 3), (2, 2, 1), (4, 8, 255), (12, 8, 10)]);
   let k : Nat := 10;
   let b : Nat := m.bay.toNat;
   let p : Nat := s.periodUs;
   let g : State := s.given 514 m;
   let e : Effect := Effect.grantPorts b (m.f 0 6) (m.f 6 6);
   s.Sealed ∧ s.Accepts 514 m ∧ s.chooseMeasure p (m.f 12 8) = some k ∧ (∀ (i : Nat), i < 48 → (bitAt (m.f 0 6) i = true → (g.grantsAt p
     k).sourceOwner i = 15 ∨ (g.grantsAt p k).sourceOwner i = b) ∧ (bitAt (m.f 6 6) i = true → (g.grantsAt p k).destOwner i = 15 ∨ (g.grantsAt p
     k).destOwner i = b)) ∧ g.takesAway ((g.grantsAt p k).grantEffect e) b = false ∧
     (have x : Machine.State := (s.grantsAt p k).grantEffect e; x.laterFault State.grantClash (s.laterGrants p k) = false ∧ x.laterFault (fun g y =>
     (g.grantEffect y).starved y) (s.laterGrants p k) = false)) ∧
  (let s : State := base;
   let m : Mail := ml 8 1 0 (pl 20 [(0, 2, 3), (2, 2, 1), (4, 8, 255), (12, 8, 10)]);
   let k : Nat := 10;
   let b : Nat := m.bay.toNat;
   let p : Nat := s.periodUs;
   let g : State := s.given 515 m;
   let n : NetGrant :=
      { queues := BitVec.ofNat 8 (m.f 1 1), trdpFirst := m.f 2 1, trdpCount := m.f 3 1, filtFirst := m.f 4 2, filtCount := m.f 6 2, saFirst := m.f 8 1, saCount := m.f 9 1 };
   let e : Effect := Effect.grantNet b (m.f 0 1) n;
   s.Sealed ∧ s.Accepts 515 m ∧ m.f 0 1 ≤ 3 ∧ n.trdpFirst + n.trdpCount ≤ 256 ∧ n.filtFirst + n.filtCount ≤ 1024 ∧ n.saFirst + n.saCount ≤ 32 ∧
     s.chooseMeasure p (m.f 12 8) = some k ∧ (∀ (i : Nat),
  i < 8 →
    i ≠ b →
     have y : NetGrant := vget ((g.grantsAt p k).bayRec i).net (m.f 0 1); y.queues &&& n.queues = 0 ∧
        Load.overlaps n.trdpFirst n.trdpCount
     y.trdpFirst y.trdpCount = false ∧
          Load.overlaps n.saFirst n.saCount y.saFirst y.saCount = false ∧
            ∀ (j : Nat),
     j < 4 →
                have z : NetGrant := vget ((g.grantsAt p k).bayRec i).net j; Load.overlaps n.filtFirst n.filtCount z.filtFirst
     z.filtCount = false) ∧ g.takesAway ((g.grantsAt p k).grantEffect e) b = false ∧ g.filtersLost ((g.grantsAt p k).grantEffect e) b = false ∧
     g.queuesLost ((g.grantsAt p k).grantEffect e) b (m.f 0 1) = false ∧ (have x : Machine.State := (s.grantsAt p k).grantEffect e; x.laterFault
     State.grantClash (s.laterGrants p k) = false ∧ x.laterFault (fun g y => (g.grantEffect y).starved y) (s.laterGrants p k) = false) ∧ (∀ (a : Nat
     × Sa), a ∈ (s.macPort (m.f 0 1)).sas → a.snd.bay = b → n.saFirst ≤ a.fst ∧ a.fst < n.saFirst + n.saCount)) ∧
  (let s : State := base;
   let m : Mail := ml 8 1 0 (pl 16 [(0, 8, 48)]);
   let k : Nat := 1;
   let b : Nat := m.bay.toNat;
   let p : Nat := s.periodUs;
   let g : State := s.given 516 m;
   let l : BitVec 64 := BitVec.ofNat 64 (m.f 0 8);
   let e : Effect := Effect.grantKeys b l;
   s.Sealed ∧ s.Accepts 516 m ∧ s.chooseMeasure p (m.f 8 8) = some k ∧ (∀ (i : Nat), i < 64 → l.getLsbD i = true → (g.grantsAt p k).keyOwner i = 0 ∨
     (g.grantsAt p k).keyOwner i = b) ∧ (∀ (i : Nat), i < 64 → s.slotBusy i = true → s.keyOwner i = b → ((g.grantsAt p k).grantEffect e).keyOwner i
     = b) ∧ (have x : Machine.State := (s.grantsAt p k).grantEffect e; x.laterFault State.grantClash (s.laterGrants p k) = false ∧ x.laterFault (fun
     g y => (g.grantEffect y).starved y) (s.laterGrants p k) = false)) ∧
  (let s : State := bb;
   let m : Mail := ml 8 1 0 (pl 24 [(0, 1, 1), (1, 1, 2), (4, 4, 0), (8, 4, 1)]);
   let k : Nat := 1;
   let i : Nat := 0;
   let b : Nat := m.bay.toNat;
   let p : Nat := s.periodUs;
   let g : State := s.given 560 m;
   let h : Share :=
      { memory := decide (m.f 0 1 = 1), owner := b, borrower := m.f 1 1, source := m.f 2 1, target := m.f 3 1, base := m.f 4 4, len := m.f 8 4 };
   s.Sealed ∧ s.Accepts 560 m ∧ m.f 0 1 ≤ 1 ∧ h.borrower ≤ 7 ∧ h.borrower ≠ b ∧ s.bayState h.borrower ≠ bEMPTY ∧ s.bayState h.borrower ≠ bDRAINING ∧
     (m.f 0 1 = 1 → h.target ≤ 1 ∧ h.len ≠ 0 ∧ (h.target = 0 → s.get (Fd.BXM_BKF_BASE b) ≤ h.base ∧ h.base + h.len ≤ s.get (Fd.BXM_BKF_BASE b) +
     s.get (Fd.BXM_BKF_LEN b)) ∧ (h.target = 1 → s.get (Fd.BXM_DDR_BASE b) ≤ h.base ∧ h.base + h.len ≤ s.get (Fd.BXM_DDR_BASE b) + s.get
     (Fd.BXM_DDR_LEN b))) ∧ (m.f 0 1 = 0 → h.source ≤ 47 ∧ (g.grantsAt p k).sourceOwner h.source = b) ∧ s.chooseMeasure p (m.f 16 8) = some k ∧ i <
     16 ∧ (¬(vget (g.grantsAt p k).fw.shares i ≠ none ∨ vget s.fw.shares i ≠ none ∨ ∃ x, x ∈ s.fw.sched ∧ ∃ y, x.eff = Effect.shareMake i y)) ∧ (∀
     (j : Nat), j < i → vget (g.grantsAt p k).fw.shares j ≠ none ∨ vget s.fw.shares j ≠ none ∨ ∃ x, x ∈ s.fw.sched ∧ ∃ y, x.eff = Effect.shareMake j
     y)) ∧
  (let s : State := sharesOn bb;
   let m : Mail := ml 8 0 0 (pl 16 [(0, 8, 0), (8, 8, 10)]);
   let k : Nat := 10;
   let h : Share := (vget s.fw.shares (m.f 0 1)).getD default;
   let p : Nat := s.periodUs;
   s.Sealed ∧ s.Accepts 561 m ∧ m.f 0 1 < 16 ∧ vget s.fw.shares (m.f 0 1) = some h ∧ (s.given 561 m).shareUsed h = false ∧ s.chooseMeasure p (m.f 8
     8) = some k) :=
  (And.imp (given base_sealed (And.imp accepts_of id)) <|
  And.imp (given base_sealed (And.imp accepts_of id)) <|
  And.imp (given base_sealed (And.imp accepts_of id)) <|
  And.imp (given base_sealed (And.imp accepts_of id)) <|
  And.imp (given bb_sealed (And.imp accepts_of (And.imp id (And.imp id (And.imp id (And.imp id (And.imp id (And.imp id (And.imp id (And.imp id
    (And.imp id (And.imp noShare_of ((fun (_ : True) j hj => absurd hj (Nat.not_lt_zero j))))))))))))))) <|
  (And.imp sealed_of (And.imp accepts_of (And.imp id (And.imp some_of id)))))
  (by decide +kernel)

end SetC3

namespace SetC2

def base : M := mem (isa .f 1)

def ml (ring bay flags : Nat) (pay : List Byte) : Mail := { ring := Fin.ofNat 9 ring, flags := BitVec.ofNat 8 flags, seq := 0, tag := 0x55, bay := BitVec.ofNat 8 bay, pay := pay }

def pl (n : Nat) (l : List (Nat × Nat × Nat)) : List Byte := l.foldl (fun a (o, k, v) => a.take o ++ natLe k v ++ a.drop (o + k)) (natLe n 0)

def bst (b v : Nat) (s : M) : M := { (s.setBayState b v) with mbx := base.mbx, pcie := base.pcie, out := [] }

def k0 (s : M) : M := (((s.putKey 4 3 (2 ^ uFIGURE) 0 4)).putKey 6 3 (2 ^ uFIGURE) 0 6)

def create (l : List (Nat × Nat × Nat)) : List Byte := pl 28 ([(0,4,0x08050000),(4,1,2),(5,1,0),(6,1,16),(8,2,16),(10,2,4),(12,2,1),(14,2,2),(20,2,64),(22,2,4096),(24,1,4)] ++ l)

/-- States that meet the hypotheses of `Obligations.BayLife`, clause by clause. -/
theorem witness_BayLife :
  (let s : State := k0 (bst 1 bEMPTY base);
   let m : Mail := ml 8 1 0 (create []);
   let b : Nat := m.bay.toNat;
   let u : Nat := m.f 4 1;
   let entry : Nat := m.f 0 4;
   let key : Nat := m.f 24 1;
   s.Sealed ∧ s.Accepts 512 m ∧ (entry % 4 = 0 ∧ (134479872 + 4096 * m.f 8 2 ≤ entry ∧ entry < 134479872 + 4096 * (m.f 8 2 + m.f 10 2) ∧ entry <
     134742016 ∨ ∃ a, s.place ((unitCores u).headD 2) entry = Place.ddr a ∧ 2 ^ 24 * m.f 16 2 ≤ a ∧ a < 2 ^ 24 * (m.f 16 2 + m.f 18 2)) ∧ (u ∈ [130,
     132, 2, 3, 4, 5] ∧ 1 ≤ m.f 6 1 ∧ m.f 5 1 + m.f 6 1 ≤ 16 ∨ u = 255 ∧ m.f 5 1 = 0 ∧ m.f 6 1 = 0) ∧ m.f 8 2 ≤ 63 ∧ m.f 8 2 + m.f 10 2 ≤ 64 ∧ m.f
     12 2 ≤ 511 ∧ m.f 12 2 + m.f 14 2 ≤ 512 ∧ m.f 16 2 ≤ 2047 ∧ m.f 16 2 + m.f 18 2 ≤ 2048 ∧ (m.f 18 2 ≠ 0 → (m.f 16 2 + m.f 18 2) * 2 ^ 24 ≤ 2 *
     s.ddrChan ∧ ∀ (i : Nat), i < m.f 18 2 → s.ddrOk ((m.f 16 2 + i) * 2 ^ 24) = true ∧ s.ddrOk ((m.f 16 2 + i + 1) * 2 ^ 24 - 1) = true) ∧ m.f 7 1
     ≤ 1 ∧ m.f 20 2 ≤ 4096 ∧ m.f 22 2 ≤ 4096 ∧ key ≤ 63 ∧ key % 2 = 0 ∧ s.keyOwner key = 0 ∧ s.keyType key = 3 ∧ bitAt (s.keyUsage key) uFIGURE =
     true) ∧ (s.rangeClash b Fd.BXM_SRAM_BASE Fd.BXM_SRAM_LEN (m.f 8 2) (m.f 10 2) = false ∧ s.rangeClash b Fd.BXM_BKF_BASE Fd.BXM_BKF_LEN (m.f 12
     2) (m.f 14 2) = false ∧ s.rangeClash b Fd.BXM_DDR_BASE Fd.BXM_DDR_LEN (m.f 16 2) (m.f 18 2) = false ∧ s.unitClash b u (m.f 5 1) (m.f 6 1) =
     false ∧ ∀ (e : Sched), e ∈ s.fw.sched → ∀ (x : Nat) (l : BitVec 64), e.eff = Effect.grantKeys x l → x ≠ b → l.getLsbD key = false ∧ l.getLsbD
     (key + 1) = false)) ∧
  (let s : State := bst 1 1 base;
   let m : Mail := ml 8 1 0 [];
   let b : Nat := m.bay.toNat;
   s.Sealed ∧ s.Accepts 528 m ∧ s.bayState b = bCREATED) ∧
  (let s : State := bst 1 2 base;
   let m : Mail := ml 8 1 0 (natLe 8 0);
   let b : Nat := m.bay.toNat;
   let p : Nat := s.periodUs;
   let k : Nat := (s.chooseMeasure p (m.f 0 8)).getD default;
   s.Sealed ∧ s.Accepts 529 m ∧ s.bayState b = bRUNNING ∧ b ≠ 0 ∧ s.chooseMeasure p (m.f 0 8) = some k) ∧
  (let s : State := bst 1 5 base;
   let m : Mail := ml 8 1 0 [];
   let b : Nat := m.bay.toNat;
   let p : Nat := s.periodUs;
   let k : Nat := (s.chooseMeasure p 0).getD default;
   s.Sealed ∧ s.Accepts 531 m ∧ s.bayState b = bFAULTED ∧ s.chooseMeasure p 0 = some k) ∧
  (let s : State := bst 1 1 base;
   let m : Mail := ml 8 1 0 (natLe 8 0);
   let b : Nat := m.bay.toNat;
   let p : Nat := s.periodUs;
   let k : Nat := (s.chooseMeasure p (m.f 0 8)).getD default;
   s.Sealed ∧ s.Accepts 532 m ∧ b ≠ 0 ∧ (bitAt m.flags.toNat 1 = true ∨ ∀ (h : Share), h ∈ s.shares → h.owner = b → (s.given 532 m).shareUsed h =
     false) ∧ s.chooseMeasure p (m.f 0 8) = some k) ∧
  (let s : State := bst 1 3 base;
   let m : Mail := ml 8 1 0 [];
   let b : Nat := m.bay.toNat;
   let q : Nat := s.partPeriod (Option.map (fun x => x.fst) (s.bayRec b).parked);
   let k : Nat := (s.chooseMeasure q 0).getD default;
   s.Sealed ∧ s.Accepts 530 m ∧ s.bayState b = bASLEEP ∧ (s.bayRec b).waking = false ∧ s.chooseMeasure q 0 = some k) ∧
  (let s : State := bst 1 4 base;
   let d : Fin 8 := 1;
   s.Sealed ∧ d ≠ 0 ∧ s.stands = false ∧ s.bayState ↑d = bDRAINING ∧ s.rangeBusy ↑d = false) :=
  (And.imp (And.imp sealed_of (And.imp accepts_of (And.imp (And.imp id <| And.imp Or.inl <| And.imp id <| And.imp id <| And.imp id <| And.imp id <|
    And.imp id <| And.imp id <| And.imp id <| And.imp
    (fun (h : let s : State := k0 (bst 1 bEMPTY base); let m : Mail := ml 8 1 0 (create []); let b : Nat := m.bay.toNat; let u : Nat := m.f 4 1; let entry : Nat := m.f 0 4; let key : Nat := m.f 24 1; m.f 18 2 = 0)
    n => absurd h n) id) ((And.imp id <| And.imp id <| And.imp id <| And.imp id nilAll_of))))) <|
  And.imp (And.imp sealed_of (And.imp accepts_of id)) <|
  And.imp (And.imp sealed_of (And.imp accepts_of (And.imp id (And.imp id some_of)))) <|
  And.imp (And.imp sealed_of (And.imp accepts_of (And.imp id some_of))) <|
  And.imp (And.imp sealed_of (And.imp accepts_of (And.imp id (And.imp id some_of)))) <|
  And.imp (And.imp sealed_of (And.imp accepts_of (And.imp id (And.imp id some_of)))) <|
  (And.imp sealed_of id))
  (by decide +kernel)

end SetC2

namespace SetC5

def base : M := mem (isa .f 1)

def ml (ring bay flags : Nat) (pay : List Byte) : Mail := { ring := Fin.ofNat 9 ring, flags := BitVec.ofNat 8 flags, seq := 0, tag := 0x55, bay := BitVec.ofNat 8 bay, pay := pay }

def running (s : State) : State :=
  { s with mbx := {}, pcie := {}, out := [], regs := [(0x40000040, 0x22222222), (0x40020004, 0xFF), (0x40020180, 1), (0x40020188, 1), (0x4002018C, 1),
      (0x40020190, 1), (0x40020194, 1), (0x40020198, 1), (0x4002019C, 1)].foldl (fun l p => sset regReset p.1 p.2 l) s.regs }

def pl (n : Nat) (l : List (Nat × Nat × Nat)) : List Byte := l.foldl (fun a (o, k, v) => a.take o ++ natLe k v ++ a.drop (o + k)) (natLe n 0)

def ownAll (b : Nat) (s : M) : M :=
  let s := (List.range 48).foldl (fun s i => (s.put ⟨Reg.VXM_SOWN (i / 8), 4 * (i % 8) + 3, 4 * (i % 8)⟩ b).put ⟨Reg.VXM_DOWN (i / 8), 4 * (i % 8) + 3, 4 * (i % 8)⟩ b) s
  s.modBay b fun x => { x with phase := (List.range 16).map fun i => (0x198 + i, 0xFF) }

def vin0 : List Byte := pl 40 [(0,1,0),(1,1,2),(2,1,1),(3,1,0x2B),(4,1,4),(5,1,2),(6,2,1500),(8,2,64),(10,2,32),(12,2,50),(14,2,1000),(16,4,0),(20,4,5000),(24,2,100),(26,2,64),(28,1,2),(29,1,0xFF),(30,1,1),(31,1,1),(32,4,100),(36,2,100)]

def prof0 : List Byte := pl 40 []

def tim0 : List Byte := pl 40 [(0,1,4),(1,1,2),(2,1,1),(3,1,4),(4,2,640),(6,2,16),(8,2,96),(10,2,48),(12,2,480),(14,2,10),(16,2,2),(18,2,33),(20,1,60),(24,4,1000)]

def w : M := ownAll 1 (running base)

def faulted (s : M) : M := (List.range 12).foldl (fun s c => s.putB (Fd.PWM_STAT_FAULT c) true) s

theorem base_sealed : State.Sealed base := sealed_of (by decide +kernel)

theorem w_sealed : State.Sealed w := sealed_of (by decide +kernel)

/-- States that meet the hypotheses of `Obligations.AudioOdometryPwmCommands`, clause by clause. -/
theorem witness_AudioOdometryPwmCommands :
  (let s : State := base;
   let m : Mail := ml 8 0 0 (pl 12 [(0, 1, 1), (1, 1, 1), (2, 1, 8), (3, 1, 32), (4, 1, 1), (5, 1, 3), (8, 4, 48000)]);
   let n : Nat := m.f 0 1;
   s.Sealed ∧ s.Accepts 1536 m ∧ n ≤ 3 ∧ m.f 1 1 ≤ 1 ∧ 1 ≤ m.f 2 1 ∧ m.f 2 1 ≤ 32 ∧ 8 ≤ m.f 3 1 ∧ m.f 3 1 ≤ 32 ∧ m.f 4 1 ≤ 31 ∧ m.f 5 1 ≤ 3 ∧ 8000 ≤
     m.f 8 4 ∧ m.f 8 4 ≤ 192000 ∧ m.f 4 1 < m.f 2 1 * m.f 3 1 ∧ m.f 8 4 * (m.f 2 1 * m.f 3 1) ≤ 50000000) ∧
  (let s : State := base;
   let m : Mail := ml 8 0 0 (pl 16 [(0, 2, 127), (2, 2, 65535)]);
   let k : Nat := (s.chooseMeasure s.periodUs (m.f 8 8)).getD default;
   s.Sealed ∧ s.Accepts 1537 m ∧ s.chooseMeasure s.periodUs (m.f 8 8) = some k ∧ (s.audAfter s.fw.sched).audRouteOk (m.f 0 2) (m.f 2 2) = true ∧
     (((s.audAfter (s.dueBy s.periodUs k)).modRoute (m.f 0 2) fun r => { inp := m.f 2 2, gain := r.gain, delay := r.delay, prev := r.prev }).audFits
     (s.dueAfter s.periodUs k) = true)) ∧
  (let s : State := base;
   let m : Mail := ml 8 0 0 (pl 8 [(0, 2, 5), (4, 4, 1000)]);
   s.Sealed ∧ s.Accepts 1538 m ∧ (outDomain (m.f 0 2)).isSome = true ∧ m.f 4 4 ≤ 500000 ∧ ((s.modRoute (m.f 0 2) fun r =>
     { inp := r.inp, gain := r.gain, delay := m.f 4 4, pend := r.pend, prev := r.prev }).audFits (List.foldl (fun l e => insertSched e l) []
     s.fw.sched) = true)) ∧
  (let s : State := base;
   let m : Mail := ml 8 0 0 (pl 16 [(0, 1, 1), (1, 1, 3), (2, 2, 128), (4, 2, 384), (8, 4, 500), (12, 1, 1)]);
   let n : Nat := m.f 0 1;
   s.Sealed ∧ s.Accepts 1792 m ∧ n ≤ 3 ∧ m.f 1 1 ≤ 15 ∧ 64 ≤ m.f 2 2 ∧ m.f 2 2 ≤ 240 ∧ 272 ≤ m.f 4 2 ∧ m.f 4 2 ≤ 1024 ∧ 100 ≤ m.f 8 4 ∧ m.f 8 4 ≤
     60000 ∧ m.f 12 1 ≤ 1) ∧
  (let s : State := base;
   let m : Mail := ml 8 0 0 (pl 32 [(0, 1, 5), (1, 1, 1), (2, 1, 2), (3, 1, 1), (4, 8, 1000), (12, 8, 1), (20, 4, 10), (24, 4, 1000), (28, 1, 3),
      (29, 1, 255)]);
   s.Sealed ∧ s.Accepts 1793 m ∧ armOk (m.cx 1793) = true) ∧
  (let s : State := base;
   let m : Mail := ml 8 0 0 (pl 4 [(0, 1, 5)]);
   let n : Nat := m.f 0 1;
   s.Sealed ∧ s.Accepts 1794 m ∧ n ≤ 63) ∧
  (let s : State := base;
   let m : Mail := ml 8 0 0 (pl 8 [(0, 2, 5), (4, 4, 1000)]);
   s.Sealed ∧ s.Accepts 1795 m) ∧
  (let s : State := running base;
   let m : Mail := ml 8 0 0 [];
   s.Sealed ∧ s.Accepts 1796 m) ∧
  (let s : State := base;
   let m : Mail := ml 8 0 0 (pl 20 [(0, 1, 3), (1, 1, 3), (2, 2, 100), (4, 4, 100000), (8, 4, 500), (12, 2, 5), (14, 2, 100), (16, 1, 1), (17, 1,
      7)]);
   s.Sealed ∧ s.Accepts 2048 m ∧ pwmCfgOk (m.cx 2048) = true) ∧
  (let s : State := base;
   let m : Mail := ml 8 0 0 (pl 8 [(0, 2, 5), (4, 4, 1000)]);
   let n : Nat := m.f 0 1;
   s.Sealed ∧ s.Accepts 2049 m ∧ n ≤ 11 ∧ m.f 1 1 ≤ 1 ∧ 1 ≤ m.f 4 4 ∧ m.f 4 4 ≤ 10000000) ∧
  (let s : State := base;
   let m : Mail := ml 8 0 0 (pl 4 [(0, 1, 5)]);
   s.Sealed ∧ s.Accepts 2050 m ∧ m.f 0 2 < 4096) ∧
  (let s : State := base;
   let m : Mail := ml 8 0 0 (pl 4 [(0, 1, 5)]);
   s.Sealed ∧ s.Accepts 2050 m ∧ m.f 0 2 < 4096 ∧ (s.bit Fd.PWM_FLTSTAT_FLT0_LOW || s.bit Fd.PWM_FLTSTAT_FLT1_LOW) = false) ∧
  (let s : State := faulted base;
   let m : Mail := ml 8 0 0 (pl 4 [(0, 1, 5)]);
   let c : Nat := 0;
   s.Sealed ∧ s.Accepts 2050 m ∧ m.f 0 2 < 4096 ∧ (s.bit Fd.PWM_FLTSTAT_FLT0_LOW || s.bit Fd.PWM_FLTSTAT_FLT1_LOW) = false ∧ c < 12 ∧ bitAt (m.f 0
     2) c = true ∧ s.pwmForced c = true ∧ s.marked (Reg.PWM_STAT c) = 0) :=
  (And.imp (given base_sealed (And.imp accepts_of id)) <|
  And.imp (given base_sealed (And.imp accepts_of (And.imp some_of id))) <|
  And.imp (given base_sealed (And.imp accepts_of id)) <|
  And.imp (given base_sealed (And.imp accepts_of id)) <|
  And.imp (given base_sealed (And.imp accepts_of id)) <|
  And.imp (given base_sealed (And.imp accepts_of id)) <|
  And.imp (given base_sealed accepts_of) <|
  And.imp (And.imp sealed_of accepts_of) <|
  And.imp (given base_sealed (And.imp accepts_of id)) <|
  And.imp (given base_sealed (And.imp accepts_of id)) <|
  And.imp (given base_sealed (And.imp accepts_of id)) <|
  And.imp (given base_sealed (And.imp accepts_of id)) <|
  (And.imp sealed_of (And.imp accepts_of id)))
  (by decide +kernel)

/-- States that meet the hypotheses of `Obligations.RouteAndLayerCommands`, clause by clause. -/
theorem witness_RouteAndLayerCommands :
  (let s : State := w;
   let m : Mail := ml 8 1 0 (pl 16 [(0, 1, 5), (1, 1, 3), (2, 1, 1), (4, 4, 7), (8, 8, 10)]);
   let k : Nat := 10;
   let b : Nat := m.bay.toNat;
   let p : Nat := s.periodUs;
   let d : Nat := m.f 0 1;
   let g : State := s.given 1024 m;
   let r : Route := { source := m.f 1 1, replay := decide (m.f 2 1 = 1), profile := m.f 4 4, bay := b };
   s.Sealed ∧ s.Accepts 1024 m ∧ d ≤ 47 ∧ (r.source ≤ 47 ∨ r.source = 255) ∧ m.f 2 1 ≤ 1 ∧ r.profile ≤ 63 ∧ s.chooseMeasure p (m.f 8 8) = some k ∧
     (g.grantsAt p k).destOwner d = b ∧ (r.source = 255 ∨ (g.grantsAt p k).maySource b r.source = true)) ∧
  (let s : State := w;
   let m : Mail := ml 8 1 0 (pl 4 [(0, 1, 5)]);
   let b : Nat := m.bay.toNat;
   let d : Nat := m.f 0 1;
   s.Sealed ∧ s.Accepts 1025 m ∧ d ≤ 47 ∧ s.destOwner d = b ∧ (∀ (q : Route × Nat × Option Nat × Option Machine.Origin), (s.dest d).pend = some q →
     q.snd.snd.snd = none) ∧ (∀ (e : Sched), e ∈ s.fw.sched → Sched.routes d e = true → s.tme.t + 100000 * 2 ^ 48 ≤ timePoint e.period e.measure)) ∧
  (let s : State := w;
   let m : Mail := ml 8 1 0 (pl 4 [(0, 1, 5)]);
   let b : Nat := m.bay.toNat;
   let d : Nat := m.f 0 1;
   s.Sealed ∧ s.Accepts 1026 m ∧ d ≤ 47 ∧ s.destOwner d = b ∧ (s.dest d).pend = none ∧ (∀ (e : Sched), e ∈ s.fw.sched → Sched.routes d e = false)) ∧
  (let s : State := w;
   let m : Mail := ml 8 1 0 (natLe 4 3 ++ prof0);
   let l : List (BitVec 8) := List.take 40 (List.drop 4 (fixLen 0 48 m.pay));
   s.Sealed ∧ s.Accepts 1040 m ∧ m.f 0 4 ≤ 63 ∧ profileOk l = true) ∧
  (let s : State := w;
   let m : Mail := ml 8 1 0 (natLe 4 3 ++ prof0);
   let c : Nat := 2;
   let n : Nat := 0;
   let b : Nat := m.bay.toNat;
   let l : List (BitVec 8) := List.take 40 (List.drop 4 (fixLen 0 48 m.pay));
   s.Sealed ∧ s.Accepts 1040 m ∧ m.f 0 4 ≤ 63 ∧ profileOk l = true ∧ n ≤ 63 ∧ (c, n) ≠ (b, m.f 0 4)) ∧
  (let s : State := w;
   let m : Mail := ml 8 1 0 (natLe 4 3 ++ vin0);
   let b : Nat := m.bay.toNat;
   let d : Nat := m.f 0 1;
   let l : List (BitVec 8) := List.take 40 (List.drop 4 (fixLen 0 48 m.pay));
   let n : CnfCfg := (vinPage ((s.conf d).shadow.getD (s.conf d).cfg) l).getD default;
   let page : Nat := fieldAt l 0 1;
   s.Sealed ∧ s.Accepts 1056 m ∧ d ≤ 23 ∧ vinPage ((s.conf d).shadow.getD (s.conf d).cfg) l = some n ∧ (∀ (i : Nat), i < 40 → vinCovered page i =
     true ∨ l.getD i 0 = 0) ∧ (page = 0 → s.vinClash d n = false ∧ (n.holdSrc = 255 ∨ s.sourceOwner (40 + n.holdSrc) = b)) ∧ s.sourceOwner d = b) ∧
  (let s : State := w;
   let m : Mail := ml 8 1 0 (natLe 4 2 ++ tim0);
   let b : Nat := m.bay.toNat;
   let d : Nat := m.f 0 1;
   let l : List (BitVec 8) := List.take 40 (List.drop 4 (fixLen 0 48 m.pay));
   s.Sealed ∧ s.Accepts 1057 m ∧ d ≤ 3 ∧ Tim.ok l = true ∧ (∀ (i : Nat), i < 4 → s.destOwner (4 * d + i) = b)) ∧
  (let s : State := w;
   let m : Mail := ml 8 1 0 (natLe 4 3 ++ prof0);
   let b : Nat := m.bay.toNat;
   let d : Nat := m.f 0 1;
   let l : List (BitVec 8) := List.take 40 (List.drop 4 (fixLen 0 48 m.pay));
   let y : Nat := m.f 1 1;
   s.Sealed ∧ s.Accepts 1280 m ∧ d ≤ 3 ∧ y ≤ 7 ∧ Lay.ok y l = true ∧ s.ownsLayer b d y = true) ∧
  (let s : State := w;
   let m : Mail := ml 8 1 0 (pl 16 [(0, 1, 2), (1, 1, 255), (8, 8, 10)]);
   let k : Nat := 10;
   let b : Nat := m.bay.toNat;
   let p : Nat := s.periodUs;
   let d : Nat := m.f 0 1;
   let g : State := s.given 1281 m;
   let ls : List Nat := List.filter (fun y => bitAt (m.f 1 1) y) (List.range 8);
   let sets : List (Nat × List Byte) := List.map (fun y => (y, vget (s.comp d).shadow y)) ls;
   s.Sealed ∧ s.Accepts 1281 m ∧ d ≤ 3 ∧ s.chooseMeasure p (m.f 8 8) = some k ∧ zClash (g.layersAfter d p k sets) = false ∧ (∀ (y : Nat), y ∈ ls →
     (g.grantsAt p k).ownsLayer b d y = true)) :=
  (And.imp (given w_sealed (And.imp accepts_of id)) <|
  And.imp (given w_sealed (And.imp accepts_of id)) <|
  And.imp (given w_sealed (And.imp accepts_of id)) <|
  And.imp (given w_sealed (And.imp accepts_of id)) <|
  And.imp (given w_sealed (And.imp accepts_of id)) <|
  And.imp (given w_sealed (And.imp accepts_of (And.imp id (And.imp some_of id)))) <|
  And.imp (given w_sealed (And.imp accepts_of id)) <|
  And.imp (given w_sealed (And.imp accepts_of id)) <|
  (given w_sealed (And.imp accepts_of id)))
  (by decide +kernel)

end SetC5

namespace SetW10

def base : M := mem (isa .f 1)

def ml (ring bay flags : Nat) (pay : List Byte) : Mail := { ring := Fin.ofNat 9 ring, flags := BitVec.ofNat 8 flags, seq := 0, tag := 0x55, bay := BitVec.ofNat 8 bay, pay := pay }

def running (s : State) : State :=
  { s with mbx := {}, pcie := {}, out := [], regs := [(0x40000040, 0x22222222), (0x40020004, 0xFF), (0x40020180, 1), (0x40020188, 1), (0x4002018C, 1),
      (0x40020190, 1), (0x40020194, 1), (0x40020198, 1), (0x4002019C, 1)].foldl (fun l p => sset regReset p.1 p.2 l) s.regs }

def grants (s : M) : M := (List.range 8).foldl (fun s b => ((s.put (Fd.BXM_BKF_BASE b) 0).put (Fd.BXM_BKF_LEN b) 64)) s

def pl (n : Nat) (l : List (Nat × Nat × Nat)) : List Byte := l.foldl (fun a (o, k, v) => a.take o ++ natLe k v ++ a.drop (o + k)) (natLe n 0)

def nt (s : M) : M := { (grants (running s)) with fw := { s.fw with bays := (grants (running s)).fw.bays.map fun b => { b with net := Vector.ofFn fun _ => { queues := 0xFF, trdpFirst := 4, trdpCount := 8, filtFirst := 10, filtCount := 20, saFirst := 3, saCount := 5 } } } }

def up9 (s : M) : M := (List.range 4).foldl (fun s p => ((s.netPortCfg (pl 48 [(0,1,p),(1,1,2),(2,1,1),(3,1,1),(4,6,0x112233445566),(12,2,1500)])).2)) s

def setKey (n ty usage owner key : Nat) (s : M) : M :=
  (((s.put (Fd.KEY_SLOT_OWNER n) owner).put (Fd.KEY_SLOT_TYPE n) ty).put (Fd.KEY_SLOT_USAGE n) usage).modKeys fun k =>
    { k with slots := vmod k.slots n fun _ => { share := key, mask := 0, tag := s.tagOf n ty usage owner key } }

def ky (s : M) : M := setKey 4 0 (2 ^ uMACSEC) 1 4 s

def s1 : M := { ky (up9 (nt base)) with mbx := base.mbx, out := [] }

def s2 : M := (List.range 7).foldl (fun s r => (s.put (Fd.PLB_REFCFG_PRIORITY r) (r+1))) s1

theorem s1_sealed : State.Sealed s1 := sealed_of (by decide +kernel)

theorem s2_sealed : State.Sealed s2 := sealed_of (by decide +kernel)

/-- States that meet the hypotheses of `Obligations.PlumbNetJunctionCommands`, clause by clause. -/
theorem witness_PlumbNetJunctionCommands :
  (let s : State := s1;
   let m : Mail := ml 8 0 0 (pl 16 [(0, 1, 1), (1, 1, 3), (4, 4, 10000000), (8, 4, 1000), (12, 2, 10000)]);
   s.Sealed ∧ s.Accepts 2304 m ∧ refCfgOk (m.cx 2304) = true) ∧
  (let s : State := s2;
   let m : Mail := ml 8 0 0 (pl 4 [(0, 1, 3), (1, 1, 1)]);
   let r : Nat := m.f 0 1;
   s.Sealed ∧ s.Accepts 2305 m ∧ r ≤ 6 ∧ m.f 1 1 ≤ 1 ∧ s.priority r ≠ 0) ∧
  (let s : State := s1;
   let m : Mail := ml 8 0 0 (pl 4 [(0, 1, 255)]);
   let r : Nat := m.f 0 1;
   s.Sealed ∧ s.Accepts 2305 m ∧ r = 255 ∧ m.f 1 1 ≤ 1) ∧
  (let s : State := s1;
   let m : Mail := ml 8 0 0 (pl 4 [(0, 1, 3), (1, 1, 1)]);
   s.Sealed ∧ s.Accepts 2306 m ∧ 100 ≤ m.f 0 4 ∧ m.f 0 4 ≤ 100000000) ∧
  (let s : State := s1;
   let m : Mail := ml 8 0 0 (pl 16 [(0, 1, 4), (1, 1, 0), (4, 4, 1), (8, 4, 1000000), (12, 2, 100)]);
   s.Sealed ∧ s.Accepts 2307 m ∧ m.f 0 8 < 2 ^ 48 ∧ m.f 8 4 < 1000000000) ∧
  (let s : State := s1;
   let m : Mail := ml 8 0 0 [];
   s.Sealed ∧ s.Accepts 2308 m) ∧
  (let s : State := s1;
   let m : Mail := ml 8 0 0 (pl 16 [(0, 1, 2), (1, 1, 4), (2, 1, 1), (3, 1, 2), (4, 6, 187723572702975), (12, 2, 9000)]);
   let r : Nat := m.f 0 1;
   s.Sealed ∧ s.Accepts 2560 m ∧ r ≤ 3 ∧ m.f 1 1 ≤ 4 ∧ m.f 2 1 ≤ 1 ∧ m.f 3 1 ≤ 2 ∧ 68 ≤ m.f 12 2 ∧ m.f 12 2 ≤ 9000) ∧
  (let s : State := s1;
   let m : Mail := ml 8 0 0 (pl 12 [(0, 1, 1), (1, 1, 3), (4, 4, 2000), (8, 4, 1000)]);
   let b : Nat := m.bay.toNat;
   let r : Nat := m.f 0 1;
   let c : Nat := m.f 1 1;
   s.Sealed ∧ s.Accepts 2561 m ∧ r ≤ 3 ∧ c ≤ 7 ∧ s.ownsClass b r c = true ∧ m.f 2 1 ≤ 1 ∧ (m.f 2 1 = 1 → m.f 8 4 = 0) ∧ (s.macPort r).mtu + 34 ≤ m.f
     4 4 ∧ (List.foldl (fun n k => n + if k = c then m.f 4 4 else if m.f 2 1 = 0 then (s.netClass r k).txLimit else (s.netClass r k).rxLimit) 0
     (List.range 8) ≤ 262144) ∧ (m.f 2 1 = 0 → 4 * List.foldl (fun n k => n + if k = c then m.f 8 4 else (s.netClass r k).idle) 0 (List.range 8) ≤ 3
     * s.macRate r)) ∧
  (let s : State := s1;
   let m : Mail := ml 8 0 0 (pl 12 [(0, 1, 1), (1, 1, 3), (4, 4, 2000), (8, 4, 1000)]);
   let b : Nat := m.bay.toNat;
   let r : Nat := m.f 0 1;
   let c : Nat := m.f 1 1;
   s.Sealed ∧ s.Accepts 2561 m ∧ r ≤ 3 ∧ c ≤ 7 ∧ s.ownsClass b r c = true ∧ m.f 2 1 ≤ 1 ∧ (m.f 2 1 = 1 → m.f 8 4 = 0) ∧ (s.macPort r).mtu + 34 ≤ m.f
     4 4 ∧ (List.foldl (fun n k => n + if k = c then m.f 4 4 else if m.f 2 1 = 0 then (s.netClass r k).txLimit else (s.netClass r k).rxLimit) 0
     (List.range 8) ≤ 262144) ∧ (m.f 2 1 = 0 → 4 * List.foldl (fun n k => n + if k = c then m.f 8 4 else (s.netClass r k).idle) 0 (List.range 8) ≤ 3
     * s.macRate r) ∧ m.f 2 1 = 0) ∧
  (let s : State := s1;
   let m : Mail := ml 8 0 0 (pl 12 [(0, 1, 1), (1, 1, 3), (2, 1, 1), (4, 4, 2000)]);
   let b : Nat := m.bay.toNat;
   let r : Nat := m.f 0 1;
   let c : Nat := m.f 1 1;
   s.Sealed ∧ s.Accepts 2561 m ∧ r ≤ 3 ∧ c ≤ 7 ∧ s.ownsClass b r c = true ∧ m.f 2 1 ≤ 1 ∧ (m.f 2 1 = 1 → m.f 8 4 = 0) ∧ (s.macPort r).mtu + 34 ≤ m.f
     4 4 ∧ (List.foldl (fun n k => n + if k = c then m.f 4 4 else if m.f 2 1 = 0 then (s.netClass r k).txLimit else (s.netClass r k).rxLimit) 0
     (List.range 8) ≤ 262144) ∧ (m.f 2 1 = 0 → 4 * List.foldl (fun n k => n + if k = c then m.f 8 4 else (s.netClass r k).idle) 0 (List.range 8) ≤ 3
     * s.macRate r) ∧ (¬m.f 2 1 = 0)) ∧
  (let s : State := s1;
   let m : Mail := ml 8 0 0 (pl 20 [(0, 1, 1), (1, 1, 5), (4, 4, 4660), (8, 4, 16909060), (12, 2, 100), (16, 4, 256)]);
   let b : Nat := m.bay.toNat;
   let r : Nat := m.f 0 1;
   let i : Nat := m.f 1 1;
   let y : NetGrant := vget (s.bayRec b).net r;
   let pad : Nat → Nat := fun n => cdiv n 16 * 16;
   s.Sealed ∧ s.Accepts 2562 m ∧ r ≤ 3 ∧ y.trdpFirst ≤ i ∧ i < y.trdpFirst + y.trdpCount ∧ m.f 12 2 ≤ 1432 ∧ m.f 16 4 % 16 = 0 ∧ s.ownBank b (m.f 16
     4) (m.f 12 2) = true ∧ (List.foldl (fun n e => n + pad e.snd.len) (pad (m.f 12 2)) (List.filter (fun x => decide (x.fst ≠ i)) (s.macPort
     r).telegrams) ≤ 32768)) ∧
  (let s : State := s1;
   let m : Mail := ml 8 0 0 (pl 20 [(0, 2, 15), (2, 1, 6), (3, 1, 1), (4, 4, 7), (8, 4, 9), (12, 4, 512), (16, 2, 1000)]);
   let b : Nat := m.bay.toNat;
   let i : Nat := m.f 0 2;
   let e : Filter :=
      { bay := b, ports := m.f 2 1, enable := decide (m.f 3 1 = 1), comId := m.f 4 4, src := m.f 8 4, buf := m.f 12 4, maxLen := m.f 16 2 };
   s.Sealed ∧ s.Accepts 2563 m ∧ i ≤ 1023 ∧ m.f 2 1 ≤ 15 ∧ m.f 3 1 ≤ 1 ∧ (∀ (p : Nat), p < 4 → bitAt (m.f 2 1) p = true → (vget (s.bayRec b).net
     p).filtFirst ≤ i ∧ i < (vget (s.bayRec b).net p).filtFirst + (vget (s.bayRec b).net p).filtCount) ∧ (m.f 2 1 = 0 → ∃ p, p < 4 ∧ (vget (s.bayRec
     b).net p).filtFirst ≤ i ∧ i < (vget (s.bayRec b).net p).filtFirst + (vget (s.bayRec b).net p).filtCount) ∧ m.f 16 2 ≤ 1432 ∧ m.f 12 4 % 16 = 0
     ∧ s.ownBank b (m.f 12 4) e.span = true ∧ (List.foldl (fun n y => n + y.snd.span) e.span (List.filter (fun x => decide (x.fst ≠ i))
     s.net.filters) ≤ 262144)) ∧
  (let s : State := (withKey 4 4 s1);
   let m : Mail := ml 8 1 0 (pl 40 [(0, 1, 2), (1, 1, 4), (2, 1, 1), (3, 1, 3), (4, 1, 4), (5, 1, 0), (8, 8, 1234605616436508552), (16, 8, 7), (24,
      4, 9), (28, 4, 3)]);
   let b : Nat := m.bay.toNat;
   let r : Nat := m.f 0 1;
   let i : Nat := m.f 1 1;
   let slot : Nat := m.f 4 1;
   let y : NetGrant := vget (s.bayRec b).net r;
   s.Sealed ∧ s.Accepts 2564 m ∧ r ≤ 3 ∧ i ≤ 31 ∧ m.f 2 1 ≤ 1 ∧ m.f 3 1 ≤ 3 ∧ slot ≤ 63 ∧ m.f 5 1 ≤ 1 ∧ y.saFirst ≤ i ∧ i < y.saFirst + y.saCount ∧
     s.keyOwner slot = b ∧ (∃ key z, (s.given 2564 m).useKey slot uMACSEC = (Except.ok key, z))) ∧
  (let s : State := s1;
   let m : Mail := ml 8 0 0 (pl 16 [(0, 1, 4), (1, 1, 0), (4, 4, 1), (8, 4, 1000000), (12, 2, 100)]);
   s.Sealed ∧ s.Accepts 2816 m ∧ m.f 0 4 < 2 ^ 20 ∧ m.f 4 1 ≤ 2 ∧ m.f 5 1 ≤ 3) :=
  (And.imp (given s1_sealed (And.imp accepts_of id)) <|
  And.imp (given s2_sealed (And.imp accepts_of id)) <|
  And.imp (given s1_sealed (And.imp accepts_of id)) <|
  And.imp (given s1_sealed (And.imp accepts_of id)) <|
  And.imp (given s1_sealed (And.imp accepts_of id)) <|
  And.imp (given s1_sealed accepts_of) <|
  And.imp (given s1_sealed (And.imp accepts_of id)) <|
  And.imp (given s1_sealed (And.imp accepts_of id)) <|
  And.imp (given s1_sealed (And.imp accepts_of id)) <|
  And.imp (given s1_sealed (And.imp accepts_of id)) <|
  And.imp (given s1_sealed (And.imp accepts_of id)) <|
  And.imp (given s1_sealed (And.imp accepts_of id)) <|
  And.imp (And.imp sealed_of (And.imp accepts_of (And.imp id (And.imp id (And.imp id (And.imp id (And.imp id (And.imp id (And.imp id (And.imp id
    (And.imp id ((useKey_ex (key := 4) (n := 4) s1 (given_keys _ _ _)))))))))))))) <|
  (given s1_sealed (And.imp accepts_of id)))
  (by decide +kernel)

/-- States that meet the hypotheses of `Obligations.PlumbNetJunctionCommands`, clause by clause (clauses 15 and on). -/
theorem witness_PlumbNetJunctionCommands_2 :
  (let s : State := s1;
   let m : Mail := ml 8 0 0 [];
   s.Sealed ∧ s.Accepts 2817 m) ∧
  (let s : State := s1;
   let m : Mail := ml 8 0 0 [];
   s.Sealed ∧ s.Accepts 2818 m) :=
  (And.imp (given s1_sealed accepts_of) <|
  (given s1_sealed accepts_of))
  (by decide +kernel)

end SetW10

namespace SetD6

def base : M := mem (isa .f 1)

def running (s : State) : State :=
  { s with mbx := {}, pcie := {}, out := [], regs := [(0x40000040, 0x22222222), (0x40020004, 0xFF), (0x40020180, 1), (0x40020188, 1), (0x4002018C, 1),
      (0x40020190, 1), (0x40020194, 1), (0x40020198, 1), (0x4002019C, 1)].foldl (fun l p => sset regReset p.1 p.2 l) s.regs }

def grants (s : M) : M := (List.range 8).foldl (fun s b => ((s.put (Fd.BXM_BKF_BASE b) 0).put (Fd.BXM_BKF_LEN b) 64)) s

def at_ (ns : Nat) (s : M) : M := { s with tme := { s.tme with t := ns * 2 ^ 48 } }

def act (res step kind arg0 a1 : Nat) (a2 : Nat := 0) (a3 : Nat := 0) : Act := { res := res, step := step, kind := kind, arg0 := arg0, a1 := a1, a2 := a2, a3 := a3, ofs := 128 + step * 16 + res * 64 }

def G : Geom := { turnLen := 1024, period := 1000, turns := 480, tail := 2000, replay := 1 }

def seD : List Nat := [0x101,0x40,0x200,8,2,0x10,0,0,0,0,0,0,0,0,0,0]

def P (b : Nat) : Part := { bay := b, geom := G, ppm := 0, partId := 7, allotOfs := 128, allot := [], acts := [act 0x1D8 3 6 0 5, act 0x198 2 1 3 0x100, act 0x110 2 1 2 0x200, act 0x104 2 3 1 0x80 4 (0x20010), act 0x105 2 3 0 0x80 4 0x20010, act 0x1D0 2 4 0xA5 0, act 0x1D5 2 5 0 3, act 0x1D4 2 5 0 4, act 0x100 2 2 0 0], descs := [{ ofs := 4096, w := seD }], routes := [], carries := [⟨300, 5, true, 0x400, 0x40, 0x800⟩, ⟨300, 6, false, 0x500, 0x40, 0x900⟩] }

def cbase (s : M) : M := { s with tme := { s.tme with t := 9 * 1000000 * 2^48 }, clk := { s.clk with now := 10000000 } }

def run1 (s : M) : M := let s := cbase s; { s with fig := { s.fig with geom := some G, running := s.fig.running.set 1 (some (P 1)), measure := 9, boundary := 10000000, resting := false, slot := 0, turn := 0, carry := s.fig.carry.set 1 [{ id := 5, base := 0x400, shadow := 0x800, len := 0x40 }] } }

def now (n : Nat) (s : M) : M := { s with clk := { s.clk with now := n } }

def fig (f : Fig → Fig) (s : M) : M := { s with fig := f s.fig }

def r1 : M := fig (fun f => { f with counted := 1000 }) { run1 (grants (running base)) with mbx := base.mbx }

def rest (tail ns : Nat) (s : M) : M := let s := fig (fun f => { f with resting := true, slot := 481, turn := 480 }) s; at_ ns (now (s.padEnd G + tail) s)

def sch (p : Part) (k : Nat) (s : M) : M := { s with fig := { s.fig with commits := [(p.bay, k, p)] }, fw := { s.fw with sched := [{ measure := k, period := 1000, eff := .commit p.bay, origin := none }] } }

/-- States that meet the hypotheses of `Obligations.MeasuresStart`, clause by clause. -/
theorem witness_MeasuresStart :
  (let s : State := rest 2000 10000000 r1;
   let g : Geom := s.fig.geom.getD default;
   let tp : Nat := timePoint g.period (s.fig.measure + 1);
   s.Sealed ∧ s.stands = false ∧ s.fig.geom = some g ∧ s.fig.counted = g.period ∧ s.runningBays ≠ [] ∧ s.bit Fd.SYS_CLKSTAT_BEAT_ALIGNED = true ∧
     s.mbx.waiting = [] ∧ s.inTail g = true ∧ s.fw.sched = [] ∧ s.fig.interrupted = false ∧ tp ≤ s.tme.t ∧ s.fig.latePad = false) ∧
  (let s : State := fig (fun f => { f with interrupted := true }) (rest 2000 12010000 r1);
   let g : Geom := s.fig.geom.getD default;
   let tp : Nat := timePoint g.period (s.fig.measure + 1);
   s.Sealed ∧ s.stands = false ∧ s.fig.geom = some g ∧ s.fig.counted = g.period ∧ s.runningBays ≠ [] ∧ s.bit Fd.SYS_CLKSTAT_BEAT_ALIGNED = true ∧
     s.mbx.waiting = [] ∧ s.inTail g = true ∧ s.fw.sched = [] ∧ s.fig.interrupted = true ∧ tp ≤ s.tme.t) ∧
  (let s : State := fig (fun f => { f with latePad := true }) (rest 2000 10010000 r1);
   let g : Geom := s.fig.geom.getD default;
   let tp : Nat := timePoint g.period (s.fig.measure + 1);
   s.Sealed ∧ s.stands = false ∧ s.fig.geom = some g ∧ s.fig.counted = g.period ∧ s.runningBays ≠ [] ∧ s.bit Fd.SYS_CLKSTAT_BEAT_ALIGNED = true ∧
     s.mbx.waiting = [] ∧ s.inTail g = true ∧ s.fw.sched = [] ∧ s.fig.interrupted = false ∧ tp ≤ s.tme.t ∧ s.fig.latePad = true) ∧
  (let s : State := rest 4095 9999000 r1;
   let g : Geom := s.fig.geom.getD default;
   let tp : Nat := timePoint g.period (s.fig.measure + 1);
   s.Sealed ∧ s.stands = false ∧ s.fig.geom = some g ∧ s.fig.counted = g.period ∧ s.runningBays ≠ [] ∧ s.bit Fd.SYS_CLKSTAT_BEAT_ALIGNED = true ∧
     s.mbx.waiting = [] ∧ s.inTail g = true ∧ s.fw.sched = [] ∧ s.fig.interrupted = false ∧ s.tme.t < tp ∧ s.padEnd g + 4095 ≤ s.clk.now) ∧
  (let s : State := rest 2000 9999000 r1;
   let g : Geom := s.fig.geom.getD default;
   let tp : Nat := timePoint g.period (s.fig.measure + 1);
   s.Sealed ∧ s.stands = false ∧ s.fig.geom = some g ∧ s.fig.counted = g.period ∧ s.runningBays ≠ [] ∧ s.bit Fd.SYS_CLKSTAT_BEAT_ALIGNED = true ∧
     s.mbx.waiting = [] ∧ s.inTail g = true ∧ s.tme.t < tp) ∧
  (let s : State := rest 2000 10000000 (sch (P 0) 10 r1);
   let g : Geom := s.fig.geom.getD default;
   let tp : Nat := timePoint g.period (s.fig.measure + 1);
   s.Sealed ∧ s.stands = false ∧ s.fig.geom = some g ∧ s.fig.counted = g.period ∧ s.runningBays ≠ [] ∧ s.bit Fd.SYS_CLKSTAT_BEAT_ALIGNED = true ∧
     s.mbx.waiting = [] ∧ s.inTail g = true ∧ (tp ≤ s.tme.t ∨ s.fig.interrupted = true ∨ s.clk.now < s.padEnd g + 4095)) ∧
  (let s : State := rest 2000 10000000 (sch (P 0) 10 r1);
   let g : Geom := s.fig.geom.getD default;
   let b : Fin 8 := 0;
   let p : Part := (s.fig.commits.headD default).snd.snd;
   let e : Sched := s.fw.sched.headD default;
   let tp : Nat := timePoint g.period (s.fig.measure + 1);
   let k : Nat := max (s.fig.measure + 1) (s.tme.t / timePoint g.period 1);
   s.Sealed ∧ s.stands = false ∧ s.fig.geom = some g ∧ s.fig.counted = g.period ∧ s.runningBays ≠ [] ∧ s.bit Fd.SYS_CLKSTAT_BEAT_ALIGNED = true ∧
     s.mbx.waiting = [] ∧ s.inTail g = true ∧ p.geom = g ∧ e.period = g.period ∧ tp ≤ s.tme.t ∧ e.measure ≤ k ∧ e.eff = Effect.commit ↑b ∧
     s.fw.sched = [e] ∧ s.fig.commits = [(↑b, e.measure, p)] ∧ s.bayState ↑b = bRUNNING ∧ p.acts ≠ []) ∧
  (let s : State := rest 2000 10000000 (sch (P 0) 10 r1);
   let g : Geom := s.fig.geom.getD default;
   let e : Sched := s.fw.sched.headD default;
   s.Sealed ∧ s.stands = false ∧ s.fig.geom = some g ∧ s.fig.counted = g.period ∧ s.runningBays ≠ [] ∧ s.bit Fd.SYS_CLKSTAT_BEAT_ALIGNED = true ∧
     s.mbx.waiting = [] ∧ s.inTail g = true ∧ (List.find? (fun x => decide (x.eff.rank = 2) && decide (timePoint x.period x.measure ≤ s.tme.t +
     mergeTime)) s.fw.sched = some e)) ∧
  (let s : State := rest 2000 10000000 r1;
   let g : Geom := s.fig.geom.getD default;
   s.Sealed ∧ s.stands = false ∧ s.fig.geom = some g ∧ s.fig.counted = g.period ∧ s.runningBays ≠ [] ∧ s.bit Fd.SYS_CLKSTAT_BEAT_ALIGNED = true ∧
     s.mbx.waiting = [] ∧ s.inTail g = true ∧ (∀ (e : Sched), e ∈ s.fw.sched → e.eff.rank = 2 → s.tme.t + mergeTime < timePoint e.period e.measure)) :=
  (And.imp (And.imp sealed_of (And.imp id (And.imp some_of id))) <|
  And.imp (And.imp sealed_of (And.imp id (And.imp some_of id))) <|
  And.imp (And.imp sealed_of (And.imp id (And.imp some_of id))) <|
  And.imp (And.imp sealed_of (And.imp id (And.imp some_of id))) <|
  And.imp (And.imp sealed_of (And.imp id (And.imp some_of id))) <|
  And.imp (And.imp sealed_of (And.imp id (And.imp some_of id))) <|
  And.imp (And.imp sealed_of (And.imp id (And.imp some_of id))) <|
  And.imp (And.imp sealed_of (And.imp id (And.imp some_of id))) <|
  (And.imp sealed_of (And.imp id (And.imp some_of id))))
  (by decide +kernel)

end SetD6

namespace SetD7

def base : M := mem (isa .f 1)

def running (s : State) : State :=
  { s with mbx := {}, pcie := {}, out := [], regs := [(0x40000040, 0x22222222), (0x40020004, 0xFF), (0x40020180, 1), (0x40020188, 1), (0x4002018C, 1),
      (0x40020190, 1), (0x40020194, 1), (0x40020198, 1), (0x4002019C, 1)].foldl (fun l p => sset regReset p.1 p.2 l) s.regs }

def grants (s : M) : M := (List.range 8).foldl (fun s b => ((s.put (Fd.BXM_BKF_BASE b) 0).put (Fd.BXM_BKF_LEN b) 64)) s

def act (res step kind arg0 a1 : Nat) (a2 : Nat := 0) (a3 : Nat := 0) : Act := { res := res, step := step, kind := kind, arg0 := arg0, a1 := a1, a2 := a2, a3 := a3, ofs := 128 + step * 16 + res * 64 }

def G : Geom := { turnLen := 1024, period := 1000, turns := 480, tail := 2000, replay := 1 }

def seD : List Nat := [0x101,0x40,0x200,8,2,0x10,0,0,0,0,0,0,0,0,0,0]

def P (b : Nat) : Part := { bay := b, geom := G, ppm := 0, partId := 7, allotOfs := 128, allot := [], acts := [act 0x1D8 3 6 0 5, act 0x198 2 1 3 0x100, act 0x110 2 1 2 0x200, act 0x104 2 3 1 0x80 4 (0x20010), act 0x105 2 3 0 0x80 4 0x20010, act 0x1D0 2 4 0xA5 0, act 0x1D5 2 5 0 3, act 0x1D4 2 5 0 4, act 0x100 2 2 0 0], descs := [{ ofs := 4096, w := seD }], routes := [], carries := [⟨300, 5, true, 0x400, 0x40, 0x800⟩, ⟨300, 6, false, 0x500, 0x40, 0x900⟩] }

def cbase (s : M) : M := { s with tme := { s.tme with t := 9 * 1000000 * 2^48 }, clk := { s.clk with now := 10000000 } }

def run1 (s : M) : M := let s := cbase s; { s with fig := { s.fig with geom := some G, running := s.fig.running.set 1 (some (P 1)), measure := 9, boundary := 10000000, resting := false, slot := 0, turn := 0, carry := s.fig.carry.set 1 [{ id := 5, base := 0x400, shadow := 0x800, len := 0x40 }] } }

def now (n : Nat) (s : M) : M := { s with clk := { s.clk with now := n } }

def fig (f : Fig → Fig) (s : M) : M := { s with fig := f s.fig }

def r1 : M := { run1 (grants (running base)) with mbx := base.mbx }

def gr (n : Nat) : Granule := { data := BitVec.ofNat 128 (n * 0x1000000010000001 + 5) }

def r2 (n : Nat) : M := now (10000000 + n) r1

def fifo (r : Nat) (l : List Granule) (s : M) : M := s.modEnd r fun e => { e with fifo := l }

def inAct (s : M) : M := fig (fun f => { f with running := f.running.set 1 (some { P 1 with acts := (P 1).acts ++ [act 0x180 2 1 1 0x100, act 0x1BC 2 1 1 0x140, act 0x181 2 1 0 0x400] }) }) s

def rep (s : M) : M := fig (fun f => { f with replaying := true, slot := 480, boundary := 10000000 - 480 * 1024 }) s

def jr (s : M) : M := [0x180,0x181,0x1BC, 0x1BC+0x2000, 0x180, inKey 1 0x1BC].foldl (fun s r => s.modEnd r fun e => { e with journal := [gr 1, gr 2], jpos := 1 }) s

def ff (s : M) : M := ([0x180,0x181,0x110].foldl (fun s r => s.modEnd r fun e => { e with fifo := [gr 3, gr 4] }) s)

/-- States that meet the hypotheses of `Obligations.FigureActions`, clause by clause. -/
theorem witness_FigureActions :
  (let s : State := inAct (r2 2);
   let b : Fin 8 := 1;
   let n : Nat := 2;
   let a : Act := act 408 2 1 3 256;
   let g : Geom := (s.fig.geom).getD default;
   let r : Fin 512 := 408;
   let adr : Nat := a.a1 % 2 ^ 25;
   s.Sealed ∧ s.stands = false ∧ s.fig.geom = some g ∧ s.badWord (↑b) a.ofs = false ∧ s.dueAct (↑b) (↑r) n 1 = some a ∧ Load.inbound ↑r = false ∧
     s.carryAt (↑b) adr = none ∧ s.eccOf (adr / 16) = Ecc.clean) ∧
  (let s : State := ff (inAct (r2 2));
   let b : Fin 8 := 1;
   let n : Nat := 2;
   let a : Act := act 384 2 1 1 256;
   let g : Geom := (s.fig.geom).getD default;
   let r : Fin 512 := 384;
   let adr : Nat := a.a1 % 2 ^ 25;
   let x : Granule := (s.takeIn (↑b) (↑r) adr).1.getD default;
   let s' : State := (s.takeIn (↑b) (↑r) adr).2;
   s.Sealed ∧ s.stands = false ∧ s.fig.geom = some g ∧ s.badWord (↑b) a.ofs = false ∧ s.dueAct (↑b) (↑r) n 1 = some a ∧ Load.inbound ↑r = true ∧
     s.carryAt (↑b) adr = none ∧ s.fig.replaying = false ∧ s.takeIn (↑b) (↑r) adr = (some x, s') ∧ (s.endp (inKey ↑b ↑r)).journal.length < endSize
     ↑r) ∧
  (let s : State := inAct (r2 2);
   let b : Fin 8 := 1;
   let n : Nat := 2;
   let a : Act := act 384 2 1 1 256;
   let g : Geom := (s.fig.geom).getD default;
   let r : Fin 512 := 384;
   let adr : Nat := a.a1 % 2 ^ 25;
   let s' : State := (s.takeIn (↑b) (↑r) adr).2;
   s.Sealed ∧ s.stands = false ∧ s.fig.geom = some g ∧ s.badWord (↑b) a.ofs = false ∧ s.dueAct (↑b) (↑r) n 1 = some a ∧ Load.inbound ↑r = true ∧
     s.fig.replaying = false ∧ s.takeIn (↑b) (↑r) adr = (none, s')) ∧
  (let s : State := rep (ff (jr (inAct (r2 2))));
   let b : Fin 8 := 1;
   let n : Nat := 2;
   let a : Act := act 384 2 1 1 256;
   let g : Geom := (s.fig.geom).getD default;
   let r : Fin 512 := 384;
   let x : Granule := ((s.endp (inKey ↑b ↑r)).journal[(s.endp (inKey ↑b ↑r)).jpos]?).getD default;
   let adr : Nat := a.a1 % 2 ^ 25;
   s.Sealed ∧ s.stands = false ∧ s.fig.geom = some g ∧ s.badWord (↑b) a.ofs = false ∧ s.dueAct (↑b) (↑r) n 1 = some a ∧ Load.inbound ↑r = true ∧
     s.carryAt (↑b) adr = none ∧ s.fig.replaying = true ∧ (s.endp (inKey ↑b ↑r)).journal[(s.endp (inKey ↑b ↑r)).jpos]? = some x) ∧
  (let s : State := inAct (r2 2);
   let b : Fin 8 := 1;
   let n : Nat := 2;
   let a : Act := act 256 2 2 0 0;
   let g : Geom := (s.fig.geom).getD default;
   let e : Fin 4 := 0;
   let p : Part := (s.part ↑b).getD default;
   let d : Desc := p.descs[a.a1 % 65536]?.getD default;
   s.Sealed ∧ s.stands = false ∧ s.fig.geom = some g ∧ s.badWord (↑b) a.ofs = false ∧ s.dueAct (↑b) (256 + ↑e) n 2 = some a ∧ s.part ↑b = some p ∧
     p.descs[a.a1 % 65536]? = some d ∧ s.badWord (↑b) d.ofs = false) ∧
  (let s : State := inAct (r2 2);
   let b : Fin 8 := 1;
   let n : Nat := 2;
   let a : Act := act 260 2 3 1 128 4 131088;
   let g : Geom := (s.fig.geom).getD default;
   let ch : Fin 2 := 0;
   let adr : Nat := a.a1 % 2 ^ 25;
   s.Sealed ∧ s.stands = false ∧ s.fig.geom = some g ∧ s.badWord (↑b) a.ofs = false ∧ s.dueAct (↑b) (260 + ↑ch) n 3 = some a ∧ bitAt a.arg0 0 = true
     ∧ s.carryAt (↑b) adr = none ∧ s.eccOf (adr / 16) = Ecc.clean) ∧
  (let s : State := inAct (r2 2);
   let b : Fin 8 := 1;
   let n : Nat := 2;
   let a : Act := act 261 2 3 0 128 4 131088;
   let g : Geom := s.fig.geom.getD default;
   let ch : Fin 2 := 1;
   let ext : Nat := 64 * (a.a2 + s.turnIndex g % max 1 (a.a3 / 65536) * (a.a3 % 65536));
   s.Sealed ∧ s.stands = false ∧ s.fig.geom = some g ∧ s.badWord (↑b) a.ofs = false ∧ s.dueAct (↑b) (260 + ↑ch) n 3 = some a ∧ bitAt a.arg0 0 =
     false ∧ s.ddrEccOf (ext / 8) = Ecc.clean ∧ s.ddrEccOf (ext / 8 + 1) = Ecc.clean) ∧
  (let s : State := inAct (r2 2);
   let b : Fin 8 := 1;
   let n : Nat := 2;
   let a : Act := act 464 2 4 165 0;
   let g : Geom := (s.fig.geom).getD default;
   let p : Fin 4 := 0;
   s.Sealed ∧ s.stands = false ∧ s.fig.geom = some g ∧ s.badWord (↑b) a.ofs = false ∧ s.dueAct (↑b) (464 + ↑p) n 4 = some a ∧ s.prpHigh ↑p = false) ∧
  (let s : State := inAct (r2 2);
   let b : Fin 8 := 1;
   let n : Nat := 2;
   let a : Act := act 469 2 5 0 3;
   let g : Geom := (s.fig.geom).getD default;
   let p : Fin 4 := 1;
   s.Sealed ∧ s.stands = false ∧ s.fig.geom = some g ∧ s.badWord (↑b) a.ofs = false ∧ s.dueAct (↑b) (468 + ↑p) n 5 = some a ∧ s.prpHigh ↑p = false) ∧
  (let s : State := inAct (r2 3);
   let b : Fin 8 := 1;
   let n : Nat := 3;
   let a : Act := act 472 3 6 0 5;
   let g : Geom := (s.fig.geom).getD default;
   s.Sealed ∧ s.stands = false ∧ s.fig.geom = some g ∧ s.badWord (↑b) a.ofs = false ∧ s.dueAct (↑b) 472 n 6 = some a) ∧
  (let s : State := inAct (r2 2);
   let b : Fin 8 := 0;
   let n : Nat := 0;
   let a : Act := act 472 3 6 0 5;
   let g : Geom := (s.fig.geom).getD default;
   let r : Fin 512 := 472;
   s.Sealed ∧ s.stands = false ∧ s.fig.geom = some g ∧ s.badWord (↑b) a.ofs = false ∧ s.dueAct (↑b) (↑r) n 1 = none) ∧
  (let s : State := inAct (r2 2);
   let b : Fin 8 := 0;
   let n : Nat := 0;
   let a : Act := act 472 3 6 0 5;
   let g : Geom := (s.fig.geom).getD default;
   let e : Fin 4 := 0;
   s.Sealed ∧ s.stands = false ∧ s.fig.geom = some g ∧ s.badWord (↑b) a.ofs = false ∧ s.dueAct (↑b) (256 + ↑e) n 2 = none) ∧
  (let s : State := inAct (r2 2);
   let b : Fin 8 := 0;
   let n : Nat := 0;
   let a : Act := act 472 3 6 0 5;
   let g : Geom := (s.fig.geom).getD default;
   let p : Fin 4 := 0;
   s.Sealed ∧ s.stands = false ∧ s.fig.geom = some g ∧ s.badWord (↑b) a.ofs = false ∧ s.dueAct (↑b) (464 + ↑p) n 4 = none) ∧
  (let s : State := inAct (r2 2);
   let b : Fin 8 := 0;
   let n : Nat := 0;
   let a : Act := act 472 3 6 0 5;
   let g : Geom := (s.fig.geom).getD default;
   let p : Fin 4 := 0;
   s.Sealed ∧ s.stands = false ∧ s.fig.geom = some g ∧ s.badWord (↑b) a.ofs = false ∧ s.dueAct (↑b) (468 + ↑p) n 5 = none) :=
  (And.imp (And.imp sealed_of (And.imp id (And.imp some_of id))) <|
  And.imp (And.imp sealed_of (And.imp id (And.imp some_of (And.imp id (And.imp id (And.imp id (And.imp id (And.imp id (And.imp pair_of id)))))))))
    <|
  And.imp (And.imp sealed_of (And.imp id (And.imp some_of (And.imp id (And.imp id (And.imp id (And.imp id fst_of))))))) <|
  And.imp (And.imp sealed_of (And.imp id (And.imp some_of (And.imp id (And.imp id (And.imp id (And.imp id (And.imp id some_of)))))))) <|
  And.imp (And.imp sealed_of (And.imp id (And.imp some_of (And.imp id (And.imp id (And.imp some_of (And.imp some_of id))))))) <|
  And.imp (And.imp sealed_of (And.imp id (And.imp some_of id))) <|
  And.imp (And.imp sealed_of (And.imp id (And.imp some_of id))) <|
  And.imp (And.imp sealed_of (And.imp id (And.imp some_of id))) <|
  And.imp (And.imp sealed_of (And.imp id (And.imp some_of id))) <|
  And.imp (And.imp sealed_of (And.imp id (And.imp some_of id))) <|
  And.imp (And.imp sealed_of (And.imp id (And.imp some_of id))) <|
  And.imp (And.imp sealed_of (And.imp id (And.imp some_of id))) <|
  And.imp (And.imp sealed_of (And.imp id (And.imp some_of id))) <|
  (And.imp sealed_of (And.imp id (And.imp some_of id))))
  (by decide +kernel)

/-- States that meet the hypotheses of `Obligations.FigureActions`, clause by clause (clauses 15 and on). -/
theorem witness_FigureActions_2 :
  (let s : State := inAct (r2 2);
   let b : Fin 8 := 0;
   let n : Nat := 0;
   let a : Act := act 472 3 6 0 5;
   let g : Geom := (s.fig.geom).getD default;
   let c : Fin 2 := 0;
   s.Sealed ∧ s.stands = false ∧ s.fig.geom = some g ∧ s.badWord (↑b) a.ofs = false ∧ s.dueAct (↑b) (260 + ↑c) n 3 = none) ∧
  (let s : State := inAct (r2 2);
   let b : Fin 8 := 0;
   let n : Nat := 0;
   let a : Act := act 472 3 6 0 5;
   let g : Geom := (s.fig.geom).getD default;
   s.Sealed ∧ s.stands = false ∧ s.fig.geom = some g ∧ s.badWord (↑b) a.ofs = false ∧ s.dueAct (↑b) 472 n 6 = none) :=
  (And.imp (And.imp sealed_of (And.imp id (And.imp some_of id))) <|
  (And.imp sealed_of (And.imp id (And.imp some_of id))))
  (by decide +kernel)

end SetD7

namespace SetD8

def base : M := mem (isa .f 1)

def running (s : State) : State :=
  { s with mbx := {}, pcie := {}, out := [], regs := [(0x40000040, 0x22222222), (0x40020004, 0xFF), (0x40020180, 1), (0x40020188, 1), (0x4002018C, 1),
      (0x40020190, 1), (0x40020194, 1), (0x40020198, 1), (0x4002019C, 1)].foldl (fun l p => sset regReset p.1 p.2 l) s.regs }

def grants (s : M) : M := (List.range 8).foldl (fun s b => ((s.put (Fd.BXM_BKF_BASE b) 0).put (Fd.BXM_BKF_LEN b) 64)) s

def at_ (ns : Nat) (s : M) : M := { s with tme := { s.tme with t := ns * 2 ^ 48 } }

def act (res step kind arg0 a1 : Nat) (a2 : Nat := 0) (a3 : Nat := 0) : Act := { res := res, step := step, kind := kind, arg0 := arg0, a1 := a1, a2 := a2, a3 := a3, ofs := 128 + step * 16 + res * 64 }

def G : Geom := { turnLen := 1024, period := 1000, turns := 480, tail := 2000, replay := 1 }

def seD : List Nat := [0x101,0x40,0x200,8,2,0x10,0,0,0,0,0,0,0,0,0,0]

def P (b : Nat) : Part := { bay := b, geom := G, ppm := 0, partId := 7, allotOfs := 128, allot := [], acts := [act 0x1D8 3 6 0 5, act 0x198 2 1 3 0x100, act 0x110 2 1 2 0x200, act 0x104 2 3 1 0x80 4 (0x20010), act 0x105 2 3 0 0x80 4 0x20010, act 0x1D0 2 4 0xA5 0, act 0x1D5 2 5 0 3, act 0x1D4 2 5 0 4, act 0x100 2 2 0 0], descs := [{ ofs := 4096, w := seD }], routes := [], carries := [⟨300, 5, true, 0x400, 0x40, 0x800⟩, ⟨300, 6, false, 0x500, 0x40, 0x900⟩] }

def cbase (s : M) : M := { s with tme := { s.tme with t := 9 * 1000000 * 2^48 }, clk := { s.clk with now := 10000000 } }

def run1 (s : M) : M := let s := cbase s; { s with fig := { s.fig with geom := some G, running := s.fig.running.set 1 (some (P 1)), measure := 9, boundary := 10000000, resting := false, slot := 0, turn := 0, carry := s.fig.carry.set 1 [{ id := 5, base := 0x400, shadow := 0x800, len := 0x40 }] } }

def now (n : Nat) (s : M) : M := { s with clk := { s.clk with now := n } }

def fig (f : Fig → Fig) (s : M) : M := { s with fig := f s.fig }

def r1 : M := { run1 (grants (running base)) with mbx := base.mbx }

def rest (tail ns : Nat) (s : M) : M := let s := fig (fun f => { f with resting := true, slot := 481, turn := 480 }) s; at_ ns (now (s.padEnd G + tail) s)

def r2 (n : Nat) : M := now (10000000 + n) r1

def inAct (s : M) : M := fig (fun f => { f with running := f.running.set 1 (some { P 1 with acts := (P 1).acts ++ [act 0x180 2 1 1 0x100, act 0x1BC 2 1 1 0x140, act 0x181 2 1 0 0x400] }) }) s

def bw (l : List Nat) (s : M) : M := fig (fun f => { f with badWords := l.map fun o => (1, o) }) s

/-- States that meet the hypotheses of `Obligations.TurnFaults`, clause by clause. -/
theorem witness_TurnFaults :
  (let s : State := bw (List.map (fun x => x.ofs) (P 1).acts) (inAct (r2 2));
   let b : Fin 8 := 1;
   let n : Nat := 2;
   let a : Act := act 408 2 1 3 256;
   let r : Fin 512 := 408;
   s.Sealed ∧ s.stands = false ∧ s.badWord (↑b) a.ofs = true ∧ s.dueAct (↑b) (↑r) n 1 = some a) ∧
  (let s : State := bw (List.map (fun x => x.ofs) (P 1).acts) (inAct (r2 2));
   let b : Fin 8 := 1;
   let n : Nat := 2;
   let a : Act := act 256 2 2 0 0;
   let e : Fin 4 := 0;
   let p : Part := (s.part ↑b).getD default;
   s.Sealed ∧ s.stands = false ∧ s.badWord (↑b) a.ofs = true ∧ s.dueAct (↑b) (256 + ↑e) n 2 = some a ∧ s.part ↑b = some p ∧ a.a1 % 65536 <
     p.descs.length) ∧
  (let s : State := bw (List.map (fun x => x.ofs) (P 1).acts) (inAct (r2 2));
   let b : Fin 8 := 1;
   let n : Nat := 2;
   let a : Act := act 260 2 3 1 128 4 131088;
   let c : Fin 2 := 0;
   s.Sealed ∧ s.stands = false ∧ s.badWord (↑b) a.ofs = true ∧ s.dueAct (↑b) (260 + ↑c) n 3 = some a) ∧
  (let s : State := bw (List.map (fun x => x.ofs) (P 1).acts) (inAct (r2 2));
   let b : Fin 8 := 1;
   let n : Nat := 2;
   let a : Act := act 464 2 4 165 0;
   let p : Fin 4 := 0;
   s.Sealed ∧ s.stands = false ∧ s.badWord (↑b) a.ofs = true ∧ s.dueAct (↑b) (464 + ↑p) n 4 = some a) ∧
  (let s : State := bw (List.map (fun x => x.ofs) (P 1).acts) (inAct (r2 2));
   let b : Fin 8 := 1;
   let n : Nat := 2;
   let a : Act := act 469 2 5 0 3;
   let p : Fin 4 := 1;
   s.Sealed ∧ s.stands = false ∧ s.badWord (↑b) a.ofs = true ∧ s.dueAct (↑b) (468 + ↑p) n 5 = some a) ∧
  (let s : State := bw (List.map (fun x => x.ofs) (P 1).acts) (inAct (r2 3));
   let b : Fin 8 := 1;
   let n : Nat := 3;
   let a : Act := act 472 3 6 0 5;
   s.Sealed ∧ s.stands = false ∧ s.badWord (↑b) a.ofs = true ∧ s.dueAct (↑b) 472 n 6 = some a) ∧
  (let s : State := bw (List.map (fun x => x.ofs) (P 1).acts) (inAct (r2 2));
   s.Sealed ∧ s.stands = false ∧ s.inTurn = true) ∧
  (let s : State := rest 10 9000000 (bw (List.map (fun x => x.ofs) (P 1).acts) (inAct (r2 2)));
   s.Sealed ∧ s.stands = false ∧ s.inTurn = false) ∧
  (let s : State := rest 10 9000000 (bw (List.map (fun x => x.ofs) (P 1).acts) (inAct (r2 2)));
   s.Sealed ∧ s.stands = false ∧ s.fig.resting = true) ∧
  (let s : State := bw (List.map (fun x => x.ofs) (P 1).acts) (inAct (r2 2));
   s.Sealed ∧ s.stands = false ∧ s.fig.resting = false) :=
  (And.imp (And.imp sealed_of id) <|
  And.imp (And.imp sealed_of (And.imp id (And.imp id (And.imp id (And.imp some_of id))))) <|
  And.imp (And.imp sealed_of id) <|
  And.imp (And.imp sealed_of id) <|
  And.imp (And.imp sealed_of id) <|
  And.imp (And.imp sealed_of id) <|
  And.imp (And.imp sealed_of id) <|
  And.imp (And.imp sealed_of id) <|
  And.imp (And.imp sealed_of id) <|
  (And.imp sealed_of id))
  (by decide +kernel)

end SetD8

namespace SetD9

def base : M := mem (isa .f 1)

def running (s : State) : State :=
  { s with mbx := {}, pcie := {}, out := [], regs := [(0x40000040, 0x22222222), (0x40020004, 0xFF), (0x40020180, 1), (0x40020188, 1), (0x4002018C, 1),
      (0x40020190, 1), (0x40020194, 1), (0x40020198, 1), (0x4002019C, 1)].foldl (fun l p => sset regReset p.1 p.2 l) s.regs }

def grants (s : M) : M := (List.range 8).foldl (fun s b => ((s.put (Fd.BXM_BKF_BASE b) 0).put (Fd.BXM_BKF_LEN b) 64)) s

def act (res step kind arg0 a1 : Nat) (a2 : Nat := 0) (a3 : Nat := 0) : Act := { res := res, step := step, kind := kind, arg0 := arg0, a1 := a1, a2 := a2, a3 := a3, ofs := 128 + step * 16 + res * 64 }

def G : Geom := { turnLen := 1024, period := 1000, turns := 480, tail := 2000, replay := 1 }

def seD : List Nat := [0x101,0x40,0x200,8,2,0x10,0,0,0,0,0,0,0,0,0,0]

def P (b : Nat) : Part := { bay := b, geom := G, ppm := 0, partId := 7, allotOfs := 128, allot := [], acts := [act 0x1D8 3 6 0 5, act 0x198 2 1 3 0x100, act 0x110 2 1 2 0x200, act 0x104 2 3 1 0x80 4 (0x20010), act 0x105 2 3 0 0x80 4 0x20010, act 0x1D0 2 4 0xA5 0, act 0x1D5 2 5 0 3, act 0x1D4 2 5 0 4, act 0x100 2 2 0 0], descs := [{ ofs := 4096, w := seD }], routes := [], carries := [⟨300, 5, true, 0x400, 0x40, 0x800⟩, ⟨300, 6, false, 0x500, 0x40, 0x900⟩] }

def cbase (s : M) : M := { s with tme := { s.tme with t := 9 * 1000000 * 2^48 }, clk := { s.clk with now := 10000000 } }

def run1 (s : M) : M := let s := cbase s; { s with fig := { s.fig with geom := some G, running := s.fig.running.set 1 (some (P 1)), measure := 9, boundary := 10000000, resting := false, slot := 0, turn := 0, carry := s.fig.carry.set 1 [{ id := 5, base := 0x400, shadow := 0x800, len := 0x40 }] } }

def now (n : Nat) (s : M) : M := { s with clk := { s.clk with now := n } }

def fig (f : Fig → Fig) (s : M) : M := { s with fig := f s.fig }

def r1 : M := { run1 (grants (running base)) with mbx := base.mbx }

def gr (n : Nat) : Granule := { data := BitVec.ofNat 128 (n * 0x1000000010000001 + 5) }

def inAct (s : M) : M := fig (fun f => { f with running := f.running.set 1 (some { P 1 with acts := (P 1).acts ++ [act 0x180 2 1 1 0x100, act 0x1BC 2 1 1 0x140, act 0x181 2 1 0 0x400] }) }) s

def jr (s : M) : M := [0x180,0x181,0x1BC, 0x1BC+0x2000, inKey 1 0x1BC].foldl (fun s r => s.modEnd r fun e => { e with journal := [gr 1, gr 2], jpos := 1 }) s

def fl (n : Nat) (s : M) : M := fig (fun f => { f with faulted := true, stuck := n }) s

def hl (s : M) : M := (jr s).modEnd 0x198 fun e => { e with held := [(9 * 480 + s.fig.turn, [gr 1]), (9 * 480 + s.fig.turn - 1, [gr 2])] }

def nt (s : M) : M := fig (fun f => { f with notifies := [(1, 7)] }) s

def turnAt (slot turn : Nat) (s : M) : M := fig (fun f => { f with slot := slot, turn := turn }) (now (10000000 + (slot + 1) * 1024) s)

/-- States that meet the hypotheses of `Obligations.TurnsEnd`, clause by clause. -/
theorem witness_TurnsEnd :
  (let s : State := hl (nt (turnAt 5 5 (inAct r1)));
   let g : Geom := (s.fig.geom).getD default;
   s.Sealed ∧ s.stands = false ∧ s.fig.geom = some g ∧ s.slotOver = true ∧ s.fig.faulted = false) ∧
  (let s : State := fl 1 (hl (nt (turnAt 6 5 (fig (fun f => { f with spent := true }) (inAct r1)))));
   let g : Geom := s.fig.geom.getD default;
   s.Sealed ∧ s.stands = false ∧ s.fig.geom = some g ∧ s.slotOver = true ∧ s.fig.faulted = true ∧ s.swapDue = false ∧ s.replayDue g = false) ∧
  (let s : State := fl 1 (hl (nt (turnAt 5 5 (inAct r1))));
   let g : Geom := s.fig.geom.getD default;
   s.Sealed ∧ s.stands = false ∧ s.fig.geom = some g ∧ s.slotOver = true ∧ s.swapDue = false ∧ s.replayDue g = true) ∧
  (let s : State := hl (nt (turnAt 5 5 (inAct r1)));
   let g : Geom := s.fig.geom.getD default;
   s.Sealed ∧ s.stands = false ∧ s.fig.geom = some g ∧ s.slotOver = true ∧ s.swapDue = false ∧ s.replayDue g = false) ∧
  (let s : State := fl 65 (hl (nt (turnAt 5 5 (inAct r1))));
   let g : Geom := (s.fig.geom).getD default;
   s.Sealed ∧ s.stands = false ∧ s.fig.geom = some g ∧ s.slotOver = true ∧ s.swapDue = true) ∧
  (let s : State := hl (nt (turnAt 5 5 (inAct r1)));
   let g : Geom := s.fig.geom.getD default;
   s.Sealed ∧ s.stands = false ∧ s.fig.geom = some g ∧ s.slotOver = true ∧ s.swapDue = false) :=
  (And.imp (And.imp sealed_of (And.imp id (And.imp some_of id))) <|
  And.imp (And.imp sealed_of (And.imp id (And.imp some_of id))) <|
  And.imp (And.imp sealed_of (And.imp id (And.imp some_of id))) <|
  And.imp (And.imp sealed_of (And.imp id (And.imp some_of id))) <|
  And.imp (And.imp sealed_of (And.imp id (And.imp some_of id))) <|
  (And.imp sealed_of (And.imp id (And.imp some_of id))))
  (by decide +kernel)

end SetD9

namespace SetD10

def base : M := mem (isa .f 1)

def running (s : State) : State :=
  { s with mbx := {}, pcie := {}, out := [], regs := [(0x40000040, 0x22222222), (0x40020004, 0xFF), (0x40020180, 1), (0x40020188, 1), (0x4002018C, 1),
      (0x40020190, 1), (0x40020194, 1), (0x40020198, 1), (0x4002019C, 1)].foldl (fun l p => sset regReset p.1 p.2 l) s.regs }

def grants (s : M) : M := (List.range 8).foldl (fun s b => ((s.put (Fd.BXM_BKF_BASE b) 0).put (Fd.BXM_BKF_LEN b) 64)) s

def at_ (ns : Nat) (s : M) : M := { s with tme := { s.tme with t := ns * 2 ^ 48 } }

def act (res step kind arg0 a1 : Nat) (a2 : Nat := 0) (a3 : Nat := 0) : Act := { res := res, step := step, kind := kind, arg0 := arg0, a1 := a1, a2 := a2, a3 := a3, ofs := 128 + step * 16 + res * 64 }

def G : Geom := { turnLen := 1024, period := 1000, turns := 480, tail := 2000, replay := 1 }

def seD : List Nat := [0x101,0x40,0x200,8,2,0x10,0,0,0,0,0,0,0,0,0,0]

def P (b : Nat) : Part := { bay := b, geom := G, ppm := 0, partId := 7, allotOfs := 128, allot := [], acts := [act 0x1D8 3 6 0 5, act 0x198 2 1 3 0x100, act 0x110 2 1 2 0x200, act 0x104 2 3 1 0x80 4 (0x20010), act 0x105 2 3 0 0x80 4 0x20010, act 0x1D0 2 4 0xA5 0, act 0x1D5 2 5 0 3, act 0x1D4 2 5 0 4, act 0x100 2 2 0 0], descs := [{ ofs := 4096, w := seD }], routes := [], carries := [⟨300, 5, true, 0x400, 0x40, 0x800⟩, ⟨300, 6, false, 0x500, 0x40, 0x900⟩] }

def cbase (s : M) : M := { s with tme := { s.tme with t := 9 * 1000000 * 2^48 }, clk := { s.clk with now := 10000000 } }

def run1 (s : M) : M := let s := cbase s; { s with fig := { s.fig with geom := some G, running := s.fig.running.set 1 (some (P 1)), measure := 9, boundary := 10000000, resting := false, slot := 0, turn := 0, carry := s.fig.carry.set 1 [{ id := 5, base := 0x400, shadow := 0x800, len := 0x40 }] } }

def now (n : Nat) (s : M) : M := { s with clk := { s.clk with now := n } }

def fig (f : Fig → Fig) (s : M) : M := { s with fig := f s.fig }

def r1 : M := { run1 (grants (running base)) with mbx := base.mbx }

def gr (n : Nat) : Granule := { data := BitVec.ofNat 128 (n * 0x1000000010000001 + 5) }

def r2 (n : Nat) : M := now (10000000 + n) r1

def rep (s : M) : M := fig (fun f => { f with replaying := true, slot := 480, boundary := 10000000 - 480 * 1024 }) s

def fate (u cause at_ : Nat) (eps : List Nat) (nt : List (Nat × Nat)) (bays : List Nat := [1]) : TurnFate := { u := u, measure := 9, cause := cause, replayed := false, at_ := at_, bays := bays, eps := eps, notifies := nt }

def ft (l : List TurnFate) (s : M) : M := fig (fun f => { f with fates := l }) s

def hl (r : Nat) (s : M) : M := s.modEnd r fun e => { e with held := [(100, [gr 1, gr 3]), (101, [gr 2])], rep := some [gr 7, gr 8] }

def b : M := r2 3

/-- States that meet the hypotheses of `Obligations.OutputsAreReleased`, clause by clause. -/
theorem witness_OutputsAreReleased :
  (let s : State := ft [fate 100 0 10000004 [] [(1, 291)]] b;
   let f : TurnFate := (s.fig.fates).headD default;
   let l : List TurnFate := (s.fig.fates).tail;
   s.Sealed ∧ s.stands = false ∧ s.Still ∧ s.fig.fates = f :: l ∧ s.clk.now < f.at_) ∧
  (let s : State := ft [fate 100 0 10000003 [] [(1, 291)], fate 101 0 0 [] []] (r2 3);
   let f : TurnFate := (s.fig.fates).headD default;
   let l : List TurnFate := (s.fig.fates).tail;
   let b : Fin 8 := 1;
   let code : Nat := 291;
   s.Sealed ∧ s.stands = false ∧ s.Still ∧ s.fig.fates = f :: l ∧ f.at_ ≤ s.clk.now ∧ f.eps = [] ∧ f.cause = 0 ∧ f.replayed = false ∧ f.notifies =
     [(↑b, code)] ∧ ↑b ≠ 0) ∧
  (let s : State := ft [fate 100 2 10000003 [] []] (r2 3);
   let f : TurnFate := (s.fig.fates).headD default;
   let l : List TurnFate := (s.fig.fates).tail;
   let b : Fin 8 := 1;
   s.Sealed ∧ s.stands = false ∧ s.Still ∧ s.fig.fates = f :: l ∧ f.at_ ≤ s.clk.now ∧ f.eps = [] ∧ f.cause ≠ 0 ∧ f.bays = [↑b] ∧ ↑b ≠ 0) ∧
  (let s : State := ft [fate 100 0 3 [442] []] (hl 442 b);
   let f : TurnFate := (s.fig.fates).headD default;
   let l : List TurnFate := (s.fig.fates).tail;
   let p : Fin 4 := 2;
   let ep : Nat := 440 + ↑p;
   let mine : List Granule := (Option.map (fun x => x.snd) (List.find? (fun x => decide (x.fst = f.u)) (s.endp ep).held)).getD [];
   s.Sealed ∧ s.stands = false ∧ s.Still ∧ s.fig.fates = f :: l ∧ f.at_ ≤ s.clk.now ∧ f.eps = [ep] ∧ f.cause = 0 ∧ f.notifies = [] ∧ f.replayed =
     false ∧ mine.length ≤ 2048 ∧ (s.macPort ↑p).telegrams = []) ∧
  (let s : State := ft [fate 101 3 3 [442] [(1, 2)] [1, 2]] (hl 442 b);
   let f : TurnFate := (s.fig.fates).headD default;
   let l : List TurnFate := (s.fig.fates).tail;
   let p : Fin 4 := 2;
   let ep : Nat := 440 + ↑p;
   let q : List Granule := (s.endp ep).rep.getD default;
   s.Sealed ∧ s.stands = false ∧ s.Still ∧ s.fig.fates = f :: l ∧ f.at_ ≤ s.clk.now ∧ f.eps = [ep] ∧ f.cause ≠ 0 ∧ (s.endp ep).rep = some q ∧
     q.length ≤ 2048 ∧ (s.macPort ↑p).telegrams = []) :=
  (And.imp (And.imp sealed_of (And.imp id (And.imp still_of (And.imp cons_of id)))) <|
  And.imp (And.imp sealed_of (And.imp id (And.imp still_of (And.imp cons_of id)))) <|
  And.imp (And.imp sealed_of (And.imp id (And.imp still_of (And.imp cons_of id)))) <|
  And.imp (And.imp sealed_of (And.imp id (And.imp still_of (And.imp cons_of id)))) <|
  (And.imp sealed_of (And.imp id (And.imp still_of (And.imp cons_of (And.imp id (And.imp id (And.imp id (And.imp some_of id)))))))))
  (by decide +kernel)

end SetD10

namespace SetW7

def idle : M := { isa .f 1 with pcie := {}, clk := { State.reset.clk with now := 10000003, ka := 20000006 } }

def rq (m t key since : Nat) (data : List Byte) : BusReq := { master := m, core := m % 7, level := .s, target := t, addr := key, key := key, data := data, since := since }

def bts (n : Nat) : List Byte := (List.range n).map fun i => BitVec.ofNat 8 (200 + i)

def fld (f : BankField → BankField) (s : M) : M := { s with field := f s.field }

def ecc (l : List (Nat × Ecc)) (s : M) : M := fld (fun f => { f with ecc := l }) s

def early : M := fld (fun f => { f with due := [(0, 2 ^ 40)] }) idle

def hd (a n : Nat) (mg : Option (Nat × List Byte)) (stale : Bool) (s : M) : M := fld (fun f => { f with head := some { req := { rq 2 2 0 0 (bts n) with addr := a }, done := 0, merge := mg, stale := stale } }) s

def calm : M := fld (fun f => { f with due := [(0, 2 ^ 40), (2, 2 ^ 40)] }) idle

def whole : M := hd 0x20 16 none false calm

def part : M := hd 0x24 5 none false calm

def merged : M := hd 0x24 5 (some (2, bts 16)) false calm

def stale : M := hd 0x24 5 (some (2, bts 16)) true calm

def double : M := part |> ecc [(2, .double)]

def rd (n : Nat) (s : M) : M := fld (fun f => { f with head := f.head.map fun h => { h with req := { h.req with data := [], read := n } } }) s

def dd (f : DdrCtl → DdrCtl) (s : M) : M := { s with ddrCtl := f s.ddrCtl }

def trained : M := idle.putB Fd.DDR_STAT_TRAINED true

def ddrHead (s : M) : M := dd (fun d => { d with heads := [{ req := rq 3 3 0x100000040 0 (bts 8), done := 0, merge := none }] }) s

def ddrStore : M := ddrHead trained

def ddrBusy : M := dd (fun d => { d with busy0 := 10 ^ 9 }) (ddrHead trained)

def ddrDown : M := ddrHead idle

def ddrPart : M := dd (fun d => { d with heads := d.heads.map fun h => { h with req := { h.req with data := bts 3 } } }) ddrStore

def rqs (l : List BusReq) (s : M) : M := { s with bxm := { s.bxm with reqs := l } }

def waiting : M := rqs [rq 1 0 0x08040040 9999990 (bts 4), rq 2 2 0x10000050 0 (bts 8), rq 4 3 0x100000040 0 (bts 3)] idle

def G : Geom := { turnLen := 1024, period := 1000, turns := 480, tail := 2000, replay := 1 }

def fig (f : Fig → Fig) (s : M) : M := { s with fig := f s.fig }

def at_ (n t : Nat) (s : M) : M := { s with clk := { s.clk with now := n }, tme := { s.tme with t := t * 2 ^ 48 } }

def work : M := fig (fun f => { f with geom := some G, boundary := 30000000 }) (at_ 30000100 1000000 trained)

def tail (n t : Nat) : M := at_ n t (fig (fun f => { f with resting := true, slot := 481, turn := 480 }) work)

def tail1 : M := tail 40000000 1000000

def tail2 : M := tail 40000000 1999999

def tail3 : M := dd (fun d => { d with zqDeferAt := 30000001 }) tail2

theorem ddrBusy_sealed : State.Sealed ddrBusy := sealed_of (by decide +kernel)

theorem ddrDown_sealed : State.Sealed ddrDown := sealed_of (by decide +kernel)

theorem ddrStore_sealed : State.Sealed ddrStore := sealed_of (by decide +kernel)

theorem double_sealed : State.Sealed double := sealed_of (by decide +kernel)

theorem early_sealed : State.Sealed early := sealed_of (by decide +kernel)

theorem idle_sealed : State.Sealed idle := sealed_of (by decide +kernel)

theorem merged_sealed : State.Sealed merged := sealed_of (by decide +kernel)

theorem part_sealed : State.Sealed part := sealed_of (by decide +kernel)

theorem stale_sealed : State.Sealed stale := sealed_of (by decide +kernel)

theorem tail1_sealed : State.Sealed tail1 := sealed_of (by decide +kernel)

theorem tail3_sealed : State.Sealed tail3 := sealed_of (by decide +kernel)

theorem waiting_sealed : State.Sealed waiting := sealed_of (by decide +kernel)

theorem whole_sealed : State.Sealed whole := sealed_of (by decide +kernel)

theorem work_sealed : State.Sealed work := sealed_of (by decide +kernel)

/-- States that meet the hypotheses of `Obligations.BackgroundAccesses`, clause by clause. -/
theorem witness_BackgroundAccesses :
  (let s : State := idle;
   let k : Fin 256 := 0;
   s.Sealed ∧ s.stands = false ∧ (s.bankFree ↑k = true ∧ s.bankReserved ↑k = false) ∧ (sget (fun x => 0) s.field.due ↑k ≤ s.clk.now)) ∧
  (let s : State := early;
   let k : Fin 256 := 0;
   s.Sealed ∧ s.stands = false ∧ (¬(s.bankFree ↑k = true ∧ s.bankReserved ↑k = false) ∨ s.clk.now < sget (fun x => 0) s.field.due ↑k)) ∧
  (let s : State := fld (fun f => { f with wb := [0] }) (ecc [(0, .single)] calm);
   let k : Fin 256 := 0;
   let g : Nat := 0;
   s.Sealed ∧ s.stands = false ∧ (s.bankFree ↑k = true ∧ s.bankReserved ↑k = false) ∧ s.scrubDue ↑k = false ∧ (List.find? (fun g => decide (bankOf
     (16 * g) = ↑k)) s.field.wb = some g)) ∧
  (let s : State := idle;
   let k : Fin 256 := 0;
   s.Sealed ∧ s.stands = false ∧ (¬(s.bankFree ↑k = true ∧ s.bankReserved ↑k = false) ∨ s.scrubDue ↑k = true ∨ List.find? (fun g => decide (bankOf
     (16 * g) = ↑k)) s.field.wb = none)) ∧
  (let s : State := hd 0x24 5 none false idle;
   let h : BankHead := (s.field.head).getD default;
   s.Sealed ∧ s.stands = false ∧ s.field.head = some h ∧ (s.bankFree (bankOf h.addr) = false ∨ s.bankYields (bankOf h.addr) = true ∨ s.field.portAt
     = some s.clk.now)) ∧
  (let s : State := whole;
   let h : BankHead := s.field.head.getD default;
   let n : Nat := min (h.req.len - h.done) (16 - h.addr % 16);
   s.Sealed ∧ s.stands = false ∧ s.field.head = some h ∧ h.done < h.req.len ∧ h.req.addr + h.req.len ≤ bkfSize ∧ s.bankFree (bankOf h.addr) = true ∧
     s.bankYields (bankOf h.addr) = false ∧ s.field.portAt ≠ some s.clk.now ∧ h.req.read = 0 ∧ n = 16) ∧
  (let s : State := merged;
   let h : BankHead := s.field.head.getD default;
   let n : Nat := min (h.req.len - h.done) (16 - h.addr % 16);
   s.Sealed ∧ s.stands = false ∧ s.field.head = some h ∧ h.done < h.req.len ∧ h.req.addr + h.req.len ≤ bkfSize ∧ s.bankFree (bankOf h.addr) = true ∧
     s.bankYields (bankOf h.addr) = false ∧ s.field.portAt ≠ some s.clk.now ∧ h.req.read = 0 ∧ n < 16 ∧ h.merge ≠ none ∧ h.stale = false) ∧
  (let s : State := part;
   let h : BankHead := s.field.head.getD default;
   let n : Nat := min (h.req.len - h.done) (16 - h.addr % 16);
   s.Sealed ∧ s.stands = false ∧ s.field.head = some h ∧ h.done < h.req.len ∧ h.req.addr + h.req.len ≤ bkfSize ∧ s.bankFree (bankOf h.addr) = true ∧
     s.bankYields (bankOf h.addr) = false ∧ s.field.portAt ≠ some s.clk.now ∧ h.req.read = 0 ∧ n < 16 ∧ h.merge = none ∧ (s.eccOf (h.addr / 16) =
     Ecc.clean ∨ s.eccOf (h.addr / 16) = Ecc.single)) ∧
  (let s : State := stale;
   let h : BankHead := s.field.head.getD default;
   let n : Nat := min (h.req.len - h.done) (16 - h.addr % 16);
   s.Sealed ∧ s.stands = false ∧ s.field.head = some h ∧ h.done < h.req.len ∧ h.req.addr + h.req.len ≤ bkfSize ∧ s.bankFree (bankOf h.addr) = true ∧
     s.bankYields (bankOf h.addr) = false ∧ s.field.portAt ≠ some s.clk.now ∧ h.req.read = 0 ∧ n < 16 ∧ h.merge ≠ none ∧ h.stale = true ∧ s.eccOf
     (h.addr / 16) = Ecc.clean) ∧
  (let s : State := double;
   let h : BankHead := s.field.head.getD default;
   let n : Nat := min (h.req.len - h.done) (16 - h.addr % 16);
   s.Sealed ∧ s.stands = false ∧ s.field.head = some h ∧ h.done < h.req.len ∧ h.req.addr + h.req.len ≤ bkfSize ∧ s.bankFree (bankOf h.addr) = true ∧
     s.bankYields (bankOf h.addr) = false ∧ s.field.portAt ≠ some s.clk.now ∧ h.req.read = 0 ∧ n < 16 ∧ h.merge = none ∧ s.eccOf (h.addr / 16) =
     Ecc.double) ∧
  (let s : State := rd 5 part;
   let h : BankHead := s.field.head.getD default;
   s.Sealed ∧ s.stands = false ∧ s.field.head = some h ∧ h.done < h.req.len ∧ h.req.addr + h.req.len ≤ bkfSize ∧ s.bankFree (bankOf h.addr) = true ∧
     s.bankYields (bankOf h.addr) = false ∧ s.field.portAt ≠ some s.clk.now ∧ h.req.read ≠ 0 ∧ s.eccOf (h.addr / 16) = Ecc.clean) ∧
  (let s : State := rd 5 double;
   let h : BankHead := s.field.head.getD default;
   s.Sealed ∧ s.stands = false ∧ s.field.head = some h ∧ h.done < h.req.len ∧ h.req.addr + h.req.len ≤ bkfSize ∧ s.bankFree (bankOf h.addr) = true ∧
     s.bankYields (bankOf h.addr) = false ∧ s.field.portAt ≠ some s.clk.now ∧ h.req.read ≠ 0 ∧ s.eccOf (h.addr / 16) = Ecc.double) ∧
  (let s : State := idle;
   s.Sealed ∧ s.stands = false ∧ s.field.head = none) ∧
  (let s : State := idle;
   s.Sealed ∧ s.stands = false ∧ s.ddrCtl.heads = []) :=
  (And.imp (given idle_sealed id) <|
  And.imp (given early_sealed id) <|
  And.imp (And.imp sealed_of id) <|
  And.imp (given idle_sealed id) <|
  And.imp (And.imp sealed_of (And.imp id (And.imp some_of id))) <|
  And.imp (given whole_sealed (And.imp id (And.imp some_of id))) <|
  And.imp (given merged_sealed (And.imp id (And.imp some_of id))) <|
  And.imp (given part_sealed (And.imp id (And.imp some_of id))) <|
  And.imp (given stale_sealed (And.imp id (And.imp some_of id))) <|
  And.imp (given double_sealed (And.imp id (And.imp some_of id))) <|
  And.imp (And.imp sealed_of (And.imp id (And.imp some_of id))) <|
  And.imp (And.imp sealed_of (And.imp id (And.imp some_of id))) <|
  And.imp (given idle_sealed id) <|
  (given idle_sealed id))
  (by decide +kernel)

/-- States that meet the hypotheses of `Obligations.BackgroundAccesses`, clause by clause (clauses 15 and on). -/
theorem witness_BackgroundAccesses_2 :
  (let s : State := ddrStore;
   let h : BankHead := (s.ddrCtl.heads).headD default;
   let l : List BankHead := (s.ddrCtl.heads).tail;
   let r : BusReq := h.req;
   let o : Nat := r.key - 4294967296 + h.done;
   let left : Nat := r.len - h.done;
   let n : Nat := if r.read ≠ 0 then min left (64 - o % 64) else if o % 8 ≠ 0 ∨ left < 8 then min left (8 - o % 8) else min (left / 8 * 8) (64 - o %
      64);
   s.Sealed ∧ s.stands = false ∧ s.ddrCtl.heads = h :: l ∧ (s.bit Fd.DDR_STAT_TRAINED = true ∧ s.ddrFree o = true ∧ s.ddrCtl.readAt = none) ∧
     (¬(r.read = 0 ∧ n < 8 ∧ h.merge = none))) ∧
  (let s : State := ddrPart;
   let h : BankHead := (s.ddrCtl.heads).headD default;
   let l : List BankHead := (s.ddrCtl.heads).tail;
   let r : BusReq := h.req;
   let o : Nat := r.key - 4294967296 + h.done;
   let left : Nat := r.len - h.done;
   let n : Nat := if r.read ≠ 0 then min left (64 - o % 64) else if o % 8 ≠ 0 ∨ left < 8 then min left (8 - o % 8) else min (left / 8 * 8) (64 - o %
      64);
   s.Sealed ∧ s.stands = false ∧ s.ddrCtl.heads = h :: l ∧ (s.bit Fd.DDR_STAT_TRAINED = true ∧ s.ddrFree o = true ∧ s.ddrCtl.readAt = none) ∧
     (r.read = 0 ∧ n < 8 ∧ h.merge = none)) ∧
  (let s : State := ddrBusy;
   let h : BankHead := (s.ddrCtl.heads).headD default;
   let l : List BankHead := (s.ddrCtl.heads).tail;
   let r : BusReq := h.req;
   let o : Nat := r.key - 4294967296 + h.done;
   s.Sealed ∧ s.stands = false ∧ s.ddrCtl.heads = h :: l ∧ s.bit Fd.DDR_STAT_TRAINED = true ∧ (¬(s.bit Fd.DDR_STAT_TRAINED = true ∧ s.ddrFree o =
     true ∧ s.ddrCtl.readAt = none))) ∧
  (let s : State := ddrDown;
   let h : BankHead := (s.ddrCtl.heads).headD default;
   let l : List BankHead := (s.ddrCtl.heads).tail;
   let r : BusReq := h.req;
   s.Sealed ∧ s.stands = false ∧ s.ddrCtl.heads = h :: l ∧ s.bit Fd.DDR_STAT_TRAINED = false ∧ r.ask = Asker.store ∧ r.core < 6) ∧
  (let s : State := idle;
   let g : Fin 8 := 0;
   s.Sealed ∧ s.stands = false ∧ (¬(↑g = 2 → s.field.head = none ∧ s.field.freeAt ≤ s.clk.now) ∨ s.busHeads ↑g = [] ∨ s.grantCycle ↑g = none)) ∧
  (let s : State := waiting;
   let g : Fin 8 := 0;
   let c : Nat := (s.grantCycle ↑g).getD default;
   s.Sealed ∧ s.stands = false ∧ (↑g = 2 → s.field.head = none ∧ s.field.freeAt ≤ s.clk.now) ∧ s.busHeads ↑g ≠ [] ∧ s.grantCycle ↑g = some c) ∧
  (let s : State := ddrStore;
   let ch : Fin 2 := 0;
   let last : Nat := if ↑ch = 0 then s.ddrCtl.refreshAt0 else s.ddrCtl.refreshAt1;
   let count : Nat := if ↑ch = 0 then s.ddrCtl.refresh0 else s.ddrCtl.refresh1;
   s.Sealed ∧ s.stands = false ∧ s.bit Fd.DDR_STAT_TRAINED = true ∧ (s.fig.geom = none ∨ s.chanFree (↑ch) 150 = true ∧ (count = 0 ∨ s.runStarts ↑ch
     = true ∧ last < s.clk.now ∨ last + 150 ≤ s.clk.now) ∧ (s.ddrCtl.zqAt = 0 ∨ s.ddrCtl.zqAt + 32 ≤ s.clk.now))) ∧
  (let s : State := idle;
   let ch : Fin 2 := 0;
   let last : Nat := if ↑ch = 0 then s.ddrCtl.refreshAt0 else s.ddrCtl.refreshAt1;
   let count : Nat := if ↑ch = 0 then s.ddrCtl.refresh0 else s.ddrCtl.refresh1;
   s.Sealed ∧ s.stands = false ∧ (s.bit Fd.DDR_STAT_TRAINED = false ∨ ¬(s.fig.geom = none ∨ s.chanFree (↑ch) 150 = true ∧ (count = 0 ∨ s.runStarts
     ↑ch = true ∧ last < s.clk.now ∨ last + 150 ≤ s.clk.now) ∧ (s.ddrCtl.zqAt = 0 ∨ s.ddrCtl.zqAt + 32 ≤ s.clk.now)))) ∧
  (let s : State := at_ 20000000 5 trained;
   s.Sealed ∧ s.stands = false ∧ (s.bit Fd.DDR_STAT_TRAINED = true ∧ s.ddrCtl.zqAt + 16000000 ≤ s.clk.now) ∧ (s.fig.geom = none ∨ s.tailLeft 32 =
     some true ∧ s.refreshing 0 = false ∧ s.refreshing 1 = false)) ∧
  (let s : State := work;
   s.Sealed ∧ s.stands = false ∧ (s.bit Fd.DDR_STAT_TRAINED = true ∧ s.ddrCtl.zqAt + 16000000 ≤ s.clk.now) ∧ s.fig.geom ≠ none ∧ (s.tailLeft 32 =
     none ∨ s.tailLeft 32 = some true ∧ ¬(s.refreshing 0 = false ∧ s.refreshing 1 = false))) ∧
  (let s : State := tail1;
   s.Sealed ∧ s.stands = false ∧ (s.bit Fd.DDR_STAT_TRAINED = true ∧ s.ddrCtl.zqAt + 16000000 ≤ s.clk.now) ∧ s.tailLeft 32 = some false ∧
     s.ddrCtl.zqDeferAt ≤ s.fig.boundary) ∧
  (let s : State := tail3;
   s.Sealed ∧ s.stands = false ∧ (s.bit Fd.DDR_STAT_TRAINED = true ∧ s.ddrCtl.zqAt + 16000000 ≤ s.clk.now) ∧ s.tailLeft 32 = some false ∧
     s.fig.boundary < s.ddrCtl.zqDeferAt) ∧
  (let s : State := idle;
   s.Sealed ∧ s.stands = false ∧ (¬(s.bit Fd.DDR_STAT_TRAINED = true ∧ s.ddrCtl.zqAt + 16000000 ≤ s.clk.now))) ∧
  (let s : State := tail 30498100 999000;
   let n : Nat := 100;
   s.Sealed ∧ s.stands = false ∧ s.tailLeft n = some true) :=
  (And.imp (given ddrStore_sealed (And.imp id (And.imp cons_of id))) <|
  And.imp (And.imp sealed_of (And.imp id (And.imp cons_of id))) <|
  And.imp (given ddrBusy_sealed (And.imp id (And.imp cons_of id))) <|
  And.imp (given ddrDown_sealed (And.imp id (And.imp cons_of id))) <|
  And.imp (given idle_sealed id) <|
  And.imp (given waiting_sealed (And.imp id (And.imp id (And.imp id some_of)))) <|
  And.imp (given ddrStore_sealed id) <|
  And.imp (given idle_sealed id) <|
  And.imp (And.imp sealed_of id) <|
  And.imp (given work_sealed id) <|
  And.imp (given tail1_sealed id) <|
  And.imp (given tail3_sealed id) <|
  And.imp (given idle_sealed id) <|
  (And.imp sealed_of id))
  (by decide +kernel)

/-- States that meet the hypotheses of `Obligations.BackgroundAccesses`, clause by clause (clauses 29 and on). -/
theorem witness_BackgroundAccesses_3 :
  (let s : State := tail1;
   let u : Nat := 0;
   let n : Nat := 1;
   let deferred : Nat := sget (fun x => 0) s.fig.phyDeferAt u;
   s.Sealed ∧ s.stands = false ∧ s.tailLeft n = some false ∧ deferred ≤ s.fig.boundary) ∧
  (let s : State := fig (fun f => { f with phyDeferAt := [(0, 30000001)] }) tail1;
   let u : Nat := 0;
   let n : Nat := 1;
   let deferred : Nat := sget (fun x => 0) s.fig.phyDeferAt u;
   s.Sealed ∧ s.stands = false ∧ s.tailLeft n = some false ∧ s.fig.boundary < deferred) ∧
  (let s : State := idle;
   let n : Nat := 0;
   s.Sealed ∧ s.stands = false ∧ s.tailLeft n = none) :=
  (And.imp (given tail1_sealed id) <|
  And.imp (And.imp sealed_of id) <|
  (given idle_sealed id))
  (by decide +kernel)

end SetW7

namespace SetE1

def base : M := mem (isa .f 1)

def running (s : State) : State :=
  { s with mbx := {}, pcie := {}, out := [], regs := [(0x40000040, 0x22222222), (0x40020004, 0xFF), (0x40020180, 1), (0x40020188, 1), (0x4002018C, 1),
      (0x40020190, 1), (0x40020194, 1), (0x40020198, 1), (0x4002019C, 1)].foldl (fun l p => sset regReset p.1 p.2 l) s.regs }

def grants (s : M) : M := (List.range 8).foldl (fun s b => ((s.put (Fd.BXM_BKF_BASE b) 0).put (Fd.BXM_BKF_LEN b) 64)) s

def pl (n : Nat) (l : List (Nat × Nat × Nat)) : List Byte := l.foldl (fun a (o, k, v) => a.take o ++ natLe k v ++ a.drop (o + k)) (natLe n 0)

def at_ (ns : Nat) (s : M) : M := { s with tme := { s.tme with t := ns * 2 ^ 48 }, plb := { s.plb with run := ns * 2 ^ 48 } }

def poke (o : Nat) (x : List Byte) (a : List Byte) : List Byte := a.take o ++ x ++ a.drop (o + x.length)

def ownAll (b : Nat) (s : M) : M :=
  let s := (List.range 48).foldl (fun s i => (s.put ⟨Reg.VXM_SOWN (i / 8), 4 * (i % 8) + 3, 4 * (i % 8)⟩ b).put ⟨Reg.VXM_DOWN (i / 8), 4 * (i % 8) + 3, 4 * (i % 8)⟩ b) s
  s.modBay b fun x => { x with phase := (List.range 16).map fun i => (0x198 + i, 0xFF) }

def prof0 : List Byte := pl 40 []

def act (res step kind arg0 a1 : Nat) (a2 : Nat := 0) (a3 : Nat := 0) : Act := { res := res, step := step, kind := kind, arg0 := arg0, a1 := a1, a2 := a2, a3 := a3, ofs := 128 + step * 16 + res * 64 }

def G : Geom := { turnLen := 1024, period := 1000, turns := 480, tail := 2000, replay := 1 }

def seD : List Nat := [0x101,0x40,0x200,8,2,0x10,0,0,0,0,0,0,0,0,0,0]

def P (b : Nat) : Part := { bay := b, geom := G, ppm := 0, partId := 7, allotOfs := 128, allot := [], acts := [act 0x1D8 3 6 0 5, act 0x198 2 1 3 0x100, act 0x110 2 1 2 0x200, act 0x104 2 3 1 0x80 4 (0x20010), act 0x105 2 3 0 0x80 4 0x20010, act 0x1D0 2 4 0xA5 0, act 0x1D5 2 5 0 3, act 0x1D4 2 5 0 4, act 0x100 2 2 0 0], descs := [{ ofs := 4096, w := seD }], routes := [], carries := [⟨300, 5, true, 0x400, 0x40, 0x800⟩, ⟨300, 6, false, 0x500, 0x40, 0x900⟩] }

def cbase (s : M) : M := { s with tme := { s.tme with t := 9 * 1000000 * 2^48 }, clk := { s.clk with now := 10000000 } }

def run1 (s : M) : M := let s := cbase s; { s with fig := { s.fig with geom := some G, running := s.fig.running.set 1 (some (P 1)), measure := 9, boundary := 10000000, resting := false, slot := 0, turn := 0, carry := s.fig.carry.set 1 [{ id := 5, base := 0x400, shadow := 0x800, len := 0x40 }] } }

def now (n : Nat) (s : M) : M := { s with clk := { s.clk with now := n } }

def fig (f : Fig → Fig) (s : M) : M := { s with fig := f s.fig }

def r1 : M := { run1 (grants (running base)) with mbx := base.mbx }

def fifo (r : Nat) (l : List Granule) (s : M) : M := s.modEnd r fun e => { e with fifo := l }

def g0 : CnfCfg := { rx := 2, vc := 1, dt := 0x2B, width := 16, height := 2, fps := 50, linePeriod := 100, outDelay := 20, window := 2000000, trigLead := 100, trigPw := 3 }

def cf (i : Nat) (g : CnfCfg) (f : Conf → Conf) (s : M) : M := (s.modConf i fun c => f { c with bound := true, cfg := g }).put (Fd.CNF_STAT_CONFIGURED i) 1

def b : M := { ownAll 1 (now 10000003 r1) with mbx := base.mbx }

def dst (d : Nat) (f : Dest → Dest) (s : M) : M := s.modDest d f

def il (fid num : Nat) : InLine := { fid := fid, num := num, tag := {}, crc := false, at_ := 5, samples := (List.range 16).map (· * 60) }

def feed (s : M) : M := dst 26 (fun d => { d with route := ⟨3, false, 0, 1⟩, inFrame := true, curFs := 10000003 }) s

def T (g : CnfCfg) (f : Conf → Conf) : M := at_ 20000000 (cf 3 g f b)

def pend (d : Nat) (r : Route) (a : Nat) (o : Option Origin) (s : M) : M := dst d (fun x => { x with pend := some (r, 9, some a, o) }) s

def sa (i n : Nat) (s : M) : M := { s with vid := { s.vid with srcAt := vmod s.vid.srcAt i fun _ => some n } }

def dec (l : List (Nat × List Byte)) (x y : Option Nat) (s : M) : M := { s with vid := { s.vid with decs := s.vid.decs.map fun d => { d with packets := l, ns := x, before := y } } }

def pk : List Byte := poke ((List.range 40).find? (fun i => Prof.srcKind (poke i [1] prof0) ≠ 0) |>.getD 0) [1] prof0

def pf : List Byte := poke ((List.range 40).find? (fun i => Prof.frc (poke i [1] prof0) ≠ 0) |>.getD 0) [1] (poke ((List.range 40).find? (fun i => Prof.outFps (poke i [1] prof0) ≠ 0) |>.getD 0) [50] pk)

theorem b_sealed : State.Sealed b := sealed_of (by decide +kernel)

def profs (l : List (Nat × List Byte)) (s : M) : M := { s with vid := { s.vid with profs := l } }

/-- States that meet the hypotheses of `Obligations.VideoInputs`, clause by clause. -/
theorem witness_VideoInputs :
  (let s : State := State.putB b (rdyBit rVID) false;
   let l : List Nat := [];
   s.Sealed ∧ s.stands = false ∧ l.length ≤ 65535 ∧ (∀ (x : Nat), x ∈ l → x < 65536) ∧ s.ready rVID = false) ∧
  (let s : State := b;
   let hdr : Fin 4 := 3;
   let l : List Nat := [];
   s.Sealed ∧ s.stands = false ∧ l.length ≤ 65535 ∧ (∀ (x : Nat), x ∈ l → x < 65536) ∧ s.ready rVID = true ∧ ↑hdr = 3) ∧
  (let s : State := b;
   let hdr : Fin 4 := 2;
   let l : List Nat := [];
   s.Sealed ∧ s.stands = false ∧ l.length ≤ 65535 ∧ (∀ (x : Nat), x ∈ l → x < 65536) ∧ s.ready rVID = true ∧ ↑hdr = 2) ∧
  (let s : State := b;
   let hdr : Fin 4 := 0;
   let dt : BitVec 6 := 5#6;
   let l : List Nat := [];
   s.Sealed ∧ s.stands = false ∧ l.length ≤ 65535 ∧ (∀ (x : Nat), x ∈ l → x < 65536) ∧ s.ready rVID = true ∧ ↑hdr = 0 ∧ Pix.supported dt.toNat =
     false ∧ 3 < dt.toNat) ∧
  (let s : State := b;
   let r : Fin 12 := 0;
   let hdr : Fin 4 := 0;
   let vcx : BitVec 2 := 0#2;
   let vc : BitVec 2 := 0#2;
   let dt : BitVec 6 := 0#6;
   let l : List Nat := [];
   s.Sealed ∧ s.stands = false ∧ l.length ≤ 65535 ∧ (∀ (x : Nat), x ∈ l → x < 65536) ∧ s.ready rVID = true ∧ ↑hdr = 0 ∧ (Pix.supported dt.toNat =
     true ∨ dt.toNat ≤ 3) ∧ (vcx ≠ 0 ∨ s.boundConf (↑r) vc.toNat = none)) ∧
  (let s : State := cf 3 g0 id b;
   let r : Fin 12 := 2;
   let hdr : Fin 4 := 0;
   let vcx : BitVec 2 := 0#2;
   let vc : BitVec 2 := 1#2;
   let dt : BitVec 6 := 1#6;
   let l : List Nat := [];
   let i : Nat := 3;
   s.Sealed ∧ s.stands = false ∧ l.length ≤ 65535 ∧ (∀ (x : Nat), x ∈ l → x < 65536) ∧ i < 24 ∧ s.ready rVID = true ∧ ↑hdr < 2 ∧ vcx = 0 ∧
     s.boundConf (↑r) vc.toNat = some i ∧ dt = 1) ∧
  (let s : State := cf 3 g0 (fun x => { x with fids := 5, inFid := some 5, curFid := some 5 }) b;
   let r : Fin 12 := 2;
   let hdr : Fin 4 := 0;
   let vcx : BitVec 2 := 0#2;
   let vc : BitVec 2 := 1#2;
   let dt : BitVec 6 := 43#6;
   let l : List Nat := [];
   let i : Nat := 3;
   let fid : Nat := 5;
   let c : Conf := s.conf i;
   let g : CnfCfg := s.confCfg i;
   let ahead : Nat := (List.filter (fun x => decide (some x.fid ≠ c.curFid) || decide (x.num ≥ c.outN)) c.fifo).length;
   s.Sealed ∧ s.stands = false ∧ l.length ≤ 65535 ∧ (∀ (x : Nat), x ∈ l → x < 65536) ∧ i < 24 ∧ s.ready rVID = true ∧ ↑hdr < 2 ∧ vcx = 0 ∧
     s.boundConf (↑r) vc.toNat = some i ∧ Pix.supported dt.toNat = true ∧ 3 < dt.toNat ∧ g.linescan = false ∧ g.trigMode ≠ 2 ∧ c.inFid = some fid ∧
     c.inNum < g.height ∧ ((∃ tf, c.nextFid = some (fid, tf)) ∨ c.curFid = some fid ∧ c.outN ≤ c.inNum) ∧ ahead < 4) ∧
  (let s : State := cf 3 g0 (fun x => { x with fids := 5, inFid := some 5, curFid := some 5, fifo := List.replicate 4 (il 5 0) }) b;
   let r : Fin 12 := 2;
   let hdr : Fin 4 := 0;
   let vcx : BitVec 2 := 0#2;
   let vc : BitVec 2 := 1#2;
   let dt : BitVec 6 := 43#6;
   let l : List Nat := [];
   let i : Nat := 3;
   let fid : Nat := 5;
   let c : Conf := s.conf i;
   let g : CnfCfg := s.confCfg i;
   let ahead : Nat := (List.filter (fun x => decide (some x.fid ≠ c.curFid) || decide (x.num ≥ c.outN)) c.fifo).length;
   s.Sealed ∧ s.stands = false ∧ l.length ≤ 65535 ∧ (∀ (x : Nat), x ∈ l → x < 65536) ∧ i < 24 ∧ s.ready rVID = true ∧ ↑hdr < 2 ∧ vcx = 0 ∧
     s.boundConf (↑r) vc.toNat = some i ∧ Pix.supported dt.toNat = true ∧ 3 < dt.toNat ∧ g.linescan = false ∧ g.trigMode ≠ 2 ∧ c.inFid = some fid ∧
     c.inNum < g.height ∧ ((∃ tf, c.nextFid = some (fid, tf)) ∨ c.curFid = some fid ∧ c.outN ≤ c.inNum) ∧ 4 ≤ ahead) ∧
  (let s : State := cf 3 g0 (fun x => { x with fids := 5, inFid := some 5 }) b;
   let r : Fin 12 := 2;
   let hdr : Fin 4 := 0;
   let vcx : BitVec 2 := 0#2;
   let vc : BitVec 2 := 1#2;
   let dt : BitVec 6 := 43#6;
   let l : List Nat := [];
   let i : Nat := 3;
   let fid : Nat := 5;
   let c : Conf := s.conf i;
   let g : CnfCfg := s.confCfg i;
   s.Sealed ∧ s.stands = false ∧ l.length ≤ 65535 ∧ (∀ (x : Nat), x ∈ l → x < 65536) ∧ i < 24 ∧ s.ready rVID = true ∧ ↑hdr < 2 ∧ vcx = 0 ∧
     s.boundConf (↑r) vc.toNat = some i ∧ Pix.supported dt.toNat = true ∧ 3 < dt.toNat ∧ g.linescan = false ∧ g.trigMode ≠ 2 ∧ c.inFid = some fid ∧
     c.inNum < g.height ∧ (¬((∃ tf, c.nextFid = some (fid, tf)) ∨ c.curFid = some fid ∧ c.outN ≤ c.inNum))) ∧
  (let s : State := cf 3 g0 (fun x => { x with inFid := some 5, inNum := 2 }) b;
   let r : Fin 12 := 2;
   let hdr : Fin 4 := 0;
   let vcx : BitVec 2 := 0#2;
   let vc : BitVec 2 := 1#2;
   let dt : BitVec 6 := 43#6;
   let l : List Nat := [];
   let i : Nat := 3;
   let fid : Nat := 5;
   let c : Conf := s.conf i;
   let g : CnfCfg := s.confCfg i;
   s.Sealed ∧ s.stands = false ∧ l.length ≤ 65535 ∧ (∀ (x : Nat), x ∈ l → x < 65536) ∧ i < 24 ∧ s.ready rVID = true ∧ ↑hdr < 2 ∧ vcx = 0 ∧
     s.boundConf (↑r) vc.toNat = some i ∧ Pix.supported dt.toNat = true ∧ 3 < dt.toNat ∧ g.linescan = false ∧ g.trigMode ≠ 2 ∧ c.inFid = some fid ∧
     g.height ≤ c.inNum) ∧
  (let s : State := cf 3 g0 id (at_ 19000000 b);
   let r : Fin 12 := 2;
   let vc : BitVec 2 := 1#2;
   let i : Nat := 3;
   let c : Conf := s.conf i;
   let g : CnfCfg := s.confCfg i;
   let tf : Nat := nextPoint g.fps g.phase s.beatNs;
   s.Sealed ∧ s.stands = false ∧ i < 24 ∧ s.ready rVID = true ∧ s.boundConf (↑r) vc.toNat = some i ∧ (s.confCfg i).linescan = false ∧ (s.beatPoint
     tf ≤ s.ns + g.window ∧ ∀ (n : Nat × Nat), c.nextFid = some n → n.snd ≠ tf)) ∧
  (let s : State := cf 3 g0 id b;
   let r : Fin 12 := 2;
   let vc : BitVec 2 := 1#2;
   let i : Nat := 3;
   let c : Conf := s.conf i;
   let g : CnfCfg := s.confCfg i;
   let tf : Nat := nextPoint g.fps g.phase s.beatNs;
   s.Sealed ∧ s.stands = false ∧ i < 24 ∧ s.ready rVID = true ∧ s.boundConf (↑r) vc.toNat = some i ∧ (s.confCfg i).linescan = false ∧ (¬(s.beatPoint
     tf ≤ s.ns + g.window ∧ ∀ (n : Nat × Nat), c.nextFid = some n → n.snd ≠ tf))) ∧
  (let s : State := b;
   let r : Fin 12 := 0;
   let vc : BitVec 2 := 0#2;
   s.Sealed ∧ s.stands = false ∧ s.ready rVID = true ∧ s.boundConf (↑r) vc.toNat = none) ∧
  (let s : State := at_ 20000000 (cf 3 g0 (fun c => { c with nextFid := some (4, 0), tf := some 0 }) b);
   let i : Fin 24 := 3;
   s.Sealed ∧ s.stands = false ∧ (s.conf ↑i).bound = true ∧ (s.confCfg ↑i).linescan = false ∧ ((s.conf ↑i).shadow.getD (s.conf ↑i).cfg).linescan =
     false ∧ (s.dueTf ↑i = none ∨ (s.conf ↑i).inOutput = true)) :=
  (And.imp (And.imp sealed_of id) <|
  And.imp (given b_sealed id) <|
  And.imp (given b_sealed id) <|
  And.imp (given b_sealed id) <|
  And.imp (given b_sealed id) <|
  And.imp (And.imp sealed_of id) <|
  And.imp (And.imp sealed_of (And.imp id (And.imp id (And.imp id (And.imp id (And.imp id (And.imp id (And.imp id (And.imp id (And.imp id (And.imp id
    (And.imp id (And.imp id (And.imp id (And.imp id (And.imp Or.inr id)))))))))))))))) <|
  And.imp (And.imp sealed_of (And.imp id (And.imp id (And.imp id (And.imp id (And.imp id (And.imp id (And.imp id (And.imp id (And.imp id (And.imp id
    (And.imp id (And.imp id (And.imp id (And.imp id (And.imp Or.inr id)))))))))))))))) <|
  And.imp (And.imp sealed_of (And.imp id (And.imp id (And.imp id (And.imp id (And.imp id (And.imp id (And.imp id (And.imp id (And.imp id (And.imp id
    (And.imp id (And.imp id (And.imp id (And.imp id noNext_of))))))))))))))) <|
  And.imp (And.imp sealed_of id) <|
  And.imp (And.imp sealed_of id) <|
  And.imp (And.imp sealed_of id) <|
  And.imp (given b_sealed id) <|
  (And.imp sealed_of id))
  (by decide +kernel)

/-- States that meet the hypotheses of `Obligations.VideoInputs`, clause by clause (clauses 15 and on). -/
theorem witness_VideoInputs_2 :
  (let s : State := at_ 20000100 (cf 3 g0 id b);
   let i : Fin 24 := 3;
   let tf : Nat := (s.dueTf ↑i).getD default;
   s.Sealed ∧ s.stands = false ∧ (s.conf ↑i).bound = true ∧ (s.confCfg ↑i).linescan = false ∧ ((s.conf ↑i).shadow.getD (s.conf ↑i).cfg).linescan =
     false ∧ s.dueTf ↑i = some tf ∧ (s.conf ↑i).inOutput = false ∧ (∀ (d : Nat), 16 ≤ d → d < 48 → ∀ (q : Route × Nat × Option Nat × Option
     Machine.Origin), (s.dest d).pend = some q → q.fst.source ≠ ↑i)) ∧
  (let i : Fin 24 := 3;
   let s : State := match (0, none, 10000003) with | (n, cur, t) => now t (at_ 20000000 (cf 3 g0 (fun c =>
      { c with curFid := cur, fifo := [il 5 0, il 5 1], tf := some 20000000, startAt := 10000003, outN := n }) b));
   let c : Conf := s.conf ↑i;
   let at_ : Nat := c.startAt + cdiv ((c.cfg.outDelay + c.outN * c.cfg.linePeriod) * 5) 4;
   s.Sealed ∧ s.stands = false ∧ (s.conf ↑i).bound = true ∧ (s.confCfg ↑i).linescan = false ∧ (s.conf ↑i).tf ≠ none ∧ (s.clk.now < at_ ∨
     c.cfg.height ≤ c.outN)) ∧
  (let i : Fin 24 := 3;
   let s : State := at_ 20000000 (cf 3 g0 (fun c => { c with nextFid := some (4, 0), tf := some 0 }) b);
   let c : Conf := s.conf ↑i;
   let at_ : Nat := c.startAt + cdiv ((c.cfg.outDelay + c.outN * c.cfg.linePeriod) * 5) 4;
   s.Sealed ∧ s.stands = false ∧ (s.conf ↑i).bound = true ∧ (s.confCfg ↑i).linescan = false ∧ (s.conf ↑i).tf ≠ none ∧ at_ ≤ s.clk.now ∧ c.outN <
     c.cfg.height ∧ (∀ (d : Nat), d < 48 → (s.dest d).route.source ≠ ↑i)) ∧
  (let i : Fin 24 := 3;
   let fault : BitVec 48 := 0#48;
   let d : Nat := 26;
   let s : State := feed (match (0, some 5, 10000300) with | (n, cur, t) => now t (at_ 20000000 (cf 3 g0 (fun c =>
      { c with curFid := cur, fifo := [il 5 0, il 5 1], tf := some 20000000, startAt := 10000003, outN := n }) b)));
   let c : Conf := s.conf ↑i;
   let at_ : Nat := c.startAt + cdiv ((c.cfg.outDelay + c.outN * c.cfg.linePeriod) * 5) 4;
   s.Sealed ∧ s.stands = false ∧ (s.conf ↑i).bound = true ∧ (s.confCfg ↑i).linescan = false ∧ (s.conf ↑i).tf ≠ none ∧ 24 ≤ d ∧ d < 32 ∧ at_ ≤
     s.clk.now ∧ c.outN + 1 < c.cfg.height ∧ c.outN < 65535 ∧ (∀ (e : Nat), e < 48 → ((s.dest e).route.source = ↑i ↔ e = d)) ∧ (s.dest d).prof =
     List.replicate 40 0 ∧ (s.dest d).inFrame = true ∧ (s.dest d).curFs = c.startAt ∧ (s.dest d).scal = [] ∧ (s.dest d).outq = [] ∧ (s.dest
     d).outFree ≤ s.clk.now ∧ s.noFeed d = false ∧ s.fifoAhead d < 4 ∧ s.replayRoute d = false ∧ bitAt fault.toNat d = false ∧ s.vid.faults.getLsbD
     d = false) ∧
  (let s : State := T ({ g0 with trigMode := 1 }) id;
   let r : Fin 12 := 2;
   let i : Nat := 3;
   let tp : Nat := 20000000;
   let g : CnfCfg := (s.conf i).cfg;
   let ofs : Nat → Int := fun tp => ((2 * s.beatPoint tp : Nat) : Int) - (g.leadHalf : Nat) - (s.halfNs : Nat);
   let run : Nat → Nat := fun tp => ((s.plb.run : Int) + ofs tp * 2 ^ 47).toNat;
   s.Sealed ∧ s.stands = false ∧ i < 24 ∧ (List.find? (fun i => (s.conf i).bound && decide ((s.conf i).cfg.rx = ↑r) && decide ((s.conf
     i).cfg.trigMode ≠ 0)) (List.range 24) = some i) ∧ s.ready rVID = true ∧ s.bit (Fd.CNF_STAT_CONFIGURED i) = true ∧ g.trigMode = 1 ∧ s.trigPoint
     g = some tp ∧ ((s.conf i).trigRun < run tp ∧ s.counted ((-ofs tp).toNat * 2 ^ 47) = true)) ∧
  (let s : State := T ({ g0 with trigMode := 1 }) fun x => { x with trigRun := 10 ^ 30 };
   let r : Fin 12 := 2;
   let i : Nat := 3;
   let tp : Nat := 20000000;
   let g : CnfCfg := (s.conf i).cfg;
   let ofs : Nat → Int := fun tp => ((2 * s.beatPoint tp : Nat) : Int) - (g.leadHalf : Nat) - (s.halfNs : Nat);
   let run : Nat → Nat := fun tp => ((s.plb.run : Int) + ofs tp * 2 ^ 47).toNat;
   s.Sealed ∧ s.stands = false ∧ i < 24 ∧ (List.find? (fun i => (s.conf i).bound && decide ((s.conf i).cfg.rx = ↑r) && decide ((s.conf
     i).cfg.trigMode ≠ 0)) (List.range 24) = some i) ∧ s.ready rVID = true ∧ s.bit (Fd.CNF_STAT_CONFIGURED i) = true ∧ g.trigMode = 1 ∧ s.trigPoint
     g = some tp ∧ (¬((s.conf i).trigRun < run tp ∧ s.counted ((-ofs tp).toNat * 2 ^ 47) = true))) ∧
  (let s : State := T { g0 with trigMode := 1, linescan := true } id;
   let r : Fin 12 := 2;
   let i : Nat := 3;
   let g : CnfCfg := (s.conf i).cfg;
   s.Sealed ∧ s.stands = false ∧ i < 24 ∧ (List.find? (fun i => (s.conf i).bound && decide ((s.conf i).cfg.rx = ↑r) && decide ((s.conf
     i).cfg.trigMode ≠ 0)) (List.range 24) = some i) ∧ s.ready rVID = true ∧ s.bit (Fd.CNF_STAT_CONFIGURED i) = true ∧ g.trigMode = 1 ∧ s.trigPoint
     g = none) ∧
  (let s : State := T ({ g0 with trigMode := 2 }) fun c => { c with trigDue := 2 };
   let r : Fin 12 := 2;
   let i : Nat := 3;
   let g : CnfCfg := (s.conf i).cfg;
   s.Sealed ∧ s.stands = false ∧ i < 24 ∧ (List.find? (fun i => (s.conf i).bound && decide ((s.conf i).cfg.rx = ↑r) && decide ((s.conf
     i).cfg.trigMode ≠ 0)) (List.range 24) = some i) ∧ s.ready rVID = true ∧ s.bit (Fd.CNF_STAT_CONFIGURED i) = true ∧ g.trigMode = 2 ∧ 0 < (s.conf
     i).trigDue) ∧
  (let s : State := T ({ g0 with trigMode := 2 }) id;
   let r : Fin 12 := 2;
   let i : Nat := 3;
   let g : CnfCfg := (s.conf i).cfg;
   s.Sealed ∧ s.stands = false ∧ i < 24 ∧ (List.find? (fun i => (s.conf i).bound && decide ((s.conf i).cfg.rx = ↑r) && decide ((s.conf
     i).cfg.trigMode ≠ 0)) (List.range 24) = some i) ∧ s.ready rVID = true ∧ s.bit (Fd.CNF_STAT_CONFIGURED i) = true ∧ g.trigMode = 2 ∧ (s.conf
     i).trigDue = 0) ∧
  (let s : State := pend 24 { source := 3, bay := 1 } 10000000 none (sa 3 10000502 (now 10001000 b));
   let d : Fin 48 := 24;
   let r : Route := ((s.dest ↑d).pend.getD default).fst;
   let m : Nat := 9;
   let a : Nat := 10000000;
   let at_ : Nat := 10000502;
   let o : Option Machine.Origin := none;
   s.Sealed ∧ s.stands = false ∧ (s.dest ↑d).pend = some (r, m, some a, o) ∧ s.destStart (↑d) r = some at_ ∧ r.source < 256 ∧ a + 500 ≤ at_ ∧ at_ ≤
     s.clk.now ∧ (↑d < 16 ∨ s.noFeed ↑d = true ∨ (s.dest ↑d).inFrame = false ∧ (s.dest ↑d).scal = [] ∧ (s.dest ↑d).outq = [] ∧ (s.dest ↑d).held = []
     ∧ (s.dest ↑d).tagAt ≤ at_)) ∧
  (let s : State := pend 26 { source := 3, bay := 1 } 10000000 (some { ring := 1, seq := 2, opcode := 3 }) (sa 3 10000302 (now 10001000 b));
   let d : Fin 48 := 26;
   let r : Route := ((s.dest ↑d).pend.getD default).fst;
   let m : Nat := 9;
   let a : Nat := 10000000;
   let at_ : Nat := 10000302;
   let o : Option Machine.Origin := some { ring := 1, seq := 2, opcode := 3 };
   s.Sealed ∧ s.stands = false ∧ (s.dest ↑d).pend = some (r, m, some a, o) ∧ s.destStart (↑d) r = some at_ ∧ r.source < 256 ∧ (at_ < a + 500 ∨
     s.clk.now < at_ ∨ ¬(↑d < 16 ∨ s.noFeed ↑d = true ∨ (s.dest ↑d).inFrame = false ∧ (s.dest ↑d).scal = [] ∧ (s.dest ↑d).outq = [] ∧ (s.dest
     ↑d).held = [] ∧ (s.dest ↑d).tagAt ≤ at_))) ∧
  (let s : State := dec [(5, [1, 2, 3])] none none (dst 26 (fun d => { d with route := { source := 27, bay := 1 } }) (at_ 90000000 (profs [(64, pk)]
      b)));
   let i : Fin 8 := 3;
   let e : Nat := (s.firstRoute (24 + ↑i)).getD default;
   let ts : Nat := (((s.dec ↑i).packets).headD default).1;
   let x : List Byte := (((s.dec ↑i).packets).headD default).2;
   let l : List (Nat × List Byte) := ((s.dec ↑i).packets).tail;
   let p : List Byte := s.profOf e;
   let base : Nat := s.ns - Prof.playout p * 10000;
   let due : Option Nat := Option.filter (fun x => decide (x ≤ base)) (s.dec ↑i).expected;
   let late : Nat := (base * 9 / 100000 + 2 ^ 32 - ts) % 2 ^ 32;
   s.Sealed ∧ s.stands = false ∧ s.firstRoute (24 + ↑i) = some e ∧ Prof.srcKind p ≠ 0 ∧ (s.dec ↑i).on = false ∧ (∀ (d : Nat), 16 ≤ d → d < 48 → ∀ (q
     : Route × Nat × Option Nat × Option Machine.Origin), (s.dest d).pend = some q → q.fst.source ≠ 24 + ↑i) ∧ (s.dec ↑i).packets = (ts, x) :: l ∧
     (∀ (q : Nat × List Byte), q ∈ l → rtpAfter ts q.fst = false) ∧ late < 2 ^ 31 ∧ (∀ (t : Nat), due = some t → (base * 9 / 100000 - late) * 100000
     / 9 < t + (t - (s.dec ↑i).ns.getD t) / 2)) ∧
  (let s : State := dec [] (some 50000000) (some 30000000) (dst 26 (fun d => { d with route := { source := 27, bay := 1 } }) (at_ 90000000 (profs
      [(64, pk)] b)));
   let i : Fin 8 := 3;
   let e : Nat := (s.firstRoute (24 + ↑i)).getD default;
   let x : Nat := 70000000;
   let p : List Byte := s.profOf e;
   let base : Nat := s.ns - Prof.playout p * 10000;
   let due : Option Nat := Option.filter (fun x => decide (x ≤ base)) (s.dec ↑i).expected;
   s.Sealed ∧ s.stands = false ∧ s.firstRoute (24 + ↑i) = some e ∧ Prof.srcKind p ≠ 0 ∧ (s.dec ↑i).on = false ∧ (∀ (d : Nat), 16 ≤ d → d < 48 → ∀ (q
     : Route × Nat × Option Nat × Option Machine.Origin), (s.dest d).pend = some q → q.fst.source ≠ 24 + ↑i) ∧ (s.dec ↑i).packets = [] ∧ due = some
     x) ∧
  (let s : State := dst 26 (fun x => { x with route := { source := 41, bay := 1 }, prof := pf, frcRun := 10 ^ 30 }) (at_ 90000000 b);
   let d : Fin 48 := 26;
   let tp : Nat := 80000000;
   let r : Nat := (s.crossed tp).getD default;
   let p : List Byte := (s.dest ↑d).prof;
   s.Sealed ∧ s.stands = false ∧ 16 ≤ ↑d ∧ s.frcOf ↑d ≠ 0 ∧ framePoint (Prof.outFps p) (Prof.outPhase p) s.beatNs = some tp ∧ s.crossed tp = some r
     ∧ r ≤ (s.dest ↑d).frcRun) :=
  (And.imp (And.imp sealed_of (And.imp id (And.imp id (And.imp id (And.imp id (And.imp some_of id)))))) <|
  And.imp (And.imp sealed_of id) <|
  And.imp (And.imp sealed_of id) <|
  And.imp (And.imp sealed_of id) <|
  And.imp (And.imp sealed_of id) <|
  And.imp (And.imp sealed_of id) <|
  And.imp (And.imp sealed_of id) <|
  And.imp (And.imp sealed_of id) <|
  And.imp (And.imp sealed_of id) <|
  And.imp (And.imp sealed_of id) <|
  And.imp (And.imp sealed_of id) <|
  And.imp (And.imp sealed_of (And.imp id (And.imp some_of (And.imp id (And.imp id (And.imp id (And.imp cons_of id))))))) <|
  And.imp (And.imp sealed_of (And.imp id (And.imp some_of id))) <|
  (And.imp sealed_of (And.imp id (And.imp id (And.imp id (And.imp id (And.imp some_of id)))))))
  (by decide +kernel)

/-- States that meet the hypotheses of `Obligations.VideoInputs`, clause by clause (clauses 29 and on). -/
theorem witness_VideoInputs_3 :
  (let s : State := dst 26 (fun x => { x with route := { source := 41, bay := 1 }, prof := pf }) (at_ 90000000 (profs [(64, pf)] b));
   let d : Fin 48 := 26;
   let tp : Nat := 80000000;
   let r : Nat := (s.crossed tp).getD default;
   let p : List Byte := (s.dest ↑d).prof;
   s.Sealed ∧ s.stands = false ∧ 16 ≤ ↑d ∧ s.frcOf ↑d ≠ 0 ∧ framePoint (Prof.outFps p) (Prof.outPhase p) s.beatNs = some tp ∧ s.crossed tp = some r
     ∧ (s.dest ↑d).frcRun < r ∧ (s.dest ↑d).scal = [] ∧ (s.dest ↑d).outq = [] ∧ (s.takeProf ↑d).frcOf ↑d ≠ 0) ∧
  (let s : State := dst 26 (fun x => { x with route := { source := 41, bay := 1 }, prof := pf }) (at_ 90000000 b);
   let d : Fin 48 := 26;
   let tp : Nat := 80000000;
   let r : Nat := (s.crossed tp).getD default;
   let p : List Byte := (s.dest ↑d).prof;
   s.Sealed ∧ s.stands = false ∧ 16 ≤ ↑d ∧ s.frcOf ↑d ≠ 0 ∧ framePoint (Prof.outFps p) (Prof.outPhase p) s.beatNs = some tp ∧ s.crossed tp = some r
     ∧ (s.dest ↑d).frcRun < r ∧ (s.dest ↑d).scal = [] ∧ (s.dest ↑d).outq = [] ∧ (s.takeProf ↑d).frcOf ↑d = 0) :=
  (And.imp (And.imp sealed_of (And.imp id (And.imp id (And.imp id (And.imp id (And.imp some_of id)))))) <|
  (And.imp sealed_of (And.imp id (And.imp id (And.imp id (And.imp id (And.imp some_of id)))))))
  (by decide +kernel)

end SetE1

namespace SetE2

def base : M := mem (isa .f 1)

def running (s : State) : State :=
  { s with mbx := {}, pcie := {}, out := [], regs := [(0x40000040, 0x22222222), (0x40020004, 0xFF), (0x40020180, 1), (0x40020188, 1), (0x4002018C, 1),
      (0x40020190, 1), (0x40020194, 1), (0x40020198, 1), (0x4002019C, 1)].foldl (fun l p => sset regReset p.1 p.2 l) s.regs }

def grants (s : M) : M := (List.range 8).foldl (fun s b => ((s.put (Fd.BXM_BKF_BASE b) 0).put (Fd.BXM_BKF_LEN b) 64)) s

def pl (n : Nat) (l : List (Nat × Nat × Nat)) : List Byte := l.foldl (fun a (o, k, v) => a.take o ++ natLe k v ++ a.drop (o + k)) (natLe n 0)

def at_ (ns : Nat) (s : M) : M := { s with tme := { s.tme with t := ns * 2 ^ 48 } }

def poke (o : Nat) (x : List Byte) (a : List Byte) : List Byte := a.take o ++ x ++ a.drop (o + x.length)

def ownAll (b : Nat) (s : M) : M :=
  let s := (List.range 48).foldl (fun s i => (s.put ⟨Reg.VXM_SOWN (i / 8), 4 * (i % 8) + 3, 4 * (i % 8)⟩ b).put ⟨Reg.VXM_DOWN (i / 8), 4 * (i % 8) + 3, 4 * (i % 8)⟩ b) s
  s.modBay b fun x => { x with phase := (List.range 16).map fun i => (0x198 + i, 0xFF) }

def tim0 : List Byte := pl 40 [(0,1,4),(1,1,2),(2,1,1),(3,1,4),(4,2,640),(6,2,16),(8,2,96),(10,2,48),(12,2,480),(14,2,10),(16,2,2),(18,2,33),(20,1,60),(24,4,1000)]

def lay0 : List Byte := pl 40 [(0,1,1),(1,1,0),(2,1,0),(4,2,1023),(28,4,0)]

def act (res step kind arg0 a1 : Nat) (a2 : Nat := 0) (a3 : Nat := 0) : Act := { res := res, step := step, kind := kind, arg0 := arg0, a1 := a1, a2 := a2, a3 := a3, ofs := 128 + step * 16 + res * 64 }

def G : Geom := { turnLen := 1024, period := 1000, turns := 480, tail := 2000, replay := 1 }

def seD : List Nat := [0x101,0x40,0x200,8,2,0x10,0,0,0,0,0,0,0,0,0,0]

def P (b : Nat) : Part := { bay := b, geom := G, ppm := 0, partId := 7, allotOfs := 128, allot := [], acts := [act 0x1D8 3 6 0 5, act 0x198 2 1 3 0x100, act 0x110 2 1 2 0x200, act 0x104 2 3 1 0x80 4 (0x20010), act 0x105 2 3 0 0x80 4 0x20010, act 0x1D0 2 4 0xA5 0, act 0x1D5 2 5 0 3, act 0x1D4 2 5 0 4, act 0x100 2 2 0 0], descs := [{ ofs := 4096, w := seD }], routes := [], carries := [⟨300, 5, true, 0x400, 0x40, 0x800⟩, ⟨300, 6, false, 0x500, 0x40, 0x900⟩] }

def cbase (s : M) : M := { s with tme := { s.tme with t := 9 * 1000000 * 2^48 }, clk := { s.clk with now := 10000000 } }

def run1 (s : M) : M := let s := cbase s; { s with fig := { s.fig with geom := some G, running := s.fig.running.set 1 (some (P 1)), measure := 9, boundary := 10000000, resting := false, slot := 0, turn := 0, carry := s.fig.carry.set 1 [{ id := 5, base := 0x400, shadow := 0x800, len := 0x40 }] } }

def now (n : Nat) (s : M) : M := { s with clk := { s.clk with now := n } }

def fig (f : Fig → Fig) (s : M) : M := { s with fig := f s.fig }

def r1 : M := { run1 (grants (running base)) with mbx := base.mbx }

def b : M := { ownAll 1 (now 10000003 r1) with mbx := base.mbx }

def dp (f : DpOut → DpOut) (s : M) : M := { s with vid := { s.vid with dps := s.vid.dps.map fun d => f { d with timing := tim0 } } }

def cp (f : Comp → Comp) (s : M) : M := { s with vid := { s.vid with comps := s.vid.comps.map f } }

def en (s : M) : M := (List.range 4).foldl (fun s c => s.put (Fd.DPO_STAT_ENABLED c) 1) s

def hp (s : M) : M := (List.range 4).foldl (fun s c => s.put (Fd.DPO_STAT_HPD c) 1) s

def regs (f : Nat → Fld) (s : M) : M := (List.range 4).foldl (fun s c => s.put (f c) 1) s

def stat : List Byte := poke 0 [3] lay0

def cm (a : Nat) (o : Option Origin) : LayCommit := { measure := 9, armed := some a, sets := [(1, lay0), (2, stat)], origin := o }

def big : List (Nat × List CPx) := (List.range 52).map fun y => (16 * y, List.replicate 640 ⟨1,2,3,4⟩)

theorem b_sealed : State.Sealed b := sealed_of (by decide +kernel)

/-- A layer commit that was armed at step `a` waits. -/
def committed (a : Nat) : M := at_ 1000000000 (now 10000103 (cp (fun x => { x with commits := [cm a none] }) (en (dp id b))))

/-- Much root time has passed. -/
def ran (s : M) : M := { s with plb := { s.plb with run := 10 ^ 30 } }

/-- States that meet the hypotheses of `Obligations.VideoOutputs`, clause by clause. -/
theorem witness_VideoOutputs :
  (let s : State := en (dp (fun x => { x with frameNs := some 1000 }) b);
   let c : Fin 4 := 0;
   let tp : Nat := 1000;
   let o : DpOut := s.dp ↑c;
   s.Sealed ∧ s.stands = false ∧ s.bit (Fd.DPO_STAT_ENABLED ↑c) = true ∧ framePoint (Tim.fps o.timing) (Tim.phase o.timing) s.beatNs = some tp ∧ (∀
     (r : Nat), s.crossed tp = some r → r ≤ o.frameRun)) ∧
  (let s : State := ran (en (dp id b));
   let c : Fin 4 := 0;
   let tp : Nat := 1000;
   let r : Nat := (s.crossed tp).getD default;
   let o : DpOut := s.dp ↑c;
   s.Sealed ∧ s.stands = false ∧ s.bit (Fd.DPO_STAT_ENABLED ↑c) = true ∧ framePoint (Tim.fps o.timing) (Tim.phase o.timing) s.beatNs = some tp ∧
     s.crossed tp = some r ∧ o.frameRun < r) ∧
  (let s : State := b;
   let c : Fin 4 := 0;
   let o : DpOut := s.dp ↑c;
   s.Sealed ∧ s.stands = false ∧ (s.bit (Fd.DPO_STAT_ENABLED ↑c) = false ∨ framePoint (Tim.fps o.timing) (Tim.phase o.timing) s.beatNs = none)) ∧
  (let s : State := en (dp id b);
   let c : Fin 4 := 0;
   let sink : BitVec 4 := 1#4;
   let r : Nat := 0;
   let o : DpOut := s.dp ↑c;
   let rate : Option Nat := List.find? (fun r => Tim.fits o.timing r && sink.getLsbD r) (List.range (Tim.rate o.timing + 1)).reverse;
   s.Sealed ∧ s.stands = false ∧ s.ready rVID = true ∧ s.bit (Fd.DPO_STAT_ENABLED ↑c) = true ∧ r < 4 ∧ rate = some r) ∧
  (let s : State := en (dp id b);
   let c : Fin 4 := 0;
   let sink : BitVec 4 := 0#4;
   let o : DpOut := s.dp ↑c;
   let rate : Option Nat := List.find? (fun r => Tim.fits o.timing r && sink.getLsbD r) (List.range (Tim.rate o.timing + 1)).reverse;
   s.Sealed ∧ s.stands = false ∧ s.ready rVID = true ∧ s.bit (Fd.DPO_STAT_ENABLED ↑c) = true ∧ rate = none) ∧
  (let s : State := b;
   let c : Fin 4 := 0;
   s.Sealed ∧ s.stands = false ∧ s.ready rVID = true ∧ s.bit (Fd.DPO_STAT_ENABLED ↑c) = false) ∧
  (let s : State := b.putB (rdyBit rVID) false;
   s.Sealed ∧ s.stands = false ∧ s.ready rVID = false) ∧
  (let s : State := b;
   s.Sealed ∧ s.stands = false ∧ s.ready rVID = true) ∧
  (let s : State := hp (en (dp id b));
   let c : Fin 4 := 0;
   let sink : BitVec 4 := 1#4;
   let r : Nat := 0;
   let o : DpOut := s.dp ↑c;
   let rate : Option Nat := List.find? (fun r => Tim.fits o.timing r && sink.getLsbD r) (List.range (Tim.rate o.timing + 1)).reverse;
   s.Sealed ∧ s.stands = false ∧ s.ready rVID = true ∧ s.bit (Fd.DPO_STAT_HPD ↑c) = true ∧ s.bit (Fd.DPO_STAT_ENABLED ↑c) = true ∧ r < 4 ∧ rate =
     some r) ∧
  (let s : State := hp (en (dp id b));
   let c : Fin 4 := 0;
   let sink : BitVec 4 := 0#4;
   let o : DpOut := s.dp ↑c;
   let rate : Option Nat := List.find? (fun r => Tim.fits o.timing r && sink.getLsbD r) (List.range (Tim.rate o.timing + 1)).reverse;
   s.Sealed ∧ s.stands = false ∧ s.ready rVID = true ∧ s.bit (Fd.DPO_STAT_HPD ↑c) = true ∧ s.bit (Fd.DPO_STAT_ENABLED ↑c) = true ∧ rate = none) ∧
  (let s : State := b;
   s.Sealed ∧ s.stands = false) ∧
  (let s : State := now 600000000 (hp (en (dp (fun d => { d with failAt := some 5 }) b)));
   let c : Fin 4 := 0;
   let sink : BitVec 4 := 1#4;
   let a : Nat := 5;
   let r : Nat := 0;
   let o : DpOut := s.dp ↑c;
   let rate : Option Nat := List.find? (fun r => Tim.fits o.timing r && sink.getLsbD r) (List.range (Tim.rate o.timing + 1)).reverse;
   s.Sealed ∧ s.stands = false ∧ o.failAt = some a ∧ s.bit (Fd.DPO_STAT_HPD ↑c) = true ∧ a + 500000000 ≤ s.clk.now ∧ s.bit (Fd.DPO_STAT_ENABLED ↑c)
     = true ∧ r < 4 ∧ rate = some r) ∧
  (let s : State := now 600000000 (hp (en (dp (fun d => { d with failAt := some 5 }) b)));
   let c : Fin 4 := 0;
   let sink : BitVec 4 := 0#4;
   let a : Nat := 5;
   let o : DpOut := s.dp ↑c;
   let rate : Option Nat := List.find? (fun r => Tim.fits o.timing r && sink.getLsbD r) (List.range (Tim.rate o.timing + 1)).reverse;
   s.Sealed ∧ s.stands = false ∧ o.failAt = some a ∧ s.bit (Fd.DPO_STAT_HPD ↑c) = true ∧ a + 500000000 ≤ s.clk.now ∧ s.bit (Fd.DPO_STAT_ENABLED ↑c)
     = true ∧ rate = none) ∧
  (let s : State := hp (en (dp (fun d => { d with failAt := some 5 }) b));
   let c : Fin 4 := 0;
   let a : Nat := 5;
   let o : DpOut := s.dp ↑c;
   s.Sealed ∧ s.stands = false ∧ o.failAt = some a ∧ s.bit (Fd.DPO_STAT_HPD ↑c) = true ∧ s.clk.now < a + 500000000) :=
  (And.imp (And.imp sealed_of id) <|
  And.imp (And.imp sealed_of (And.imp id (And.imp id (And.imp id (And.imp some_of id))))) <|
  And.imp (given b_sealed id) <|
  And.imp (And.imp sealed_of id) <|
  And.imp (And.imp sealed_of id) <|
  And.imp (given b_sealed id) <|
  And.imp (And.imp sealed_of id) <|
  And.imp (given b_sealed id) <|
  And.imp (And.imp sealed_of id) <|
  And.imp (And.imp sealed_of id) <|
  And.imp (given b_sealed id) <|
  And.imp (And.imp sealed_of id) <|
  And.imp (And.imp sealed_of id) <|
  (And.imp sealed_of id))
  (by decide +kernel)

/-- States that meet the hypotheses of `Obligations.VideoOutputs`, clause by clause (clauses 15 and on). -/
theorem witness_VideoOutputs_2 :
  (let s : State := committed 1000000;
   let c : Fin 4 := 0;
   let at_ : Nat := 1666990;
   let a : Nat := 1000000;
   let m : Comp := s.comp ↑c;
   let q : LayCommit := m.commits.headD default;
   s.Sealed ∧ s.stands = false ∧ s.destStart (4 * ↑c) { } = some at_ ∧ m.commits = [q] ∧ q.armed = some a ∧ a + 500 ≤ at_ ∧ at_ ≤ s.clk.now) ∧
  (let s : State := committed 9999900;
   let c : Fin 4 := 0;
   let at_ : Nat := 1666990;
   let a : Nat := 9999900;
   let m : Comp := s.comp ↑c;
   let q : LayCommit := m.commits.headD default;
   s.Sealed ∧ s.stands = false ∧ s.destStart (4 * ↑c) { } = some at_ ∧ m.commits = [q] ∧ q.armed = some a ∧ (at_ < a + 500 ∨ s.clk.now < at_)) ∧
  (let s : State := b;
   let c : Fin 4 := 0;
   let m : Comp := s.comp ↑c;
   s.Sealed ∧ s.stands = false ∧ (s.bit (Fd.CMP_STAT_REBUILDING ↑c) = false ∨ m.ended = false)) ∧
  (let c : Fin 4 := 0;
   let s : State := regs Fd.CMP_STAT_REBUILDING (cp (fun m => { m with lateTop := true, ended := true }) (en (dp id b)));
   let m : Comp := s.comp ↑c;
   s.Sealed ∧ s.stands = false ∧ s.bit (Fd.CMP_STAT_REBUILDING ↑c) = true ∧ m.ended = true ∧ m.lateTop = true) ∧
  (let c : Fin 4 := 0;
   let s : State := regs Fd.CMP_STAT_REBUILDING (cp (fun m => { m with cache := big, ended := true }) (en (dp id b)));
   let o : DpOut := s.dp ↑c;
   let m : Comp := s.comp ↑c;
   let tiles : Nat := tilesOf (Tim.h o.timing 0) m.cache;
   s.Sealed ∧ s.stands = false ∧ s.bit (Fd.CMP_STAT_REBUILDING ↑c) = true ∧ m.ended = true ∧ m.lateTop = false ∧ 512 < tiles) ∧
  (let c : Fin 4 := 0;
   let s : State := regs Fd.CMP_STAT_REBUILDING (cp (fun m =>
      { m with cache := [(0, [{ c0 := 1, c1 := 2, c2 := 3, a := 4 }]), (17, [{ c0 := 1, c1 := 2, c2 := 3, a := 0 }])], ended := true }) (en (dp id
      b)));
   let o : DpOut := s.dp ↑c;
   let m : Comp := s.comp ↑c;
   let tiles : Nat := tilesOf (Tim.h o.timing 0) m.cache;
   s.Sealed ∧ s.stands = false ∧ s.bit (Fd.CMP_STAT_REBUILDING ↑c) = true ∧ m.ended = true ∧ m.lateTop = false ∧ tiles ≤ 512) ∧
  (let s : State := b;
   let c : Fin 4 := 0;
   s.Sealed ∧ s.stands = false ∧ s.bit (Fd.CMP_STAT_CACHED ↑c) = false) ∧
  (let s : State := regs Fd.CMP_STAT_CACHED (cp (fun m => { m with active := m.active.set 2 stat, invalid := some 1 }) (en (dp id b)));
   let c : Fin 4 := 0;
   s.Sealed ∧ s.stands = false ∧ s.bit (Fd.CMP_STAT_CACHED ↑c) = true) :=
  (And.imp (And.imp sealed_of id) <|
  And.imp (And.imp sealed_of id) <|
  And.imp (given b_sealed id) <|
  And.imp (And.imp sealed_of id) <|
  And.imp (And.imp sealed_of id) <|
  And.imp (And.imp sealed_of id) <|
  And.imp (given b_sealed id) <|
  (And.imp sealed_of id))
  (by decide +kernel)

end SetE2

namespace SetE3

def base : M := mem (isa .f 1)

def running (s : State) : State :=
  { s with mbx := {}, pcie := {}, out := [], regs := [(0x40000040, 0x22222222), (0x40020004, 0xFF), (0x40020180, 1), (0x40020188, 1), (0x4002018C, 1),
      (0x40020190, 1), (0x40020194, 1), (0x40020198, 1), (0x4002019C, 1)].foldl (fun l p => sset regReset p.1 p.2 l) s.regs }

def grants (s : M) : M := (List.range 8).foldl (fun s b => ((s.put (Fd.BXM_BKF_BASE b) 0).put (Fd.BXM_BKF_LEN b) 64)) s

def at_ (ns : Nat) (s : M) : M := { s with tme := { s.tme with t := ns * 2 ^ 48 }, plb := { s.plb with run := ns * 2 ^ 48 } }

def ownAll (b : Nat) (s : M) : M :=
  let s := (List.range 48).foldl (fun s i => (s.put ⟨Reg.VXM_SOWN (i / 8), 4 * (i % 8) + 3, 4 * (i % 8)⟩ b).put ⟨Reg.VXM_DOWN (i / 8), 4 * (i % 8) + 3, 4 * (i % 8)⟩ b) s
  s.modBay b fun x => { x with phase := (List.range 16).map fun i => (0x198 + i, 0xFF) }

def act (res step kind arg0 a1 : Nat) (a2 : Nat := 0) (a3 : Nat := 0) : Act := { res := res, step := step, kind := kind, arg0 := arg0, a1 := a1, a2 := a2, a3 := a3, ofs := 128 + step * 16 + res * 64 }

def G : Geom := { turnLen := 1024, period := 1000, turns := 480, tail := 2000, replay := 1 }

def seD : List Nat := [0x101,0x40,0x200,8,2,0x10,0,0,0,0,0,0,0,0,0,0]

def P (b : Nat) : Part := { bay := b, geom := G, ppm := 0, partId := 7, allotOfs := 128, allot := [], acts := [act 0x1D8 3 6 0 5, act 0x198 2 1 3 0x100, act 0x110 2 1 2 0x200, act 0x104 2 3 1 0x80 4 (0x20010), act 0x105 2 3 0 0x80 4 0x20010, act 0x1D0 2 4 0xA5 0, act 0x1D5 2 5 0 3, act 0x1D4 2 5 0 4, act 0x100 2 2 0 0], descs := [{ ofs := 4096, w := seD }], routes := [], carries := [⟨300, 5, true, 0x400, 0x40, 0x800⟩, ⟨300, 6, false, 0x500, 0x40, 0x900⟩] }

def cbase (s : M) : M := { s with tme := { s.tme with t := 9 * 1000000 * 2^48 }, clk := { s.clk with now := 10000000 } }

def run1 (s : M) : M := let s := cbase s; { s with fig := { s.fig with geom := some G, running := s.fig.running.set 1 (some (P 1)), measure := 9, boundary := 10000000, resting := false, slot := 0, turn := 0, carry := s.fig.carry.set 1 [{ id := 5, base := 0x400, shadow := 0x800, len := 0x40 }] } }

def now (n : Nat) (s : M) : M := { s with clk := { s.clk with now := n } }

def fig (f : Fig → Fig) (s : M) : M := { s with fig := f s.fig }

def r1 : M := { run1 (grants (running base)) with mbx := base.mbx }

def fifo (r : Nat) (l : List Granule) (s : M) : M := s.modEnd r fun e => { e with fifo := l }

def b : M := { ownAll 1 (now 10000003 r1) with mbx := base.mbx }

def au (f : Aud → Aud) (s : M) : M := { s with aud := f s.aud }

def td (m first : Bool) (s : M) : M := au (fun a => { a with tx := a.tx.map fun d => { d with run := true, slots := 8, width := 32, master := m, rate := 48000, first := first }, rx := a.rx.map fun d => { d with run := true, slots := 4, width := 16, master := m, rate := 48000, first := first } }) s

def fr (n t : Nat) (s : M) : M := au (fun a => { a with frames := a.frames.map fun _ => (List.range n).map fun i => ⟨t + i * 20833, (List.range 8).map fun (k : Nat) => ((k * 100000 : Nat) : Int), 1⟩ }) s

def rt (s : M) : M := au (fun a => { a with routes := [(3, {inp := 1, gain := 256, delay := 100}), (0x20, {inp := 0x101, gain := 256}), (0x100, { inp := 2, gain := 300, delay := 50 }), (0x101, { inp := 0x405, gain := -4}), (0x120, { inp := 0x121, gain := 256})] }) s

def os (f : Osc → Osc) (s : M) : M := au (fun a => { a with osc := a.osc.map f }) (s.put Fd.AUD_LOOP_SPAN 100 |> fun s => s)

def rec_ (len kind g : Nat) (pay : List Byte) : List Granule := (List.range (cdiv (16 + len) 16)).map fun i => let l := natLe 2 len ++ natLe 1 kind ++ natLe 1 g ++ natLe 2 0 ++ natLe 6 4 ++ natLe 4 500 ++ pay; { data := BitVec.ofNat 128 (leNat (fixLen 0 16 (l.drop (16 * i)))) }

def rc (len kind g : Nat) (pay : List Byte) (s : M) : M := s.modEnd 0x1C0 fun e => { e with fifo := rec_ len kind g pay }

def rtp (g n w pt : Nat) : List Byte := [0x80, BitVec.ofNat 8 pt] ++ natBe 2 5 ++ natBe 4 1000 ++ natBe 4 1 ++ (List.range (n * w * 48)).map fun i => BitVec.ofNat 8 (i * 7 + g)

theorem b_sealed : State.Sealed b := sealed_of (by decide +kernel)

/-- States that meet the hypotheses of `Obligations.AudioFrames`, clause by clause. -/
theorem witness_AudioFrames :
  (let s : State := b;
   let p : Fin 4 := 0;
   let d : TdmDir := s.tdm (↑p) true;
   s.Sealed ∧ s.stands = false ∧ (d.run = false ∨ s.ready rAUD = false)) ∧
  (let s : State := td false true b;
   let p : Fin 4 := 0;
   let clocks : Nat := 64;
   let d : TdmDir := s.tdm (↑p) true;
   s.Sealed ∧ s.stands = false ∧ d.run = true ∧ s.ready rAUD = true ∧ clocks = d.len) ∧
  (let s : State := td false true b;
   let p : Fin 4 := 0;
   let clocks : Nat := 0;
   let d : TdmDir := s.tdm (↑p) true;
   s.Sealed ∧ s.stands = false ∧ d.run = true ∧ s.ready rAUD = true ∧ clocks ≠ d.len) ∧
  (let s : State := b;
   let p : Fin 4 := 0;
   let d : TdmDir := s.tdm (↑p) false;
   s.Sealed ∧ s.stands = false ∧ d.run = false) ∧
  (let s : State := (td false true b).put (rdyBit rAUD) 0;
   let p : Fin 4 := 0;
   let d : TdmDir := s.tdm (↑p) false;
   s.Sealed ∧ s.stands = false ∧ d.run = true ∧ d.master = false ∧ s.ready rAUD = false) ∧
  (let s : State := td false true b;
   let p : Fin 4 := 0;
   let d : TdmDir := s.tdm (↑p) false;
   s.Sealed ∧ s.stands = false ∧ d.run = true ∧ d.master = false ∧ d.first = true ∧ s.ready rAUD = true) ∧
  (let s : State := fr 1 5000000 (td false false b);
   let p : Fin 4 := 0;
   let f : AudFrame := ((vget s.aud.frames ↑p).head?).getD default;
   let d : TdmDir := s.tdm (↑p) false;
   s.Sealed ∧ s.stands = false ∧ d.run = true ∧ d.master = false ∧ d.first = false ∧ s.ready rAUD = true ∧ (vget s.aud.frames ↑p).head? = some f) ∧
  (let s : State := b;
   let p : Fin 4 := 0;
   let rx : Bool := false;
   let d : TdmDir := s.tdm (↑p) rx;
   s.Sealed ∧ s.stands = false ∧ (d.run = false ∨ d.master = true)) ∧
  (let s : State := td false true b;
   let p : Fin 4 := 0;
   let rx : Bool := false;
   let d : TdmDir := s.tdm (↑p) rx;
   s.Sealed ∧ s.stands = false ∧ d.run = true ∧ d.master = false) ∧
  (let s : State := b;
   let x : Fin 24 := 0;
   s.Sealed ∧ s.stands = false ∧ s.ready rAUD = true ∧ (∀ (c : Nat), c ∈ domainChans ↑x → (s.audRoute c).pend = none) ∧ ↑x < 4 ∧ (s.tdm (↑x)
     false).run = false) ∧
  (let s : State := td false true b;
   let x : Fin 24 := 0;
   s.Sealed ∧ s.stands = false ∧ s.ready rAUD = true ∧ (∀ (c : Nat), c ∈ domainChans ↑x → (s.audRoute c).pend = none) ∧ ↑x < 4 ∧ (s.tdm (↑x)
     false).run = true ∧ (s.tdm (↑x) false).master = false ∧ vget s.aud.frames ↑x = []) ∧
  (let s : State := au (fun a => { a with grid := Vector.replicate 24 (2 ^ 100) }) (at_ 12345678 (rt (fr 100 10000000 b)));
   let x : Fin 24 := 8;
   let k : Nat := s.now3 / 62500;
   s.Sealed ∧ s.stands = false ∧ s.ready rAUD = true ∧ (∀ (c : Nat), c ∈ domainChans ↑x → (s.audRoute c).pend = none) ∧ 8 ≤ ↑x ∧ (∀ (run : Nat),
     s.crossed (cdiv (grid3 k) 3) = some run → run ≤ vget s.aud.grid ↑x)) ∧
  (let s : State := at_ 12345678 (rt (fr 100 10000000 b));
   let x : Fin 24 := 8;
   let k : Nat := s.now3 / 62500;
   let run : Nat := (s.crossed (cdiv (grid3 k) 3)).getD default;
   s.Sealed ∧ s.stands = false ∧ s.ready rAUD = true ∧ (∀ (c : Nat), c ∈ domainChans ↑x → (s.audRoute c).pend = none) ∧ 8 ≤ ↑x ∧ ↑x < 16 ∧ s.crossed
     (cdiv (grid3 k) 3) = some run ∧ vget s.aud.grid ↑x < run ∧ s.routed ↑x ≠ []) ∧
  (let s : State := b;
   let d : Fin 12 := 0;
   let o : Osc := s.osc ↑d;
   s.Sealed ∧ s.stands = false ∧ (∀ (run : Nat), ¬(o.on = true ∧ o.ran = true ∧ s.crossed (s.ns / 1000000 * 1000000) = some run ∧ vget s.aud.loopAt
     ↑d < run))) :=
  (And.imp (given b_sealed id) <|
  And.imp (And.imp sealed_of id) <|
  And.imp (And.imp sealed_of id) <|
  And.imp (given b_sealed id) <|
  And.imp (And.imp sealed_of id) <|
  And.imp (And.imp sealed_of id) <|
  And.imp (And.imp sealed_of (And.imp id (And.imp id (And.imp id (And.imp id (And.imp id some_of)))))) <|
  And.imp (given b_sealed id) <|
  And.imp (And.imp sealed_of id) <|
  And.imp (given b_sealed id) <|
  And.imp (And.imp sealed_of id) <|
  And.imp (And.imp sealed_of id) <|
  And.imp (And.imp sealed_of (And.imp id (And.imp id (And.imp id (And.imp id (And.imp id (And.imp some_of id))))))) <|
  (given b_sealed (And.imp id noRun_of)))
  (by decide +kernel)

/-- States that meet the hypotheses of `Obligations.AudioFrames`, clause by clause (clauses 15 and on). -/
theorem witness_AudioFrames_2 :
  (let d : Fin 12 := 0;
   let s : State := at_ 12345678 (os (fun o => { o with on := true, ran := true, tSec := 1 }) b);
   let run : Nat := (s.crossed (s.ns / 1000000 * 1000000)).getD default;
   let o : Osc := s.osc ↑d;
   let e : Int := s.oscError ↑d;
   s.Sealed ∧ s.stands = false ∧ (o.on = true ∧ o.ran = true ∧ s.crossed (s.ns / 1000000 * 1000000) = some run ∧ vget s.aud.loopAt ↑d < run) ∧
     3000000 < e.natAbs) ∧
  (let d : Fin 12 := 0;
   let s : State := at_ 12345678 (os (fun o => { o with on := true, ran := true }) b);
   let run : Nat := (s.crossed (s.ns / 1000000 * 1000000)).getD default;
   let o : Osc := s.osc ↑d;
   let e : Int := s.oscError ↑d;
   s.Sealed ∧ s.stands = false ∧ (o.on = true ∧ o.ran = true ∧ s.crossed (s.ns / 1000000 * 1000000) = some run ∧ vget s.aud.loopAt ↑d < run) ∧
     e.natAbs ≤ 3000000) ∧
  (let s : State := at_ 500000 (rt b);
   let x : Fin 24 := 8;
   let wait : Nat := 1002000 + (↑x - 8) * 50000;
   let t0 : Nat := (s.ns - wait) / 1000000 * 1000000;
   s.Sealed ∧ s.stands = false ∧ 8 ≤ ↑x ∧ ↑x < 16 ∧ s.ready rAUD = true ∧ (∀ (run : Nat), ¬(s.crossed (wait + t0) = some run ∧ vget s.aud.sent ↑x <
     run ∧ wait ≤ s.ns))) ∧
  (let s : State := at_ 12345678 (fr 100 10000000 b);
   let x : Fin 24 := 8;
   let run : Nat := (s.crossed 12002000).getD default;
   let wait : Nat := 1002000 + (↑x - 8) * 50000;
   let t0 : Nat := (s.ns - wait) / 1000000 * 1000000;
   let mine : List AudFrame := (List.filter (fun f => decide (3 * t0 ≤ f.out) && decide (f.out < 3 * t0 + 3000000)) (vget s.aud.frames ↑x)).reverse;
   s.Sealed ∧ s.stands = false ∧ 8 ≤ ↑x ∧ ↑x < 16 ∧ s.ready rAUD = true ∧ (s.crossed (wait + t0) = some run ∧ vget s.aud.sent ↑x < run ∧ wait ≤
     s.ns) ∧ (mine = [] ∨ s.routed ↑x = [])) ∧
  (let s : State := at_ 12345678 (rt (fr 100 33000000 b));
   let x : Fin 24 := 8;
   let run : Nat := (s.crossed 12002000).getD default;
   let wait : Nat := 1002000 + (↑x - 8) * 50000;
   let t0 : Nat := (s.ns - wait) / 1000000 * 1000000;
   let mine : List AudFrame := (List.filter (fun f => decide (3 * t0 ≤ f.out) && decide (f.out < 3 * t0 + 3000000)) (vget s.aud.frames ↑x)).reverse;
   s.Sealed ∧ s.stands = false ∧ 8 ≤ ↑x ∧ ↑x < 16 ∧ s.ready rAUD = true ∧ (s.crossed (wait + t0) = some run ∧ vget s.aud.sent ↑x < run ∧ wait ≤
     s.ns) ∧ mine ≠ [] ∧ s.routed ↑x ≠ [] ∧ (s.endp 449).fifo.length ≤ 400) ∧
  (let s : State := b;
   let bytes : List Byte := s.aud.part ++ List.flatMap (fun x => x.bytes) (s.endp 448).fifo;
   let len : Nat := fieldAt bytes 0 2;
   s.Sealed ∧ s.stands = false ∧ (¬(s.ready rAUD = true ∧ 16 ≤ bytes.length ∧ 16 + (len + 15) / 16 * 16 ≤ bytes.length))) ∧
  (let s : State := rc 16 3 0 (List.replicate 16 0) b;
   let bytes : List Byte := s.aud.part ++ List.flatMap (fun x => x.bytes) (s.endp 448).fifo;
   let len : Nat := fieldAt bytes 0 2;
   let g : Nat := fieldAt bytes 3 1;
   s.Sealed ∧ s.stands = false ∧ (s.ready rAUD = true ∧ 16 ≤ bytes.length ∧ 16 + (len + 15) / 16 * 16 ≤ bytes.length) ∧ (7 < g ∨ ¬(fieldAt bytes 2 1
     = 1 ∧ len = 1536 ∨ fieldAt bytes 2 1 = 2 ∧ 12 ≤ len))) ∧
  (let s : State := rc 12 2 7 (List.replicate 12 129) b;
   let bytes : List Byte := s.aud.part ++ List.flatMap (fun x => x.bytes) (s.endp 448).fifo;
   let len : Nat := fieldAt bytes 0 2;
   let g : Nat := fieldAt bytes 3 1;
   s.Sealed ∧ s.stands = false ∧ (s.ready rAUD = true ∧ 16 ≤ bytes.length ∧ 16 + (len + 15) / 16 * 16 ≤ bytes.length) ∧ g ≤ 7 ∧ fieldAt bytes 2 1 =
     2 ∧ 12 ≤ len) ∧
  (let s : State := rc 1536 1 2 (List.replicate 1536 129) b;
   let bytes : List Byte := s.aud.part ++ List.flatMap (fun x => x.bytes) (s.endp 448).fifo;
   let len : Nat := fieldAt bytes 0 2;
   let g : Nat := fieldAt bytes 3 1;
   s.Sealed ∧ s.stands = false ∧ (s.ready rAUD = true ∧ 16 ≤ bytes.length ∧ 16 + (len + 15) / 16 * 16 ≤ bytes.length) ∧ g ≤ 7 ∧ fieldAt bytes 2 1 =
     1 ∧ len = 1536) ∧
  (let s : State := b;
   s.Sealed ∧ s.stands = false ∧ s.aud.rtp = []) ∧
  (let s : State := au (fun a => { a with rtp := [(2, rtp 2 9 3 97), (3, [])] }) b;
   let g : Nat := ((s.aud.rtp).headD default).1;
   let p : List Byte := ((s.aud.rtp).headD default).2;
   let l : List (Nat × List Byte) := (s.aud.rtp).tail;
   let w : Nat := if s.rxPlane g = true then 2 else 3;
   let n : Nat := (p.length - 12) / (48 * w);
   s.Sealed ∧ s.stands = false ∧ s.aud.rtp = (g, p) :: l ∧ g < 8 ∧ (fieldAt p 1 1 % 128 < 96 ∨ n = 0 ∨ 8 < n ∨ p.length - 12 ≠ n * 48 * w)) ∧
  (let s : State := au (fun a => { a with rtp := [(2, rtp 2 2 3 97), (3, [])] }) b;
   let g : Nat := ((s.aud.rtp).headD default).1;
   let p : List Byte := ((s.aud.rtp).headD default).2;
   let l : List (Nat × List Byte) := (s.aud.rtp).tail;
   let w : Nat := if s.rxPlane g = true then 2 else 3;
   let n : Nat := (p.length - 12) / (48 * w);
   s.Sealed ∧ s.stands = false ∧ s.aud.rtp = (g, p) :: l ∧ g < 8 ∧ 96 ≤ fieldAt p 1 1 % 128 ∧ 1 ≤ n ∧ n ≤ 8 ∧ p.length - 12 = n * 48 * w) :=
  (And.imp (And.imp sealed_of id) <|
  And.imp (And.imp sealed_of id) <|
  And.imp (And.imp sealed_of (And.imp id (And.imp id (And.imp id (And.imp id noSome_of))))) <|
  And.imp (And.imp sealed_of id) <|
  And.imp (And.imp sealed_of id) <|
  And.imp (given b_sealed id) <|
  And.imp (And.imp sealed_of id) <|
  And.imp (And.imp sealed_of id) <|
  And.imp (And.imp sealed_of id) <|
  And.imp (given b_sealed id) <|
  And.imp (And.imp sealed_of (And.imp id (And.imp cons_of id))) <|
  (And.imp sealed_of (And.imp id (And.imp cons_of id))))
  (by decide +kernel)

end SetE3

namespace SetW5

def base : M := { mem (isa .f 1) with pcie := {} }

def idle : M := { base with sram := [], bkf := [], ddr := [], clk := { base.clk with now := 10000003, ka := 20000006 } }

def od (f : Odo → Odo) (s : M) : M := { s with odo := f s.odo }

def ax (x : Axle) (s : M) : M := od (fun o => { o with axles := Vector.replicate 4 x }) s

def axState (v : Nat) (s : M) : M := (List.range 4).foldl (fun s a => s.put (Fd.ODO_AXSTAT_STATE a) v) s

def axQual (x : Axle) : M := axState xQUALIFIED (ax x idle)

def axOff : M := axState xDISABLED idle

def axNew : M := axQual {}

def axOld : M := axQual { marked := true, markAt := 1000, realAt := 5000 }

def axNoise : M := axQual { marked := true, markAt := 7999000, realAt := 7999000 }

def axTurn : M := axQual { marked := true, rev := true, markAt := 7000000, realAt := 7000000 }

def axPred : M := axQual { marked := true, markAt := 8000000, realAt := 8000000, periods := [30000, 30000, 30000, 30000] }

def axLate : M := axQual { marked := true, markAt := 1000, realAt := 5000, periods := [30000, 30000, 30000, 30000] }

def axSynth : M := axQual { marked := true, synth := true, markAt := 1000, realAt := 5000, periods := [30000, 30000, 30000, 30000] }

def slot (v : Nat) (x : Slot) : M := (od (fun o => { o with slots := o.slots.set 0 x }) axNew).put (Fd.ODO_EVSTAT_STATE 0) v

def armed : M := slot eARMED { kind := 1, dir := 2, position := 1000 }

def queued : M := slot eARMED { kind := 1, queue := [⟨true, false, false⟩] }

def openW : M := slot eOPEN { kind := 2, timeAt := some 9000000 }

def openEnd : M := slot eOPEN { kind := 2, timeAt := some 8000000 }

def train : M := slot eOPEN { kind := 3, timeAt := some 8000000 }

def axStall : M := axOld.put Fd.ODO_STALL_T_MS 1

def pw (f : PwmCh → PwmCh) (s : M) : M := { s with pwm := { s.pwm with ch := s.pwm.ch.map f } }

def noPwm : M := idle.putB (rdyBit rPWM) false

def pwmOn : M := (idle.put (Fd.PWM_CTL_ENABLE 0) 1).put (Fd.PWM_PER_PERIOD 0) 1000000

def now0 : Nat := 10000003 * 128 / 5

def cfg0 : PwmCfg := { en := true, sync := 1, period := 1000000, duty := 500000, bootHold := 1, bootPw := 10 }

def strobe : M := pw (fun p => { p with cfg := cfg0, run := true, start := now0 - 20000, h1 := 500000, l0 := 500000, l1 := 1000000, due := [now0] }) idle

def forced : M := strobe.put (Fd.PWM_STAT_FAULT 0) 1

def limited : M := ((pw (fun p => { p with cfg := cfg0, run := true, start := now0 - 20000, h1 := 500000, hSince := some (0, 5000) }) idle).put (Fd.PWM_LIM_ENABLE 0) 1).put (Fd.PWM_LIM_MAX_ON_US 0) 1

def tripped : M := { idle with pwm := { idle.pwm with tripMask := 1 } }

def TT : Nat := 9 * 10 ^ 6 * 2 ^ 48

def at_ (s : M) : M := { s with tme := { s.tme with t := TT } }

def pb (f : Plb → Plb) (s : M) : M := { s with plb := f s.plb }

def refs (m : RefMeas) (s : M) : M := pb (fun p => { p with refs := Vector.replicate 7 m, run := TT, base := TT }) (at_ s)

def sel (r st : Nat) (s : M) : M := ((((s.put (Fd.PLB_REFCFG_PRIORITY r) 1).put (Fd.PLB_REFFREQ_FREQ_HZ r) 1000).put (Fd.PLB_REFQUAL_QUAL_CYCLES r) 10).put (Fd.PLB_REFSTAT_QUALIFIED r) 1
  |>.put Fd.PLB_STATE_SELECTED r).put Fd.PLB_STATE_STATE st

def first : M := (sel 6 sFREERUN (refs {} idle)).put Fd.PLB_STATE_SELECTED 7

def gate0 : RefMeas := { gate := some (TT - 1000 * 2 ^ 48, 20000006 * 2 ^ 48 - 1000 * 2 ^ 48, 5), last := some (TT - 1000 * 2 ^ 48) }

def gated (st : Nat) : M := (sel 6 st (refs gate0 idle)).put Fd.PLB_LOCK_WIN_NS 1000

def gatedOther : M := (gated sLOCKED).put Fd.PLB_STATE_SELECTED 7

def gatedLocked : M := gated sLOCKED

def gatedAcquire : M := gated sACQUIRE

def gatedStep : M := (gated sFREERUN).put Fd.PLB_CTL_STEP_FREERUN 1

def better : M := pb (fun p => { p with run := 20 * TT, refs := p.refs.set 0 { since := 0 } }) ((((sel 1 sLOCKED (sel 0 sLOCKED idle)).put Fd.PLB_CTL_AUTO 1).put Fd.PLB_CTL_REVERTIVE 1).put (Fd.PLB_REFCFG_PRIORITY 0) 1 |>.put (Fd.PLB_REFCFG_PRIORITY 1) 2)

def better20 : M := pb (fun p => { p with run := 20000 * TT }) better

def moved : M := pb (fun p => { p with moveEnd := some 0 }) idle

def moving : M := pb (fun p => { p with moveEnd := some 10 }) idle

def held : M := pb (fun p => { p with run := 1000 * TT }) ((idle.put Fd.PLB_STATE_STATE sHOLDOVER).put Fd.PLB_CTL_HOLD_LIMIT_S 1)

def events : M := (idle.put Fd.PLB_HIST_HIST 1).put Fd.PLB_IEN_IEN 1

def outputs : M := at_ (((((idle.put Fd.PLB_OUT0_ENABLE 1).put Fd.PLB_OUT1_ENABLE 1).put Fd.PLB_OUT0_FREQ_HZ 10000000).put Fd.PLB_OUT1_FREQ_HZ 5))

def pps (t : Nat) (p : Nat) : M := pb (fun q => { q with ppsSec := p, ppsHigh := true }) { ((idle.put Fd.PLB_PPSOUT_ENABLE 1)) with tme := { idle.tme with t := (t * 10 ^ 9 + 500000000) * 2 ^ 48 } }

def ppsOff : M := idle.put Fd.PLB_PPSOUT_ENABLE 0

def pps1 : M := pps 1 0

def pps2 : M := pps 1 1

def db (f : Dbg → Dbg) (s : M) : M := { s with dbg := f s.dbg }

def unlocked : M := { idle with lock45 := false }

def en (s : M) : M := (List.range 6).foldl (fun s c => s.setReg (Reg.DBG_EN c) 0x1FFFF) s

def halted : M := (List.range 6).foldl (fun s c => s.put (Fd.SYS_CORECTL_STATE c) 3) (en unlocked)

def halting : M := (en unlocked).put (Fd.DBG_CTL_HALT_REQ 0) 1

def feeding : M := halted.put (Fd.DBG_STAT_FEED_BUSY 0) 1

def vtSome : M := db (fun d => { d with vt := Vector.replicate 6 ⟨[1], [2]⟩ }) (en unlocked)

def vtFull : M := db (fun d => { d with vt := Vector.replicate 6 ⟨List.replicate 16 1, List.replicate 16 2⟩ }) (en unlocked)

theorem armed_sealed : State.Sealed armed := sealed_of (by decide +kernel)

theorem axLate_sealed : State.Sealed axLate := sealed_of (by decide +kernel)

theorem axNew_sealed : State.Sealed axNew := sealed_of (by decide +kernel)

theorem axNoise_sealed : State.Sealed axNoise := sealed_of (by decide +kernel)

theorem axOff_sealed : State.Sealed axOff := sealed_of (by decide +kernel)

theorem axOld_sealed : State.Sealed axOld := sealed_of (by decide +kernel)

theorem axPred_sealed : State.Sealed axPred := sealed_of (by decide +kernel)

theorem axSynth_sealed : State.Sealed axSynth := sealed_of (by decide +kernel)

theorem axTurn_sealed : State.Sealed axTurn := sealed_of (by decide +kernel)

theorem better20_sealed : State.Sealed better20 := sealed_of (by decide +kernel)

theorem events_sealed : State.Sealed events := sealed_of (by decide +kernel)

theorem feeding_sealed : State.Sealed feeding := sealed_of (by decide +kernel)

theorem first_sealed : State.Sealed first := sealed_of (by decide +kernel)

theorem forced_sealed : State.Sealed forced := sealed_of (by decide +kernel)

theorem gatedAcquire_sealed : State.Sealed gatedAcquire := sealed_of (by decide +kernel)

theorem gatedLocked_sealed : State.Sealed gatedLocked := sealed_of (by decide +kernel)

theorem gatedOther_sealed : State.Sealed gatedOther := sealed_of (by decide +kernel)

theorem gatedStep_sealed : State.Sealed gatedStep := sealed_of (by decide +kernel)

theorem halted_sealed : State.Sealed halted := sealed_of (by decide +kernel)

theorem halting_sealed : State.Sealed halting := sealed_of (by decide +kernel)

theorem held_sealed : State.Sealed held := sealed_of (by decide +kernel)

theorem idle_sealed : State.Sealed idle := sealed_of (by decide +kernel)

theorem limited_sealed : State.Sealed limited := sealed_of (by decide +kernel)

theorem moved_sealed : State.Sealed moved := sealed_of (by decide +kernel)

theorem moving_sealed : State.Sealed moving := sealed_of (by decide +kernel)

theorem noPwm_sealed : State.Sealed noPwm := sealed_of (by decide +kernel)

theorem openW_sealed : State.Sealed openW := sealed_of (by decide +kernel)

theorem outputs_sealed : State.Sealed outputs := sealed_of (by decide +kernel)

theorem pps1_sealed : State.Sealed pps1 := sealed_of (by decide +kernel)

theorem ppsOff_sealed : State.Sealed ppsOff := sealed_of (by decide +kernel)

theorem pwmOn_sealed : State.Sealed pwmOn := sealed_of (by decide +kernel)

theorem queued_sealed : State.Sealed queued := sealed_of (by decide +kernel)

theorem strobe_sealed : State.Sealed strobe := sealed_of (by decide +kernel)

theorem tripped_sealed : State.Sealed tripped := sealed_of (by decide +kernel)

theorem unlocked_sealed : State.Sealed unlocked := sealed_of (by decide +kernel)

theorem vtFull_sealed : State.Sealed vtFull := sealed_of (by decide +kernel)

theorem vtSome_sealed : State.Sealed vtSome := sealed_of (by decide +kernel)

/-- The bootstrap charge of channel 0 has lasted its limit. -/
def booted : M := pw (fun p => { p with cfg := cfg0, run := true, start := idle.unit - 20000, h1 := 500000 }) (idle.putB (rdyBit rPWM) true)

/-- Much root time has passed. -/
def ran (s : M) : M := { s with plb := { s.plb with run := 10 ^ 30 } }

def noOdo : M := axOff.putB (rdyBit rODO) false

/-- A reference of 10 MHz whose stamp of this millisecond has been taken. -/
def stamped : M := (sel 0 sLOCKED (refs { gate0 with lastMs := 9 } idle)).put (Fd.PLB_REFFREQ_FREQ_HZ 0) 10000000

def gatedOff : M := idle.putB Fd.SYS_CLKSTAT_BEAT_ALIGNED false

/-- States that meet the hypotheses of `Obligations.DebugAndTrace`, clause by clause. -/
theorem witness_DebugAndTrace :
  (let s : State := unlocked;
   s.Sealed ∧ s.stands = false ∧ (∀ (c : Nat), c < 6 → s.Untraced c) ∧ (∀ (a : Auth), a ∈ s.dbg.auths → s.sec < a.expiry) ∧ (∀ (c : Nat), c < 6 →
     s.coreState c = 3 → s.levelEnabled c false = true)) ∧
  (let s : State := unlocked;
   s.Sealed ∧ s.stands = false ∧ (∀ (a : Auth), a ∈ s.dbg.auths → a.bay < 8)) ∧
  (let s : State := unlocked;
   s.Sealed) ∧
  (let s : State := unlocked;
   let c : Fin 6 := 0;
   let l : Nat := s.lead ↑c;
   s.Sealed ∧ (¬(s.stands = false ∧ (s.coreState l = 1 ∨ s.coreState l = 2) ∧ (s.core l).waits = false ∧ s.haltWanted l = true ∧ s.levelEnabled l
     false = true))) ∧
  (let s : State := halting;
   let c : Fin 6 := 0;
   let l : Nat := s.lead ↑c;
   s.Sealed ∧ (s.stands = false ∧ (s.coreState l = 1 ∨ s.coreState l = 2) ∧ (s.core l).waits = false ∧ s.haltWanted l = true ∧ s.levelEnabled l
     false = true) ∧ s.Untraced l ∧ (∀ (m : Option Nat), s.groupsOn 0 m = 0)) ∧
  (let s : State := feeding;
   let n : Fin 6 := 0;
   s.Sealed ∧ s.bit (Fd.DBG_STAT_FEED_BUSY ↑n) = true ∧ vget s.dbg.feed ↑n = none) ∧
  (let s : State := unlocked;
   let n : Fin 6 := 0;
   s.Sealed ∧ (s.stands = false ∧ s.bit (Fd.DBG_STAT_FEED_BUSY ↑n) = false ∧ vget s.dbg.feed ↑n = none) ∧ (¬s.coreState ↑n = 3)) ∧
  (let s : State := halted;
   let n : Fin 6 := 0;
   let w : Word := 4294967295#32;
   s.Sealed ∧ (s.stands = false ∧ s.bit (Fd.DBG_STAT_FEED_BUSY ↑n) = false ∧ vget s.dbg.feed ↑n = none) ∧ s.coreState ↑n = 3 ∧ decodeCore w = none) ∧
  (let s : State := halted;
   let n : Fin 6 := 0;
   let w : Word := 2221342715#32;
   let op : CoreOp := (decodeCore w).getD anyOp;
   s.Sealed ∧ (s.stands = false ∧ s.bit (Fd.DBG_STAT_FEED_BUSY ↑n) = false ∧ vget s.dbg.feed ↑n = none) ∧ s.coreState ↑n = 3 ∧ decodeCore w = some
     op ∧ op.feedable = false) ∧
  (let s : State := halted;
   let n : Fin 6 := 0;
   let w : Word := 0x04630002#32;
   let rd : BitVec 5 := 3;
   let ra : BitVec 5 := 3;
   let i : BitVec 16 := 2;
   s.Sealed ∧ (s.stands = false ∧ s.bit (Fd.DBG_STAT_FEED_BUSY ↑n) = false ∧ vget s.dbg.feed ↑n = none) ∧ s.coreState ↑n = 3 ∧ decodeCore w = some
     (CoreOp.imm AluI.addi rd ra i)) ∧
  (let s : State := unlocked;
   let n : Fin 6 := 0;
   s.Sealed ∧ s.coreState ↑n ≠ 3) ∧
  (let s : State := halted;
   let n : Fin 6 := 0;
   let l : Nat := s.lead ↑n;
   s.Sealed ∧ s.stands = false ∧ s.coreState ↑n = 3 ∧ s.Untraced l) ∧
  (let s : State := unlocked;
   let groups : BitVec 8 := 0#8;
   s.Sealed ∧ (∀ (g k : Nat), k < 6 → ¬(g < 8 ∧ groups.getLsbD g = true ∧ BitVec.getLsbD (s.reg (Reg.XTR_GRP g)) k = true))) ∧
  (let s : State := unlocked;
   let pin : Fin 2 := 0;
   let high : Bool := false;
   let was : Bool := if pin = 0 then s.dbg.in0 else s.dbg.in1;
   s.Sealed ∧ (high = false ∨ was = true ∨ ∀ (g : Nat), g < 8 → BitVec.getLsbD (s.reg (Reg.XTR_GRP g)) (12 + ↑pin) = false)) :=
  (And.imp (given unlocked_sealed (And.imp id (And.imp allUntraced_of id))) <|
  And.imp (given unlocked_sealed id) <|
  And.imp (fun (_ : True) => unlocked_sealed) <|
  And.imp (given unlocked_sealed id) <|
  And.imp (given halting_sealed (And.imp id (And.imp untraced_of groups0_of))) <|
  And.imp (given feeding_sealed id) <|
  And.imp (given unlocked_sealed id) <|
  And.imp (given halted_sealed id) <|
  And.imp (given halted_sealed id) <|
  And.imp (given halted_sealed id) <|
  And.imp (given unlocked_sealed id) <|
  And.imp (given halted_sealed (And.imp id (And.imp id untraced_of))) <|
  And.imp (given unlocked_sealed groups_of) <|
  (given unlocked_sealed id))
  (by decide +kernel)

/-- States that meet the hypotheses of `Obligations.DebugAndTrace`, clause by clause (clauses 15 and on). -/
theorem witness_DebugAndTrace_2 :
  (let s : State := unlocked;
   let pin : Fin 2 := 0;
   let high : Bool := true;
   let was : Bool := if pin = 0 then s.dbg.in0 else s.dbg.in1;
   s.Sealed ∧ high = true ∧ was = false) ∧
  (let s : State := unlocked;
   let n : Fin 6 := 0;
   let l : Nat := s.lead ↑n;
   s.Sealed ∧ (¬(s.coreState l ≠ 0 ∧ s.levelEnabled l false = true))) ∧
  (let s : State := vtFull;
   let n : Fin 6 := 0;
   let l : Nat := s.lead ↑n;
   let v : Nat → Vt := fun k => vget s.dbg.vt k;
   s.Sealed ∧ s.stands = false ∧ (s.coreState l ≠ 0 ∧ s.levelEnabled l false = true) ∧ 16 ≤ (v l).out.length) ∧
  (let s : State := vtSome;
   let n : Fin 6 := 0;
   let l : Nat := s.lead ↑n;
   let v : Nat → Vt := fun k => vget s.dbg.vt k;
   s.Sealed ∧ s.stands = false ∧ (s.coreState l ≠ 0 ∧ s.levelEnabled l false = true) ∧ (v l).out.length < 16) ∧
  (let s : State := unlocked;
   let n : Fin 6 := 0;
   let l : Nat := s.lead ↑n;
   let v : Nat → Vt := fun k => vget s.dbg.vt k;
   s.Sealed ∧ s.stands = false ∧ (¬(s.coreState l ≠ 0 ∧ s.levelEnabled l false = true) ∨ (v l).inp = [])) ∧
  (let s : State := vtSome;
   let n : Fin 6 := 0;
   let l : Nat := s.lead ↑n;
   let v : Nat → Vt := fun k => vget s.dbg.vt k;
   let x : Byte := ((v l).inp).headD default;
   let r : List Byte := ((v l).inp).tail;
   s.Sealed ∧ s.stands = false ∧ (s.coreState l ≠ 0 ∧ s.levelEnabled l false = true) ∧ (v l).inp = x :: r) ∧
  (let s : State := unlocked;
   let n : Fin 6 := 0;
   let v : Nat → Vt := fun k => vget s.dbg.vt k;
   s.Sealed ∧ (¬(s.coreState ↑n ≠ 0 ∧ s.levelEnabled (↑n) false = true) ∨ (v ↑n).out = [])) ∧
  (let s : State := vtSome;
   let n : Fin 6 := 0;
   let v : Nat → Vt := fun k => vget s.dbg.vt k;
   let x : Byte := ((v ↑n).out).headD default;
   let r : List Byte := ((v ↑n).out).tail;
   s.Sealed ∧ (s.coreState ↑n ≠ 0 ∧ s.levelEnabled (↑n) false = true) ∧ (v ↑n).out = x :: r) ∧
  (let s : State := unlocked;
   let n : Fin 6 := 0;
   s.Sealed ∧ (¬(s.coreState ↑n ≠ 0 ∧ s.levelEnabled (↑n) false = true))) ∧
  (let s : State := vtFull;
   let n : Fin 6 := 0;
   let v : Nat → Vt := fun k => vget s.dbg.vt k;
   s.Sealed ∧ (s.coreState ↑n ≠ 0 ∧ s.levelEnabled (↑n) false = true) ∧ 16 ≤ (v ↑n).inp.length) ∧
  (let s : State := vtSome;
   let n : Fin 6 := 0;
   let v : Nat → Vt := fun k => vget s.dbg.vt k;
   s.Sealed ∧ (s.coreState ↑n ≠ 0 ∧ s.levelEnabled (↑n) false = true) ∧ (v ↑n).inp.length < 16) :=
  (And.imp (given unlocked_sealed id) <|
  And.imp (given unlocked_sealed id) <|
  And.imp (given vtFull_sealed id) <|
  And.imp (given vtSome_sealed id) <|
  And.imp (given unlocked_sealed id) <|
  And.imp (given vtSome_sealed (And.imp id (And.imp id cons_of))) <|
  And.imp (given unlocked_sealed id) <|
  And.imp (given vtSome_sealed (And.imp id cons_of)) <|
  And.imp (given unlocked_sealed id) <|
  And.imp (given vtFull_sealed id) <|
  (given vtSome_sealed id))
  (by decide +kernel)

/-- States that meet the hypotheses of `Obligations.Drivers`, clause by clause. -/
theorem witness_Drivers :
  (let s : State := pwmOn;
   let c : Fin 12 := 0;
   let p : PwmCh := s.pch ↑c;
   let g : PwmCfg := s.pwmRegs ↑c;
   s.Sealed ∧ s.stands = false ∧ s.ready rPWM = true ∧ p.frozen = none ∧ s.pwmForced ↑c = false ∧ p.run = false ∧ g.en = true ∧ g.sync = 0 ∧ p.from_
     ≤ s.unit) ∧
  (let s : State := idle;
   let c : Fin 12 := 0;
   let p : PwmCh := s.pch ↑c;
   let g : PwmCfg := s.pwmRegs ↑c;
   s.Sealed ∧ s.stands = false ∧ s.ready rPWM = true ∧ p.frozen = none ∧ s.pwmForced ↑c = false ∧ p.run = false ∧ g.en = false) ∧
  (let c : Fin 12 := 0;
   let s : State := pw (fun p => { p with from_ := 10 ^ 30 }) pwmOn;
   let p : PwmCh := s.pch ↑c;
   let g : PwmCfg := s.pwmRegs ↑c;
   s.Sealed ∧ s.stands = false ∧ p.run = false ∧ g.en = true ∧ g.sync = 0 ∧ s.unit < p.from_) ∧
  (let s : State := noPwm;
   let c : Fin 12 := 0;
   let p : PwmCh := s.pch ↑c;
   s.Sealed ∧ s.stands = false ∧ (s.ready rPWM = false ∨ p.frozen ≠ none ∨ s.pwmForced ↑c = true ∨ p.run = true ∧ s.pwmPos ↑c < p.cfg.period)) ∧
  (let s : State := idle;
   let c : Fin 12 := 0;
   s.Sealed ∧ s.stands = false ∧ s.strobeDue ↑c = false) ∧
  (let s : State := forced;
   let c : Fin 12 := 0;
   let p : PwmCh := s.pch ↑c;
   s.Sealed ∧ s.stands = false ∧ s.strobeDue ↑c = true ∧ p.frozen = none ∧ s.pwmForced ↑c = true) ∧
  (let s : State := strobe.put (Fd.PWM_STAT_QUEUED 0) 1;
   let c : Fin 12 := 0;
   let p : PwmCh := s.pch ↑c;
   s.Sealed ∧ s.stands = false ∧ s.strobeDue ↑c = true ∧ p.frozen = none ∧ s.pwmForced ↑c = false ∧ p.run = true ∧ s.pwmPos ↑c < p.cfg.period ∧
     s.bit (Fd.PWM_STAT_QUEUED ↑c) = true) ∧
  (let s : State := strobe;
   let c : Fin 12 := 0;
   let p : PwmCh := s.pch ↑c;
   s.Sealed ∧ s.stands = false ∧ s.strobeDue ↑c = true ∧ p.frozen = none ∧ s.pwmForced ↑c = false ∧ p.run = true ∧ s.pwmPos ↑c < p.cfg.period ∧
     (¬s.bit (Fd.PWM_STAT_QUEUED ↑c) = true)) ∧
  (let s : State := booted;
   let c : Fin 12 := 0;
   let p : PwmCh := s.pch ↑c;
   let at_ : Nat := s.pwmPos ↑c;
   let from_ : Int := p.highFrom at_;
   let held : Int := ↑at_ - from_ + ↑(if from_ = 0 then p.hCarry else 0);
   s.Sealed ∧ s.stands = false ∧ (p.frozen = none ∧ (s.pwmOn ↑c).fst = true ∧ p.cfg.bootHold ≠ 0 ∧ ↑p.cfg.bootHold * 12800 ≤ held)) ∧
  (let s : State := idle;
   let c : Fin 12 := 0;
   let p : PwmCh := s.pch ↑c;
   let at_ : Nat := s.pwmPos ↑c;
   let from_ : Int := p.highFrom at_;
   let held : Int := ↑at_ - from_ + ↑(if from_ = 0 then p.hCarry else 0);
   s.Sealed ∧ s.stands = false ∧ (¬(p.frozen = none ∧ (s.pwmOn ↑c).fst = true ∧ p.cfg.bootHold ≠ 0 ∧ ↑p.cfg.bootHold * 12800 ≤ held))) ∧
  (let s : State := idle;
   s.Sealed ∧ s.stands = false ∧ s.pwm.tripMask = 0) ∧
  (let s : State := tripped;
   s.Sealed ∧ s.stands = false ∧ s.pwm.tripMask ≠ 0) ∧
  (let s : State := idle;
   s.Sealed) ∧
  (let s : State := limited;
   let c : Fin 12 := 0;
   let high : Bool := true;
   s.Sealed ∧ (s.bit (Fd.PWM_LIM_ENABLE ↑c) = true ∧ ∃ n, s.onFor (↑c) high = some n ∧ s.get (Fd.PWM_LIM_MAX_ON_US ↑c) * 1000 < n)) :=
  (And.imp (given pwmOn_sealed id) <|
  And.imp (given idle_sealed id) <|
  And.imp (And.imp sealed_of id) <|
  And.imp (given noPwm_sealed id) <|
  And.imp (given idle_sealed id) <|
  And.imp (given forced_sealed id) <|
  And.imp (And.imp sealed_of id) <|
  And.imp (given strobe_sealed id) <|
  And.imp (And.imp sealed_of id) <|
  And.imp (given idle_sealed id) <|
  And.imp (given idle_sealed id) <|
  And.imp (given tripped_sealed id) <|
  And.imp (fun (_ : True) => idle_sealed) <|
  (given limited_sealed ((And.imp id any_of))))
  (by decide +kernel)

/-- States that meet the hypotheses of `Obligations.Drivers`, clause by clause (clauses 15 and on). -/
theorem witness_Drivers_2 :
  (let s : State := idle;
   let c : Fin 12 := 0;
   let high : Bool := false;
   s.Sealed ∧ (¬(s.bit (Fd.PWM_LIM_ENABLE ↑c) = true ∧ ∃ n, s.onFor (↑c) high = some n ∧ s.get (Fd.PWM_LIM_MAX_ON_US ↑c) * 1000 < n))) :=
  ((given idle_sealed id))
  (by decide +kernel)

/-- States that meet the hypotheses of `Obligations.Odometry`, clause by clause. -/
theorem witness_Odometry :
  (let s : State := idle;
   let a : Fin 4 := 0;
   let pa : Bool := false;
   let pb : Bool := false;
   let x : Axle := s.axle ↑a;
   let swap : Bool := s.bit (Fd.ODO_AXCFG_SWAP ↑a);
   let nA : Bool := if swap = true then pb else pa;
   let nB : Bool := if swap = true then pa else pb;
   let oA : Bool := if swap = true then x.levB else x.levA;
   let oB : Bool := if swap = true then x.levA else x.levB;
   s.Sealed ∧ s.stands = false ∧ (¬(nA ≠ oA ∧ nB = false)) ∧ (¬(nA ≠ oA ∧ nB ≠ oB))) ∧
  (let s : State := noOdo;
   s.Sealed ∧ s.stands = false ∧ (¬(s.ready rODO = true ∧ s.clocksRun = true))) ∧
  (let s : State := axOff;
   let a : Fin 4 := 0;
   let pa : Bool := true;
   let pb : Bool := false;
   let x : Axle := s.axle ↑a;
   let swap : Bool := s.bit (Fd.ODO_AXCFG_SWAP ↑a);
   let nA : Bool := if swap = true then pb else pa;
   let nB : Bool := if swap = true then pa else pb;
   let oA : Bool := if swap = true then x.levB else x.levA;
   let oB : Bool := if swap = true then x.levA else x.levB;
   s.Sealed ∧ s.stands = false ∧ s.axState ↑a = xDISABLED ∧ (¬(nA ≠ oA ∧ nB ≠ oB))) ∧
  (let s : State := idle;
   let a : Fin 4 := 0;
   let pa : Bool := true;
   let pb : Bool := true;
   let x : Axle := s.axle ↑a;
   let swap : Bool := s.bit (Fd.ODO_AXCFG_SWAP ↑a);
   let nA : Bool := if swap = true then pb else pa;
   let nB : Bool := if swap = true then pa else pb;
   let oA : Bool := if swap = true then x.levB else x.levA;
   let oB : Bool := if swap = true then x.levA else x.levB;
   s.Sealed ∧ s.stands = false ∧ (s.ready rODO = true ∧ s.clocksRun = true) ∧ nA ≠ oA ∧ nB ≠ oB) ∧
  (let s : State := axNoise;
   let a : Fin 4 := 0;
   let pa : Bool := true;
   let pb : Bool := false;
   let x : Axle := s.axle ↑a;
   let swap : Bool := s.bit (Fd.ODO_AXCFG_SWAP ↑a);
   let nA : Bool := if swap = true then pb else pa;
   let nB : Bool := if swap = true then pa else pb;
   let oA : Bool := if swap = true then x.levB else x.levA;
   let oB : Bool := if swap = true then x.levA else x.levB;
   s.Sealed ∧ s.stands = false ∧ ((s.ready rODO = true ∧ s.clocksRun = true) ∧ s.axState ↑a ≠ xDISABLED) ∧ nA ≠ oA ∧ nB = oB ∧ nB = false ∧ x.marked
     = true ∧ nA = !x.rev ∧ s.cyc - x.markAt < 2000 ∧ x.noise < 3) ∧
  (let s : State := axNew;
   let a : Fin 4 := 0;
   let pa : Bool := true;
   let pb : Bool := false;
   let x : Axle := s.axle ↑a;
   let swap : Bool := s.bit (Fd.ODO_AXCFG_SWAP ↑a);
   let nA : Bool := if swap = true then pb else pa;
   let nB : Bool := if swap = true then pa else pb;
   let oA : Bool := if swap = true then x.levB else x.levA;
   let oB : Bool := if swap = true then x.levA else x.levB;
   s.Sealed ∧ s.stands = false ∧ ((s.ready rODO = true ∧ s.clocksRun = true) ∧ s.axState ↑a ≠ xDISABLED) ∧ nA ≠ oA ∧ nB = oB ∧ nB = false ∧
     s.odo.sel < 4 ∧ s.axState s.odo.sel = xQUALIFIED ∧ s.odo.stalled = false ∧ x.marked = false ∧ x.periods = [] ∧ nA = !x.rev) ∧
  (let s : State := axOld;
   let a : Fin 4 := 0;
   let pa : Bool := true;
   let pb : Bool := false;
   let x : Axle := s.axle ↑a;
   let swap : Bool := s.bit (Fd.ODO_AXCFG_SWAP ↑a);
   let nA : Bool := if swap = true then pb else pa;
   let nB : Bool := if swap = true then pa else pb;
   let oA : Bool := if swap = true then x.levB else x.levA;
   let oB : Bool := if swap = true then x.levA else x.levB;
   let e : Nat := s.cyc - x.markAt;
   s.Sealed ∧ s.stands = false ∧ ((s.ready rODO = true ∧ s.clocksRun = true) ∧ s.axState ↑a ≠ xDISABLED) ∧ nA ≠ oA ∧ nB = oB ∧ nB = false ∧
     s.odo.sel < 4 ∧ s.axState s.odo.sel = xQUALIFIED ∧ s.odo.stalled = false ∧ x.marked = true ∧ nA = !x.rev ∧ 2000 ≤ e ∧ x.periods.length < 4) ∧
  (let s : State := axTurn;
   let a : Fin 4 := 0;
   let pa : Bool := true;
   let pb : Bool := false;
   let x : Axle := s.axle ↑a;
   let swap : Bool := s.bit (Fd.ODO_AXCFG_SWAP ↑a);
   let nA : Bool := if swap = true then pb else pa;
   let nB : Bool := if swap = true then pa else pb;
   let oA : Bool := if swap = true then x.levB else x.levA;
   let oB : Bool := if swap = true then x.levA else x.levB;
   s.Sealed ∧ s.stands = false ∧ ((s.ready rODO = true ∧ s.clocksRun = true) ∧ s.axState ↑a ≠ xDISABLED) ∧ nA ≠ oA ∧ nB = oB ∧ nB = false ∧
     s.odo.sel < 4 ∧ s.axState s.odo.sel = xQUALIFIED ∧ s.odo.stalled = false ∧ x.marked = true ∧ x.noiseOpen = false ∧ nA = x.rev) ∧
  (let s : State := axPred;
   let a : Fin 4 := 0;
   let pp : Nat := 30000;
   let x : Axle := s.axle ↑a;
   s.Sealed ∧ s.stands = false ∧ s.pp ↑a = some pp ∧ s.ready rODO = true ∧ s.axState ↑a ≠ xDISABLED ∧ s.axState ↑a ≤ 4 ∧ x.periods.length = 4 ∧
     (¬x.markAt + cdiv (s.get (Fd.ODO_AXFAC_HIGH ↑a) * pp) 256 ≤ s.cyc ∨ ¬∃ b, b < 4 ∧ b ≠ ↑a ∧ (s.axState b = xQUALIFYING ∨ s.axState b =
     xQUALIFIED) ∧ (s.axle b).marked = true ∧ x.markAt < (s.axle b).realAt)) ∧
  (let s : State := axLate;
   let a : Fin 4 := 1;
   let pp : Nat := 30000;
   let x : Axle := s.axle ↑a;
   s.Sealed ∧ s.stands = false ∧ s.pp ↑a = some pp ∧ s.ready rODO = true ∧ s.axState ↑a ≠ xDISABLED ∧ s.axState ↑a ≤ 4 ∧ x.periods.length = 4 ∧
     x.markAt + cdiv (s.get (Fd.ODO_AXFAC_HIGH ↑a) * pp) 256 ≤ s.cyc ∧ (∃ b, b < 4 ∧ b ≠ ↑a ∧ (s.axState b = xQUALIFYING ∨ s.axState b = xQUALIFIED)
     ∧ (s.axle b).marked = true ∧ x.markAt < (s.axle b).realAt) ∧ x.synth = false ∧ ↑a ≠ s.odo.sel) ∧
  (let s : State := axSynth;
   let a : Fin 4 := 0;
   let pp : Nat := 30000;
   let x : Axle := s.axle ↑a;
   s.Sealed ∧ s.stands = false ∧ s.pp ↑a = some pp ∧ s.ready rODO = true ∧ s.axState ↑a ≠ xDISABLED ∧ s.axState ↑a ≤ 4 ∧ x.periods.length = 4 ∧
     x.markAt + cdiv (s.get (Fd.ODO_AXFAC_HIGH ↑a) * pp) 256 ≤ s.cyc ∧ (∃ b, b < 4 ∧ b ≠ ↑a ∧ (s.axState b = xQUALIFYING ∨ s.axState b = xQUALIFIED)
     ∧ (s.axle b).marked = true ∧ x.markAt < (s.axle b).realAt) ∧ x.synth = true ∧ s.axState ↑a ≠ xUNRELIABLE) ∧
  (let s : State := idle;
   let sel : Nat := s.odo.sel;
   let after : Nat := (s.axle sel).realRun + s.get Fd.ODO_STALL_T_MS * 1000000 * nsU;
   s.Sealed ∧ s.stands = false ∧ sel < 4 ∧ s.ready rODO = true ∧ s.odo.stalled = false ∧ s.axState sel ≠ xDISABLED ∧ s.plb.run < after) ∧
  (let s : State := ran axStall;
   let sel : Nat := s.odo.sel;
   let after : Nat := (s.axle sel).realRun + s.get Fd.ODO_STALL_T_MS * 1000000 * nsU;
   s.Sealed ∧ s.stands = false ∧ sel < 4 ∧ s.ready rODO = true ∧ s.odo.stalled = false ∧ s.axState sel ≠ xDISABLED ∧ after ≤ s.plb.run ∧ (∀ (i :
     Nat), i ∈ s.liveSlots → (s.slot i).seen = s.unitPos)) ∧
  (let s : State := armed;
   let i : Fin 64 := 0;
   let y : Slot := s.slot ↑i;
   s.Sealed ∧ s.stands = false ∧ s.slotState ↑i = eARMED ∧ s.ready rODO = true ∧ y.kind = 1 ∧ (y.dir = 0 ∨ y.dir = 2) ∧ s.odoRev = false ∧ y.each =
     false ∧ y.queue = [] ∧ y.lastPulse = none ∧ y.seen ≤ s.unitPos ∧ s.unitPos - y.seen < 2 ^ 47 ∧ y.seen < y.position ∧ y.position - y.seen < 2 ^
     47) :=
  (And.imp (given idle_sealed id) <|
  And.imp (And.imp sealed_of id) <|
  And.imp (given axOff_sealed id) <|
  And.imp (given idle_sealed id) <|
  And.imp (given axNoise_sealed id) <|
  And.imp (given axNew_sealed id) <|
  And.imp (given axOld_sealed id) <|
  And.imp (given axTurn_sealed id) <|
  And.imp (given axPred_sealed id) <|
  And.imp (given axLate_sealed id) <|
  And.imp (given axSynth_sealed id) <|
  And.imp (given idle_sealed id) <|
  And.imp (And.imp sealed_of id) <|
  (given armed_sealed id))
  (by decide +kernel)

/-- States that meet the hypotheses of `Obligations.Odometry`, clause by clause (clauses 15 and on). -/
theorem witness_Odometry_2 :
  (let s : State := idle;
   let i : Fin 64 := 0;
   s.Sealed ∧ s.stands = false ∧ (s.slotState ↑i = eOFF ∨ s.slotState ↑i = eHELD ∨ s.slotState ↑i = eDONE)) ∧
  (let s : State := queued;
   let i : Fin 64 := 0;
   let y : Slot := s.slot ↑i;
   let f : Firing := (y.queue).headD default;
   let l : List Firing := (y.queue).tail;
   s.Sealed ∧ s.stands = false ∧ y.queue = f :: l ∧ y.kind ≠ 2 ∧ (∀ (p : Nat), y.lastPulse = some p → p + 2 * y.pw ≤ s.cyc)) ∧
  (let s : State := idle;
   let i : Fin 64 := 0;
   let y : Slot := s.slot ↑i;
   s.Sealed ∧ s.stands = false ∧ y.queue = []) ∧
  (let s : State := openW;
   let i : Fin 64 := 0;
   let n : Nat := 9000000;
   let y : Slot := s.slot ↑i;
   s.Sealed ∧ s.stands = false ∧ y.timeAt = some n ∧ s.slotState ↑i = eOPEN ∧ s.plb.run < n) ∧
  (let s : State := ran openEnd;
   let i : Fin 64 := 0;
   let n : Nat := 8000000;
   let y : Slot := s.slot ↑i;
   s.Sealed ∧ s.stands = false ∧ y.timeAt = some n ∧ s.slotState ↑i = eOPEN ∧ n ≤ s.plb.run ∧ y.kind = 2) ∧
  (let s : State := ran train;
   let i : Fin 64 := 0;
   let n : Nat := 8000000;
   let y : Slot := s.slot ↑i;
   s.Sealed ∧ s.stands = false ∧ y.timeAt = some n ∧ s.slotState ↑i = eOPEN ∧ n ≤ s.plb.run ∧ y.kind = 3 ∧ y.queue = [] ∧ y.lastPulse = none ∧
     y.count = 0) :=
  (And.imp (given idle_sealed id) <|
  And.imp (given queued_sealed (And.imp id (And.imp cons_of id))) <|
  And.imp (given idle_sealed id) <|
  And.imp (given openW_sealed id) <|
  And.imp (And.imp sealed_of id) <|
  (And.imp sealed_of id))
  (by decide +kernel)

/-- States that meet the hypotheses of `Obligations.PlumbReferences`, clause by clause. -/
theorem witness_PlumbReferences :
  (let s : State := idle;
   let r : Fin 7 := 0;
   s.Sealed ∧ s.stands = false ∧ (¬(s.measured ↑r = true ∧ s.clocksRun = true))) ∧
  (let s : State := stamped;
   let r : Fin 7 := 0;
   let sub : Nat := 0;
   let m : RefMeas := s.ref ↑r;
   let ofs : Int := s.gridOfs ↑sub;
   let on : Int := atRate s.freqF ofs;
   let stamp : Nat := (↑s.tme.t + on).toNat;
   s.Sealed ∧ s.stands = false ∧ (s.measured ↑r = true ∧ s.clocksRun = true) ∧ (¬(4 ≤ ↑r ∨ s.get (Fd.PLB_REFFREQ_FREQ_HZ ↑r) ≤ 1000) ∧ m.last ≠ none
     ∧ m.lastMs = stamp / (1000000 * nsU))) ∧
  (let s : State := first;
   let r : Fin 7 := 6;
   let sub : Nat := 0;
   let m : RefMeas := s.ref ↑r;
   let ofs : Int := s.gridOfs ↑sub;
   let on : Int := atRate s.freqF ofs;
   let stamp : Nat := (↑s.tme.t + on).toNat;
   s.Sealed ∧ s.stands = false ∧ ((s.measured ↑r = true ∧ s.clocksRun = true) ∧ ¬(¬(4 ≤ ↑r ∨ s.get (Fd.PLB_REFFREQ_FREQ_HZ ↑r) ≤ 1000) ∧ m.last ≠
     none ∧ m.lastMs = stamp / (1000000 * nsU))) ∧ s.get Fd.PLB_STATE_SELECTED ≠ ↑r ∧ m.gate = none) ∧
  (let s : State := gatedOther;
   let r : Fin 7 := 6;
   let cycles : Nat := 0;
   let sub : Nat := 0;
   let m : RefMeas := s.ref ↑r;
   let b : Nat := (m.gate.getD default).1;
   let c : Nat := (m.gate.getD default).2.1;
   let n : Nat := (m.gate.getD default).snd.snd;
   let ofs : Int := s.gridOfs ↑sub;
   let on : Int := atRate s.freqF ofs;
   let stamp : Nat := (↑s.tme.t + on).toNat;
   let count : Nat := if 4 ≤ ↑r ∨ s.get (Fd.PLB_REFFREQ_FREQ_HZ ↑r) ≤ 1000 then 1 else cycles;
   let qual : Nat := s.get (Fd.PLB_REFQUAL_QUAL_CYCLES ↑r);
   s.Sealed ∧ s.stands = false ∧ ((s.measured ↑r = true ∧ s.clocksRun = true) ∧ ¬(¬(4 ≤ ↑r ∨ s.get (Fd.PLB_REFFREQ_FREQ_HZ ↑r) ≤ 1000) ∧ m.last ≠
     none ∧ m.lastMs = stamp / (1000000 * nsU))) ∧ s.get Fd.PLB_STATE_SELECTED ≠ ↑r ∧ m.gate = some (b, c, n) ∧ n + count < qual) ∧
  (let s : State := (gatedOther.put (Fd.PLB_REFQUAL_QUAL_CYCLES 6) 6);
   let r : Fin 7 := 6;
   let cycles : Nat := 10;
   let sub : Nat := 0;
   let m : RefMeas := s.ref ↑r;
   let b : Nat := (m.gate.getD default).1;
   let c : Nat := (m.gate.getD default).2.1;
   let n : Nat := (m.gate.getD default).snd.snd;
   let ofs : Int := s.gridOfs ↑sub;
   let on : Int := atRate s.freqF ofs;
   let stamp : Nat := (↑s.tme.t + on).toNat;
   let count : Nat := if 4 ≤ ↑r ∨ s.get (Fd.PLB_REFFREQ_FREQ_HZ ↑r) ≤ 1000 then 1 else cycles;
   let qual : Nat := s.get (Fd.PLB_REFQUAL_QUAL_CYCLES ↑r);
   s.Sealed ∧ s.stands = false ∧ ((s.measured ↑r = true ∧ s.clocksRun = true) ∧ ¬(¬(4 ≤ ↑r ∨ s.get (Fd.PLB_REFFREQ_FREQ_HZ ↑r) ≤ 1000) ∧ m.last ≠
     none ∧ m.lastMs = stamp / (1000000 * nsU))) ∧ m.gate = some (b, c, n) ∧ qual ≤ n + count) ∧
  (let s : State := gatedLocked;
   let r : Fin 7 := 6;
   let cycles : Nat := 0;
   let sub : Nat := 0;
   let master : Nat := 2533274790395904000000;
   let m : RefMeas := s.ref ↑r;
   let b : Nat := (m.gate.getD default).1;
   let c : Nat := (m.gate.getD default).2.1;
   let n : Nat := (m.gate.getD default).snd.snd;
   let ofs : Int := s.gridOfs ↑sub;
   let on : Int := atRate s.freqF ofs;
   let stamp : Nat := (↑s.tme.t + on).toNat;
   let count : Nat := if 4 ≤ ↑r ∨ s.get (Fd.PLB_REFFREQ_FREQ_HZ ↑r) ≤ 1000 then 1 else cycles;
   let qual : Nat := s.get (Fd.PLB_REFQUAL_QUAL_CYCLES ↑r);
   let e : Int := s.sampleError (↑r) stamp master;
   let win : Nat := s.get Fd.PLB_LOCK_WIN_NS * nsU;
   s.Sealed ∧ s.stands = false ∧ ((s.measured ↑r = true ∧ s.clocksRun = true) ∧ ¬(¬(4 ≤ ↑r ∨ s.get (Fd.PLB_REFFREQ_FREQ_HZ ↑r) ≤ 1000) ∧ m.last ≠
     none ∧ m.lastMs = stamp / (1000000 * nsU))) ∧ s.get Fd.PLB_STATE_SELECTED = ↑r ∧ s.qualified ↑r = true ∧ m.gate = some (b, c, n) ∧ n + count <
     qual ∧ s.plbState = sLOCKED ∧ e.natAbs ≤ win) ∧
  (let s : State := gatedLocked;
   let r : Fin 7 := 6;
   let cycles : Nat := 0;
   let sub : Nat := 0;
   let master : Nat := 0;
   let m : RefMeas := s.ref ↑r;
   let b : Nat := (m.gate.getD default).1;
   let c : Nat := (m.gate.getD default).2.1;
   let n : Nat := (m.gate.getD default).snd.snd;
   let ofs : Int := s.gridOfs ↑sub;
   let on : Int := atRate s.freqF ofs;
   let stamp : Nat := (↑s.tme.t + on).toNat;
   let count : Nat := if 4 ≤ ↑r ∨ s.get (Fd.PLB_REFFREQ_FREQ_HZ ↑r) ≤ 1000 then 1 else cycles;
   let qual : Nat := s.get (Fd.PLB_REFQUAL_QUAL_CYCLES ↑r);
   let e : Int := s.sampleError (↑r) stamp master;
   let win : Nat := s.get Fd.PLB_LOCK_WIN_NS * nsU;
   s.Sealed ∧ s.stands = false ∧ ((s.measured ↑r = true ∧ s.clocksRun = true) ∧ ¬(¬(4 ≤ ↑r ∨ s.get (Fd.PLB_REFFREQ_FREQ_HZ ↑r) ≤ 1000) ∧ m.last ≠
     none ∧ m.lastMs = stamp / (1000000 * nsU))) ∧ s.get Fd.PLB_STATE_SELECTED = ↑r ∧ s.qualified ↑r = true ∧ m.gate = some (b, c, n) ∧ n + count <
     qual ∧ s.plbState = sLOCKED ∧ win < e.natAbs) ∧
  (let s : State := gatedStep;
   let r : Fin 7 := 6;
   let cycles : Nat := 0;
   let sub : Nat := 0;
   let master : Nat := 0;
   let m : RefMeas := s.ref ↑r;
   let b : Nat := (m.gate.getD default).1;
   let c : Nat := (m.gate.getD default).2.1;
   let n : Nat := (m.gate.getD default).snd.snd;
   let ofs : Int := s.gridOfs ↑sub;
   let on : Int := atRate s.freqF ofs;
   let stamp : Nat := (↑s.tme.t + on).toNat;
   let count : Nat := if 4 ≤ ↑r ∨ s.get (Fd.PLB_REFFREQ_FREQ_HZ ↑r) ≤ 1000 then 1 else cycles;
   let qual : Nat := s.get (Fd.PLB_REFQUAL_QUAL_CYCLES ↑r);
   let e : Int := s.sampleError (↑r) stamp master;
   let win : Nat := s.get Fd.PLB_LOCK_WIN_NS * nsU;
   s.Sealed ∧ s.stands = false ∧ ((s.measured ↑r = true ∧ s.clocksRun = true) ∧ ¬(¬(4 ≤ ↑r ∨ s.get (Fd.PLB_REFFREQ_FREQ_HZ ↑r) ≤ 1000) ∧ m.last ≠
     none ∧ m.lastMs = stamp / (1000000 * nsU))) ∧ s.get Fd.PLB_STATE_SELECTED = ↑r ∧ s.qualified ↑r = true ∧ m.gate = some (b, c, n) ∧ n + count <
     qual ∧ s.plbState = sFREERUN ∧ win < e.natAbs ∧ s.bit Fd.PLB_CTL_STEP_FREERUN = true ∧ fullTime ↑r = true) ∧
  (let s : State := gatedAcquire;
   let r : Fin 7 := 6;
   let cycles : Nat := 0;
   let sub : Nat := 0;
   let master : Nat := 2533274790395904000000;
   let m : RefMeas := s.ref ↑r;
   let b : Nat := (m.gate.getD default).1;
   let c : Nat := (m.gate.getD default).2.1;
   let n : Nat := (m.gate.getD default).snd.snd;
   let ofs : Int := s.gridOfs ↑sub;
   let on : Int := atRate s.freqF ofs;
   let stamp : Nat := (↑s.tme.t + on).toNat;
   let count : Nat := if 4 ≤ ↑r ∨ s.get (Fd.PLB_REFFREQ_FREQ_HZ ↑r) ≤ 1000 then 1 else cycles;
   let qual : Nat := s.get (Fd.PLB_REFQUAL_QUAL_CYCLES ↑r);
   let e : Int := s.sampleError (↑r) stamp master;
   let win : Nat := s.get Fd.PLB_LOCK_WIN_NS * nsU;
   s.Sealed ∧ s.stands = false ∧ ((s.measured ↑r = true ∧ s.clocksRun = true) ∧ ¬(¬(4 ≤ ↑r ∨ s.get (Fd.PLB_REFFREQ_FREQ_HZ ↑r) ≤ 1000) ∧ m.last ≠
     none ∧ m.lastMs = stamp / (1000000 * nsU))) ∧ s.get Fd.PLB_STATE_SELECTED = ↑r ∧ s.qualified ↑r = true ∧ m.gate = some (b, c, n) ∧ n + count <
     qual ∧ s.plbState = sACQUIRE ∧ e.natAbs ≤ win) ∧
  (let s : State := pb (fun p => { p with run := 10 ^ 6 * TT }) gatedOther;
   let r : Fin 7 := 6;
   let m : RefMeas := s.ref ↑r;
   s.Sealed ∧ s.stands = false ∧ (s.measured ↑r = true ∧ s.bit (Fd.PLB_REFSTAT_LOS ↑r) = false ∧ max (m.last.getD m.began) m.began + s.losWindow ↑r
     < s.plb.run)) ∧
  (let s : State := idle;
   let r : Fin 7 := 0;
   let m : RefMeas := s.ref ↑r;
   s.Sealed ∧ s.stands = false ∧ (¬(s.measured ↑r = true ∧ s.bit (Fd.PLB_REFSTAT_LOS ↑r) = false ∧ max (m.last.getD m.began) m.began + s.losWindow
     ↑r < s.plb.run))) :=
  (And.imp (given idle_sealed id) <|
  And.imp (And.imp sealed_of id) <|
  And.imp (given first_sealed id) <|
  And.imp (given gatedOther_sealed id) <|
  And.imp (And.imp sealed_of id) <|
  And.imp (given gatedLocked_sealed id) <|
  And.imp (given gatedLocked_sealed id) <|
  And.imp (given gatedStep_sealed id) <|
  And.imp (given gatedAcquire_sealed id) <|
  And.imp (And.imp sealed_of id) <|
  (given idle_sealed id))
  (by decide +kernel)

/-- States that meet the hypotheses of `Obligations.PlumbTimersAndOutputs`, clause by clause. -/
theorem witness_PlumbTimersAndOutputs :
  (let s : State := idle;
   let cur : Nat := s.get Fd.PLB_STATE_SELECTED;
   s.Sealed ∧ s.stands = false ∧ (s.bit Fd.PLB_CTL_AUTO = false ∨ s.bit Fd.PLB_CTL_REVERTIVE = false ∨ cur = 7)) ∧
  (let s : State := better20;
   let r : Nat := 0;
   let cur : Nat := s.get Fd.PLB_STATE_SELECTED;
   s.Sealed ∧ s.stands = false ∧ r < 7 ∧ s.bit Fd.PLB_CTL_AUTO = true ∧ s.bit Fd.PLB_CTL_REVERTIVE = true ∧ cur < 7 ∧ r ≠ cur ∧ ((s.bestOf fun r =>
     decide ((s.ref r).since + 10000000000 * nsU ≤ s.plb.run)) = some r) ∧ (s.priority r < s.priority cur ∨ s.priority r = s.priority cur ∧ r <
     cur)) ∧
  (let s : State := moved;
   let n : Nat := 0;
   s.Sealed ∧ s.stands = false ∧ s.plb.moveEnd = some n ∧ n ≤ s.plb.run) ∧
  (let s : State := moving;
   let n : Nat := 10;
   s.Sealed ∧ s.stands = false ∧ s.plb.moveEnd = some n ∧ s.plb.run < n) ∧
  (let s : State := idle;
   s.Sealed ∧ s.stands = false ∧ s.plb.moveEnd = none) ∧
  (let s : State := held;
   let limit : Nat := s.get Fd.PLB_CTL_HOLD_LIMIT_S;
   s.Sealed ∧ s.stands = false ∧ (s.plbState = sHOLDOVER ∧ limit ≠ 0 ∧ s.plb.heldAt + limit * 1000000000 * nsU ≤ s.plb.run)) ∧
  (let s : State := idle;
   let limit : Nat := s.get Fd.PLB_CTL_HOLD_LIMIT_S;
   s.Sealed ∧ s.stands = false ∧ (¬(s.plbState = sHOLDOVER ∧ limit ≠ 0 ∧ s.plb.heldAt + limit * 1000000000 * nsU ≤ s.plb.run))) ∧
  (let s : State := idle.put Fd.PLB_STATE_STATE sLOCKED;
   s.Sealed ∧ s.stands = false ∧ (s.plbState = sLOCKED ∧ (s.plb.hist = [] ∨ s.plb.histSec ≠ s.sec))) ∧
  (let s : State := idle;
   s.Sealed ∧ s.stands = false ∧ (¬(s.plbState = sLOCKED ∧ (s.plb.hist = [] ∨ s.plb.histSec ≠ s.sec)))) ∧
  (let s : State := events;
   let h : Nat := s.get Fd.PLB_HIST_HIST;
   s.Sealed ∧ s.stands = false ∧ (s.ready rMBX = true ∧ h &&& s.get Fd.PLB_IEN_IEN ≠ 0)) ∧
  (let s : State := idle;
   let h : Nat := s.get Fd.PLB_HIST_HIST;
   s.Sealed ∧ s.stands = false ∧ (¬(s.ready rMBX = true ∧ h &&& s.get Fd.PLB_IEN_IEN ≠ 0))) ∧
  (let s : State := gatedOff;
   s.Sealed ∧ s.stands = false ∧ s.clocksRun = false) ∧
  (let s : State := idle;
   let n : Fin 3 := 1;
   s.Sealed ∧ s.stands = false ∧ s.clocksRun = true ∧ ↑n < 2 ∧ (s.bit (outEnable ↑n) = false ∨ s.bit (outSquelch ↑n) = true ∧ s.plbState =
     sFREERUN)) ∧
  (let s : State := outputs;
   let n : Fin 3 := 0;
   let f : Nat := s.get (outFreq ↑n);
   let half : Nat := s.tme.t * 2 * f / (1000000000 * nsU);
   s.Sealed ∧ s.stands = false ∧ s.clocksRun = true ∧ ↑n < 2 ∧ (¬(s.bit (outEnable ↑n) = false ∨ s.bit (outSquelch ↑n) = true ∧ s.plbState =
     sFREERUN)) ∧ vget s.plb.hold ↑n ≤ s.plb.run ∧ half ≠ vget s.plb.half ↑n) :=
  (And.imp (given idle_sealed id) <|
  And.imp (given better20_sealed id) <|
  And.imp (given moved_sealed id) <|
  And.imp (given moving_sealed id) <|
  And.imp (given idle_sealed id) <|
  And.imp (given held_sealed id) <|
  And.imp (given idle_sealed id) <|
  And.imp (And.imp sealed_of id) <|
  And.imp (given idle_sealed id) <|
  And.imp (given events_sealed id) <|
  And.imp (given idle_sealed id) <|
  And.imp (And.imp sealed_of id) <|
  And.imp (given idle_sealed id) <|
  (given outputs_sealed id))
  (by decide +kernel)

/-- States that meet the hypotheses of `Obligations.PlumbTimersAndOutputs`, clause by clause (clauses 15 and on). -/
theorem witness_PlumbTimersAndOutputs_2 :
  (let s : State := idle;
   let n : Fin 3 := 0;
   let f : Nat := s.get (outFreq ↑n);
   let half : Nat := s.tme.t * 2 * f / (1000000000 * nsU);
   s.Sealed ∧ s.stands = false ∧ s.clocksRun = true ∧ ↑n < 2 ∧ (¬(s.bit (outEnable ↑n) = false ∨ s.bit (outSquelch ↑n) = true ∧ s.plbState =
     sFREERUN)) ∧ (s.plb.run < vget s.plb.hold ↑n ∨ half = vget s.plb.half ↑n)) ∧
  (let s : State := ppsOff;
   s.Sealed ∧ s.stands = false ∧ s.clocksRun = true ∧ (s.bit Fd.PLB_PPSOUT_ENABLE = false ∨ s.bit Fd.PLB_PPSOUT_SQUELCH = true ∧ s.plbState =
     sFREERUN)) ∧
  (let s : State := pps1;
   s.Sealed ∧ s.stands = false ∧ s.clocksRun = true ∧ (¬(s.bit Fd.PLB_PPSOUT_ENABLE = false ∨ s.bit Fd.PLB_PPSOUT_SQUELCH = true ∧ s.plbState =
     sFREERUN)) ∧ s.plb.ppsSec < s.sec) ∧
  (let s : State := ran pps2;
   let ends : Nat := s.plb.ppsRose + s.get Fd.PLB_PPSOUT_PW_US * 1000 * nsU;
   s.Sealed ∧ s.stands = false ∧ s.clocksRun = true ∧ (¬(s.bit Fd.PLB_PPSOUT_ENABLE = false ∨ s.bit Fd.PLB_PPSOUT_SQUELCH = true ∧ s.plbState =
     sFREERUN)) ∧ s.sec ≤ s.plb.ppsSec ∧ s.plb.ppsHigh = true ∧ ends ≤ s.plb.run) ∧
  (let s : State := pb (fun q => { q with ppsHigh := false }) pps2;
   let ends : Nat := s.plb.ppsRose + s.get Fd.PLB_PPSOUT_PW_US * 1000 * nsU;
   s.Sealed ∧ s.stands = false ∧ s.clocksRun = true ∧ (¬(s.bit Fd.PLB_PPSOUT_ENABLE = false ∨ s.bit Fd.PLB_PPSOUT_SQUELCH = true ∧ s.plbState =
     sFREERUN)) ∧ s.sec ≤ s.plb.ppsSec ∧ (s.plb.ppsHigh = false ∨ s.plb.run < ends)) :=
  (And.imp (given idle_sealed id) <|
  And.imp (given ppsOff_sealed id) <|
  And.imp (given pps1_sealed id) <|
  And.imp (And.imp sealed_of id) <|
  (And.imp sealed_of id))
  (by decide +kernel)

end SetW5

namespace SetF1

def base : M := mem (isa .f 1)

def running (s : State) : State :=
  { s with mbx := {}, pcie := {}, out := [], regs := [(0x40000040, 0x22222222), (0x40020004, 0xFF), (0x40020180, 1), (0x40020188, 1), (0x4002018C, 1),
      (0x40020190, 1), (0x40020194, 1), (0x40020198, 1), (0x4002019C, 1)].foldl (fun l p => sset regReset p.1 p.2 l) s.regs }

def grants (s : M) : M := (List.range 8).foldl (fun s b => ((s.put (Fd.BXM_BKF_BASE b) 0).put (Fd.BXM_BKF_LEN b) 64)) s

def byt (n seed : Nat) : List Byte := (List.range n).map fun i => BitVec.ofNat 8 (i * 7 + seed)

def eth (ty : Nat) (pay : List Byte) : List Byte := natBe 6 0x010203040506 ++ natBe 6 0x0A0B0C0D0E0F ++ natBe 2 ty ++ pay

def trdp (com ln : Nat) (pay : List Byte) : List Byte := let h := natBe 4 77 ++ natBe 2 1 ++ natBe 2 2 ++ natBe 4 com ++ natBe 4 0 ++ natBe 4 0 ++ natBe 4 ln ++ natBe 4 0 ++ natBe 4 0 ++ natBe 4 0
  h ++ natLe 4 (crc32 (h.take 36)).toNat ++ pay

def udp (src dst : Nat) (pay : List Byte) : List Byte := natBe 2 src ++ natBe 2 dst ++ natBe 2 (8 + pay.length) ++ natBe 2 0 ++ pay

def ip (src : Nat) (pay : List Byte) : List Byte := let h := [0x45,0] ++ natBe 2 (20 + pay.length) ++ natBe 4 0 ++ [64, 17] ++ natBe 2 0 ++ natBe 4 src ++ natBe 4 0xC0A80001
  h.take 10 ++ natBe 2 (ipSum h) ++ h.drop 12 ++ pay

def filt (com src mx : Nat) : Filter := { bay := 1, ports := 0xF, enable := true, comId := com, src := src, buf := 0x100, maxLen := mx }

def nt (s : M) : M := { (grants (running s)) with fw := { s.fw with bays := (grants (running s)).fw.bays.map fun b => { b with net := Vector.ofFn fun _ => { trdpFirst := 4, trdpCount := 8 } } } }

def ow (s : M) : M := { s with fw := { s.fw with bays := s.fw.bays.set 1 { (s.bayRec 1) with net := Vector.ofFn fun p => { queues := if p.val < 2 then 0xF9 else 0x40 } } } }

def nn (f : Net → Net) (s : M) : M := { s with net := f s.net }

def mp (f : MacPort → MacPort) (s : M) : M := nn (fun n => { n with ports := n.ports.map f }) s

def b0 : M := ow (nt base)

def b1 : M := { (List.range 4).foldl (fun s p => s.put (Fd.MAC_STAT_LINK p) 1) (mp (fun m => { m with mtu := 1500, mac := byt 6 1 }) b0) with mbx := base.mbx, out := [] }

def sa (rx : Bool) (an : Nat) : Sa := { bay := 1, rx := rx, an := an, slot := 4, xpn := false, sci := 5, pn := 9, ssci := 0, salt := [] }

def prp (s : M) : M := mp (fun m => { m with prp := true, prpSeq := 0xFFF0 }) s

def gb (l : List Byte) : List Granule := (List.range (cdiv l.length 16)).map fun i => { data := BitVec.ofNat 128 (leNat (fixLen 0 16 (l.drop (16 * i)))), tag := 2 ^ 25 + 16 * i }

def rec1 (c fl h n sa : Nat) (hd pay : List Byte) : List Byte := fixLen 0 16 (natLe 1 1 ++ natLe 1 c ++ natLe 1 fl ++ natLe 1 h ++ natLe 2 n ++ natLe 1 sa) ++ fixLen 0 (cdiv h 16 * 16) hd ++ (if fl / 4 % 2 = 1 then fixLen 0 16 (natLe 2 n) else []) ++ fixLen 0 (cdiv n 16 * 16) pay

def dm (l : List Granule) (f : M → M := id) : M := f (mp (fun m => { m with dma := l }) b1)

def fr (sa : Nat) (stamp : Bool) (l : List Byte) : NetFrame := { bay := 1, bytes := l, sa := sa, stamp := stamp, tag := 5 }

def q (c : Nat) (l : List NetFrame) (s : M) : M := if c = 8 then mp (fun m => { m with trdp := l }) s else if c = 9 then mp (fun m => { m with platform := l }) s else mp (fun m => { m with classes := vmod m.classes c fun q => { q with tx := l } }) s

theorem b0_sealed : State.Sealed b0 := sealed_of (by decide +kernel)

theorem b1_sealed : State.Sealed b1 := sealed_of (by decide +kernel)

/-- States that meet the hypotheses of `Obligations.Ethernet`, clause by clause. -/
theorem witness_Ethernet :
  (let s : State := State.putB b1 (rdyBit rNET) false;
   s.Sealed ∧ s.stands = false ∧ s.ready rNET = false) ∧
  (let p : Fin 4 := 0;
   let l : List Byte := [];
   let ty : Nat := (etherType l).fst;
   let s : State := mp (fun m => { m with sas := [(3, sa true 0)] }) b1;
   let m : MacPort := s.macPort ↑p;
   s.Sealed ∧ s.stands = false ∧ s.ready rNET = true ∧ s.prpOn ↑p = false ∧ (∃ e, e ∈ m.sas ∧ e.snd.rx = true) ∧ beAt l 12 2 ≠ 35045 ∧ ty ≠ 34958 ∧
     ty ≠ 35063) ∧
  (let s : State := b1;
   let p : Fin 4 := 0;
   let l : List Byte := eth 35045 (byt 60 1);
   let m : MacPort := s.macPort ↑p;
   s.Sealed ∧ s.stands = false ∧ s.ready rNET = true ∧ s.prpOn ↑p = false ∧ (∀ (e : Nat × Sa), e ∈ m.sas → e.snd.rx = false) ∧ beAt l 12 2 = 35045) ∧
  (let s : State := b0;
   let p : Fin 4 := 0;
   let l : List Byte := eth 4660 (byt 50 3);
   let m : MacPort := s.macPort ↑p;
   s.Sealed ∧ s.stands = false ∧ (s.ready rNET = true ∧ s.prpOn ↑p = false ∧ (∀ (e : Nat × Sa), e ∈ m.sas → e.snd.rx = false) ∧ beAt l 12 2 ≠ 35045)
     ∧ m.mtu + 18 < l.length) ∧
  (let s : State := b1;
   let p : Fin 4 := 0;
   let l : List Byte := eth 2054 (byt 46 9);
   let m : MacPort := s.macPort ↑p;
   let ty : Nat := (etherType l).fst;
   s.Sealed ∧ s.stands = false ∧ ((s.ready rNET = true ∧ s.prpOn ↑p = false ∧ (∀ (e : Nat × Sa), e ∈ m.sas → e.snd.rx = false) ∧ beAt l 12 2 ≠
     35045) ∧ l.length ≤ m.mtu + 18) ∧ ty = 2054) ∧
  (let s : State := b1;
   let p : Fin 4 := 0;
   let l : List Byte := eth 0x88F7 (byt 60 1);
   let m : MacPort := s.macPort ↑p;
   let ty : Nat := (etherType l).fst;
   s.Sealed ∧ s.stands = false ∧ ((s.ready rNET = true ∧ s.prpOn ↑p = false ∧ (∀ (e : Nat × Sa), e ∈ m.sas → e.snd.rx = false) ∧ beAt l 12 2 ≠
     35045) ∧ l.length ≤ m.mtu + 18) ∧ ty = 35063) ∧
  (let s : State := b1;
   let p : Fin 4 := 2;
   let l : List Byte := eth 0x1234 (byt 60 1);
   let m : MacPort := s.macPort ↑p;
   let ty : Nat := (etherType l).fst;
   let c : Nat := if beAt l 12 2 = 33024 then beAt l 14 1 / 32 else 0;
   s.Sealed ∧ s.stands = false ∧ (((s.ready rNET = true ∧ s.prpOn ↑p = false ∧ (∀ (e : Nat × Sa), e ∈ m.sas → e.snd.rx = false) ∧ beAt l 12 2 ≠
     35045) ∧ l.length ≤ m.mtu + 18) ∧ ty ≠ 2048 ∧ ty ≠ 35063 ∧ ty ≠ 2054 ∧ ty ≠ 34958 ∧ ty ≠ 35067) ∧ (∀ (b : Nat), b < 8 → s.ownsClass b (↑p) c =
     false)) ∧
  (let p : Fin 4 := 0;
   let l : List Byte := eth 0x1234 (byt 60 1);
   let ty : Nat := (etherType l).fst;
   let c : Nat := if beAt l 12 2 = 33024 then beAt l 14 1 / 32 else 0;
   let s : State := (fun s => mp (fun m => { m with classes := m.classes.map fun q => { q with rxLimit := 10 } }) s) b1;
   let b : Nat := (s.classOwner (↑p) c).getD default;
   let m : MacPort := s.macPort ↑p;
   let q : RxStream := vget m.rx b;
   s.Sealed ∧ s.stands = false ∧ (((s.ready rNET = true ∧ s.prpOn ↑p = false ∧ (∀ (e : Nat × Sa), e ∈ m.sas → e.snd.rx = false) ∧ beAt l 12 2 ≠
     35045) ∧ l.length ≤ m.mtu + 18) ∧ ty ≠ 2048 ∧ ty ≠ 35063 ∧ ty ≠ 2054 ∧ ty ≠ 34958 ∧ ty ≠ 35067) ∧ s.classOwner (↑p) c = some b ∧ (s.netClass
     (↑p) c).rxLimit < recordsHeld (vget q.queues c) + l.length + 16) ∧
  (let s : State := b1;
   let p : Fin 4 := 0;
   let l : List Byte := eth 0x1234 (byt 60 1);
   let m : MacPort := s.macPort ↑p;
   let ty : Nat := (etherType l).fst;
   let c : Nat := if beAt l 12 2 = 33024 then beAt l 14 1 / 32 else 0;
   let b : Nat := (s.classOwner (↑p) c).getD default;
   let q : RxStream := vget m.rx b;
   s.Sealed ∧ s.stands = false ∧ (((s.ready rNET = true ∧ s.prpOn ↑p = false ∧ (∀ (e : Nat × Sa), e ∈ m.sas → e.snd.rx = false) ∧ beAt l 12 2 ≠
     35045) ∧ l.length ≤ m.mtu + 18) ∧ ty ≠ 2048 ∧ ty ≠ 35063 ∧ ty ≠ 2054 ∧ ty ≠ 34958 ∧ ty ≠ 35067) ∧ s.classOwner (↑p) c = some b ∧ (¬(s.netClass
     (↑p) c).rxLimit < recordsHeld (vget q.queues c) + l.length + 16)) ∧
  (let s : State := b1;
   let p : Fin 4 := 0;
   let l : List Byte := eth 2048 (ip 167772161 (udp 1000 17224 (trdp 9 20 (byt 20 5))));
   let src : Nat := ((ipv4 l).getD default).snd.fst;
   let dst : Nat := ((ipv4 l).getD default).2.2.1;
   let ok : Bool := ((ipv4 l).getD default).2.2.2.1;
   let u : List Byte := ((ipv4 l).getD default).snd.snd.snd.snd;
   let m : MacPort := s.macPort ↑p;
   let ty : Nat := (etherType l).fst;
   let d : List Byte := List.drop 8 u;
   let hit : Option (Nat × Filter) := List.find? (fun e => e.snd.enable && bitAt e.snd.ports ↑p && decide (e.snd.comId = beAt d 8 4) && (decide
      (e.snd.src = 0) || decide (e.snd.src = src))) s.net.filters;
   s.Sealed ∧ s.stands = false ∧ ((s.ready rNET = true ∧ s.prpOn ↑p = false ∧ (∀ (e : Nat × Sa), e ∈ m.sas → e.snd.rx = false) ∧ beAt l 12 2 ≠
     35045) ∧ l.length ≤ m.mtu + 18) ∧ ty = 2048 ∧ ipv4 l = some (17, src, dst, ok, u) ∧ beAt u 2 2 = 17224 ∧ beAt u 0 2 ≠ 17225 ∧ s.jncUdp ↑p ≠
     some 17224 ∧ (¬(40 ≤ d.length ∧ fieldAt d 36 4 = BitVec.toNat (crc32 (List.take 36 d))) ∨ hit = none ∨ ∃ x, hit = some x ∧ x.snd.maxLen < beAt
     d 20 4)) ∧
  (let s : State := nn (fun x => { x with filters := [(10, filt 9 0 1000), (12, filt 9 5 1000)] }) b1;
   let p : Fin 4 := 0;
   let l : List Byte := eth 2048 (ip 167772161 (udp 1000 17224 (trdp 9 20 (byt 20 5))));
   let src : Nat := ((ipv4 l).getD default).snd.fst;
   let dst : Nat := ((ipv4 l).getD default).2.2.1;
   let ok : Bool := ((ipv4 l).getD default).2.2.2.1;
   let u : List Byte := ((ipv4 l).getD default).snd.snd.snd.snd;
   let m : MacPort := s.macPort ↑p;
   let ty : Nat := (etherType l).fst;
   let d : List Byte := List.drop 8 u;
   let hit : Option (Nat × Filter) := List.find? (fun f => f.snd.enable && bitAt f.snd.ports ↑p && decide (f.snd.comId = beAt d 8 4) && (decide
      (f.snd.src = 0) || decide (f.snd.src = src))) s.net.filters;
   let n : Nat := (hit.getD default).1;
   let e : Filter := (hit.getD default).snd;
   s.Sealed ∧ s.stands = false ∧ ((s.ready rNET = true ∧ s.prpOn ↑p = false ∧ (∀ (e : Nat × Sa), e ∈ m.sas → e.snd.rx = false) ∧ beAt l 12 2 ≠
     35045) ∧ l.length ≤ m.mtu + 18) ∧ ty = 2048 ∧ ipv4 l = some (17, src, dst, ok, u) ∧ beAt u 2 2 = 17224 ∧ beAt u 0 2 ≠ 17225 ∧ s.jncUdp ↑p ≠
     some 17224 ∧ (40 ≤ d.length ∧ fieldAt d 36 4 = BitVec.toNat (crc32 (List.take 36 d))) ∧ hit = some (n, e) ∧ beAt d 20 4 ≤ e.maxLen) ∧
  (let s : State := b1;
   let p : Fin 4 := 0;
   let m : MacPort := s.macPort ↑p;
   s.Sealed ∧ s.stands = false ∧ m.dma = []) ∧
  (let s : State := dm (gb (natLe 16 0));
   let p : Fin 4 := 0;
   let m : MacPort := s.macPort ↑p;
   let g : Granule := m.dma.headD default;
   s.Sealed ∧ s.stands = false ∧ m.dma = [g] ∧ fieldAt g.bytes 0 1 = 0) ∧
  (let s : State := dm (gb (natLe 16 2));
   let p : Fin 4 := 0;
   let m : MacPort := s.macPort ↑p;
   let g : Granule := m.dma.headD default;
   s.Sealed ∧ s.stands = false ∧ m.dma = [g] ∧ (1 < fieldAt g.bytes 0 1 ∨ fieldAt g.bytes 0 1 = 1 ∧ 64 < fieldAt g.bytes 3 1)) :=
  (And.imp (And.imp sealed_of id) <|
  And.imp (And.imp sealed_of id) <|
  And.imp (given b1_sealed id) <|
  And.imp (given b0_sealed id) <|
  And.imp (given b1_sealed id) <|
  And.imp (given b1_sealed id) <|
  And.imp (given b1_sealed id) <|
  And.imp (And.imp sealed_of (And.imp id (And.imp id (And.imp some_of id)))) <|
  And.imp (given b1_sealed (And.imp id (And.imp id (And.imp some_of id)))) <|
  And.imp (given b1_sealed id) <|
  And.imp (And.imp sealed_of id) <|
  And.imp (given b1_sealed id) <|
  And.imp (And.imp sealed_of id) <|
  (And.imp sealed_of id))
  (by decide +kernel)

/-- States that meet the hypotheses of `Obligations.Ethernet`, clause by clause (clauses 15 and on). -/
theorem witness_Ethernet_2 :
  (let s : State := dm (List.take 5 (gb (rec1 3 0 0 200 255 [] (byt 200 2))));
   let p : Fin 4 := 0;
   let m : MacPort := s.macPort ↑p;
   let head : List Byte := (m.dma.headD { }).bytes;
   let h : Nat := fieldAt head 3 1;
   let chain : Bool := bitAt (fieldAt head 2 1) 2;
   let n : Nat := if chain = true then fieldAt (m.dma.getD (1 + cdiv h 16) { }).bytes 0 2 else fieldAt head 4 2;
   let size : Nat := (1 + cdiv h 16 + if chain = true then 1 else 0) + cdiv n 16;
   s.Sealed ∧ s.stands = false ∧ (m.dma ≠ [] ∧ fieldAt head 0 1 = 1 ∧ h ≤ 64) ∧ m.dma.length < size) ∧
  (let s : State := dm (gb (rec1 3 0 42 20 255 (byt 42 1) (byt 20 2))) prp;
   let p : Fin 4 := 1;
   let b : Nat := 1;
   let m : MacPort := s.macPort ↑p;
   let head : List Byte := (m.dma.headD { }).bytes;
   let h : Nat := fieldAt head 3 1;
   let chain : Bool := bitAt (fieldAt head 2 1) 2;
   let n : Nat := if chain = true then fieldAt (m.dma.getD (1 + cdiv h 16) { }).bytes 0 2 else fieldAt head 4 2;
   let size : Nat := (1 + cdiv h 16 + if chain = true then 1 else 0) + cdiv n 16;
   s.Sealed ∧ s.stands = false ∧ ((m.dma ≠ [] ∧ fieldAt head 0 1 = 1 ∧ h ≤ 64) ∧ size ≤ m.dma.length ∧ ∀ (g : Granule), g ∈ List.take size m.dma →
     g.tag / 2 ^ 25 = b) ∧ s.prpHigh ↑p = true) ∧
  (let s : State := dm (gb (rec1 3 0 42 20 255 (byt 42 1) (byt 20 2)));
   let p : Fin 4 := 2;
   let b : Nat := 1;
   let m : MacPort := s.macPort ↑p;
   let head : List Byte := (m.dma.headD { }).bytes;
   let h : Nat := fieldAt head 3 1;
   let chain : Bool := bitAt (fieldAt head 2 1) 2;
   let n : Nat := if chain = true then fieldAt (m.dma.getD (1 + cdiv h 16) { }).bytes 0 2 else fieldAt head 4 2;
   let size : Nat := (1 + cdiv h 16 + if chain = true then 1 else 0) + cdiv n 16;
   let c : Nat := fieldAt head 1 1 % 8;
   let sa : Nat := fieldAt head 6 1;
   s.Sealed ∧ s.stands = false ∧ ((m.dma ≠ [] ∧ fieldAt head 0 1 = 1 ∧ h ≤ 64) ∧ size ≤ m.dma.length ∧ ∀ (g : Granule), g ∈ List.take size m.dma →
     g.tag / 2 ^ 25 = b) ∧ s.prpHigh ↑p = false ∧ (¬(s.ownsClass b (↑p) c = true ∧ (sa = 255 ∨ s.txSa b (↑p) sa = true)))) ∧
  (let s : State := dm (gb (rec1 3 1 40 20 255 (byt 40 1) (byt 20 2)));
   let p : Fin 4 := 0;
   let b : Nat := 1;
   let m : MacPort := s.macPort ↑p;
   let head : List Byte := (m.dma.headD { }).bytes;
   let h : Nat := fieldAt head 3 1;
   let chain : Bool := bitAt (fieldAt head 2 1) 2;
   let n : Nat := if chain = true then fieldAt (m.dma.getD (1 + cdiv h 16) { }).bytes 0 2 else fieldAt head 4 2;
   let size : Nat := (1 + cdiv h 16 + if chain = true then 1 else 0) + cdiv n 16;
   let c : Nat := fieldAt head 1 1 % 8;
   let fill : Bool := bitAt (fieldAt head 2 1) 0;
   let sa : Nat := fieldAt head 6 1;
   s.Sealed ∧ s.stands = false ∧ ((m.dma ≠ [] ∧ fieldAt head 0 1 = 1 ∧ h ≤ 64) ∧ size ≤ m.dma.length ∧ ∀ (g : Granule), g ∈ List.take size m.dma →
     g.tag / 2 ^ 25 = b) ∧ s.prpHigh ↑p = false ∧ (s.ownsClass b (↑p) c = true ∧ (sa = 255 ∨ s.txSa b (↑p) sa = true)) ∧ fill = true ∧ h ≠ 42 ∧ h ≠
     46) ∧
  (let s : State := dm (gb (rec1 3 0 42 1600 255 (byt 42 1) (byt 1600 2)));
   let p : Fin 4 := 0;
   let b : Nat := 1;
   let m : MacPort := s.macPort ↑p;
   let head : List Byte := (m.dma.headD { }).bytes;
   let h : Nat := fieldAt head 3 1;
   let chain : Bool := bitAt (fieldAt head 2 1) 2;
   let n : Nat := if chain = true then fieldAt (m.dma.getD (1 + cdiv h 16) { }).bytes 0 2 else fieldAt head 4 2;
   let size : Nat := (1 + cdiv h 16 + if chain = true then 1 else 0) + cdiv n 16;
   let c : Nat := fieldAt head 1 1 % 8;
   let fill : Bool := bitAt (fieldAt head 2 1) 0;
   let sa : Nat := fieldAt head 6 1;
   let l : List Byte := List.flatMap Granule.bytes (List.take size m.dma);
   let raw : List Byte := List.take h (List.drop 16 l) ++ List.take n (List.drop (16 + cdiv h 16 * 16 + if chain = true then 16 else 0) l);
   s.Sealed ∧ s.stands = false ∧ ((m.dma ≠ [] ∧ fieldAt head 0 1 = 1 ∧ h ≤ 64) ∧ size ≤ m.dma.length ∧ ∀ (g : Granule), g ∈ List.take size m.dma →
     g.tag / 2 ^ 25 = b) ∧ s.prpHigh ↑p = false ∧ (s.ownsClass b (↑p) c = true ∧ (sa = 255 ∨ s.txSa b (↑p) sa = true)) ∧ (fill = true → h = 42 ∨ h =
     46) ∧ m.mtu + 18 < raw.length) ∧
  (let p : Fin 4 := 0;
   let b : Nat := 1;
   let s : State := dm (gb (rec1 3 0 42 20 255 (byt 42 1) (byt 20 2))) (fun s => mp (fun m =>
      { m with classes := m.classes.map fun q => { q with txLimit := 10 } }) s);
   let m : MacPort := s.macPort ↑p;
   let head : List Byte := (m.dma.headD { }).bytes;
   let h : Nat := fieldAt head 3 1;
   let chain : Bool := bitAt (fieldAt head 2 1) 2;
   let n : Nat := if chain = true then fieldAt (m.dma.getD (1 + cdiv h 16) { }).bytes 0 2 else fieldAt head 4 2;
   let size : Nat := (1 + cdiv h 16 + if chain = true then 1 else 0) + cdiv n 16;
   let c : Nat := fieldAt head 1 1 % 8;
   let fill : Bool := bitAt (fieldAt head 2 1) 0;
   let sa : Nat := fieldAt head 6 1;
   let l : List Byte := List.flatMap Granule.bytes (List.take size m.dma);
   let raw : List Byte := List.take h (List.drop 16 l) ++ List.take n (List.drop (16 + cdiv h 16 * 16 + if chain = true then 16 else 0) l);
   let f : NetFrame :=
      { bay := b, bytes := if fill = true then fillHeader m.mac h raw else raw, sa := sa, stamp := bitAt (fieldAt head 2 1) 1, tag := fieldAt head 8 4 };
   s.Sealed ∧ s.stands = false ∧ (((m.dma ≠ [] ∧ fieldAt head 0 1 = 1 ∧ h ≤ 64) ∧ size ≤ m.dma.length ∧ ∀ (g : Granule), g ∈ List.take size m.dma →
     g.tag / 2 ^ 25 = b) ∧ s.prpHigh ↑p = false ∧ (s.ownsClass b (↑p) c = true ∧ (sa = 255 ∨ s.txSa b (↑p) sa = true)) ∧ (fill = true → h = 42 ∨ h =
     46) ∧ raw.length ≤ m.mtu + 18) ∧ (s.netClass (↑p) c).txLimit < bytesQueued (s.netClass (↑p) c).tx + f.bytes.length + 16) ∧
  (let p : Fin 4 := 0;
   let b : Nat := 1;
   let s : State := dm (gb (rec1 3 0 42 20 255 (byt 42 1) (byt 20 2))) (fun s => mp (fun m =>
      { m with classes := m.classes.map fun q => { q with longest := some 10 } }) s);
   let m : MacPort := s.macPort ↑p;
   let head : List Byte := (m.dma.headD { }).bytes;
   let h : Nat := fieldAt head 3 1;
   let chain : Bool := bitAt (fieldAt head 2 1) 2;
   let n : Nat := if chain = true then fieldAt (m.dma.getD (1 + cdiv h 16) { }).bytes 0 2 else fieldAt head 4 2;
   let size : Nat := (1 + cdiv h 16 + if chain = true then 1 else 0) + cdiv n 16;
   let c : Nat := fieldAt head 1 1 % 8;
   let fill : Bool := bitAt (fieldAt head 2 1) 0;
   let sa : Nat := fieldAt head 6 1;
   let l : List Byte := List.flatMap Granule.bytes (List.take size m.dma);
   let raw : List Byte := List.take h (List.drop 16 l) ++ List.take n (List.drop (16 + cdiv h 16 * 16 + if chain = true then 16 else 0) l);
   let f : NetFrame :=
      { bay := b, bytes := if fill = true then fillHeader m.mac h raw else raw, sa := sa, stamp := bitAt (fieldAt head 2 1) 1, tag := fieldAt head 8 4 };
   s.Sealed ∧ s.stands = false ∧ (((m.dma ≠ [] ∧ fieldAt head 0 1 = 1 ∧ h ≤ 64) ∧ size ≤ m.dma.length ∧ ∀ (g : Granule), g ∈ List.take size m.dma →
     g.tag / 2 ^ 25 = b) ∧ s.prpHigh ↑p = false ∧ (s.ownsClass b (↑p) c = true ∧ (sa = 255 ∨ s.txSa b (↑p) sa = true)) ∧ (fill = true → h = 42 ∨ h =
     46) ∧ raw.length ≤ m.mtu + 18) ∧ (¬(s.netClass (↑p) c).txLimit < bytesQueued (s.netClass (↑p) c).tx + f.bytes.length + 16) ∧ s.fitsIn (↑p) f
     (s.netClass (↑p) c).longest = false) ∧
  (let s : State := dm (gb (rec1 3 0 42 20 255 (byt 42 1) (byt 20 2)));
   let p : Fin 4 := 0;
   let b : Nat := 1;
   let m : MacPort := s.macPort ↑p;
   let head : List Byte := (m.dma.headD { }).bytes;
   let h : Nat := fieldAt head 3 1;
   let chain : Bool := bitAt (fieldAt head 2 1) 2;
   let n : Nat := if chain = true then fieldAt (m.dma.getD (1 + cdiv h 16) { }).bytes 0 2 else fieldAt head 4 2;
   let size : Nat := (1 + cdiv h 16 + if chain = true then 1 else 0) + cdiv n 16;
   let c : Nat := fieldAt head 1 1 % 8;
   let fill : Bool := bitAt (fieldAt head 2 1) 0;
   let sa : Nat := fieldAt head 6 1;
   let l : List Byte := List.flatMap Granule.bytes (List.take size m.dma);
   let raw : List Byte := List.take h (List.drop 16 l) ++ List.take n (List.drop (16 + cdiv h 16 * 16 + if chain = true then 16 else 0) l);
   let f : NetFrame :=
      { bay := b, bytes := if fill = true then fillHeader m.mac h raw else raw, sa := sa, stamp := bitAt (fieldAt head 2 1) 1, tag := fieldAt head 8 4 };
   s.Sealed ∧ s.stands = false ∧ (((m.dma ≠ [] ∧ fieldAt head 0 1 = 1 ∧ h ≤ 64) ∧ size ≤ m.dma.length ∧ ∀ (g : Granule), g ∈ List.take size m.dma →
     g.tag / 2 ^ 25 = b) ∧ s.prpHigh ↑p = false ∧ (s.ownsClass b (↑p) c = true ∧ (sa = 255 ∨ s.txSa b (↑p) sa = true)) ∧ (fill = true → h = 42 ∨ h =
     46) ∧ raw.length ≤ m.mtu + 18) ∧ (¬(s.netClass (↑p) c).txLimit < bytesQueued (s.netClass (↑p) c).tx + f.bytes.length + 16) ∧ s.fitsIn (↑p) f
     (s.netClass (↑p) c).longest = true) ∧
  (let s : State := State.putB b1 (rdyBit rNET) false;
   let p : Fin 4 := 0;
   let m : MacPort := s.macPort ↑p;
   s.Sealed ∧ s.stands = false ∧ (¬(s.ready rNET = true ∧ s.bit (Fd.MAC_STAT_LINK ↑p) = true ∧ s.prpHigh ↑p = false ∧ m.busy ≤ s.clk.now))) ∧
  (let s : State := b1;
   let p : Fin 4 := 0;
   s.Sealed ∧ s.stands = false ∧ (∀ (k : Nat), k < 10 → s.eligible (↑p) k = false)) ∧
  (let s : State := q 0 [fr 255 true (byt 40 2), fr 255 false (byt 10 2)] b1;
   let p : Fin 4 := 0;
   let k : Nat := 0;
   let f : NetFrame := (s.queueHead (↑p) k).getD default;
   let m : MacPort := s.macPort ↑p;
   let order : List Nat := [8, 9, 7, 6, 5, 4, 3, 2, 1, 0];
   s.Sealed ∧ s.stands = false ∧ (s.ready rNET = true ∧ s.bit (Fd.MAC_STAT_LINK ↑p) = true ∧ s.prpHigh ↑p = false ∧ m.busy ≤ s.clk.now) ∧
     (List.find? (fun k => s.eligible (↑p) k) order = some k) ∧ s.queueHead (↑p) k = some f ∧ s.prpOn ↑p = false ∧ (f.sa = 255 ∨ plainType f.bytes =
     true)) ∧
  (let s : State := q 0 [fr 255 false (byt 400 2)] (prp b1);
   let p : Fin 4 := 0;
   let k : Nat := 0;
   let f : NetFrame := (s.queueHead (↑p) k).getD default;
   let m : MacPort := s.macPort ↑p;
   let order : List Nat := [8, 9, 7, 6, 5, 4, 3, 2, 1, 0];
   s.Sealed ∧ s.stands = false ∧ (s.ready rNET = true ∧ s.bit (Fd.MAC_STAT_LINK ↑p) = true ∧ s.prpHigh ↑p = false ∧ m.busy ≤ s.clk.now) ∧
     (List.find? (fun k => s.eligible (↑p) k) order = some k) ∧ s.queueHead (↑p) k = some f ∧ s.prpOn ↑p = true ∧ (f.sa = 255 ∨ plainType f.bytes =
     true)) ∧
  (let s : State := q 0 [fr 3 false (eth 4660 (byt 100 5))] b1;
   let p : Fin 4 := 0;
   let k : Nat := 0;
   let f : NetFrame := (s.queueHead (↑p) k).getD default;
   let m : MacPort := s.macPort ↑p;
   let order : List Nat := [8, 9, 7, 6, 5, 4, 3, 2, 1, 0];
   s.Sealed ∧ s.stands = false ∧ (s.ready rNET = true ∧ s.bit (Fd.MAC_STAT_LINK ↑p) = true ∧ s.prpHigh ↑p = false ∧ m.busy ≤ s.clk.now) ∧
     (List.find? (fun k => s.eligible (↑p) k) order = some k) ∧ s.queueHead (↑p) k = some f ∧ s.prpOn ↑p = false ∧ (¬(f.sa = 255 ∨ plainType f.bytes
     = true)) ∧ (∀ (e : Nat × Sa), e ∈ m.sas → e.fst ≠ f.sa)) ∧
  (let s : State := b1;
   let p : Fin 4 := 0;
   let up : Bool := true;
   s.Sealed ∧ s.stands = false ∧ s.bit (Fd.MAC_STAT_LINK ↑p) = up) :=
  (And.imp (And.imp sealed_of id) <|
  And.imp (And.imp sealed_of id) <|
  And.imp (And.imp sealed_of id) <|
  And.imp (And.imp sealed_of id) <|
  And.imp (And.imp sealed_of id) <|
  And.imp (And.imp sealed_of id) <|
  And.imp (And.imp sealed_of id) <|
  And.imp (And.imp sealed_of id) <|
  And.imp (And.imp sealed_of id) <|
  And.imp (given b1_sealed id) <|
  And.imp (And.imp sealed_of (And.imp id (And.imp id (And.imp id (And.imp some_of id))))) <|
  And.imp (And.imp sealed_of (And.imp id (And.imp id (And.imp id (And.imp some_of id))))) <|
  And.imp (And.imp sealed_of (And.imp id (And.imp id (And.imp id (And.imp some_of id))))) <|
  (given b1_sealed id))
  (by decide +kernel)

/-- States that meet the hypotheses of `Obligations.Ethernet`, clause by clause (clauses 29 and on). -/
theorem witness_Ethernet_3 :
  (let s : State := b1;
   let p : Fin 4 := 0;
   let up : Bool := false;
   s.Sealed ∧ s.stands = false ∧ s.bit (Fd.MAC_STAT_LINK ↑p) ≠ up) :=
  ((given b1_sealed id))
  (by decide +kernel)

end SetF1

namespace SetW8

def byt (n seed : Nat) : List Byte := (List.range n).map fun i => BitVec.ofNat 8 (i * 7 + seed)

def fr (kind flags seq src hops dst : Nat) (arg pay : List Byte) (ack : Nat := 9) : List Byte := jncFrame kind flags seq ack (src + hops * 2^24 + 3 * 2^20) dst arg pay

def G : Geom := { turnLen := 1024, period := 1000, turns := 480, tail := 2000, replay := 1 }

def base : M := { isa .f 1 with pcie := {}, clk := { State.reset.clk with now := 10000003, ka := 20000000 }, tme := { State.reset.tme with t := 9 * 10 ^ 6 * 2 ^ 48 }, fig := { State.reset.fig with geom := some G, boundary := 10000000, measure := 9 } }

def link (v : Nat) (s : M) : M := (List.range 2).foldl (fun s p => (s.put (Fd.JNC_STAT_LINK p) v).put (Fd.JNC_STAT_TRAINED p) v) s

def ring : M := { link 1 (base.put Fd.JNC_NODE_NODE_ID 100) with mbx := {}, out := [] }

def jn (f : Jnc → Jnc) (s : M) : M := { s with jnc := f s.jnc }

def lk (f : JncLink → JncLink) (s : M) : M := jn (fun j => { j with links := j.links.map f }) s

def turn : M := lk (fun k => { k with rxSeq := 5, txSeq := 12 }) ring

def noFig : M := { turn with fig := { turn.fig with geom := none } }

def down : M := (link 0 turn).put (rdyBit rJNC) 1

def naked : M := lk (fun k => { k with naked := true }) turn

def sent (a t : Nat) : List JncSent := [{ seq := 7, bytes := fr 6 0 7 100 0 3 [] (byt 20 1), again := a, at_ := t }, { seq := 11, bytes := fr 6 0 11 100 0 3 [] (byt 20 1), again := 2, at_ := t }]

def resend : M := lk (fun k => { k with retry := sent 3 0 }) turn

def giveUp : M := lk (fun k => { k with retry := sent 16 0 }) turn

def notYet : M := lk (fun k => { k with retry := sent 3 19995000 }) turn

def asking : M := jn (fun j => { j with disc := some 19500000 }) turn

def askedOut : M := jn (fun j => { j with disc := some 500 }) turn

def heard : M := lk (fun k => { k with heard := some { time := 5, node := 3, state := 1, corr := 100, stamp := 77 } }) turn

def seg (f l fi ns : Nat) : JncSeg := { frame := f, line := l, first := fi, body := { tag := { sec := 0, ns := ns } } }

def segs (l : List JncSeg) (s : M) : M := jn (fun j => { j with rx := j.rx.map fun x => { x with segs := l } }) s

def frame : M := segs [seg 4 0 0xFFFF 8000000, seg 4 0 0 8000000] ring

theorem asking_sealed : State.Sealed asking := sealed_of (by decide +kernel)

theorem down_sealed : State.Sealed down := sealed_of (by decide +kernel)

theorem frame_sealed : State.Sealed frame := sealed_of (by decide +kernel)

theorem giveUp_sealed : State.Sealed giveUp := sealed_of (by decide +kernel)

theorem heard_sealed : State.Sealed heard := sealed_of (by decide +kernel)

theorem naked_sealed : State.Sealed naked := sealed_of (by decide +kernel)

theorem noFig_sealed : State.Sealed noFig := sealed_of (by decide +kernel)

theorem notYet_sealed : State.Sealed notYet := sealed_of (by decide +kernel)

theorem ring_sealed : State.Sealed ring := sealed_of (by decide +kernel)

theorem turn_sealed : State.Sealed turn := sealed_of (by decide +kernel)

/-- 20 ms of run time. -/
def ran (s : M) : M := { s with plb := { s.plb with run := 20000000 * 2 ^ 48 } }

/-- States that meet the hypotheses of `Obligations.Junction`, clause by clause. -/
theorem witness_Junction :
  (let s : State := down;
   let p : Fin 2 := 0;
   s.Sealed ∧ s.stands = false ∧ (¬s.linkUp ↑p = true)) ∧
  (let s : State := naked;
   let p : Fin 2 := 0;
   let l : List Byte := [];
   let k : JncLink := s.jlink ↑p;
   s.Sealed ∧ s.stands = false ∧ s.linkUp ↑p = true ∧ jncGood l = false ∧ k.naked = true) ∧
  (let s : State := ring;
   let p : Fin 2 := 0;
   let l : List Byte := [];
   let k : JncLink := s.jlink ↑p;
   s.Sealed ∧ s.stands = false ∧ s.linkUp ↑p = true ∧ jncGood l = false ∧ k.naked = false) ∧
  (let s : State := ring;
   let p : Fin 2 := 0;
   let l : List Byte := fr 0 0 5 7 1 100 [] [];
   let kind : Nat := fieldAt l 0 1;
   s.Sealed ∧ s.stands = false ∧ (s.linkUp ↑p = true ∧ jncGood l = true) ∧ (kind = 0 ∨ 6 < kind)) ∧
  (let s : State := ring;
   let p : Fin 2 := 0;
   let l : List Byte := fr 3 0 5 7 1 100 [] [];
   let k : JncLink := s.jlink ↑p;
   let kind : Nat := fieldAt l 0 1;
   s.Sealed ∧ s.stands = false ∧ ((s.linkUp ↑p = true ∧ jncGood l = true) ∧ k.queue = [] ∧ (↑p = 1 ∨ srcHops l ≠ 0)) ∧ kind = kACK) ∧
  (let s : State := ring;
   let p : Fin 2 := 0;
   let l : List Byte := fr 4 0 5 7 1 100 [] [] 7;
   let k : JncLink := s.jlink ↑p;
   let kind : Nat := fieldAt l 0 1;
   let left : List JncSent := List.filter (fun e => !(decide (1 ≤ (fieldAt l 4 2 + 65536 - e.seq) % 65536) && decide ((fieldAt l 4 2 + 65536 -
      e.seq) % 65536 ≤ 32768))) k.retry;
   s.Sealed ∧ s.stands = false ∧ ((s.linkUp ↑p = true ∧ jncGood l = true) ∧ k.queue = [] ∧ (↑p = 1 ∨ srcHops l ≠ 0)) ∧ kind = kNAK ∧ left = k.retry
     ∧ (∀ (e : JncSent), e ∈ k.retry → e.again < 16)) ∧
  (let s : State := giveUp;
   let p : Fin 2 := 0;
   let l : List Byte := fr 4 0 5 7 1 100 [] [] 7;
   let k : JncLink := s.jlink ↑p;
   let kind : Nat := fieldAt l 0 1;
   let left : List JncSent := List.filter (fun e => !(decide (1 ≤ (fieldAt l 4 2 + 65536 - e.seq) % 65536) && decide ((fieldAt l 4 2 + 65536 -
      e.seq) % 65536 ≤ 32768))) k.retry;
   s.Sealed ∧ s.stands = false ∧ ((s.linkUp ↑p = true ∧ jncGood l = true) ∧ k.queue = [] ∧ (↑p = 1 ∨ srcHops l ≠ 0)) ∧ kind = kNAK ∧ left = k.retry
     ∧ (∃ e, e ∈ k.retry ∧ 16 ≤ e.again)) ∧
  (let s : State := ring;
   let p : Fin 2 := 0;
   let l : List Byte := fr 1 0 5 7 1 100 (natLe 4 4) (byt 64 2);
   let k : JncLink := s.jlink ↑p;
   let kind : Nat := fieldAt l 0 1;
   s.Sealed ∧ s.stands = false ∧ k.rxSeq < 65536 ∧ ((s.linkUp ↑p = true ∧ jncGood l = true) ∧ k.queue = [] ∧ (↑p = 1 ∨ srcHops l ≠ 0)) ∧ (kind =
     kVIDEO ∨ kind = kCONTROL ∨ kind = kDISCOVER) ∧ fieldAt l 2 2 ≠ k.rxSeq) ∧
  (let s : State := noFig;
   let p : Fin 2 := 0;
   let l : List Byte := fr 1 0 5 7 1 100 (natLe 4 4) (byt 64 2);
   let k : JncLink := s.jlink ↑p;
   let kind : Nat := fieldAt l 0 1;
   s.Sealed ∧ s.stands = false ∧ k.rxSeq < 65536 ∧ ((s.linkUp ↑p = true ∧ jncGood l = true) ∧ k.queue = [] ∧ (↑p = 1 ∨ srcHops l ≠ 0)) ∧ ((kind =
     kVIDEO ∨ kind = kCONTROL) ∧ fieldAt l 2 2 = k.rxSeq) ∧ s.fig.geom = none) ∧
  (let s : State := turn;
   let p : Fin 2 := 0;
   let l : List Byte := fr 1 0 5 100 1 3 (natLe 8 4) (byt 64 2);
   let k : JncLink := s.jlink ↑p;
   let node : Nat := s.node;
   let kind : Nat := fieldAt l 0 1;
   s.Sealed ∧ s.stands = false ∧ k.rxSeq < 65536 ∧ ((s.linkUp ↑p = true ∧ jncGood l = true) ∧ k.queue = [] ∧ (↑p = 1 ∨ srcHops l ≠ 0)) ∧ ((kind =
     kVIDEO ∨ kind = kCONTROL) ∧ fieldAt l 2 2 = k.rxSeq) ∧ s.fig.geom.isSome = true ∧ srcNode l = node) ∧
  (let s : State := turn;
   let p : Fin 2 := 0;
   let l : List Byte := fr 1 0 5 7 1 100 (natLe 4 4) (byt 64 2);
   let k : JncLink := s.jlink ↑p;
   let node : Nat := s.node;
   let kind : Nat := fieldAt l 0 1;
   let bcast : Bool := bitAt (fieldAt l 1 1) 0;
   s.Sealed ∧ s.stands = false ∧ k.rxSeq < 65536 ∧ ((s.linkUp ↑p = true ∧ jncGood l = true) ∧ k.queue = [] ∧ (↑p = 1 ∨ srcHops l ≠ 0)) ∧ ((kind =
     kVIDEO ∨ kind = kCONTROL) ∧ fieldAt l 2 2 = k.rxSeq) ∧ s.fig.geom.isSome = true ∧ srcNode l ≠ node ∧ bcast = false ∧ fieldAt l 12 4 % 2 ^ 20 =
     node) ∧
  (let s : State := turn;
   let p : Fin 2 := 0;
   let l : List Byte := fr 1 1 5 7 63 3 (natLe 8 4) (byt 16 2);
   let k : JncLink := s.jlink ↑p;
   let node : Nat := s.node;
   let kind : Nat := fieldAt l 0 1;
   let bcast : Bool := bitAt (fieldAt l 1 1) 0;
   let hops : Nat := srcHops l + 1;
   s.Sealed ∧ s.stands = false ∧ k.rxSeq < 65536 ∧ ((s.linkUp ↑p = true ∧ jncGood l = true) ∧ k.queue = [] ∧ (↑p = 1 ∨ srcHops l ≠ 0)) ∧ ((kind =
     kVIDEO ∨ kind = kCONTROL) ∧ fieldAt l 2 2 = k.rxSeq) ∧ s.fig.geom.isSome = true ∧ srcNode l ≠ node ∧ 64 ≤ hops ∧ bcast = true) ∧
  (let s : State := turn;
   let p : Fin 2 := 0;
   let l : List Byte := fr 1 0 5 7 63 3 (natLe 8 4) (byt 16 2);
   let k : JncLink := s.jlink ↑p;
   let node : Nat := s.node;
   let kind : Nat := fieldAt l 0 1;
   let bcast : Bool := bitAt (fieldAt l 1 1) 0;
   let hops : Nat := srcHops l + 1;
   s.Sealed ∧ s.stands = false ∧ k.rxSeq < 65536 ∧ ((s.linkUp ↑p = true ∧ jncGood l = true) ∧ k.queue = [] ∧ (↑p = 1 ∨ srcHops l ≠ 0)) ∧ ((kind =
     kVIDEO ∨ kind = kCONTROL) ∧ fieldAt l 2 2 = k.rxSeq) ∧ s.fig.geom.isSome = true ∧ srcNode l ≠ node ∧ 64 ≤ hops ∧ bcast = false ∧ (¬fieldAt l 12
     4 % 2 ^ 20 = node)) ∧
  (let s : State := turn;
   let p : Fin 2 := 0;
   let l : List Byte := fr 1 0 5 7 62 3 (natLe 8 4) (byt 16 2);
   let k : JncLink := s.jlink ↑p;
   let node : Nat := s.node;
   let other : Nat := 1 - ↑p;
   let kind : Nat := fieldAt l 0 1;
   let bcast : Bool := bitAt (fieldAt l 1 1) 0;
   let hops : Nat := srcHops l + 1;
   let onward : List Byte := jncPatch l [(1, natLe 1 (fieldAt l 1 1 &&& 253)), (11, natLe 1 hops)];
   s.Sealed ∧ s.stands = false ∧ k.rxSeq < 65536 ∧ ((s.linkUp ↑p = true ∧ jncGood l = true) ∧ k.queue = [] ∧ (↑p = 1 ∨ srcHops l ≠ 0)) ∧ ((kind =
     kVIDEO ∨ kind = kCONTROL) ∧ fieldAt l 2 2 = k.rxSeq) ∧ s.fig.geom.isSome = true ∧ srcNode l ≠ node ∧ hops < 64 ∧ bcast = false ∧ (¬fieldAt l 12
     4 % 2 ^ 20 = node) ∧ ((s.jlink other).queue = [] ∧ s.linkUp other = true ∧ s.heldKind l = false ∧ retryBytes (s.jlink other) + onward.length ≤
     262144)) :=
  (And.imp (given down_sealed id) <|
  And.imp (given naked_sealed id) <|
  And.imp (given ring_sealed id) <|
  And.imp (given ring_sealed id) <|
  And.imp (given ring_sealed id) <|
  And.imp (given ring_sealed id) <|
  And.imp (given giveUp_sealed id) <|
  And.imp (given ring_sealed id) <|
  And.imp (given noFig_sealed id) <|
  And.imp (given turn_sealed id) <|
  And.imp (given turn_sealed id) <|
  And.imp (given turn_sealed id) <|
  And.imp (given turn_sealed id) <|
  (given turn_sealed id))
  (by decide +kernel)

/-- States that meet the hypotheses of `Obligations.Junction`, clause by clause (clauses 15 and on). -/
theorem witness_Junction_2 :
  (let s : State := turn;
   let p : Fin 2 := 0;
   let l : List Byte := fr 5 0 5 7 3 100 (natLe 4 100 ++ natLe 4 100) [];
   let k : JncLink := s.jlink ↑p;
   let node : Nat := s.node;
   let kind : Nat := fieldAt l 0 1;
   s.Sealed ∧ s.stands = false ∧ k.rxSeq < 65536 ∧ ((s.linkUp ↑p = true ∧ jncGood l = true) ∧ k.queue = [] ∧ (↑p = 1 ∨ srcHops l ≠ 0)) ∧ kind =
     kDISCOVER ∧ fieldAt l 2 2 = k.rxSeq ∧ fieldAt l 16 4 % 2 ^ 20 = node ∧ s.jnc.disc = none) ∧
  (let s : State := asking;
   let p : Fin 2 := 0;
   let l : List Byte := fr 5 0 5 7 3 100 (natLe 4 100 ++ natLe 4 100) [];
   let k : JncLink := s.jlink ↑p;
   let node : Nat := s.node;
   let kind : Nat := fieldAt l 0 1;
   s.Sealed ∧ s.stands = false ∧ k.rxSeq < 65536 ∧ ((s.linkUp ↑p = true ∧ jncGood l = true) ∧ k.queue = [] ∧ (↑p = 1 ∨ srcHops l ≠ 0)) ∧ kind =
     kDISCOVER ∧ fieldAt l 2 2 = k.rxSeq ∧ fieldAt l 16 4 % 2 ^ 20 = node ∧ s.jnc.disc.isSome = true ∧ s.jnc.discBy = []) ∧
  (let s : State := ring;
   let p : Fin 2 := 0;
   let l : List Byte := fr 2 0 0 7 1 0 (natLe 8 4886718345) (byt 32 1 ++ natLe 8 0 ++ byt 8 1);
   let k : JncLink := s.jlink ↑p;
   let node : Nat := s.node;
   let kind : Nat := fieldAt l 0 1;
   s.Sealed ∧ s.stands = false ∧ ((s.linkUp ↑p = true ∧ jncGood l = true) ∧ k.queue = [] ∧ (↑p = 1 ∨ srcHops l ≠ 0)) ∧ kind = kTIME ∧ srcNode l ≠
     node ∧ fieldAt (List.take 48 (List.drop 24 l)) 32 8 = 0) ∧
  (let s : State := notYet;
   let p : Fin 2 := 0;
   let k : JncLink := s.jlink ↑p;
   let e : JncSent := (k.retry).headD default;
   let r : List JncSent := (k.retry).tail;
   s.Sealed ∧ s.stands = false ∧ k.retry = e :: r ∧ (¬(s.linkUp ↑p = true ∧ e.at_ + 10000 ≤ s.runNs))) ∧
  (let s : State := ran resend;
   let p : Fin 2 := 0;
   let k : JncLink := s.jlink ↑p;
   let e : JncSent := (k.retry).headD default;
   let r : List JncSent := (k.retry).tail;
   s.Sealed ∧ s.stands = false ∧ k.retry = e :: r ∧ (s.linkUp ↑p = true ∧ e.at_ + 10000 ≤ s.runNs) ∧ (∀ (x : JncSent), x ∈ k.retry → x.again < 16)) ∧
  (let s : State := ran giveUp;
   let p : Fin 2 := 0;
   let k : JncLink := s.jlink ↑p;
   let e : JncSent := (k.retry).headD default;
   let r : List JncSent := (k.retry).tail;
   s.Sealed ∧ s.stands = false ∧ k.retry = e :: r ∧ (s.linkUp ↑p = true ∧ e.at_ + 10000 ≤ s.runNs) ∧ (∃ x, x ∈ k.retry ∧ 16 ≤ x.again)) ∧
  (let s : State := ring;
   let p : Fin 2 := 0;
   let k : JncLink := s.jlink ↑p;
   s.Sealed ∧ s.stands = false ∧ k.retry = []) ∧
  (let s : State := down;
   let p : Fin 2 := 0;
   let k : JncLink := s.jlink ↑p;
   s.Sealed ∧ s.stands = false ∧ (¬(s.linkUp ↑p = true ∧ k.sentAt + 1000 ≤ s.runNs))) ∧
  (let s : State := ran turn;
   let p : Fin 2 := 0;
   let k : JncLink := s.jlink ↑p;
   s.Sealed ∧ s.stands = false ∧ (s.linkUp ↑p = true ∧ k.sentAt + 1000 ≤ s.runNs)) ∧
  (let s : State := (down.put Fd.JNC_RING_MASTER (down.masterNode % 2 ^ 20));
   let ms : Nat := s.ns / 1000000;
   let master : Nat := s.masterNode % 2 ^ 20;
   s.Sealed ∧ s.stands = false ∧ s.get Fd.JNC_RING_MASTER = master ∧ (∀ (q : Nat), q < 2 → ¬(s.linkUp q = true ∧ s.jncMode ≠ 1 ∧ (s.jlink q).timeAt
     ≠ some ms))) ∧
  (let s : State := down;
   let master : Nat := s.masterNode % 2 ^ 20;
   s.Sealed ∧ s.stands = false ∧ (¬s.get Fd.JNC_RING_MASTER = master)) ∧
  (let s : State := ring;
   let p : Fin 2 := 0;
   let ms : Nat := s.ns / 1000000;
   s.Sealed ∧ s.stands = false ∧ (s.linkUp ↑p = true ∧ s.jncMode ≠ 1 ∧ (s.jlink ↑p).timeAt ≠ some ms) ∧ s.ringMaster = none) ∧
  (let s : State := heard;
   let p : Fin 2 := 0;
   let q : Nat := ((s.ringMaster).getD default).1;
   let h : JncHeard := ((s.ringMaster).getD default).2;
   let ms : Nat := s.ns / 1000000;
   s.Sealed ∧ s.stands = false ∧ (s.linkUp ↑p = true ∧ s.jncMode ≠ 1 ∧ (s.jlink ↑p).timeAt ≠ some ms) ∧ s.ringMaster = some (q, h)) ∧
  (let s : State := asking;
   let x : Nat := 19500000;
   s.Sealed ∧ s.stands = false ∧ s.jnc.disc = some x ∧ s.runNs < x + 1000000) :=
  (And.imp (given turn_sealed id) <|
  And.imp (given asking_sealed id) <|
  And.imp (given ring_sealed id) <|
  And.imp (given notYet_sealed (And.imp id (And.imp cons_of id))) <|
  And.imp (And.imp sealed_of (And.imp id (And.imp cons_of id))) <|
  And.imp (And.imp sealed_of (And.imp id (And.imp cons_of id))) <|
  And.imp (given ring_sealed id) <|
  And.imp (given down_sealed id) <|
  And.imp (And.imp sealed_of id) <|
  And.imp (And.imp sealed_of id) <|
  And.imp (given down_sealed id) <|
  And.imp (given ring_sealed id) <|
  And.imp (given heard_sealed id) <|
  (given asking_sealed id))
  (by decide +kernel)

/-- States that meet the hypotheses of `Obligations.Junction`, clause by clause (clauses 29 and on). -/
theorem witness_Junction_3 :
  (let s : State := ring;
   s.Sealed ∧ s.stands = false ∧ s.jnc.disc = none) ∧
  (let s : State := ran askedOut;
   let x : Nat := 500;
   s.Sealed ∧ s.stands = false ∧ s.jnc.disc = some x ∧ x + 1000000 ≤ s.runNs ∧ s.jnc.discBy = []) ∧
  (let s : State := ring;
   let i : Fin 8 := 0;
   let r : JncRx := s.jrx ↑i;
   s.Sealed ∧ s.stands = false ∧ (r.cur.isSome = true ∨ ∀ (g : JncSeg), g ∈ r.segs → ¬(g.line = 0 ∧ g.first = 65535 ∧ tagNs g.body.tag + s.get
     (Fd.JNC_RXDLY_NS ↑i) ≤ s.ns))) ∧
  (let s : State := frame;
   let i : Fin 8 := 0;
   let r : JncRx := s.jrx ↑i;
   s.Sealed ∧ s.stands = false ∧ r.cur = none ∧ (∃ g, g ∈ r.segs ∧ g.line = 0 ∧ g.first = 65535 ∧ tagNs g.body.tag + s.get (Fd.JNC_RXDLY_NS ↑i) ≤
     s.ns)) ∧
  (let s : State := link 0 ring;
   let p : Fin 2 := 0;
   s.Sealed ∧ s.stands = false ∧ (¬s.linkUp ↑p = true ∧ s.ready rJNC = true ∧ bitAt s.jnc.ports ↑p = true)) ∧
  (let s : State := ring;
   let p : Fin 2 := 0;
   s.Sealed ∧ s.stands = false ∧ (¬(¬s.linkUp ↑p = true ∧ s.ready rJNC = true ∧ bitAt s.jnc.ports ↑p = true))) ∧
  (let s : State := ring;
   let p : Fin 2 := 0;
   s.Sealed ∧ s.stands = false ∧ s.bit (Fd.JNC_STAT_LINK ↑p) = true) ∧
  (let s : State := down;
   let p : Fin 2 := 0;
   s.Sealed ∧ s.stands = false ∧ (¬s.bit (Fd.JNC_STAT_LINK ↑p) = true)) :=
  (And.imp (given ring_sealed id) <|
  And.imp (And.imp sealed_of id) <|
  And.imp (given ring_sealed id) <|
  And.imp (given frame_sealed id) <|
  And.imp (And.imp sealed_of id) <|
  And.imp (given ring_sealed id) <|
  And.imp (given ring_sealed id) <|
  (given down_sealed id))
  (by decide +kernel)

end SetW8

namespace SetW9

def grant (s : M) : M := (s.put (Fd.BXM_BKF_BASE 1) 0).put (Fd.BXM_BKF_LEN 1) 64

def setKey (n ty usage owner key : Nat) (s : M) : M :=
  (((s.put (Fd.KEY_SLOT_OWNER n) owner).put (Fd.KEY_SLOT_TYPE n) ty).put (Fd.KEY_SLOT_USAGE n) usage).modKeys fun k =>
    { k with slots := vmod k.slots n fun _ => { share := key, mask := 0, tag := s.tagOf n ty usage owner key } }

def base : M := grant { isa .f 1 with pcie := {}, clk := { State.reset.clk with now := 10000003, ka := 20000000 } }

def keyed : M := setKey 13 1 (2 ^ uSEAL) 1 99 (setKey 6 3 (2 ^ uVERIFY) 1 6 (setKey 4 0 3 1 4 base))

def ks (f : Keys → Keys) (s : M) : M := { s with keys := f s.keys }

def job (op key src : Nat) (s : M) : M :=
  let s := ks (fun k => { k with jobs := 2, next := 3 }) s
  [op, key, src, 16, 0x10000200, 0x10000080, 20].zipIdx.foldl (fun s (v, i) => s.setReg (Reg.CRY_JOB 1 i) (BitVec.ofNat 32 v)) s

def A0 : Nat := 0x10000000

def asleep : M := (job 3 0 A0 base).put (bayStateFld 1) bASLEEP

def sl (f : SealIn → SealIn) (s : M) : M := { s with seals := s.seals.map fun q => f { q with active := true, bay := 1, slot := 13, frames := 3, chainId := 77, seq := 5, c := List.replicate 32 9, filled := 64, emitted := 4, df := [1, 2, 3] } }

def chain : M := sl id base

def lost : M := sl (fun q => { q with recs := [none] }) base

def rc (fl n : Nat) : List Byte := natLe 2 n ++ natLe 2 fl ++ (List.range (12 + n)).map fun i => BitVec.ofNat 8 i

def recs (c : Nat) (h st : Bool) (fl : Nat) : M := sl (fun q => { q with recs := [some (rc fl 20)], hashing := h, count := c, stopping := st }) base

def inner : M := recs 0 false false 0

def first : M := recs 0 true false 0

def last : M := recs 0 true false 2

def lastOf : M := recs 2 true false 2

def lastStop : M := recs 0 true true 2

def due : SealDue := { body := List.replicate 64 3, seq := 9, measure := 4, closing := false }

def signing : M := sl (fun q => { q with due := [due] }) keyed

def signBad : M := signing.put (Fd.KEY_SLOT_BAD 13) 1

theorem asleep_sealed : State.Sealed asleep := sealed_of (by decide +kernel)

theorem base_sealed : State.Sealed base := sealed_of (by decide +kernel)

theorem chain_sealed : State.Sealed chain := sealed_of (by decide +kernel)

theorem first_sealed : State.Sealed first := sealed_of (by decide +kernel)

theorem inner_sealed : State.Sealed inner := sealed_of (by decide +kernel)

theorem last_sealed : State.Sealed last := sealed_of (by decide +kernel)

theorem lastOf_sealed : State.Sealed lastOf := sealed_of (by decide +kernel)

theorem lastStop_sealed : State.Sealed lastStop := sealed_of (by decide +kernel)

theorem lost_sealed : State.Sealed lost := sealed_of (by decide +kernel)

theorem signBad_sealed : State.Sealed signBad := sealed_of (by decide +kernel)

/-- Bay 1's job has read `got` and waits for request 7, whose answer is `ans`. -/
def work (op key dst aux aad : Nat) (got : List (List Byte)) (ans : Option (List Byte)) (ends : Option Nat) (s : M) : M :=
  let s := ks (fun k => { k with jobs := 2, next := 3, run := some { bay := 1, got := got, wait := some 7, ends := ends } }) s
  let s := [op, key, A0, 16, dst, aux, aad].zipIdx.foldl (fun s (v, i) => s.setReg (Reg.CRY_JOB 1 i) (BitVec.ofNat 32 v)) s
  { s with bxm := { s.bxm with answers := [(7, ans)] } }

/-- A slot for signing beside the others. -/
def keys4 : M := setKey 20 1 (2 ^ uSIGN) 1 5 keyed

/-- A range that the grant of bay 1 lets it access, one outside it, and one in working SRAM. -/
def mine : Nat := 0x10000200
def away : Nat := 0x11000000
def stat : Nat := 0x08040200

def thirty2 : List Byte := List.replicate 32 1
def nonce : List Byte := List.replicate 12 2

/-- States that meet the hypotheses of `Obligations.CryptoAndSeals`, clause by clause. -/
theorem witness_CryptoAndSeals :
  (let s : State := base;
   s.Sealed ∧ s.stands = false) ∧
  (let s : State := asleep;
   let b : Fin 8 := 1;
   s.Sealed ∧ s.stands = false ∧ (¬s.keys.jobs.getLsbD ↑b = false)) ∧
  (let s : State := base;
   let b : Fin 8 := 2;
   s.Sealed ∧ s.stands = false ∧ s.keys.jobs.getLsbD ↑b = false ∧ (¬(b = 0 ∨ s.bayState ↑b = bRUNNING))) ∧
  (let s : State := base;
   let b : Fin 8 := 0;
   s.Sealed ∧ s.stands = false ∧ s.keys.jobs.getLsbD ↑b = false ∧ (b = 0 ∨ s.bayState ↑b = bRUNNING)) ∧
  (let s : State := base;
   s.Sealed ∧ s.stands = false ∧ s.keys.run = none ∧ s.keys.jobs = 0) ∧
  (let s : State := { work 3 0 mine mine 20 [] (some thirty2) none keys4 with bxm := base.bxm };
   let r : JobRun := (s.keys.run).getD default;
   let id : Nat := (r.wait).getD default;
   s.Sealed ∧ s.stands = false ∧ s.keys.run = some r ∧ r.wait = some id ∧ s.answerTo id = none) ∧
  (let s : State := asleep;
   let b : Fin 8 := 1;
   s.Sealed ∧ s.stands = false ∧ (s.keys.run = none ∧ List.find? (fun x => s.keys.jobs.getLsbD x) (List.map (fun i => (s.keys.next + 1 + i) % 8)
     (List.range 8)) = some ↑b) ∧ (¬(b = 0 ∨ s.bayState ↑b = bRUNNING))) ∧
  (let s : State := job 3 0 A0 base;
   let b : Fin 8 := 1;
   let w : Nat → Nat := s.jobWord ↑b;
   let req : Nat → Nat → List Byte → BusReq := fun a n l => s.agentReq 6 Asker.job (s.bayPlace (↑b) a) n l;
   s.Sealed ∧ s.stands = false ∧ (s.keys.run = none ∧ List.find? (fun x => s.keys.jobs.getLsbD x) (List.map (fun i => (s.keys.next + 1 + i) % 8)
     (List.range 8)) = some ↑b) ∧ (b = 0 ∨ s.bayState ↑b = bRUNNING) ∧ 0 < w 3 ∧ (((req (w 2) (w 3) []).target = 2 ∨ (req (w 2) (w 3) []).target = 3
     ∨ s.grantsNow (req (w 2) (w 3) []) = false) ∧ (b = 0 ∨ (s.granted (↑b) (s.bayPlace (↑b) (w 2)) (w 3 + ([] : List Byte).length) (!([] : List
     Byte).isEmpty)) = true))) ∧
  (let s : State := job 3 0 away base;
   let b : Fin 8 := 1;
   let w : Nat → Nat := s.jobWord ↑b;
   s.Sealed ∧ s.stands = false ∧ (s.keys.run = none ∧ List.find? (fun x => s.keys.jobs.getLsbD x) (List.map (fun i => (s.keys.next + 1 + i) % 8)
     (List.range 8)) = some ↑b) ∧ (b = 0 ∨ s.bayState ↑b = bRUNNING) ∧ 0 < w 3 ∧ (¬(b = 0 ∨ (s.granted (↑b) (s.bayPlace (↑b) (w 2)) (w 3 + ([] :
     List Byte).length) (!([] : List Byte).isEmpty)) = true))) ∧
  (let s : State := work 3 0 mine mine 20 [] none none keys4;
   let b : Fin 8 := 1;
   let r : JobRun := (s.keys.run).getD default;
   let id : Nat := (r.wait).getD default;
   s.Sealed ∧ s.stands = false ∧ s.keys.run = some r ∧ r.bay = ↑b ∧ r.wait = some id ∧ s.answerTo id = some none) ∧
  (let s : State := work 3 0 mine mine 20 [] (some thirty2) (some 0) keys4;
   let b : Fin 8 := 1;
   let r : JobRun := (s.keys.run).getD default;
   let id : Nat := (r.wait).getD default;
   let l : List Byte := thirty2;
   let st : Nat := (r.ends).getD default;
   s.Sealed ∧ s.stands = false ∧ s.keys.run = some r ∧ r.bay = ↑b ∧ r.wait = some id ∧ s.answerTo id = some (some l) ∧ r.ends = some st ∧ st < 256) ∧
  (let s : State := work 0 0 mine mine 20 [] (some thirty2) none keys4;
   let b : Fin 8 := 1;
   let src : List Byte := thirty2;
   let w : Nat → Nat := s.jobWord ↑b;
   s.Sealed ∧ s.stands = false ∧ (∃ id l prev, [src] = prev ++ [l] ∧ s.keys.run = some { bay := ↑b, got := prev, wait := some id } ∧ s.answerTo id =
     some (some l)) ∧ (w 0 = 0 ∨ 6 < w 0)) ∧
  (let s : State := work 3 0 mine mine 20 [] (some thirty2) none keys4;
   let b : Fin 8 := 1;
   let src : List Byte := thirty2;
   let w : Nat → Nat := s.jobWord ↑b;
   let req : Nat → Nat → List Byte → BusReq := fun a n l => s.agentReq 6 Asker.job (s.bayPlace (↑b) a) n l;
   s.Sealed ∧ s.stands = false ∧ (∃ id l prev, [src] = prev ++ [l] ∧ s.keys.run = some { bay := ↑b, got := prev, wait := some id } ∧ s.answerTo id =
     some (some l)) ∧ w 0 = 3 ∧ (((req (w 4) 0 (bytesN 32 (Config.sha256 src))).target = 2 ∨ (req (w 4) 0 (bytesN 32 (Config.sha256 src))).target =
     3 ∨ s.grantsNow (req (w 4) 0 (bytesN 32 (Config.sha256 src))) = false) ∧ (b = 0 ∨ (s.granted (↑b) (s.bayPlace (↑b) (w 4)) (0 + (bytesN 32
     (Config.sha256 src)).length) !(bytesN 32 (Config.sha256 src)).isEmpty) = true))) ∧
  (let s : State := work 3 0 away mine 20 [] (some thirty2) none keys4;
   let b : Fin 8 := 1;
   let src : List Byte := thirty2;
   let w : Nat → Nat := s.jobWord ↑b;
   s.Sealed ∧ s.stands = false ∧ (∃ id l prev, [src] = prev ++ [l] ∧ s.keys.run = some { bay := ↑b, got := prev, wait := some id } ∧ s.answerTo id =
     some (some l)) ∧ w 0 = 3 ∧ (¬(b = 0 ∨ (s.granted (↑b) (s.bayPlace (↑b) (w 4)) (0 + (bytesN 32 (Config.sha256 src)).length) !(bytesN 32
     (Config.sha256 src)).isEmpty) = true))) :=
  (And.imp (given base_sealed id) <|
  And.imp (given asleep_sealed id) <|
  And.imp (given base_sealed id) <|
  And.imp (given base_sealed id) <|
  And.imp (given base_sealed id) <|
  And.imp (And.imp sealed_of (And.imp id (And.imp some_of (And.imp some_of id)))) <|
  And.imp (given asleep_sealed id) <|
  And.imp (And.imp sealed_of id) <|
  And.imp (And.imp sealed_of id) <|
  And.imp (And.imp sealed_of (And.imp id (And.imp some_of (And.imp id (And.imp some_of id))))) <|
  And.imp (And.imp sealed_of (And.imp id (And.imp some_of (And.imp id (And.imp some_of (And.imp id (And.imp some_of id))))))) <|
  And.imp (And.imp sealed_of (And.imp id (And.imp (has_of (prev := []) (l := thirty2) 7) id))) <|
  And.imp (And.imp sealed_of (And.imp id (And.imp (has_of (prev := []) (l := thirty2) 7) (And.imp id ((And.imp Or.inl mayPut)))))) <|
  (And.imp sealed_of (And.imp id (And.imp (has_of (prev := []) (l := thirty2) 7) (And.imp id mayNotPut)))))
  (by decide +kernel)

/-- States that meet the hypotheses of `Obligations.CryptoAndSeals`, clause by clause (clauses 15 and on). -/
theorem witness_CryptoAndSeals_2 :
  (let s : State := work 3 0 stat mine 20 [] (some thirty2) none keys4;
   let b : Fin 8 := 1;
   let src : List Byte := thirty2;
   let o : Nat := 0x40200;
   let w : Nat → Nat := s.jobWord ↑b;
   let req : Nat → Nat → List Byte → BusReq := fun a n l => s.agentReq 6 Asker.job (s.bayPlace (↑b) a) n l;
   s.Sealed ∧ s.stands = false ∧ (∃ id l prev, [src] = prev ++ [l] ∧ s.keys.run = some { bay := ↑b, got := prev, wait := some id } ∧ s.answerTo id =
     some (some l)) ∧ w 0 = 3 ∧ s.bayPlace (↑b) (w 4) = Place.sram o ∧ s.grantsNow (req (w 4) 0 (bytesN 32 (Config.sha256 src))) = true ∧ (b = 0 ∨
     (s.granted (↑b) (s.bayPlace (↑b) (w 4)) (0 + (bytesN 32 (Config.sha256 src)).length) !(bytesN 32 (Config.sha256 src)).isEmpty) = true) ∧ o +
     (bytesN 32 (Config.sha256 src)).length ≤ sramSize) ∧
  (let s : State := work 4 0 mine mine 20 [] (some thirty2) none keys4;
   let b : Fin 8 := 1;
   let src : List Byte := thirty2;
   let w : Nat → Nat := s.jobWord ↑b;
   let req : Nat → Nat → List Byte → BusReq := fun a n l => s.agentReq 6 Asker.job (s.bayPlace (↑b) a) n l;
   s.Sealed ∧ s.stands = false ∧ (∃ id l prev, [src] = prev ++ [l] ∧ s.keys.run = some { bay := ↑b, got := prev, wait := some id } ∧ s.answerTo id =
     some (some l)) ∧ w 0 = 4 ∧ (((req (w 4) 0 (bytesN 48 (Config.sha384 src))).target = 2 ∨ (req (w 4) 0 (bytesN 48 (Config.sha384 src))).target =
     3 ∨ s.grantsNow (req (w 4) 0 (bytesN 48 (Config.sha384 src))) = false) ∧ (b = 0 ∨ (s.granted (↑b) (s.bayPlace (↑b) (w 4)) (0 + (bytesN 48
     (Config.sha384 src)).length) !(bytesN 48 (Config.sha384 src)).isEmpty) = true))) ∧
  (let s : State := work 4 0 away mine 20 [] (some thirty2) none keys4;
   let b : Fin 8 := 1;
   let src : List Byte := thirty2;
   let w : Nat → Nat := s.jobWord ↑b;
   s.Sealed ∧ s.stands = false ∧ (∃ id l prev, [src] = prev ++ [l] ∧ s.keys.run = some { bay := ↑b, got := prev, wait := some id } ∧ s.answerTo id =
     some (some l)) ∧ w 0 = 4 ∧ (¬(b = 0 ∨ (s.granted (↑b) (s.bayPlace (↑b) (w 4)) (0 + (bytesN 48 (Config.sha384 src)).length) !(bytesN 48
     (Config.sha384 src)).isEmpty) = true))) ∧
  (let s : State := work 4 0 stat mine 20 [] (some thirty2) none keys4;
   let b : Fin 8 := 1;
   let src : List Byte := thirty2;
   let o : Nat := 0x40200;
   let w : Nat → Nat := s.jobWord ↑b;
   let req : Nat → Nat → List Byte → BusReq := fun a n l => s.agentReq 6 Asker.job (s.bayPlace (↑b) a) n l;
   s.Sealed ∧ s.stands = false ∧ (∃ id l prev, [src] = prev ++ [l] ∧ s.keys.run = some { bay := ↑b, got := prev, wait := some id } ∧ s.answerTo id =
     some (some l)) ∧ w 0 = 4 ∧ s.bayPlace (↑b) (w 4) = Place.sram o ∧ s.grantsNow (req (w 4) 0 (bytesN 48 (Config.sha384 src))) = true ∧ (b = 0 ∨
     (s.granted (↑b) (s.bayPlace (↑b) (w 4)) (0 + (bytesN 48 (Config.sha384 src)).length) !(bytesN 48 (Config.sha384 src)).isEmpty) = true) ∧ o +
     (bytesN 48 (Config.sha384 src)).length ≤ sramSize) ∧
  (let s : State := work 1 40 mine mine 20 [] (some thirty2) none keys4;
   let b : Fin 8 := 1;
   let src : List Byte := thirty2;
   let w : Nat → Nat := s.jobWord ↑b;
   let key : Nat := w 1 % 256;
   s.Sealed ∧ s.stands = false ∧ (∃ id l prev, [src] = prev ++ [l] ∧ s.keys.run = some { bay := ↑b, got := prev, wait := some id } ∧ s.answerTo id =
     some (some l)) ∧ (w 0 = 1 ∨ w 0 = 2 ∨ w 0 = 6 ∨ w 0 = 5 ∧ s.noEntropy = false) ∧ (63 < key ∨ s.keyOwner key ≠ ↑b)) ∧
  (let s : State := (work 1 4 mine mine 20 [] (some thirty2) none keys4).put (Fd.KEY_SLOT_BAD 4) 1;
   let b : Fin 8 := 1;
   let src : List Byte := thirty2;
   let w : Nat → Nat := s.jobWord ↑b;
   let key : Nat := w 1 % 256;
   s.Sealed ∧ s.stands = false ∧ (∃ id l prev, [src] = prev ++ [l] ∧ s.keys.run = some { bay := ↑b, got := prev, wait := some id } ∧ s.answerTo id =
     some (some l)) ∧ (w 0 = 1 ∨ w 0 = 2 ∨ w 0 = 6 ∨ w 0 = 5 ∧ s.noEntropy = false) ∧ key ≤ 63 ∧ s.keyOwner key = ↑b ∧ s.keyBad key = true) ∧
  (let s : State := (work 5 13 mine mine 20 [] (some thirty2) none keys4).putB Fd.KEY_STAT_ENTROPY_FAIL true;
   let b : Fin 8 := 1;
   let src : List Byte := thirty2;
   let w : Nat → Nat := s.jobWord ↑b;
   s.Sealed ∧ s.stands = false ∧ (∃ id l prev, [src] = prev ++ [l] ∧ s.keys.run = some { bay := ↑b, got := prev, wait := some id } ∧ s.answerTo id =
     some (some l)) ∧ w 0 = 5 ∧ s.noEntropy = true) ∧
  (let s : State := withKey 20 4 (work 5 20 mine mine 20 [] (some thirty2) none keys4);
   let b : Fin 8 := 1;
   let src : List Byte := thirty2;
   let k : Nat := 4;
   let w : Nat → Nat := s.jobWord ↑b;
   let key : Nat := w 1 % 256;
   s.Sealed ∧ s.stands = false ∧ (∃ id l prev, [src] = prev ++ [l] ∧ s.keys.run = some { bay := ↑b, got := prev, wait := some id } ∧ s.answerTo id =
     some (some l)) ∧ w 0 = 5 ∧ s.noEntropy = false ∧ (s.jobKey (↑b) key uSIGN).fst = Except.ok k ∧ (src.length = if s.keyType key = 2 then 48 else
     32)) ∧
  (let s : State := withKey 20 4 (work 5 20 mine mine 20 [] (some nonce) none keys4);
   let b : Fin 8 := 1;
   let src : List Byte := nonce;
   let k : Nat := 4;
   let w : Nat → Nat := s.jobWord ↑b;
   let key : Nat := w 1 % 256;
   s.Sealed ∧ s.stands = false ∧ (∃ id l prev, [src] = prev ++ [l] ∧ s.keys.run = some { bay := ↑b, got := prev, wait := some id } ∧ s.answerTo id =
     some (some l)) ∧ w 0 = 5 ∧ s.noEntropy = false ∧ (s.jobKey (↑b) key uSIGN).fst = Except.ok k ∧ (src.length ≠ if s.keyType key = 2 then 48 else
     32)) ∧
  (let s : State := withKey 4 4 (work 1 4 mine mine 20 [] (some thirty2) none keys4);
   let b : Fin 8 := 1;
   let src : List Byte := thirty2;
   let k : Nat := 4;
   let w : Nat → Nat := s.jobWord ↑b;
   let req : Nat → Nat → List Byte → BusReq := fun a n l => s.agentReq 6 Asker.job (s.bayPlace (↑b) a) n l;
   let key : Nat := w 1 % 256;
   s.Sealed ∧ s.stands = false ∧ (∃ id l prev, [src] = prev ++ [l] ∧ s.keys.run = some { bay := ↑b, got := prev, wait := some id } ∧ s.answerTo id =
     some (some l)) ∧ (w 0 = 1 ∧ (s.jobKey (↑b) key uENCRYPT).fst = Except.ok k ∨ w 0 = 2 ∧ (s.jobKey (↑b) key uDECRYPT).fst = Except.ok k) ∧ (((req
     (w 5) 12 []).target = 2 ∨ (req (w 5) 12 []).target = 3 ∨ s.grantsNow (req (w 5) 12 []) = false) ∧ (b = 0 ∨ (s.granted (↑b) (s.bayPlace (↑b) (w
     5)) (12 + ([] : List Byte).length) (!([] : List Byte).isEmpty)) = true))) ∧
  (let s : State := withKey 4 4 (work 1 4 mine away 20 [] (some thirty2) none keys4);
   let b : Fin 8 := 1;
   let src : List Byte := thirty2;
   let k : Nat := 4;
   let w : Nat → Nat := s.jobWord ↑b;
   let key : Nat := w 1 % 256;
   s.Sealed ∧ s.stands = false ∧ (∃ id l prev, [src] = prev ++ [l] ∧ s.keys.run = some { bay := ↑b, got := prev, wait := some id } ∧ s.answerTo id =
     some (some l)) ∧ (w 0 = 1 ∧ (s.jobKey (↑b) key uENCRYPT).fst = Except.ok k ∨ w 0 = 2 ∧ (s.jobKey (↑b) key uDECRYPT).fst = Except.ok k) ∧ (¬(b =
     0 ∨ (s.granted (↑b) (s.bayPlace (↑b) (w 5)) (12 + ([] : List Byte).length) (!([] : List Byte).isEmpty)) = true))) ∧
  (let s : State := withKey 6 4 (work 6 6 mine mine 20 [] (some thirty2) none keys4);
   let b : Fin 8 := 1;
   let src : List Byte := thirty2;
   let k : Nat := 4;
   let w : Nat → Nat := s.jobWord ↑b;
   let key : Nat := w 1 % 256;
   let n : Nat := if s.keyType key = 1 then 64 else 96;
   let req : Nat → Nat → List Byte → BusReq := fun a n l => s.agentReq 6 Asker.job (s.bayPlace (↑b) a) n l;
   s.Sealed ∧ s.stands = false ∧ (∃ id l prev, [src] = prev ++ [l] ∧ s.keys.run = some { bay := ↑b, got := prev, wait := some id } ∧ s.answerTo id =
     some (some l)) ∧ w 0 = 6 ∧ (s.jobKey (↑b) key uVERIFY).fst = Except.ok k ∧ (((req (w 5) n []).target = 2 ∨ (req (w 5) n []).target = 3 ∨
     s.grantsNow (req (w 5) n []) = false) ∧ (b = 0 ∨ (s.granted (↑b) (s.bayPlace (↑b) (w 5)) (n + ([] : List Byte).length) (!([] : List
     Byte).isEmpty)) = true))) ∧
  (let s : State := withKey 6 4 (work 6 6 mine away 20 [] (some thirty2) none keys4);
   let b : Fin 8 := 1;
   let src : List Byte := thirty2;
   let k : Nat := 4;
   let w : Nat → Nat := s.jobWord ↑b;
   let key : Nat := w 1 % 256;
   let n : Nat := if s.keyType key = 1 then 64 else 96;
   s.Sealed ∧ s.stands = false ∧ (∃ id l prev, [src] = prev ++ [l] ∧ s.keys.run = some { bay := ↑b, got := prev, wait := some id } ∧ s.answerTo id =
     some (some l)) ∧ w 0 = 6 ∧ (s.jobKey (↑b) key uVERIFY).fst = Except.ok k ∧ (¬(b = 0 ∨ (s.granted (↑b) (s.bayPlace (↑b) (w 5)) (n + ([] : List
     Byte).length) (!([] : List Byte).isEmpty)) = true))) ∧
  (let s : State := withKey 6 4 (work 6 6 mine mine 20 [thirty2] (some nonce) none keys4);
   let b : Fin 8 := 1;
   let src : List Byte := thirty2;
   let sig : List Byte := nonce;
   let k : Nat := 4;
   let w : Nat → Nat := s.jobWord ↑b;
   let key : Nat := w 1 % 256;
   s.Sealed ∧ s.stands = false ∧ (∃ id l prev, [src, sig] = prev ++ [l] ∧ s.keys.run = some { bay := ↑b, got := prev, wait := some id } ∧ s.answerTo
     id = some (some l)) ∧ w 0 = 6 ∧ (s.jobKey (↑b) key uVERIFY).fst = Except.ok k) :=
  (And.imp (And.imp sealed_of (And.imp id (And.imp (has_of (prev := []) (l := thirty2) 7) (And.imp id (And.imp id (And.imp granted_alone (And.imp
    mayPut putFits))))))) <|
  And.imp (And.imp sealed_of (And.imp id (And.imp (has_of (prev := []) (l := thirty2) 7) (And.imp id ((And.imp Or.inl mayPut)))))) <|
  And.imp (And.imp sealed_of (And.imp id (And.imp (has_of (prev := []) (l := thirty2) 7) (And.imp id mayNotPut)))) <|
  And.imp (And.imp sealed_of (And.imp id (And.imp (has_of (prev := []) (l := thirty2) 7) (And.imp id (And.imp id (And.imp granted_alone (And.imp
    mayPut putFits))))))) <|
  And.imp (And.imp sealed_of (And.imp id (And.imp (has_of (prev := []) (l := thirty2) 7) id))) <|
  And.imp (And.imp sealed_of (And.imp id (And.imp (has_of (prev := []) (l := thirty2) 7) id))) <|
  And.imp (And.imp sealed_of (And.imp id (And.imp (has_of (prev := []) (l := thirty2) 7) id))) <|
  And.imp (And.imp sealed_of (And.imp id (And.imp (has_of (prev := []) (l := thirty2) 7) (And.imp id (And.imp id (And.imp (jobKey_with (work 5 20
    mine mine 20 [] (some thirty2) none keys4) rfl) id)))))) <|
  And.imp (And.imp sealed_of (And.imp id (And.imp (has_of (prev := []) (l := nonce) 7) (And.imp id (And.imp id (And.imp (jobKey_with (work 5 20 mine
    mine 20 [] (some nonce) none keys4) rfl) id)))))) <|
  And.imp (And.imp sealed_of (And.imp id (And.imp (has_of (prev := []) (l := thirty2) 7) (And.imp (fun h => Or.inl (And.imp id (jobKey_with (work 1
    4 mine mine 20 [] (some thirty2) none keys4) rfl) h)) id)))) <|
  And.imp (And.imp sealed_of (And.imp id (And.imp (has_of (prev := []) (l := thirty2) 7) (And.imp (fun h => Or.inl (And.imp id (jobKey_with (work 1
    4 mine away 20 [] (some thirty2) none keys4) rfl) h)) id)))) <|
  And.imp (And.imp sealed_of (And.imp id (And.imp (has_of (prev := []) (l := thirty2) 7) (And.imp id (And.imp (jobKey_with (work 6 6 mine mine 20 []
    (some thirty2) none keys4) rfl) id))))) <|
  And.imp (And.imp sealed_of (And.imp id (And.imp (has_of (prev := []) (l := thirty2) 7) (And.imp id (And.imp (jobKey_with (work 6 6 mine away 20 []
    (some thirty2) none keys4) rfl) id))))) <|
  (And.imp sealed_of (And.imp id (And.imp (has_of (prev := [thirty2]) (l := nonce) 7) (And.imp id ((jobKey_with (work 6 6 mine mine 20 [thirty2]
    (some nonce) none keys4) rfl)))))))
  (by decide +kernel)

/-- States that meet the hypotheses of `Obligations.CryptoAndSeals`, clause by clause (clauses 29 and on). -/
theorem witness_CryptoAndSeals_3 :
  (let s : State := withKey 4 4 (work 1 4 mine mine 20 [thirty2] (some nonce) none keys4);
   let b : Fin 8 := 1;
   let src : List Byte := thirty2;
   let iv : List Byte := nonce;
   let k : Nat := 4;
   let w : Nat → Nat := s.jobWord ↑b;
   let req : Nat → Nat → List Byte → BusReq := fun a n l => s.agentReq 6 Asker.job (s.bayPlace (↑b) a) n l;
   let key : Nat := w 1 % 256;
   s.Sealed ∧ s.stands = false ∧ (∃ id l prev, [src, iv] = prev ++ [l] ∧ s.keys.run = some { bay := ↑b, got := prev, wait := some id } ∧ s.answerTo
     id = some (some l)) ∧ (w 0 = 1 ∧ (s.jobKey (↑b) key uENCRYPT).fst = Except.ok k ∨ w 0 = 2 ∧ (s.jobKey (↑b) key uDECRYPT).fst = Except.ok k) ∧ 0
     < w 6 ∧ (((req (w 5 + 16) (w 6) []).target = 2 ∨ (req (w 5 + 16) (w 6) []).target = 3 ∨ s.grantsNow (req (w 5 + 16) (w 6) []) = false) ∧ (b = 0
     ∨ (s.granted (↑b) (s.bayPlace (↑b) (w 5 + 16)) (w 6 + ([] : List Byte).length) (!([] : List Byte).isEmpty)) = true))) ∧
  (let s : State := withKey 4 4 (work 1 4 mine away 20 [thirty2] (some nonce) none keys4);
   let b : Fin 8 := 1;
   let src : List Byte := thirty2;
   let iv : List Byte := nonce;
   let k : Nat := 4;
   let w : Nat → Nat := s.jobWord ↑b;
   let key : Nat := w 1 % 256;
   s.Sealed ∧ s.stands = false ∧ (∃ id l prev, [src, iv] = prev ++ [l] ∧ s.keys.run = some { bay := ↑b, got := prev, wait := some id } ∧ s.answerTo
     id = some (some l)) ∧ (w 0 = 1 ∧ (s.jobKey (↑b) key uENCRYPT).fst = Except.ok k ∨ w 0 = 2 ∧ (s.jobKey (↑b) key uDECRYPT).fst = Except.ok k) ∧ 0
     < w 6 ∧ (¬(b = 0 ∨ (s.granted (↑b) (s.bayPlace (↑b) (w 5 + 16)) (w 6 + ([] : List Byte).length) (!([] : List Byte).isEmpty)) = true))) ∧
  (let s : State := withKey 4 4 (work 1 4 mine mine 20 [thirty2, nonce] (some nonce) none keys4);
   let b : Fin 8 := 1;
   let src : List Byte := thirty2;
   let iv : List Byte := nonce;
   let aad : List Byte := nonce;
   let k : Nat := 4;
   let w : Nat → Nat := s.jobWord ↑b;
   let req : Nat → Nat → List Byte → BusReq := fun a n l => s.agentReq 6 Asker.job (s.bayPlace (↑b) a) n l;
   let key : Nat := w 1 % 256;
   s.Sealed ∧ s.stands = false ∧ ((∃ id l prev, [src, iv, aad] = prev ++ [l] ∧ s.keys.run = some { bay := ↑b, got := prev, wait := some id } ∧
     s.answerTo id = some (some l)) ∨ (∃ id l prev, [src, iv] = prev ++ [l] ∧ s.keys.run = some { bay := ↑b, got := prev, wait := some id } ∧
     s.answerTo id = some (some l)) ∧ w 6 = 0 ∧ aad = []) ∧ w 0 = 1 ∧ (s.jobKey (↑b) key uENCRYPT).fst = Except.ok k ∧ (((req (w 4) 0 (bytesN
     (src.length + 16) (Config.gcmSeal (natBe 32 k) iv aad src))).target = 2 ∨ (req (w 4) 0 (bytesN (src.length + 16) (Config.gcmSeal (natBe 32 k)
     iv aad src))).target = 3 ∨ s.grantsNow (req (w 4) 0 (bytesN (src.length + 16) (Config.gcmSeal (natBe 32 k) iv aad src))) = false) ∧ (b = 0 ∨
     (s.granted (↑b) (s.bayPlace (↑b) (w 4)) (0 + (bytesN (src.length + 16) (Config.gcmSeal (natBe 32 k) iv aad src)).length) !(bytesN (src.length +
     16) (Config.gcmSeal (natBe 32 k) iv aad src)).isEmpty) = true))) ∧
  (let s : State := withKey 4 4 (work 1 4 away mine 20 [thirty2, nonce] (some nonce) none keys4);
   let b : Fin 8 := 1;
   let src : List Byte := thirty2;
   let iv : List Byte := nonce;
   let aad : List Byte := nonce;
   let k : Nat := 4;
   let w : Nat → Nat := s.jobWord ↑b;
   let key : Nat := w 1 % 256;
   s.Sealed ∧ s.stands = false ∧ ((∃ id l prev, [src, iv, aad] = prev ++ [l] ∧ s.keys.run = some { bay := ↑b, got := prev, wait := some id } ∧
     s.answerTo id = some (some l)) ∨ (∃ id l prev, [src, iv] = prev ++ [l] ∧ s.keys.run = some { bay := ↑b, got := prev, wait := some id } ∧
     s.answerTo id = some (some l)) ∧ w 6 = 0 ∧ aad = []) ∧ w 0 = 1 ∧ (s.jobKey (↑b) key uENCRYPT).fst = Except.ok k ∧ (¬(b = 0 ∨ (s.granted (↑b)
     (s.bayPlace (↑b) (w 4)) (0 + (bytesN (src.length + 16) (Config.gcmSeal (natBe 32 k) iv aad src)).length) !(bytesN (src.length + 16)
     (Config.gcmSeal (natBe 32 k) iv aad src)).isEmpty) = true))) ∧
  (let s : State := withKey 4 4 (work 1 4 stat mine 20 [thirty2, nonce] (some nonce) none keys4);
   let b : Fin 8 := 1;
   let src : List Byte := thirty2;
   let iv : List Byte := nonce;
   let aad : List Byte := nonce;
   let k : Nat := 4;
   let o : Nat := 0x40200;
   let w : Nat → Nat := s.jobWord ↑b;
   let req : Nat → Nat → List Byte → BusReq := fun a n l => s.agentReq 6 Asker.job (s.bayPlace (↑b) a) n l;
   let key : Nat := w 1 % 256;
   s.Sealed ∧ s.stands = false ∧ ((∃ id l prev, [src, iv, aad] = prev ++ [l] ∧ s.keys.run = some { bay := ↑b, got := prev, wait := some id } ∧
     s.answerTo id = some (some l)) ∨ (∃ id l prev, [src, iv] = prev ++ [l] ∧ s.keys.run = some { bay := ↑b, got := prev, wait := some id } ∧
     s.answerTo id = some (some l)) ∧ w 6 = 0 ∧ aad = []) ∧ w 0 = 1 ∧ (s.jobKey (↑b) key uENCRYPT).fst = Except.ok k ∧ s.bayPlace (↑b) (w 4) =
     Place.sram o ∧ s.grantsNow (req (w 4) 0 (bytesN (src.length + 16) (Config.gcmSeal (natBe 32 k) iv aad src))) = true ∧ (b = 0 ∨ (s.granted (↑b)
     (s.bayPlace (↑b) (w 4)) (0 + (bytesN (src.length + 16) (Config.gcmSeal (natBe 32 k) iv aad src)).length) !(bytesN (src.length + 16)
     (Config.gcmSeal (natBe 32 k) iv aad src)).isEmpty) = true) ∧ o + (bytesN (src.length + 16) (Config.gcmSeal (natBe 32 k) iv aad src)).length ≤
     sramSize) ∧
  (let s : State := base;
   let i : Fin 4 := 0;
   let q : SealIn := s.seal_ ↑i;
   s.Sealed ∧ s.stands = false ∧ (¬(q.active = true ∧ q.closed = false))) ∧
  (let s : State := chain;
   let i : Fin 4 := 0;
   let q : SealIn := s.seal_ ↑i;
   s.Sealed ∧ s.stands = false ∧ (q.active = true ∧ q.closed = false) ∧ q.recs = []) ∧
  (let s : State := lost;
   let i : Fin 4 := 0;
   let q : SealIn := s.seal_ ↑i;
   s.Sealed ∧ s.stands = false ∧ (q.active = true ∧ q.closed = false) ∧ q.recs = [none]) ∧
  (let s : State := inner;
   let i : Fin 4 := 0;
   let q : SealIn := s.seal_ ↑i;
   let l : List Byte := (q.recs.headD default).getD default;
   s.Sealed ∧ s.stands = false ∧ (q.active = true ∧ q.closed = false) ∧ q.recs = [some l] ∧ q.hashing = false ∧ bitAt (fieldAt l 2 2) 0 = false) ∧
  (let s : State := first;
   let i : Fin 4 := 0;
   let q : SealIn := s.seal_ ↑i;
   let l : List Byte := (q.recs.headD default).getD default;
   s.Sealed ∧ s.stands = false ∧ (q.active = true ∧ q.closed = false) ∧ q.recs = [some l] ∧ (q.hashing = true ∨ bitAt (fieldAt l 2 2) 0 = true) ∧
     bitAt (fieldAt l 2 2) 1 = false) ∧
  (let s : State := last;
   let i : Fin 4 := 0;
   let q : SealIn := s.seal_ ↑i;
   let l : List Byte := (q.recs.headD default).getD default;
   let rest : List (Option (List Byte)) := q.recs.tail;
   s.Sealed ∧ s.stands = false ∧ (q.active = true ∧ q.closed = false) ∧ q.recs = some l :: rest ∧ (q.hashing = true ∨ bitAt (fieldAt l 2 2) 0 =
     true) ∧ bitAt (fieldAt l 2 2) 1 = true ∧ q.count + 1 ≠ q.frames ∧ q.stopping = false) ∧
  (let s : State := lastOf;
   let i : Fin 4 := 0;
   let q : SealIn := s.seal_ ↑i;
   let l : List Byte := (q.recs.headD default).getD default;
   let rest : List (Option (List Byte)) := q.recs.tail;
   s.Sealed ∧ s.stands = false ∧ (q.active = true ∧ q.closed = false) ∧ q.recs = some l :: rest ∧ (q.hashing = true ∨ bitAt (fieldAt l 2 2) 0 =
     true) ∧ bitAt (fieldAt l 2 2) 1 = true ∧ q.count + 1 = q.frames ∧ q.stopping = false) ∧
  (let s : State := lastStop;
   let i : Fin 4 := 0;
   let q : SealIn := s.seal_ ↑i;
   let l : List Byte := (q.recs.headD default).getD default;
   let rest : List (Option (List Byte)) := q.recs.tail;
   s.Sealed ∧ s.stands = false ∧ (q.active = true ∧ q.closed = false) ∧ q.recs = some l :: rest ∧ (q.hashing = true ∨ bitAt (fieldAt l 2 2) 0 =
     true) ∧ bitAt (fieldAt l 2 2) 1 = true ∧ q.count + 1 ≠ q.frames ∧ q.stopping = true) ∧
  (let s : State := signBad;
   let i : Fin 4 := 0;
   let q : SealIn := s.seal_ ↑i;
   s.Sealed ∧ s.stands = false ∧ q.active = true ∧ s.keyBad q.slot = true) :=
  (And.imp (And.imp sealed_of (And.imp id (And.imp (has_of (prev := [thirty2]) (l := nonce) 7) (And.imp (fun h => Or.inl (And.imp id (jobKey_with
    (work 1 4 mine mine 20 [thirty2] (some nonce) none keys4) rfl) h)) id)))) <|
  And.imp (And.imp sealed_of (And.imp id (And.imp (has_of (prev := [thirty2]) (l := nonce) 7) (And.imp (fun h => Or.inl (And.imp id (jobKey_with
    (work 1 4 mine away 20 [thirty2] (some nonce) none keys4) rfl) h)) id)))) <|
  And.imp (And.imp sealed_of (And.imp id (And.imp (fun h => Or.inl (has_of (prev := [thirty2, nonce]) (l := nonce) 7 h)) (And.imp id (And.imp
    (jobKey_with (work 1 4 mine mine 20 [thirty2, nonce] (some nonce) none keys4) rfl) ((And.imp Or.inl mayPut))))))) <|
  And.imp (And.imp sealed_of (And.imp id (And.imp (fun h => Or.inl (has_of (prev := [thirty2, nonce]) (l := nonce) 7 h)) (And.imp id (And.imp
    (jobKey_with (work 1 4 away mine 20 [thirty2, nonce] (some nonce) none keys4) rfl) mayNotPut))))) <|
  And.imp (And.imp sealed_of (And.imp id (And.imp (fun h => Or.inl (has_of (prev := [thirty2, nonce]) (l := nonce) 7 h)) (And.imp id (And.imp
    (jobKey_with (work 1 4 stat mine 20 [thirty2, nonce] (some nonce) none keys4) rfl) (And.imp id (And.imp granted_alone (And.imp mayPut
    putFits)))))))) <|
  And.imp (given base_sealed id) <|
  And.imp (given chain_sealed id) <|
  And.imp (given lost_sealed id) <|
  And.imp (given inner_sealed id) <|
  And.imp (given first_sealed id) <|
  And.imp (given last_sealed id) <|
  And.imp (given lastOf_sealed id) <|
  And.imp (given lastStop_sealed id) <|
  (given signBad_sealed id))
  (by decide +kernel)

/-- States that meet the hypotheses of `Obligations.CryptoAndSeals`, clause by clause (clauses 48 and on). -/
theorem witness_CryptoAndSeals_4 :
  (let s : State := base;
   let i : Fin 4 := 0;
   let q : SealIn := s.seal_ ↑i;
   s.Sealed ∧ s.stands = false ∧ (¬(q.active = true ∧ s.keyBad q.slot = true))) ∧
  (let s : State := base;
   let i : Fin 4 := 0;
   let q : SealIn := s.seal_ ↑i;
   s.Sealed ∧ s.stands = false ∧ (q.due = [] ∨ s.runNs < s.signerBusy)) ∧
  (let s : State := signBad;
   let i : Fin 4 := 0;
   let q : SealIn := s.seal_ ↑i;
   let d : SealDue := (q.due).headD default;
   let rest : List SealDue := (q.due).tail;
   s.Sealed ∧ s.stands = false ∧ q.due = d :: rest ∧ s.signerBusy ≤ s.runNs ∧ s.keyBad q.slot = true) ∧
  (let s : State := (withKey 13 99 signing);
   let i : Fin 4 := 0;
   let q : SealIn := s.seal_ ↑i;
   let d : SealDue := (q.due).headD default;
   let rest : List SealDue := (q.due).tail;
   let k : KeySlot := s.slotRec q.slot;
   let key : Nat := k.share ^^^ k.mask;
   s.Sealed ∧ s.stands = false ∧ q.due = d :: rest ∧ d.closing = false ∧ d.seq < 2 ^ 32 ∧ s.signerBusy ≤ s.runNs ∧ (¬s.keyBad q.slot = true) ∧
     q.slot < 64 ∧ s.keyType q.slot = 1 ∧ bitAt (s.keyUsage q.slot) uSEAL = true ∧ k.tag = s.tagOf q.slot 1 (s.keyUsage q.slot) (s.keyOwner q.slot)
     key ∧ d.body.length = 64) :=
  (And.imp (given base_sealed id) <|
  And.imp (given base_sealed id) <|
  And.imp (given signBad_sealed (And.imp id (And.imp cons_of id))) <|
  (And.imp sealed_of (And.imp id (And.imp cons_of (And.imp id (And.imp id (And.imp id (And.imp id (And.imp id (And.imp id (And.imp id (And.imp
    (signTag (n := 13) (key := 99) (s := signing)) id))))))))))))
  (by decide +kernel)

/-- States that meet the hypotheses of `Obligations.CryptoAndSeals`, clause by clause, where the engines of Config answer as the premises say (their results are opaque). -/
theorem witness_CryptoAndSeals_opened (opens : ∀ k iv aad c, Config.gcmOpen k iv aad c = some []) :
  (let s : State := withKey 4 4 (work 2 4 mine mine 20 [thirty2, nonce] (some nonce) none keys4);
   let b : Fin 8 := 1;
   let src : List Byte := thirty2;
   let iv : List Byte := nonce;
   let aad : List Byte := nonce;
   let k : Nat := 4;
   let d : List Byte := [];
   let w : Nat → Nat := s.jobWord ↑b;
   let req : Nat → Nat → List Byte → BusReq := fun a n l => s.agentReq 6 Asker.job (s.bayPlace (↑b) a) n l;
   let key : Nat := w 1 % 256;
   s.Sealed ∧ s.stands = false ∧ ((∃ id l prev, [src, iv, aad] = prev ++ [l] ∧ s.keys.run = some { bay := ↑b, got := prev, wait := some id } ∧
     s.answerTo id = some (some l)) ∨ (∃ id l prev, [src, iv] = prev ++ [l] ∧ s.keys.run = some { bay := ↑b, got := prev, wait := some id } ∧
     s.answerTo id = some (some l)) ∧ w 6 = 0 ∧ aad = []) ∧ w 0 = 2 ∧ (s.jobKey (↑b) key uDECRYPT).fst = Except.ok k ∧ Config.gcmOpen (natBe 32 k)
     iv aad src = some d ∧ 16 < src.length ∧ (((req (w 4) 0 (bytesN (src.length - 16) d)).target = 2 ∨ (req (w 4) 0 (bytesN (src.length - 16)
     d)).target = 3 ∨ s.grantsNow (req (w 4) 0 (bytesN (src.length - 16) d)) = false) ∧ (b = 0 ∨ (s.granted (↑b) (s.bayPlace (↑b) (w 4)) (0 +
     (bytesN (src.length - 16) d).length) !(bytesN (src.length - 16) d).isEmpty) = true))) ∧
  (let s : State := withKey 4 4 (work 2 4 away mine 20 [thirty2, nonce] (some nonce) none keys4);
   let b : Fin 8 := 1;
   let src : List Byte := thirty2;
   let iv : List Byte := nonce;
   let aad : List Byte := nonce;
   let k : Nat := 4;
   let d : List Byte := [];
   let w : Nat → Nat := s.jobWord ↑b;
   let key : Nat := w 1 % 256;
   s.Sealed ∧ s.stands = false ∧ ((∃ id l prev, [src, iv, aad] = prev ++ [l] ∧ s.keys.run = some { bay := ↑b, got := prev, wait := some id } ∧
     s.answerTo id = some (some l)) ∨ (∃ id l prev, [src, iv] = prev ++ [l] ∧ s.keys.run = some { bay := ↑b, got := prev, wait := some id } ∧
     s.answerTo id = some (some l)) ∧ w 6 = 0 ∧ aad = []) ∧ w 0 = 2 ∧ (s.jobKey (↑b) key uDECRYPT).fst = Except.ok k ∧ Config.gcmOpen (natBe 32 k)
     iv aad src = some d ∧ 16 < src.length ∧ (¬(b = 0 ∨ (s.granted (↑b) (s.bayPlace (↑b) (w 4)) (0 + (bytesN (src.length - 16) d).length) !(bytesN
     (src.length - 16) d).isEmpty) = true))) ∧
  (let s : State := withKey 4 4 (work 2 4 stat mine 20 [thirty2, nonce] (some nonce) none keys4);
   let b : Fin 8 := 1;
   let src : List Byte := thirty2;
   let iv : List Byte := nonce;
   let aad : List Byte := nonce;
   let k : Nat := 4;
   let d : List Byte := [];
   let o : Nat := 0x40200;
   let w : Nat → Nat := s.jobWord ↑b;
   let req : Nat → Nat → List Byte → BusReq := fun a n l => s.agentReq 6 Asker.job (s.bayPlace (↑b) a) n l;
   let key : Nat := w 1 % 256;
   s.Sealed ∧ s.stands = false ∧ ((∃ id l prev, [src, iv, aad] = prev ++ [l] ∧ s.keys.run = some { bay := ↑b, got := prev, wait := some id } ∧
     s.answerTo id = some (some l)) ∨ (∃ id l prev, [src, iv] = prev ++ [l] ∧ s.keys.run = some { bay := ↑b, got := prev, wait := some id } ∧
     s.answerTo id = some (some l)) ∧ w 6 = 0 ∧ aad = []) ∧ w 0 = 2 ∧ (s.jobKey (↑b) key uDECRYPT).fst = Except.ok k ∧ Config.gcmOpen (natBe 32 k)
     iv aad src = some d ∧ 16 < src.length ∧ s.bayPlace (↑b) (w 4) = Place.sram o ∧ s.grantsNow (req (w 4) 0 (bytesN (src.length - 16) d)) = true ∧
     (b = 0 ∨ (s.granted (↑b) (s.bayPlace (↑b) (w 4)) (0 + (bytesN (src.length - 16) d).length) !(bytesN (src.length - 16) d).isEmpty) = true) ∧ o +
     (bytesN (src.length - 16) d).length ≤ sramSize) ∧
  (let s : State := withKey 4 4 (work 2 4 mine mine 20 [nonce, nonce] (some nonce) none keys4);
   let b : Fin 8 := 1;
   let src : List Byte := nonce;
   let iv : List Byte := nonce;
   let aad : List Byte := nonce;
   let k : Nat := 4;
   let d : List Byte := [];
   let w : Nat → Nat := s.jobWord ↑b;
   let key : Nat := w 1 % 256;
   s.Sealed ∧ s.stands = false ∧ ((∃ id l prev, [src, iv, aad] = prev ++ [l] ∧ s.keys.run = some { bay := ↑b, got := prev, wait := some id } ∧
     s.answerTo id = some (some l)) ∨ (∃ id l prev, [src, iv] = prev ++ [l] ∧ s.keys.run = some { bay := ↑b, got := prev, wait := some id } ∧
     s.answerTo id = some (some l)) ∧ w 6 = 0 ∧ aad = []) ∧ w 0 = 2 ∧ (s.jobKey (↑b) key uDECRYPT).fst = Except.ok k ∧ Config.gcmOpen (natBe 32 k)
     iv aad src = some d ∧ src.length ≤ 16) :=
  (And.imp (And.imp sealed_of (And.imp id (And.imp (fun h => Or.inl (has_of (prev := [thirty2, nonce]) (l := nonce) 7 h)) (And.imp id (And.imp
    (jobKey_with (work 2 4 mine mine 20 [thirty2, nonce] (some nonce) none keys4) rfl) (And.imp (fun (_ : True) => opens _ _ _ _) id)))))) <|
  And.imp (And.imp sealed_of (And.imp id (And.imp (fun h => Or.inl (has_of (prev := [thirty2, nonce]) (l := nonce) 7 h)) (And.imp id (And.imp
    (jobKey_with (work 2 4 away mine 20 [thirty2, nonce] (some nonce) none keys4) rfl) (And.imp (fun (_ : True) => opens _ _ _ _) id)))))) <|
  And.imp (And.imp sealed_of (And.imp id (And.imp (fun h => Or.inl (has_of (prev := [thirty2, nonce]) (l := nonce) 7 h)) (And.imp id (And.imp
    (jobKey_with (work 2 4 stat mine 20 [thirty2, nonce] (some nonce) none keys4) rfl) (And.imp (fun (_ : True) => opens _ _ _ _) id)))))) <|
  (And.imp sealed_of (And.imp id (And.imp (fun h => Or.inl (has_of (prev := [nonce, nonce]) (l := nonce) 7 h)) (And.imp id (And.imp (jobKey_with
    (work 2 4 mine mine 20 [nonce, nonce] (some nonce) none keys4) rfl) (And.imp (fun (_ : True) => opens _ _ _ _) id)))))))
  (by decide +kernel)

/-- States that meet the hypotheses of `Obligations.CryptoAndSeals`, clause by clause, where the engines of Config answer as the premises say (their results are opaque). -/
theorem witness_CryptoAndSeals_closed (closed : ∀ k iv aad c, Config.gcmOpen k iv aad c = none) :
  (let s : State := withKey 4 4 (work 2 4 mine mine 20 [thirty2, nonce] (some nonce) none keys4);
   let b : Fin 8 := 1;
   let src : List Byte := thirty2;
   let iv : List Byte := nonce;
   let aad : List Byte := nonce;
   let k : Nat := 4;
   let w : Nat → Nat := s.jobWord ↑b;
   let key : Nat := w 1 % 256;
   s.Sealed ∧ s.stands = false ∧ ((∃ id l prev, [src, iv, aad] = prev ++ [l] ∧ s.keys.run = some { bay := ↑b, got := prev, wait := some id } ∧
     s.answerTo id = some (some l)) ∨ (∃ id l prev, [src, iv] = prev ++ [l] ∧ s.keys.run = some { bay := ↑b, got := prev, wait := some id } ∧
     s.answerTo id = some (some l)) ∧ w 6 = 0 ∧ aad = []) ∧ w 0 = 2 ∧ (s.jobKey (↑b) key uDECRYPT).fst = Except.ok k ∧ Config.gcmOpen (natBe 32 k)
     iv aad src = none) :=
  ((And.imp sealed_of (And.imp id (And.imp (fun h => Or.inl (has_of (prev := [thirty2, nonce]) (l := nonce) 7 h)) (And.imp id (And.imp (jobKey_with
    (work 2 4 mine mine 20 [thirty2, nonce] (some nonce) none keys4) rfl) ((fun (_ : True) => closed _ _ _ _))))))))
  (by decide +kernel)

end SetW9

namespace SetF4

def base : M := mem (isa .f 1)

def running (s : State) : State :=
  { s with mbx := {}, pcie := {}, out := [], regs := [(0x40000040, 0x22222222), (0x40020004, 0xFF), (0x40020180, 1), (0x40020188, 1), (0x4002018C, 1),
      (0x40020190, 1), (0x40020194, 1), (0x40020198, 1), (0x4002019C, 1)].foldl (fun l p => sset regReset p.1 p.2 l) s.regs }

def grants (s : M) : M := (List.range 8).foldl (fun s b => ((s.put (Fd.BXM_BKF_BASE b) 0).put (Fd.BXM_BKF_LEN b) 64)) s

def ownAll (b : Nat) (s : M) : M :=
  let s := (List.range 48).foldl (fun s i => (s.put ⟨Reg.VXM_SOWN (i / 8), 4 * (i % 8) + 3, 4 * (i % 8)⟩ b).put ⟨Reg.VXM_DOWN (i / 8), 4 * (i % 8) + 3, 4 * (i % 8)⟩ b) s
  s.modBay b fun x => { x with phase := (List.range 16).map fun i => (0x198 + i, 0xFF) }

def act (res step kind arg0 a1 : Nat) (a2 : Nat := 0) (a3 : Nat := 0) : Act := { res := res, step := step, kind := kind, arg0 := arg0, a1 := a1, a2 := a2, a3 := a3, ofs := 128 + step * 16 + res * 64 }

def G : Geom := { turnLen := 1024, period := 1000, turns := 480, tail := 2000, replay := 1 }

def seD : List Nat := [0x101,0x40,0x200,8,2,0x10,0,0,0,0,0,0,0,0,0,0]

def P (b : Nat) : Part := { bay := b, geom := G, ppm := 0, partId := 7, allotOfs := 128, allot := [], acts := [act 0x1D8 3 6 0 5, act 0x198 2 1 3 0x100, act 0x110 2 1 2 0x200, act 0x104 2 3 1 0x80 4 (0x20010), act 0x105 2 3 0 0x80 4 0x20010, act 0x1D0 2 4 0xA5 0, act 0x1D5 2 5 0 3, act 0x1D4 2 5 0 4, act 0x100 2 2 0 0], descs := [{ ofs := 4096, w := seD }], routes := [], carries := [⟨300, 5, true, 0x400, 0x40, 0x800⟩, ⟨300, 6, false, 0x500, 0x40, 0x900⟩] }

def cbase (s : M) : M := { s with tme := { s.tme with t := 9 * 1000000 * 2^48 }, clk := { s.clk with now := 10000000 } }

def run1 (s : M) : M := let s := cbase s; { s with fig := { s.fig with geom := some G, running := s.fig.running.set 1 (some (P 1)), measure := 9, boundary := 10000000, resting := false, slot := 0, turn := 0, carry := s.fig.carry.set 1 [{ id := 5, base := 0x400, shadow := 0x800, len := 0x40 }] } }

def now (n : Nat) (s : M) : M := { s with clk := { s.clk with now := n } }

def fig (f : Fig → Fig) (s : M) : M := { s with fig := f s.fig }

def r1 : M := { run1 (grants (running base)) with mbx := base.mbx }

def b0 : M := { ownAll 1 (now 10000003 r1) with mbx := base.mbx, out := [] }

theorem b0_sealed : State.Sealed b0 := sealed_of (by decide +kernel)

/-- The bus matrix may grant at no target before a later cycle. -/
def later : M := { b0 with bxm := { b0.bxm with grantFrom := b0.bxm.grantFrom.map fun _ => 10 ^ 9 } }

def tapBusy : M := { b0 with dbg := { b0.dbg with accBusy := true } }

/-- States that meet the hypotheses of `Obligations.TapAndTemperature`, clause by clause. -/
theorem witness_TapAndTemperature :
  (let s : State := b0;
   s.Sealed) ∧
  (let s : State := tapBusy;
   s.Sealed ∧ s.dbg.accBusy = true) ∧
  (let s : State := later;
   let word : BitVec 18 := 0#18;
   let data : Word := 0;
   let w : Bool := false;
   let a : Nat := 1080033280 + 4 * word.toNat;
   let req : Bool → BusReq := fun write => s.regReq Asker.tap Path.tap a (if write = true then some data else none);
   s.Sealed ∧ s.dbg.accBusy = false ∧ s.clocksRun = true ∧ s.grantsNow (req w) = false ∧ (w = true → ∀ (n : Nat), n < 6 → vget s.dbg.feed n = none)) ∧
  (let s : State := b0;
   let word : BitVec 18 := 0#18;
   let data : Word := 0;
   let a : Nat := 1080033280 + 4 * word.toNat;
   let last : Out := Out.tdo (BitVec.toNat s.dbg.accData + 2 ^ 32 * b2n s.dbg.accErr + 2 ^ 33 * b2n s.dbg.accBusy) 51;
   let y : State := { s with out := [Out.tdo 1 5, last], dbg := { s.dbg with ir := .dbgacc, tck := s.dbg.tck + 1 } };
   let w : Word := (y.regRead Path.tap a).1.getD default;
   let x : State := (y.regRead Path.tap a).2;
   let req : Bool → BusReq := fun write => s.regReq Asker.tap Path.tap a (if write = true then some data else none);
   s.Sealed ∧ (s.dbg.accBusy = false ∧ (s.clocksRun = false ∨ s.grantsNow (req false) = true)) ∧ y.regRead Path.tap a = (some w, x)) ∧
  (let s : State := b0;
   let word : BitVec 18 := 49152#18;
   let data : Word := 0;
   let w : Bool := true;
   let a : Nat := 1080033280 + 4 * word.toNat;
   let req : Bool → BusReq := fun write => s.regReq Asker.tap Path.tap a (if write = true then some data else none);
   s.Sealed ∧ (s.dbg.accBusy = false ∧ (s.clocksRun = false ∨ s.grantsNow (req w) = true)) ∧ 1080229888 ≤ a ∧ (w = true → ∀ (n : Nat), n < 6 → vget
     s.dbg.feed n = none)) ∧
  (let s : State := b0;
   let word : BitVec 18 := 0#18;
   let data : Word := 0#32;
   let a : Nat := 1080033280 + 4 * word.toNat;
   let last : Out := Out.tdo (BitVec.toNat s.dbg.accData + 2 ^ 32 * b2n s.dbg.accErr + 2 ^ 33 * b2n s.dbg.accBusy) 51;
   let y : State := { s with out := [Out.tdo 1 5, last], dbg := { s.dbg with ir := .dbgacc, tck := s.dbg.tck + 1 } };
   let ok : Bool := (y.regWrite Path.tap a data).1;
   let x : State := (y.regWrite Path.tap a data).snd;
   let req : Bool → BusReq := fun write => s.regReq Asker.tap Path.tap a (if write = true then some data else none);
   s.Sealed ∧ (s.dbg.accBusy = false ∧ (s.clocksRun = false ∨ s.grantsNow (req true) = true)) ∧ y.regWrite Path.tap a data = (ok, x) ∧ (∀ (n : Nat),
     n < 6 → vget x.dbg.feed n = none)) ∧
  (let s : State := b0;
   s.Sealed ∧ s.stands = false) :=
  (And.imp (fun (_ : True) => b0_sealed) <|
  And.imp (And.imp sealed_of id) <|
  And.imp (And.imp sealed_of id) <|
  And.imp (given b0_sealed (And.imp id pair_of)) <|
  And.imp (given b0_sealed id) <|
  And.imp (given b0_sealed (And.imp id (And.imp (fun (_ : True) => rfl) id))) <|
  (given b0_sealed id))
  (by decide +kernel)

end SetF4

end Sys2Proof.Tests
end

section
/-! Proofs for the steward cores (06): exceptions of instructions, and entry and return. -/

namespace Sys2Proof.Machine

section CoreExceptions

/-! ### What a core reads after its fetch is what it read before -/

section Found

variable {s v : State} {c : Nat}

theorem level_found (hv : s.Found v c) : (v.core c).level = (s.core c).level := by rw [hv.core]

theorem below_found (hv : s.Found v c) (n : Nat) : v.below c n = s.below c n := by
  simp only [State.below, level_found hv]

theorem effAddr_found (hv : s.Found v c) (ra : BitVec 5) (i : BitVec 16) : v.effAddr c ra i = s.effAddr c ra i := by
  simp only [State.effAddr, greg_of_core hv.core]

theorem levelEnabled_found (hv : s.Found v c) (ten : Bool) : v.levelEnabled c ten = s.levelEnabled c ten := by
  obtain ⟨cs, n, e⟩ := hv.rest
  have hreg : ∀ a, v.reg a = s.reg a := fun a => by rw [e]; rfl
  have hlead : v.lead c = s.lead c := by rw [e]; rfl
  have hbay : (v.core c).bay = (s.core c).bay := by rw [hv.core]
  simp only [State.levelEnabled, level_found hv, hreg, hlead, hbay]

/-- The state as a command finds it is one that a fetch without any effect leaves. -/
theorem found_clean (s : State) (c : Nat) : s.Found s.clean c := ⟨rfl, fun _ _ => rfl, s.cores, s.free, rfl⟩

theorem below_iff (s : State) (c n : Nat) : s.below c n = true ↔ (s.core c).level.rank < n := by simp [State.below]

theorem below_one_of_u (h : (s.core c).level = .u) : s.below c 1 = true := by
  rw [below_iff, h]
  exact Nat.zero_lt_one

end Found

/-! ### The exception that each instruction raises (R167, R172, R175, R177, R507) -/

section Traps

variable {s : State} {c : Nat} {fed : Bool}

theorem execOp_ecall_u (h : (s.core c).level = .u) : s.execOp c fed .ecall = .trap s xECALL_U 0 := by
  simp only [State.execOp, h]

theorem execOp_ecall_s (h : (s.core c).level = .s) : s.execOp c fed .ecall = .trap s xECALL_S 0 := by
  simp only [State.execOp, h]

theorem execOp_ecall_f (h : (s.core c).level = .f) : s.execOp c fed .ecall = .trap s xILLEGAL (CoreOp.ecall).encode := by
  simp only [State.execOp, h]

theorem execOp_eret : s.execOp c fed .eret = s.atS c .eret fun s => s.doEret c := rfl

theorem execOp_ifence :
    s.execOp c fed .ifence = s.atS c .ifence fun s => (s.modCore c fun k => { k with icache := [] }).advance c := rfl

theorem atS_of_below {op : CoreOp} (h : s.below c 1 = true) (f : State → State) : s.atS c op f = .trap s xPRIVILEGE op.encode := by
  simp only [State.atS, h, if_true]

theorem atS_of_not_below {op : CoreOp} (h : s.below c 1 = false) (f : State → State) : s.atS c op f = .done (f s) := by
  simp only [State.atS, h, Bool.false_eq_true, if_false]

theorem execOp_rest_below (h : s.below c 1 = true) : s.execOp c fed .rest = .trap s xPRIVILEGE (CoreOp.rest).encode := by
  simp only [State.execOp, h, if_true]

theorem execOp_ctlr_unlisted {n : BitVec 12} (rd : BitVec 5) (h : scrLevels n.toNat fed = none) :
    s.execOp c fed (.ctlr rd n) = .trap s xILLEGAL (CoreOp.ctlr rd n).encode := by
  simp only [State.execOp, State.doCtlr, h]

theorem execOp_ctlw_unlisted {n : BitVec 12} (ra : BitVec 5) (h : scrLevels n.toNat fed = none) :
    s.execOp c fed (.ctlw n ra) = .trap s xILLEGAL (CoreOp.ctlw n ra).encode := by
  simp only [State.execOp, State.doCtlw, h]

theorem execOp_ctlr_below {n : BitVec 12} {r w : Nat} (rd : BitVec 5) (h : scrLevels n.toNat fed = some (r, w)) (hb : s.below c r = true) :
    s.execOp c fed (.ctlr rd n) = .trap s xPRIVILEGE (CoreOp.ctlr rd n).encode := by
  simp only [State.execOp, State.doCtlr, h, hb, if_true]

theorem execOp_ctlw_below {n : BitVec 12} {r w : Nat} (ra : BitVec 5) (h : scrLevels n.toNat fed = some (r, w)) (hb : s.below c w = true) :
    s.execOp c fed (.ctlw n ra) = .trap s xPRIVILEGE (CoreOp.ctlw n ra).encode := by
  simp only [State.execOp, State.doCtlw, h, hb, if_true]

theorem execOp_load_misaligned {f : Load} {ra : BitVec 5} {i : BitVec 16} {a : Word} (rd : BitVec 5) (ha : s.effAddr c ra i = a)
    (h : a.toNat % f.size ≠ 0) : s.execOp c fed (.load f rd ra i) = .trap s xLOAD_ALIGN a := by
  subst ha
  simp only [State.execOp, State.doLoad]
  rw [if_pos h]

theorem execOp_store_misaligned {f : Store} {ra : BitVec 5} {i : BitVec 16} {a : Word} (rs : BitVec 5) (ha : s.effAddr c ra i = a)
    (h : a.toNat % f.size ≠ 0) : s.execOp c fed (.store f rs ra i) = .trap s xSTORE_ALIGN a := by
  subst ha
  simp only [State.execOp, State.doStore]
  rw [if_pos h]

theorem execOp_sc_misaligned {ra : BitVec 5} {a : Word} (rd rb : BitVec 5) (ha : s.greg c ra = a) (h : a.toNat % 4 ≠ 0) :
    s.execOp c fed (.sc rd ra rb) = .trap s xSTORE_ALIGN a := by
  subst ha
  simp only [State.execOp, State.doSc]
  rw [if_pos h]

theorem execOp_brk_unauthorised (h : s.levelEnabled c false = false) : s.execOp c fed .brk = .trap s xBREAK 0 := by
  simp only [State.execOp, State.doBrk, h, Bool.false_eq_true, if_false]

end Traps

/-! ### From the boundary to the state left -/

section Boundary

variable {s : State} {c : Nat}

/-- A step that takes `k` for core `c` to the boundary, from a state that the fetch may have left, changes that core unit alone. -/
theorem retires_of_boundary {v : State} {k : Core} {f : State → State} (hc : c < 6) (hs : s.Sealed) (hst : s.stands = false)
    (hfol : s.follows c = false) (hno : s.haltWanted c = false) (hv : s.Found v c)
    (hf : f s.clean = (v.modCore c fun _ => { k with icache := (v.core c).icache }).boundary c false) :
    ∃ t, runClk s f = .next t ∧ s.Retires t c k := by
  obtain ⟨cs, n, e⟩ := hv.rest
  obtain ⟨cs', e1, e2, e3⟩ := modCore_fetched (k := { k with icache := (v.core c).icache }) hc e
  exact leaves_of_boundary (cs0 := cs') (n := n) hc hs rfl rfl rfl rfl rfl hst hfol hno (hf.trans (by rw [e1])) e2
    fun d _ hd => (e3 d hd).trans (hv.others d hd)

/-- An instruction's exception other than ECALL's at S enters F from F, else S, where none stands there (R175, R177). -/
theorem run_raises {code : Nat} {addr : Word} {op : CoreOp} (hc : c < 6) (hs : s.Sealed) (hi : s.Issues c) (hu : s.Untraced c)
    (hcode : code ≠ xECALL_S) (hx : ((s.core c).exc ((s.core c).level = .f)).inexc = false)
    (hsx : (s.core c).level = .s → (s.core c).sx.inexc = false)
    (hd : ∀ v : State, s.Found v c → v.execOp c false op = .trap v code addr) :
    ∃ t, runClk s (fun s => s.isa c (.ok op)) = .next t ∧ s.Retires t c ((s.core c).entered ((s.core c).level = .f) false code addr) :=
  run_traps hc hs hi hu _ (by simp [hcode]) hx hsx hd

/-! ### An undefined word (R189) -/

/-- An exception other than ECALL's at S, where none stands at the level it enters, enters F from F, else S (R175, R178). -/
theorem takeExc_of_free {code : Nat} {addr : Word} (hx : ((s.core c).exc ((s.core c).level = .f)).inexc = false)
    (hsx : (s.core c).level = .s → (s.core c).sx.inexc = false) :
    s.takeExc c code addr false = s.enterExc c ((s.core c).level = .f) false code addr := by
  unfold State.takeExc
  cases hl : (s.core c).level
  case u => simp [hl]
  case s => simp [hl, hsx hl]
  case f =>
    have : (s.core c).fx.inexc = false := by simpa [hl, Core.exc] using hx
    simp [hl, this]

/-- A word that encodes no instruction traps as ILLEGAL once its fetch has succeeded (R180). -/
theorem isa_undefined {w : Word} (h : s.Ready c) :
    s.clean.isa c (.error w) = ((s.clean.fetchOk c).2.takeExc c xILLEGAL w false).boundary c false := by
  have hruns : s.clean.coreRuns c = true := h.runs
  have hwaits : (s.clean.core c).waits = false := h.unwaiting
  have hasync : (s.clean.core c).asyncAt = none := h.noAsync
  have hstep : (s.clean.core c).stepping = false := h.noStep
  have hattempt : s.clean.attempt c (.error w) = .trap (s.clean.fetchOk c).2 xILLEGAL w := by
    unfold State.attempt
    have hf := h.fetches
    generalize s.clean.fetchOk c = r at hf ⊢
    obtain ⟨b, s1⟩ := r
    cases hf
    rfl
  simp only [State.isa, lead_of_leads (s := s.clean) h.leads, hruns, hwaits, hasync, hstep, hattempt]
  simp [xILLEGAL, xECALL_S]

theorem run_undefined {w : Word} (hc : c < 6) (hs : s.Sealed) (hi : s.Issues c) (hu : s.Untraced c)
    (hx : ((s.core c).exc ((s.core c).level = .f)).inexc = false) (hsx : (s.core c).level = .s → (s.core c).sx.inexc = false) :
    ∃ t, runClk s (fun s => s.isa c (.error w)) = .next t ∧
      s.Retires t c ((s.core c).entered ((s.core c).level = .f) false xILLEGAL w) := by
  have hv := found_fetch hc hi.toReady
  refine retires_of_boundary hc hs hi.clocked hi.leads hi.noHalt hv ((isa_undefined hi.toReady).trans ?_)
  generalize (s.clean.fetchOk c).2 = v at hv
  have hlevel := level_found hv
  have hentry : v.takeExc c xILLEGAL w false = v.enterExc c ((v.core c).level = .f) false xILLEGAL w := by
    apply takeExc_of_free <;> rw [hv.core]
    · exact hx
    · exact hsx
  rw [hentry, enterExc_off (untraced_found hu hv), hlevel, hv.core, entered_icache]

/-! ### Interrupts (R179, R180) -/

theorem irq_platform (h : (s.core c).platform = true) (hf : (s.core c).level = .f → (s.core c).fx.ien = true) :
    s.irq c = some xPLATFORM := by
  have hopen : ((s.core c).level ≠ .f || (s.core c).fx.ien) = true := by
    by_cases hl : (s.core c).level = .f
    · simp [hf hl]
    · simp [hl]
  simp only [State.irq, h, Bool.true_and]
  rw [if_pos hopen]

theorem irq_timer (hp : (s.core c).platform = false) (hext : (s.extPending c && (s.core c).ie.getLsbD 1) = false)
    (hie : (s.core c).ie.getLsbD 0 = true) (hdue : (s.core c).timecmp ≤ (s.core c).cycle)
    (hopen : (s.core c).level = .u ∨ ((s.core c).level = .s ∧ (s.core c).sx.ien = true)) : s.irq c = some xTIMER := by
  have hdue' : (s.core c).timerPending = true := by simpa [Core.timerPending] using hdue
  have hopen' : ((s.core c).level = .u || ((s.core c).level = .s && (s.core c).sx.ien)) = true := by simpa using hopen
  rw [Bool.and_comm] at hext
  simp only [State.irq, hp, hext, hie, hdue', hopen', Bool.false_and, Bool.true_and, Bool.false_eq_true, if_false, if_true]

theorem takeIrq_timer (hu : s.Untraced c) : s.takeIrq c xTIMER = s.modCore c fun _ => (s.core c).entered false true xTIMER 0 := by
  rw [← enterExc_off hu]
  rfl

/-- PLATFORM is no longer pending once it is taken (R179). -/
theorem takeIrq_platform (hc : c < 6) (hu : s.Untraced c) :
    s.takeIrq c xPLATFORM = s.modCore c fun _ => ({ s.core c with platform := false } : Core).entered true true xPLATFORM 0 := by
  have h : s.takeIrq c xPLATFORM = (s.modCore c fun k => { k with platform := false }).enterExc c true true xPLATFORM 0 := rfl
  rw [h, enterExc_off (untraced_modCore hu _), modCore_modCore, core_modCore_self _ _ hc]
  rfl

/-- The interrupt that a core would take is taken at a boundary where its row stands for it and no STORE_ASYNC report comes first. -/
theorem takePending_irq {code : Nat} {codes : List Nat} (hfol : s.follows c = false) (hruns : s.coreRuns c = true)
    (hwaits : (s.core c).waits = false) (hbound : (s.core c).bound = false) (hasync : (s.core c).asyncAt = none)
    (hirq : s.irq c = some code) (hmem : codes.contains code = true) :
    s.takePending c codes = (s.takeIrq c code).boundary c false := by
  simp only [State.takePending, lead_of_leads hfol, hruns, hwaits, hbound, hasync, hirq, hmem]
  simp

/-- A core unit comes to a boundary at which it takes the interrupt `code` before anything else. -/
structure State.Interrupted (s : State) (c code : Nat) : Prop where
  leads : s.follows c = false
  runs : s.coreRuns c = true
  clocked : s.stands = false
  unwaiting : (s.core c).waits = false
  unbound : (s.core c).bound = false
  noHalt : s.haltWanted c = false
  noAsync : (s.core c).async = []
  irq : s.irq c = some code

/-- An interrupt whose entry makes `k` of core `c` changes that core unit alone. -/
theorem run_interrupt {code : Nat} {k : Core} (hc : c < 6) (hs : s.Sealed) (h : s.Interrupted c code)
    (hk : s.clean.takeIrq c code = s.clean.modCore c fun _ => { k with icache := (s.core c).icache }) :
    ∃ t, runClk s (fun s => s.takePending c [code]) = .next t ∧ s.Retires t c k := by
  have hasync : (s.clean.core c).asyncAt = none := by
    show (s.core c).asyncAt = none
    simp [Core.asyncAt, h.noAsync]
  have htaken : s.clean.takePending c [code] = (s.clean.takeIrq c code).boundary c false :=
    takePending_irq h.leads h.runs h.unwaiting h.unbound hasync h.irq (by simp)
  exact retires_of_boundary hc hs h.clocked h.leads h.noHalt (found_clean s c) (htaken.trans (by rw [hk]; rfl))

/-! ### ERET (R177) -/

/-- Core registers after a return from level F (`f`) or S: the level in PPL, IEN from PIEN, INEXC and the reservation cleared, the pc from
EPC. -/
def Core.returned (k : Core) (f : Bool) : Core :=
  let x := k.exc f
  let y : ExcRegs := { x with ien := x.pien, inexc := false }
  { k with level := x.ppl, pc := x.epc, resv := none, fx := if f then y else k.fx, sx := if f then k.sx else y }

theorem returned_icache (k : Core) (ic : List CLine) (f : Bool) :
    ({ k with icache := ic } : Core).returned f = { k.returned f with icache := ic } := rfl

theorem doEret_off (hu : s.Untraced c) : s.doEret c = s.modCore c fun _ => (s.core c).returned ((s.core c).level = .f) := by
  unfold State.doEret
  rw [traceMoved_off (untraced_modCore hu _)]
  apply modCore_congr
  cases (s.core c).level <;> rfl

/-- ERET at level F (`f`) or S returns from that level. -/
theorem run_eret (f : Bool) (hc : c < 6) (hs : s.Sealed) (hi : s.Issues c) (hu : s.Untraced c)
    (hl : (s.core c).level = if f then .f else .s) :
    ∃ t, runClk s (fun s => s.isa c (.ok .eret)) = .next t ∧ s.Retires t c ((s.core c).returned f) := by
  have hbelow : s.below c 1 = false := by cases f <;> simp [State.below, hl, Level.rank]
  have hf : decide ((s.core c).level = .f) = f := by cases f <;> simp [hl]
  refine run_retires hc hs hi fun v hv => ?_
  rw [execOp_eret, atS_of_not_below ((below_found hv 1).trans hbelow), doEret_off (untraced_found hu hv), level_found hv, hf, hv.core,
    returned_icache]

end Boundary

/-! ### The obligations -/

/-- Settles O5: every clause is an instruction that traps before it touches anything, taken to the boundary by `run_traps`, at the level
that the core runs at by `run_raises`; an undefined word never becomes an instruction. -/
theorem exceptionEntry : Obligations.ExceptionEntry := by
  intro c rd ra rb i n s hs hi hu k a b Enters Raises
  have raises : ∀ {o : Instr} {op : CoreOp} {code : Nat} {addr : Word}, (exec o s = runClk s fun s => s.isa c (.ok op)) →
      code ≠ xECALL_S → (∀ v : State, s.Found v c → v.execOp c false op = .trap v code addr) → Raises o code addr :=
    fun ho hcode hd hx hsx => ho ▸ run_raises c.isLt hs hi hu hcode hx hsx hd
  have privileged : k.level = .u → ∀ {o : Instr} {op : CoreOp}, (exec o s = runClk s fun s => s.isa c (.ok op)) →
      (∀ v : State, v.below c 1 = true → v.execOp c false op = .trap v xPRIVILEGE op.encode) → Enters o false xPRIVILEGE op.encode :=
    fun hl _ _ ho hd hx hsx => ho ▸ run_traps c.isLt hs hi hu false (by simp [hl, k, xPRIVILEGE, xECALL_S]) hx hsx
      fun v hv => hd v ((below_found hv 1).trans (below_one_of_u hl))
  have misaligned_load : ∀ {o : Instr} {f : Load}, (exec o s = runClk s fun s => s.isa c (.ok (.load f rd ra i))) →
      a.toNat % f.size ≠ 0 → Raises o xLOAD_ALIGN a := fun ho h =>
    raises ho (by decide) fun v hv => execOp_load_misaligned rd (effAddr_found hv ra i) h
  have misaligned_store : ∀ {o : Instr} {f : Store}, (exec o s = runClk s fun s => s.isa c (.ok (.store f rd ra i))) →
      a.toNat % f.size ≠ 0 → Raises o xSTORE_ALIGN a := fun ho h =>
    raises ho (by decide) fun v hv => execOp_store_misaligned rd (effAddr_found hv ra i) h
  refine ⟨?ecallU, ?ecallS, ?ecallF, ?undefined, ?unlisted, ?level, ?atU, ?half, ?word, ?sc, ?brk⟩
  case ecallU =>
    intro hl hx hsx
    exact run_traps c.isLt hs hi hu false (by simp [hl, k, xECALL_S]) hx hsx fun v hv => execOp_ecall_u ((level_found hv).trans hl)
  case ecallS =>
    intro hl hx hsx
    exact run_traps c.isLt hs hi hu true (by simp [xECALL_S]) hx hsx fun v hv => execOp_ecall_s ((level_found hv).trans hl)
  case ecallF =>
    intro hl hx hsx
    exact run_traps c.isLt hs hi hu true (by simp [hl, k]) hx hsx fun v hv => execOp_ecall_f ((level_found hv).trans hl)
  case undefined =>
    intro w hw hx hsx
    have hrow : exec (.illegalInstruction c w) s = runClk s fun s => s.isa c (.error w) := by
      show execIllegalInstruction c w s = _
      simp [execIllegalInstruction, runIfClk, runIf, runClk, hw]
    exact hrow ▸ run_undefined c.isLt hs hi hu hx hsx
  case unlisted =>
    intro h
    exact ⟨raises rfl (by decide) fun v _ => execOp_ctlr_unlisted rd h, raises rfl (by decide) fun v _ => execOp_ctlw_unlisted ra h⟩
  case level =>
    intro r w h
    exact ⟨fun hr => raises rfl (by decide) fun v hv => execOp_ctlr_below rd h ((below_found hv r).trans ((below_iff s c r).2 hr)),
      fun hw => raises rfl (by decide) fun v hv => execOp_ctlw_below ra h ((below_found hv w).trans ((below_iff s c w).2 hw))⟩
  case atU =>
    intro hl
    exact ⟨privileged hl (op := .eret) rfl fun v h => execOp_eret.trans (atS_of_below h _),
      privileged hl (op := .ifence) rfl fun v h => execOp_ifence.trans (atS_of_below h _),
      privileged hl (op := .rest) rfl fun v h => execOp_rest_below h⟩
  case half =>
    intro h
    exact ⟨misaligned_load (f := .lh) rfl h, misaligned_load (f := .lhu) rfl h, misaligned_store (f := .sh) rfl h⟩
  case word =>
    intro h
    exact ⟨misaligned_load (f := .lw) rfl h, misaligned_load (f := .ll) rfl h, misaligned_store (f := .sw) rfl h⟩
  case sc =>
    intro h
    exact raises rfl (by decide) fun v hv => execOp_sc_misaligned rd rb (greg_of_core hv.core ra) h
  case brk =>
    intro h
    exact raises rfl (by decide) fun v hv => execOp_brk_unauthorised ((levelEnabled_found hv false).trans h)

/-- Settles O6: entry by `run_traps` and `run_interrupt`, return by `run_eret`; what each leaves of the core is `Core.entered` or
`Core.returned` at the level that the clause names. -/
theorem entryAndReturn : Obligations.EntryAndReturn := by
  intro c s hs hu k Takes into
  refine ⟨fun hi => ⟨?ecallU, ?ecallS, ?eretF, ?eretS⟩, fun hfol hruns hst hwaits hbound hno hasync => ⟨?platform, ?timer⟩⟩
  case ecallU =>
    intro hl hx
    exact run_traps c.isLt hs hi hu false (by simp [hl, k, xECALL_S]) hx (fun hs' => absurd (hl.symm.trans hs') (by decide))
      fun v hv => execOp_ecall_u ((level_found hv).trans hl)
  case ecallS =>
    intro hl hsx hx
    exact run_traps c.isLt hs hi hu true (by simp [xECALL_S]) hx (fun _ => hsx)
      fun v hv => execOp_ecall_s ((level_found hv).trans hl)
  case eretF => exact run_eret true c.isLt hs hi hu
  case eretS => exact run_eret false c.isLt hs hi hu
  case platform =>
    intro hp hf
    exact run_interrupt c.isLt hs ⟨hfol, hruns, hst, hwaits, hbound, hno, hasync, irq_platform hp hf⟩
      (takeIrq_platform c.isLt (untraced_found hu (found_clean s c)))
  case timer =>
    intro hp hext hie hdue hopen
    exact run_interrupt c.isLt hs ⟨hfol, hruns, hst, hwaits, hbound, hno, hasync, irq_timer hp hext hie hdue hopen⟩
      (takeIrq_timer (untraced_found hu (found_clean s c)))

end CoreExceptions

end Sys2Proof.Machine
end

section
/-! Proofs for the host ports (08): peg requests, the peg queues and raised vectors. -/

namespace Sys2Proof.Machine

section PegsAndRaise

/-! ### The tables of the peg registers (R220, R226, R227) -/

section Tables

variable {n k : Nat}

/-- A table of block 0x4021 with eight words, one of each bay, ends below the PEG_STATE words. -/
theorem famIdx_below_pegState {o : Nat} (h : 0x40211000 ≤ o) (b : Nat) (hb : b ≤ 0x40210100) : famIdx [(4, 8)] (o - b) = none := by
  rw [famIdx, if_neg (by omega)]

theorem famIdx_pegState (hn : n < 8) (hk : k < 256) : famIdx [(0x400, 8), (4, 256)] (Reg.PEG_STATE n k - 0x40211000) = some [n, k] := by
  have hbay : (Reg.PEG_STATE n k - 0x40211000) / 0x400 = n := by simp only [Reg.PEG_STATE]; omega
  have hofs : (Reg.PEG_STATE n k - 0x40211000) % 0x400 = 4 * k := by simp only [Reg.PEG_STATE]; omega
  simp [famIdx, hbay, hofs, hn, hk]

/-- PEG_STATE words hold no reserved bit. -/
theorem regMask_pegState (hn : n < 8) (hk : k < 256) : regMask (Reg.PEG_STATE n k) = BitVec.allOnes 32 := by
  have hblock : Reg.PEG_STATE n k / 65536 = 0x4021 := by simp only [Reg.PEG_STATE]; omega
  have hge : 0x40211000 ≤ Reg.PEG_STATE n k := by simp only [Reg.PEG_STATE]; omega
  have hbase : ∀ b, b ≤ 0x40211000 → b ≤ Reg.PEG_STATE n k := fun b hb => hb.trans hge
  have hfind : (findReg (Reg.PEG_STATE n k)).map (·.1.fields) = some [⟨31, 0, .ro, 0, false, false, []⟩] := by
    simp only [findReg, hblock, blockFamilies, pegFamilies, List.findSome?]
    simp [hbase, famIdx_below_pegState hge, famIdx_pegState hn hk]
  obtain ⟨⟨f, ix⟩, hf, e⟩ := Option.map_eq_some_iff.1 hfind
  simp only at e
  simp only [regMask, hf, e]
  decide

end Tables

/-! ### Fields of the peg registers -/

section Fields

variable {n : Nat}

theorem pegFld_ok (n p : Nat) : (pegFld n p).Ok := by
  simp only [Fld.Ok, pegFld]
  omega

theorem pegFld_within {p : Nat} (hn : n < 8) (hp : p < 4096) : (pegFld n p).Within :=
  ⟨pegFld_ok n p, by rw [pegFld, regMask_pegState hn (by omega), BitVec.and_allOnes]⟩

theorem pegFstat_peg_within : ∀ n : Fin 8, (Fd.PEG_FSTAT_PEG n).Within := by decide
theorem pegFstat_cause_within : ∀ n : Fin 8, (Fd.PEG_FSTAT_CAUSE n).Within := by decide
theorem pegFstat_faults_within : ∀ n : Fin 8, (Fd.PEG_FSTAT_FAULTS n).Within := by decide
theorem pegFstat_ignored_within : ∀ n : Fin 8, (Fd.PEG_FSTAT_IGNORED n).Within := by decide
theorem pegDstat_pending_within : ∀ n : Fin 8, (Fd.PEG_DSTAT_PENDING n).Within := by decide

/-- Two pegs of a bay have fields of different bits. -/
theorem pegFld_disjoint {p q : Nat} (h : q ≠ p) :
    (pegFld n q).addr ≠ (pegFld n p).addr ∨ (pegFld n p).hi < (pegFld n q).lo ∨ (pegFld n q).hi < (pegFld n p).lo := by
  simp only [pegFld, Reg.PEG_STATE]
  omega

theorem pegState_ne_dstat (n k : Nat) : Reg.PEG_STATE n k ≠ Reg.PEG_DSTAT n := by
  simp only [Reg.PEG_STATE, Reg.PEG_DSTAT]
  omega

theorem pegState_ne_fstat (n k : Nat) : Reg.PEG_STATE n k ≠ Reg.PEG_FSTAT n := by
  simp only [Reg.PEG_STATE, Reg.PEG_FSTAT]
  omega

variable (s : State)

theorem peg_put_self {p : Nat} (v : Nat) : (s.put (pegFld n p) v).peg n p = v % 4 := by
  have hw : (pegFld n p).hi + 1 - (pegFld n p).lo = 2 := by simp only [pegFld]; omega
  rw [State.peg, get_put_self _ _ _ (pegFld_ok n p), hw]
  rfl

theorem peg_put_ne {p q : Nat} (v : Nat) (h : q ≠ p) : (s.put (pegFld n p) v).peg n q = s.peg n q :=
  get_put_other s _ _ v (pegFld_ok n p) (pegFld_ok n q) (pegFld_disjoint h)

theorem peg_of_reg {t : State} (h : ∀ k, t.reg (Reg.PEG_STATE n k) = s.reg (Reg.PEG_STATE n k)) (p : Nat) : t.peg n p = s.peg n p :=
  get_congr (h _)

theorem bump_regsBut (f : Fld) (k : Nat) : s.RegsBut (s.bump f k) [f.addr] := regsBut_put _ _ _

theorem get_bump (f : Fld) (h : f.Ok) : (s.bump f).get f = min (2 ^ (f.hi + 1 - f.lo) - 1) (s.get f + 1) := by
  rw [State.bump, get_put_self _ _ _ h]
  exact Nat.mod_eq_of_lt (lt_of_le_of_lt (Nat.min_le_left _ _) (Nat.sub_lt (Nat.two_pow_pos _) Nat.one_pos))

end Fields

/-! ### What a peg request can touch -/

section Touch

variable {s t u : State}

/-- From `s` to `t` nothing has changed but registers, rings, firmware's counters of the bays, pending vectors, peg queues and outputs. -/
def State.PegTouch (s t : State) : Prop :=
  ∃ r q w f h hl d dl o, t = { s with
    regs := r, mbx := { s.mbx with rings := q }, fw := { s.fw with bays := w }
    pcie := { s.pcie with fns := f, hq := h, hqLost := hl, dq := d, dqLost := dl }, out := o }

theorem pegTouch_refl (s : State) : s.PegTouch s := ⟨_, _, _, _, _, _, _, _, _, rfl⟩

theorem pegTouch_trans (h : s.PegTouch t) (k : t.PegTouch u) : s.PegTouch u := by
  obtain ⟨_, _, _, _, _, _, _, _, _, rfl⟩ := h
  obtain ⟨_, _, _, _, _, _, _, _, _, rfl⟩ := k
  exact ⟨_, _, _, _, _, _, _, _, _, rfl⟩

theorem memKept_of_pegTouch (h : s.PegTouch t) : s.MemKept t := by
  obtain ⟨_, _, _, _, _, _, _, _, _, rfl⟩ := h
  exact ⟨rfl, rfl, rfl, rfl, rfl⟩

theorem waiting_of_pegTouch (h : s.PegTouch t) : t.mbx.waiting = s.mbx.waiting := by
  obtain ⟨_, _, _, _, _, _, _, _, _, rfl⟩ := h
  rfl

theorem pegHeld_of_pegTouch (h : s.PegTouch t) : t.pcie.pegHeld = s.pcie.pegHeld := by
  obtain ⟨_, _, _, _, _, _, _, _, _, rfl⟩ := h
  rfl

variable (s)

theorem put_pegTouch (f : Fld) (v : Nat) : s.PegTouch (s.put f v) := ⟨_, _, _, _, _, _, _, _, _, rfl⟩

theorem msix_pegTouch (n v : Nat) : s.PegTouch (s.msix n v) := by
  obtain ⟨_, _, e⟩ := msix_shape s n v
  rw [e]
  exact ⟨_, _, _, _, _, _, _, _, _, rfl⟩

theorem post_pegTouch (r code : Nat) (arg : List Byte) : s.PegTouch (s.post r code arg) := by
  obtain ⟨_, _, _, _, e⟩ := post_shape s r code arg
  rw [e]
  exact ⟨_, _, _, _, _, _, _, _, _, rfl⟩

theorem postBoth_pegTouch (b code : Nat) (arg : List Byte) : s.PegTouch (s.postBoth b code arg) := by
  have h := post_pegTouch s 0 code arg
  simp only [State.postBoth]
  split
  · exact h
  · exact pegTouch_trans h (post_pegTouch _ _ _ _)

theorem pushHq_pegTouch (n p : Nat) : s.PegTouch (s.pushHq n p) := by
  simp only [State.pushHq]
  refine pegTouch_trans ?_ (msix_pegTouch _ _ _)
  split <;> exact ⟨_, _, _, _, _, _, _, _, _, rfl⟩

theorem pushDq_pegTouch (n p : Nat) : s.PegTouch (s.pushDq n p) := by
  simp only [State.pushDq]
  refine pegTouch_trans ?_ (put_pegTouch _ _ _)
  split <;> exact ⟨_, _, _, _, _, _, _, _, _, rfl⟩

theorem pegFault_pegTouch (n p cause : Nat) : s.PegTouch (s.pegFault n p cause) := by
  have hput : s.PegTouch ((((s.put (pegFld n p) pFAULT).put (Fd.PEG_FSTAT_PEG n) p).put (Fd.PEG_FSTAT_CAUSE n) cause).bump
      (Fd.PEG_FSTAT_FAULTS n)) := ⟨_, _, _, _, _, _, _, _, _, rfl⟩
  exact pegTouch_trans (pegTouch_trans hput (msix_pegTouch _ _ _)) (postBoth_pegTouch _ _ _ _)

theorem pegRequest_pegTouch (n : Nat) (host : Bool) (w : Word) : s.PegTouch (s.pegRequest n host w) := by
  simp only [State.pegRequest]
  split
  · exact put_pegTouch _ _ _
  · split
    · exact pegTouch_refl s
    · exact put_pegTouch _ _ _
    · exact pegFault_pegTouch _ _ _ _
    · split
      · exact pegTouch_trans (put_pegTouch _ _ _) (pushHq_pegTouch _ _ _)
      · split
        · exact pegTouch_trans (put_pegTouch _ _ _) (pushDq_pegTouch _ _ _)
        · exact put_pegTouch _ _ _

end Touch

/-! ### The queues (R230) -/

section Queues

variable (s : State) {n : Nat}

/-- A queue of 64 entries after a push of `p`. -/
def pegPush (p : BitVec 12) (q : List (BitVec 12)) : List (BitVec 12) := if q.length < 64 then q ++ [p] else q

theorem msix_regs (n v : Nat) : (s.msix n v).regs = s.regs := by
  obtain ⟨_, _, e⟩ := msix_shape s n v
  rw [e]

theorem msix_hq (n v : Nat) : (s.msix n v).pcie.hq = s.pcie.hq := by
  obtain ⟨_, _, e⟩ := msix_shape s n v
  rw [e]

theorem msix_dq (n v : Nat) : (s.msix n v).pcie.dq = s.pcie.dq := by
  obtain ⟨_, _, e⟩ := msix_shape s n v
  rw [e]

theorem pushHq_regs (p : Nat) : (s.pushHq n p).regs = s.regs := by
  simp only [State.pushHq, msix_regs]
  split <;> rfl

theorem pushHq_dq (p : Nat) : (s.pushHq n p).pcie.dq = s.pcie.dq := by
  simp only [State.pushHq, msix_dq]
  split <;> rfl

theorem pushHq_hq (hn : n < 8) (p : BitVec 12) : vget (s.pushHq n p.toNat).pcie.hq n = pegPush p (vget s.pcie.hq n) := by
  simp only [State.pushHq, msix_hq, pegPush]
  split
  · rw [vget_vmod_self _ _ hn, BitVec.ofNat_toNat, BitVec.setWidth_eq]
  · rfl

theorem pushDq_regsBut (p : Nat) : s.RegsBut (s.pushDq n p) [Reg.PEG_DSTAT n] := by
  have hregs : ∀ x : State, x.regs = s.regs → s.RegsBut (x.dqPending n) [Reg.PEG_DSTAT n] := fun x hx a ha =>
    (regsBut_put x (Fd.PEG_DSTAT_PENDING n) _ a ha).trans (reg_of_regs hx a)
  simp only [State.pushDq]
  split <;> exact hregs _ rfl

theorem pushDq_hq (p : Nat) : (s.pushDq n p).pcie.hq = s.pcie.hq := by
  simp only [State.pushDq, State.dqPending, putB_pcie]
  split <;> rfl

theorem pushDq_dq (hn : n < 8) (p : BitVec 12) : vget (s.pushDq n p.toNat).pcie.dq n = pegPush p (vget s.pcie.dq n) := by
  simp only [State.pushDq, State.dqPending, putB_pcie, pegPush]
  split
  · rw [vget_vmod_self _ _ hn, BitVec.ofNat_toNat, BitVec.setWidth_eq]
  · rfl

variable {s} {x : BitVec 12} {l : List (BitVec 12)}

theorem popHq_nil (h : vget s.pcie.hq n = []) : s.popHq n = (0, s) := by simp [State.popHq, queueWord, h]

theorem popHq_cons (h : vget s.pcie.hq n = x :: l) : s.popHq n = (queueWord (x :: l) (vget s.pcie.hqLost n),
    { s with pcie := { s.pcie with hq := vmod s.pcie.hq n List.tail, hqLost := vmod s.pcie.hqLost n fun _ => false } }) := by
  simp [State.popHq, h]

theorem popDq_cons (h : vget s.pcie.dq n = x :: l) : s.popDq n = (queueWord (x :: l) (vget s.pcie.dqLost n),
    ({ s with pcie := { s.pcie with dq := vmod s.pcie.dq n List.tail, dqLost := vmod s.pcie.dqLost n fun _ => false } } : State).dqPending n) := by
  simp [State.popDq, h]

/-- A host read of PEG_HQ answers what the queue gives. -/
theorem bar2Answer_hq (s : State) (hn : n < 8) : s.bar2Answer n 0x2408 = s.wordOut (s.popHq n) := by
  simp [State.bar2Answer, State.bar2Read, State.wordOut, hn]

end Queues

/-! ### The transition table (R226) -/

section Table

variable {s : State} {n : Nat} {p : BitVec 12} {tg : BitVec 2} {host : Bool} {w : Word} {cur : Nat}

/-- The request word for peg `p` with TARGET `tg`. -/
def pegWord (p : BitVec 12) (tg : BitVec 2) : Word := BitVec.ofNat 32 (p.toNat + 65536 * tg.toNat)

theorem pegWord_toNat (p : BitVec 12) (tg : BitVec 2) : (pegWord p tg).toNat = p.toNat + 65536 * tg.toNat := by
  rw [pegWord, BitVec.toNat_ofNat]
  omega

theorem pegWord_peg (p : BitVec 12) (tg : BitVec 2) : (pegWord p tg).toNat % 4096 = p.toNat := by
  rw [pegWord_toNat]
  omega

theorem pegWord_target (p : BitVec 12) (tg : BitVec 2) : bitsOf (pegWord p tg).toNat 17 16 = tg.toNat := by
  rw [pegWord_toNat, bitsOf]
  omega

/-- The side that holds a peg, or either of an idle one, gives it another state but FAULT. -/
theorem pegAct_take {tg : Nat} (hf : tg ≠ pFAULT) (hne : tg ≠ cur) (h : cur = pIDLE ∨ cur = if host then pHOST else pDEVICE) :
    pegAct host cur tg = .take := by
  have hcur : cur ≠ pFAULT := by
    rcases h with rfl | rfl
    · decide
    · cases host <;> decide
  simp only [pegAct, if_neg hcur, if_neg hf]
  rcases h with rfl | rfl
  · simp [hne]
  · cases host
    · exact if_neg hne
    · exact if_neg hne

theorem pegAct_same (h : cur = pIDLE ∨ cur = if host then pHOST else pDEVICE) : pegAct host cur cur = .same := by
  rcases h with rfl | rfl <;> cases host <;> rfl

theorem pegAct_fault {tg : Nat} (hcur : cur ≠ pFAULT) (h : tg = pFAULT ∨ cur = if host then pDEVICE else pHOST) :
    pegAct host cur tg = .fault := by
  simp only [pegAct, if_neg hcur]
  split
  · rfl
  · next hf =>
    obtain rfl := h.resolve_left hf
    cases host <;> rfl

theorem pegAct_ignore {tg : Nat} (h : cur = pFAULT) : pegAct host cur tg = .ignore := if_pos h

/-- A request that R226 discards: one with a non-zero reserved field, or of the host for an EMPTY bay before MBX sets (R474). -/
def State.PegDiscards (s : State) (n : Nat) (host : Bool) (w : Word) : Prop :=
  (2 ^ 18 ≤ w.toNat ∨ bitsOf w.toNat 15 12 ≠ 0) ∨ (host = true ∧ s.bayState n = bEMPTY ∧ s.ready rMBX = false)

/-- The new holder of peg `p` finds it in its queue; a device that asks for a peg knows that it holds it (R230). -/
def State.pegTell (s : State) (n p tg : Nat) (host : Bool) : State :=
  if tg = pHOST then s.pushHq n p else if tg = pDEVICE && host then s.pushDq n p else s

theorem pegRequest_discard (h : s.PegDiscards n host w) : s.pegRequest n host w = s.bump (Fd.PEG_FSTAT_IGNORED n) := by
  have hbig : 2 ^ 18 ≤ w.toNat → w.toNat / 2 ^ 18 ≠ 0 := by omega
  simp only [State.pegRequest]
  rw [if_pos]
  rcases h with (h | h) | h
  · exact .inl (hbig h)
  · exact .inr (.inl h)
  · exact .inr (.inr h)

/-- No reserved bit of the request word for a peg is set. -/
theorem pegWord_formed (h : ¬(host = true ∧ s.bayState n = bEMPTY ∧ s.ready rMBX = false)) :
    ¬((pegWord p tg).toNat / 2 ^ 18 ≠ 0 ∨ bitsOf (pegWord p tg).toNat 15 12 ≠ 0 ∨
      (host = true ∧ s.bayState n = bEMPTY ∧ s.ready rMBX = false)) := by
  have htop : (pegWord p tg).toNat / 2 ^ 18 = 0 := by rw [pegWord_toNat]; omega
  have hmid : bitsOf (pegWord p tg).toNat 15 12 = 0 := by rw [pegWord_toNat, bitsOf]; omega
  rintro (h1 | h1 | h1)
  · exact h1 htop
  · exact h1 hmid
  · exact h h1

section Word

variable (hm : ¬(host = true ∧ s.bayState n = bEMPTY ∧ s.ready rMBX = false))
include hm

theorem pegRequest_same (h : pegAct host (s.peg n p.toNat) tg.toNat = .same) : s.pegRequest n host (pegWord p tg) = s := by
  simp only [State.pegRequest, if_neg (pegWord_formed hm), pegWord_peg, pegWord_target, h]

theorem pegRequest_ignore (h : pegAct host (s.peg n p.toNat) tg.toNat = .ignore) :
    s.pegRequest n host (pegWord p tg) = s.bump (Fd.PEG_FSTAT_IGNORED n) := by
  simp only [State.pegRequest, if_neg (pegWord_formed hm), pegWord_peg, pegWord_target, h]

theorem pegRequest_fault (h : pegAct host (s.peg n p.toNat) tg.toNat = .fault) :
    s.pegRequest n host (pegWord p tg) = s.pegFault n p.toNat (if host then 1 else 2) := by
  simp only [State.pegRequest, if_neg (pegWord_formed hm), pegWord_peg, pegWord_target, h]

theorem pegRequest_take (h : pegAct host (s.peg n p.toNat) tg.toNat = .take) :
    s.pegRequest n host (pegWord p tg) = (s.put (pegFld n p.toNat) tg.toNat).pegTell n p.toNat tg.toNat host := by
  simp only [State.pegRequest, if_neg (pegWord_formed hm), pegWord_peg, pegWord_target, h, State.pegTell]

end Word

end Table

/-! ### What a handed-over and a faulted peg leave -/

section Effects

variable (s : State) {n : Nat}

theorem pegTell_regsBut (p tg : Nat) (host : Bool) : s.RegsBut (s.pegTell n p tg host) [Reg.PEG_DSTAT n] := by
  simp only [State.pegTell]
  split
  · exact fun a _ => reg_of_regs (pushHq_regs s p) a
  · split
    · exact pushDq_regsBut s p
    · exact fun _ _ => rfl

theorem pegTell_hq (hn : n < 8) (p : BitVec 12) (tg : Nat) (host : Bool) : vget (s.pegTell n p.toNat tg host).pcie.hq n =
    if tg = pHOST then pegPush p (vget s.pcie.hq n) else vget s.pcie.hq n := by
  simp only [State.pegTell]
  split
  · exact pushHq_hq s hn p
  · split
    · rw [pushDq_hq]
    · rfl

theorem pegTell_dq (hn : n < 8) (p : BitVec 12) (tg : Nat) (host : Bool) : vget (s.pegTell n p.toNat tg host).pcie.dq n =
    if tg = pDEVICE ∧ host = true then pegPush p (vget s.pcie.dq n) else vget s.pcie.dq n := by
  simp only [State.pegTell, Bool.and_eq_true, decide_eq_true_eq]
  split
  · next h =>
    rw [pushHq_dq, if_neg]
    rintro ⟨h2, -⟩
    exact absurd (h.symm.trans h2) (by decide)
  · split
    · exact pushDq_dq s hn p
    · rfl

theorem pegTell_peg (p q tg : Nat) (host : Bool) : (s.pegTell n p tg host).peg n q = s.peg n q :=
  peg_of_reg s (fun _ => pegTell_regsBut s p tg host _ (by simpa using pegState_ne_dstat n _)) q

/-- The registers of a peg fault: the peg in FAULT, and PEG_FSTAT with the peg, the cause and the count (R227). -/
def State.pegFaultRegs (s : State) (n p cause : Nat) : State :=
  (((s.put (pegFld n p) pFAULT).put (Fd.PEG_FSTAT_PEG n) p).put (Fd.PEG_FSTAT_CAUSE n) cause).bump (Fd.PEG_FSTAT_FAULTS n)

theorem postBoth_reg (b code : Nat) (arg : List Byte) (a : Nat) : (s.postBoth b code arg).reg a = s.reg a := by
  simp only [State.postBoth]
  split
  · exact post_reg _ _ _ _ _
  · exact (post_reg _ _ _ _ _).trans (post_reg _ _ _ _ _)

theorem pegFault_reg (p cause a : Nat) : (s.pegFault n p cause).reg a = (s.pegFaultRegs n p cause).reg a :=
  (postBoth_reg _ _ _ _ _).trans (reg_of_regs (msix_regs _ _ _) a)

theorem pegFault_get (p cause : Nat) (f : Fld) : (s.pegFault n p cause).get f = (s.pegFaultRegs n p cause).get f :=
  get_congr (pegFault_reg s p cause _)

theorem pegFault_regsBut (p cause : Nat) : s.RegsBut (s.pegFault n p cause) [Reg.PEG_STATE n (p / 16), Reg.PEG_FSTAT n] := by
  intro a ha
  simp only [List.mem_cons, List.not_mem_nil, or_false, not_or] at ha
  obtain ⟨hstate, hfstat⟩ := ha
  rw [pegFault_reg, State.pegFaultRegs, State.bump, reg_put_ne _ _ _ _ hfstat, reg_put_ne _ _ _ _ hfstat, reg_put_ne _ _ _ _ hfstat,
    reg_put_ne _ _ _ _ hstate]

/-- PEG_FSTAT does not hold a peg. -/
theorem pegFault_peg (p q cause : Nat) : (s.pegFault n p cause).peg n q = (s.put (pegFld n p) pFAULT).peg n q := by
  have hne : (pegFld n q).addr ≠ Reg.PEG_FSTAT n := pegState_ne_fstat n _
  refine get_congr ?_
  rw [pegFault_reg, State.pegFaultRegs, State.bump, reg_put_ne _ _ _ _ hne, reg_put_ne _ _ _ _ hne, reg_put_ne _ _ _ _ hne]

theorem pegFault_fstatPeg {p : Nat} (cause : Nat) (hp : p < 4096) : (s.pegFault n p cause).get (Fd.PEG_FSTAT_PEG n) = p := by
  rw [pegFault_get, State.pegFaultRegs, State.bump, get_put_other, get_put_other, get_put_self]
  · exact Nat.mod_eq_of_lt hp
  all_goals simp [Fld.Ok]

theorem pegFault_fstatCause {p : Nat} {cause : Nat} (hc : cause < 4) : (s.pegFault n p cause).get (Fd.PEG_FSTAT_CAUSE n) = cause := by
  rw [pegFault_get, State.pegFaultRegs, State.bump, get_put_other, get_put_self]
  · exact Nat.mod_eq_of_lt hc
  all_goals simp [Fld.Ok]

theorem pegFault_fstatFaults (p cause : Nat) :
    (s.pegFault n p cause).get (Fd.PEG_FSTAT_FAULTS n) = min 255 (s.get (Fd.PEG_FSTAT_FAULTS n) + 1) := by
  have hstate : Reg.PEG_FSTAT n ≠ (pegFld n p).addr := (pegState_ne_fstat n _).symm
  rw [pegFault_get, State.pegFaultRegs, get_bump, get_put_other, get_put_other,
    get_put_other _ _ _ _ (pegFld_ok n p) ⟨by simp, by simp⟩ (.inl hstate)]
  all_goals simp [Fld.Ok]

end Effects

/-! ### How a peg request comes to the pegs (R157, R226, R229) -/

section Serving

variable {s : State} {n : Fin 8} {w : Word} {host : Bool}

theorem runReady_of_runs (h : s.stands = false) (b : Nat) (f : State → State) : runReady b s f = .next (s.after f) := by
  have hclean : s.clean.stands = false := h
  simp only [runReady, run, State.after, hclean, Bool.false_and]
  rfl

theorem after_congr {f g : State → State} (h : f s.clean = g s.clean) : s.after f = s.after g := by simp only [State.after, h]

/-- A memory request to a function in D0 does what it stands for. -/
theorem memRequest_on (h : s.fnOn n = true) (read : Bool) (f : State → State) : s.memRequest n read f = f s := by
  rw [State.memRequest, if_pos h]

theorem exec_hostPegRequest (hst : s.stands = false) (hon : s.fnOn n = true) :
    exec (.hostPegRequest n w) s = .next (s.after fun s => s.hostWrite n 0x2400 w) :=
  (runReady_of_runs hst _ _).trans (congrArg _ (after_congr (memRequest_on (s := s.clean) hon _ _)))

theorem exec_devicePegRequest (hst : s.stands = false) : exec (.devicePegRequest n w) s = .next (s.after fun s => s.deviceRequest n w) :=
  runClk_of_runs hst _

/-- A host write of PEG_REQ that no window access goes before is a peg request. -/
theorem hostWrite_peg (h : s.hostBehind n = false) : s.hostWrite n 0x2400 w = s.pegHost n w := by
  simp [State.hostWrite, h, State.bar2Write, Nat.ne_of_lt n.isLt]

/-- A request that the bus matrix has granted has left no other behind, and nothing else has gone (R157). -/
structure Bxm.Settled (b c : Bxm) : Prop where
  reqs : c.reqs.length = b.reqs.length
  held : c.held = b.held
  answers : c.answers = b.answers
  lands : c.lands = b.lands

theorem length_dropReq_append (r : BusReq) (l : List BusReq) : (dropReq r (l ++ [r])).length = l.length := by
  induction l with
  | nil => simp [dropReq]
  | cons q l ih =>
    rw [List.cons_append, dropReq]
    split
    · simp
    · simp [ih]

theorem length_headSince (m k x : Nat) (l : List BusReq) : (headSince m k x l).length = l.length := by
  induction l with
  | nil => rfl
  | cons q l ih =>
    rw [headSince]
    split
    · rfl
    · simp [ih]

/-- A request that is granted in the step in which it is asked goes to its target at once (R157). -/
theorem request_granted {r : BusReq} (h : s.grantsNow r = true) :
    ∃ b, s.bxm.Settled b ∧ s.request r = (s.modBxm fun _ => b).deliver { r with id := s.bxm.next } := by
  simp only [State.grantsNow, Bool.and_eq_true, ne_eq, decide_eq_true_eq] at h
  obtain ⟨⟨⟨hbank, hddr⟩, hpick⟩, hcycle⟩ := h
  obtain ⟨c, hc⟩ := Option.isSome_iff_exists.1 hcycle
  have hport : ¬((decide (r.target = 2) || decide (r.target = 3)) = true) := by simp [hbank, hddr]
  have htake : (s.busPost r).canTake r.target = true := by simp [State.canTake, hbank]
  refine ⟨{ (s.busPost r).bxm with
    reqs := headSince r.master r.target (s.busPost r).clk.now (dropReq { r with id := s.bxm.next } (s.busPost r).bxm.reqs)
    ptr := vmod (s.busPost r).bxm.ptr r.target fun _ => r.master
    grantFrom := vmod (s.busPost r).bxm.grantFrom r.target fun _ => c + 1 }, ⟨?_, rfl, rfl, rfl⟩, ?_⟩
  · exact (length_headSince _ _ _ _).trans (length_dropReq_append _ _)
  · simp only [State.request, if_neg hport, hpick, decide_true, State.when, if_true, State.busGrant, htake, hc, Bool.not_true,
      Bool.false_eq_true, if_false]
    rfl

theorem pegRelease_none (h : s.pcie.pegHeld = []) : s.pegRelease = s := by
  simp [State.pegRelease, State.each, h]
  rw [← h]

theorem pegDevice_alone (h : s.pcie.pegHeld = []) : s.pegDevice n w = s.pegRequest n false w :=
  pegRelease_none ((pegHeld_of_pegTouch (pegRequest_pegTouch s n false w)).trans h)

/-- The state as a command finds it, after the bus matrix has passed the request on. -/
def State.served (s : State) (b : Bxm) : State := { s with out := [], bxm := b }

/-- Command `i` makes peg request `w` of bay `n`, with nothing but the bus matrix's grant before it. -/
def State.Serves (s : State) (i : Instr) (n : Nat) (host : Bool) (w : Word) : Prop :=
  ∃ b f, s.bxm.Settled b ∧ exec i s = .next (s.after f) ∧ f s.clean = (s.served b).pegRequest n host w

theorem serves_hostPegRequest (hst : s.stands = false) (hon : s.fnOn n = true) (hb : s.hostBehind n = false)
    (hd : s.deviceAsks n (w.toNat % 4096) = false) : s.Serves (.hostPegRequest n w) n true w := by
  refine ⟨s.bxm, _, ⟨rfl, rfl, rfl, rfl⟩, exec_hostPegRequest hst hon, ?_⟩
  have hclean : s.clean.deviceAsks n (w.toNat % 4096) = false := hd
  rw [hostWrite_peg (s := s.clean) hb, State.pegHost, hclean]
  rfl

/-- The request of a device-side peg write to the bus matrix. -/
def State.pegReq (s : State) (n : Fin 8) (w : Word) : BusReq :=
  s.regReq .peg (.bay n (Fin.ofNat 6 ((s.bayCores n).headD 0))) (Reg.PEG_REQ n) (some w)

theorem deviceRequest_pegReq : s.deviceRequest n w = s.requestAfter (s.earlier (s.bayCores n)) (s.pegReq n w) := by
  rw [State.deviceRequest, State.pegReq, Fin.ofNat_eq_cast, Fin.cast_val_eq_self]

theorem deliver_pegReq {r : BusReq} (hask : r.ask = .peg) (haddr : r.addr = Reg.PEG_REQ n) (hdata : r.data = natLe 4 w.toNat) :
    s.deliver r = s.pegDevice n w := by
  have hbay : (r.addr - Reg.PEG_REQ 0) / (Reg.PEG_REQ 1 - Reg.PEG_REQ 0) = n := by
    simp only [haddr, Reg.PEG_REQ]
    omega
  have hword : BitVec.ofNat 32 (leNat r.data) = w := by
    rw [hdata, leNat_natLe, Nat.mod_eq_of_lt (show w.toNat < 256 ^ 4 from w.isLt), BitVec.ofNat_toNat, BitVec.setWidth_eq]
  have hreg : s.deliver r = s.deliverReg r := by simp [State.deliver, hask]
  rw [hreg, State.deliverReg, if_pos hask, hbay, hword]

theorem serves_devicePegRequest (hst : s.stands = false) (ha : s.earlier (s.bayCores n) = []) (hh : s.pcie.pegHeld = [])
    (hg : s.grantsNow (s.pegReq n w) = true) : s.Serves (.devicePegRequest n w) n false w := by
  have hclean : s.clean.grantsNow (s.clean.pegReq n w) = true := hg
  have ha' : s.clean.earlier (s.clean.bayCores n) = [] := ha
  obtain ⟨b, hb, hr⟩ := request_granted hclean
  refine ⟨b, _, hb, exec_devicePegRequest hst, ?_⟩
  rw [deviceRequest_pegReq, State.requestAfter, ha', List.isEmpty_nil, if_pos rfl, hr]
  exact (deliver_pegReq (s := s.served b) rfl rfl rfl).trans (pegDevice_alone hh)

end Serving

/-! ### What a request leaves once its command has ended -/

section Left

variable {s : State} {n : Fin 8} {w : Word} {host : Bool} {i : Instr} {g : State → State}

theorem after_memKept (hs : s.Sealed) (h : s.MemKept (g s.clean)) : s.MemKept (s.after g) := by
  obtain ⟨-, -, hrom, hsram, hbkf, hddr, hflash, -, -⟩ := hs
  obtain ⟨erom, esram, ebkf, eddr, eflash⟩ := h
  simp only [State.MemKept, State.after, State.seal, erom, esram, ebkf, eddr, eflash]
  exact ⟨trimMem_eq_self hrom, trimMem_eq_self hsram, trimMem_eq_self hbkf, trimMem_eq_self hddr, snorm_eq_self hflash fun _ _ => rfl⟩

/-- A command that has changed registers, the bus matrix and the outputs alone leaves the same of them, but for reserved bits. -/
theorem after_of_regs {o : List Out} {r : List (Nat × Word)} {b : Bxm} (hs : s.Sealed) (h : g s.clean = { s with out := o, regs := r, bxm := b }) :
    s.after g = { s with out := o, regs := snorm regReset (fun a v => v &&& regMask a) r, bxm := b } := by
  have hu : ({ s with out := o, bxm := b } : State).Sealed := hs
  have hseal := seal_regs hu r
  simp only [State.after, h]
  rw [hseal]

theorem byBus_of_regs {o : List Out} {r : List (Nat × Word)} {b : Bxm} (hs : s.Sealed) (hb : s.bxm.Settled b)
    (h : g s.clean = { s with out := o, regs := r, bxm := b }) : s.ByBus (s.after g) := by
  rw [after_of_regs hs h]
  exact ⟨_, _, _, rfl, hb.reqs, hb.held, hb.answers, hb.lands⟩

/-- What an ignored request leaves (R226, R474). -/
theorem ignores_of_serves (hs : s.Sealed) (h : s.Serves i n host w)
    (hig : ∀ b, (s.served b).pegRequest n host w = (s.served b).bump (Fd.PEG_FSTAT_IGNORED n)) :
    ∃ t, exec i s = .next t ∧ s.ByBus t ∧ s.RegsBut t [Reg.PEG_FSTAT n] ∧
      t.get (Fd.PEG_FSTAT_IGNORED n) = min 255 (s.get (Fd.PEG_FSTAT_IGNORED n) + 1) := by
  obtain ⟨b, f, hb, hexec, hf⟩ := h
  have hbump := hf.trans (hig b)
  refine ⟨_, hexec, byBus_of_regs hs hb hbump, after_regsBut hs f ?_, ?_⟩
  · rw [hbump]
    exact fun a ha => bump_regsBut (s.served b) _ _ a ha
  · rw [after_get _ _ _ (pegFstat_ignored_within n), hbump]
    exact get_bump _ _ (pegFstat_ignored_within n).1

/-- A request for what the asker has changes nothing. -/
theorem same_of_serves (hs : s.Sealed) (h : s.Serves i n host w) (hsame : ∀ b, (s.served b).pegRequest n host w = s.served b) :
    ∃ t, exec i s = .next t ∧ s.ByBus t ∧ t.out = [] ∧ t.regs = s.regs := by
  obtain ⟨b, f, hb, hexec, hf⟩ := h
  have hsrv := hf.trans (hsame b)
  have hregs := after_of_regs (r := s.regs) hs hsrv
  have hkeep : s.after f = { s.served b with pending := s.pending } := by
    rw [after_eq (by rw [hsrv]; exact hs), hsrv]
  exact ⟨_, hexec, byBus_of_regs hs hb hsrv, by rw [hkeep]; rfl, by rw [hkeep]; rfl⟩

/-- The other pegs of the bay, the memories and the commands that wait are as they were. -/
def State.KeepsBesides (s t : State) (n p : Nat) : Prop :=
  (∀ q, q < 4096 → q ≠ p → t.peg n q = s.peg n q) ∧ s.MemKept t ∧ t.mbx.waiting = s.mbx.waiting

theorem keepsBesides_of_pegs {p : BitVec 12} (v : Nat) {f : State → State} {b : Bxm} (hs : s.Sealed)
    (hf : f s.clean = (s.served b).pegRequest n host w)
    (hpegs : ∀ q, ((s.served b).pegRequest n host w).peg n q = ((s.served b).put (pegFld n p.toNat) v).peg n q) :
    s.KeepsBesides (s.after f) n p.toNat := by
  have htouch := pegRequest_pegTouch (s.served b) n host w
  rw [← hf] at htouch hpegs
  have hmem := memKept_of_pegTouch htouch
  have hwait := waiting_of_pegTouch htouch
  refine ⟨fun q hq hne => ?_, after_memKept hs hmem, hwait⟩
  rw [State.peg, after_get _ _ _ (pegFld_within n.isLt hq)]
  exact (hpegs q).trans (peg_put_ne _ _ hne)

/-- What a request leaves that R226 takes. -/
theorem take_of_serves {p : BitVec 12} {tg : BitVec 2} (hs : s.Sealed) (h : s.Serves i n host (pegWord p tg))
    (htake : ∀ b, (s.served b).pegRequest n host (pegWord p tg) =
      ((s.served b).put (pegFld n p.toNat) tg.toNat).pegTell n p.toNat tg.toNat host) :
    ∃ t, exec i s = .next t ∧ t.peg n p.toNat = tg.toNat ∧
      s.KeepsBesides t n p.toNat ∧
      s.RegsBut t [Reg.PEG_STATE n (p.toNat / 16), Reg.PEG_DSTAT n] ∧
      vget t.pcie.hq n = (if tg.toNat = pHOST then pegPush p (vget s.pcie.hq n) else vget s.pcie.hq n) ∧
      vget t.pcie.dq n = (if tg.toNat = pDEVICE ∧ host = true then pegPush p (vget s.pcie.dq n) else vget s.pcie.dq n) := by
  obtain ⟨b, f, hb, hexec, hf⟩ := h
  have heff := hf.trans (htake b)
  refine ⟨_, hexec, ?peg, keepsBesides_of_pegs tg.toNat hs hf fun q => ?others, after_regsBut hs f ?regs, ?hq, ?dq⟩
  case others =>
    rw [htake b]
    exact pegTell_peg _ _ _ _ _
  case peg =>
    rw [State.peg, after_get _ _ _ (pegFld_within n.isLt p.isLt), heff]
    exact (pegTell_peg _ _ _ _ _).trans ((peg_put_self _ _).trans (Nat.mod_eq_of_lt tg.isLt))
  case regs =>
    rw [heff]
    intro a ha
    simp only [List.mem_cons, List.not_mem_nil, or_false, not_or] at ha
    exact (pegTell_regsBut _ _ _ _ a (by simpa using ha.2)).trans (reg_put_ne (s.served b) _ _ _ ha.1)
  case hq =>
    rw [after_pcie, heff]
    exact pegTell_hq _ n.isLt p _ _
  case dq =>
    rw [after_pcie, heff]
    exact pegTell_dq _ n.isLt p _ _

/-- What a request leaves that R226 answers with FAULT (R227). -/
theorem fault_of_serves {p : BitVec 12} {tg : BitVec 2} (hs : s.Sealed) (h : s.Serves i n host (pegWord p tg))
    (hfault : ∀ b, (s.served b).pegRequest n host (pegWord p tg) = (s.served b).pegFault n p.toNat (if host then 1 else 2)) :
    ∃ t, exec i s = .next t ∧ t.peg n p.toNat = pFAULT ∧
      s.KeepsBesides t n p.toNat ∧
      t.get (Fd.PEG_FSTAT_PEG n) = p.toNat ∧ t.get (Fd.PEG_FSTAT_CAUSE n) = (if host then 1 else 2) ∧
      t.get (Fd.PEG_FSTAT_FAULTS n) = min 255 (s.get (Fd.PEG_FSTAT_FAULTS n) + 1) ∧
      s.RegsBut t [Reg.PEG_STATE n (p.toNat / 16), Reg.PEG_FSTAT n] := by
  obtain ⟨b, f, hb, hexec, hf⟩ := h
  have heff := hf.trans (hfault b)
  refine ⟨_, hexec, ?peg, keepsBesides_of_pegs pFAULT hs hf fun q => ?others, ?fpeg, ?cause, ?faults, after_regsBut hs f ?regs⟩
  case others =>
    rw [hfault b]
    exact pegFault_peg _ _ _ _
  case peg =>
    rw [State.peg, after_get _ _ _ (pegFld_within n.isLt p.isLt), heff]
    exact (pegFault_peg _ _ _ _).trans (peg_put_self _ _)
  case fpeg =>
    rw [after_get _ _ _ (pegFstat_peg_within n), heff]
    exact pegFault_fstatPeg _ _ p.isLt
  case cause =>
    rw [after_get _ _ _ (pegFstat_cause_within n), heff]
    exact pegFault_fstatCause _ (by cases host <;> decide)
  case faults =>
    rw [after_get _ _ _ (pegFstat_faults_within n), heff]
    exact pegFault_fstatFaults _ _ _
  case regs =>
    rw [heff]
    exact fun a ha => pegFault_regsBut (s.served b) _ _ a ha

end Left

/-! ### Reads of the queues -/

section Pops

variable {s : State} {n : Fin 8} {x : BitVec 12} {l : List (BitVec 12)}

theorem exec_pegHqRead (hst : s.stands = false) (hon : s.fnOn n = true) (hb : s.hostBehind n = false) :
    ∃ f, exec (.pegHqRead n) s = .next (s.after f) ∧ f s.clean = s.clean.wordOut (s.clean.popHq n) := by
  refine ⟨_, runClk_of_runs hst _, ?_⟩
  have hon' : s.clean.fnOn n = true := hon
  have hb' : s.clean.hostBehind n = false := hb
  rw [memRequest_on hon', State.bar2Out, hb']
  exact bar2Answer_hq _ n.isLt

theorem pegHqRead_nil (hs : s.Sealed) (hst : s.stands = false) (hon : s.fnOn n = true) (hb : s.hostBehind n = false)
    (h : vget s.pcie.hq n = []) : ∃ t, exec (.pegHqRead n) s = .next t ∧ t = { s with out := [.word 0] } := by
  obtain ⟨f, hexec, hf⟩ := exec_pegHqRead hst hon hb
  rw [popHq_nil (s := s.clean) h] at hf
  refine ⟨_, hexec, ?_⟩
  rw [after_eq (by rw [hf]; exact hs), hf]
  rfl

theorem pegHqRead_cons (hs : s.Sealed) (hst : s.stands = false) (hon : s.fnOn n = true) (hb : s.hostBehind n = false)
    (h : vget s.pcie.hq n = x :: l) : ∃ t, exec (.pegHqRead n) s = .next t ∧ t.out = [.word (queueWord (x :: l) (vget s.pcie.hqLost n))] ∧
      vget t.pcie.hq n = l ∧ vget t.pcie.hqLost n = false ∧ t.regs = s.regs := by
  obtain ⟨f, hexec, hf⟩ := exec_pegHqRead hst hon hb
  rw [popHq_cons (s := s.clean) h] at hf
  refine ⟨_, hexec, ?_⟩
  rw [after_eq (by rw [hf]; exact hs), hf]
  refine ⟨rfl, ?_, vget_vmod_self _ _ n.isLt, rfl⟩
  exact (vget_vmod_self _ _ n.isLt).trans (by rw [clean_pcie, h]; rfl)

theorem pegDqRead_cons (hs : s.Sealed) (hst : s.stands = false) (h : vget s.pcie.dq n = x :: l) :
    ∃ t, exec (.pegDqRead n) s = .next t ∧ t.out = [.word (queueWord (x :: l) (vget s.pcie.dqLost n))] ∧
      vget t.pcie.dq n = l ∧ vget t.pcie.dqLost n = false ∧ s.RegsBut t [Reg.PEG_DSTAT n] ∧
      t.bit (Fd.PEG_DSTAT_PENDING n) = !l.isEmpty := by
  have hf : s.clean.dqOut n = s.clean.wordOut (s.clean.popDq n) := rfl
  have hdq : vget (vmod s.pcie.dq n List.tail) n = l := by rw [vget_vmod_self _ _ n.isLt, h]; rfl
  rw [popDq_cons (s := s.clean) h] at hf
  refine ⟨_, runClk_of_runs hst _, ?out, ?dq, ?lost, after_regsBut hs _ ?regs, ?pending⟩
  case out => rw [after_out, hf]; rfl
  case dq => rw [after_pcie, hf]; exact hdq
  case lost => rw [after_pcie, hf]; exact vget_vmod_self _ _ n.isLt
  case regs => rw [hf]; exact fun a ha => reg_put_ne _ (Fd.PEG_DSTAT_PENDING n) _ a (by simpa using ha)
  case pending =>
    rw [after_bit _ _ _ (pegDstat_pending_within n), hf]
    refine (put_get_bit _ _ _ (pegDstat_pending_within n).1 rfl).trans ?_
    exact congrArg (fun q => !List.isEmpty q) hdq

end Pops

/-! ### Raised vectors (R218, R219) -/

section Raise

variable {s t u : State} {n : Nat}

/-- From `s` to `t`, vectors of function `n` have been sent or have become pending: none has been lost, and those that may be sent are the same. -/
structure State.Messages (s t : State) (n : Nat) : Prop where
  shape : ∃ f o, t = { s with pcie := { s.pcie with fns := f }, out := o }
  opens : ∀ v, t.msixOpen n v = s.msixOpen n v
  sent : ∀ o ∈ s.out, o ∈ t.out
  pends : ∀ v, (vget s.pcie.fns n).pend.getLsbD v = true → (vget t.pcie.fns n).pend.getLsbD v = true

/-- In `t`, vector `v` of function `n`, which fired where it stood as in `s`, has been sent or is pending (R218). -/
def State.Fired (s t : State) (n v : Nat) : Prop :=
  if s.msixOpen n v then Out.msix n v ∈ t.out else (vget t.pcie.fns n).pend.getLsbD v = true

theorem messages_refl (s : State) (n : Nat) : s.Messages s n := ⟨⟨_, _, rfl⟩, fun _ => rfl, fun _ h => h, fun _ h => h⟩

theorem messages_trans (h : s.Messages t n) (k : t.Messages u n) : s.Messages u n := by
  refine ⟨?_, fun v => (k.opens v).trans (h.opens v), fun o ho => k.sent o (h.sent o ho), fun v hv => k.pends v (h.pends v hv)⟩
  obtain ⟨_, _, rfl⟩ := h.shape
  obtain ⟨_, _, rfl⟩ := k.shape
  exact ⟨_, _, rfl⟩

theorem fired_later {v : Nat} (h : s.Fired t n v) (k : t.Messages u n) : s.Fired u n v := by
  unfold State.Fired at h ⊢
  by_cases ho : s.msixOpen n v = true
  · rw [if_pos ho] at h ⊢
    exact k.sent _ h
  · rw [if_neg ho] at h ⊢
    exact k.pends _ h

theorem fired_earlier {v : Nat} (h : s.Messages t n) (k : t.Fired u n v) : s.Fired u n v := by
  rwa [State.Fired, h.opens v] at k

theorem msix_fires (s : State) {v : Nat} (hn : n < 9) (hv : v < 64) : s.Messages (s.msix n v) n ∧ s.Fired (s.msix n v) n v := by
  by_cases ho : s.msixOpen n v = true
  · have e : s.msix n v = s.emit (.msix n v) := by rw [State.msix, if_pos ho]
    rw [e, State.Fired, if_pos ho]
    exact ⟨⟨⟨s.pcie.fns, _, rfl⟩, fun _ => rfl, fun _ h => List.mem_append_left _ h, fun _ h => h⟩,
      List.mem_append_right _ (List.mem_singleton_self _)⟩
  · have e : s.msix n v = s.modFn n fun f => { f with pend := f.pend ||| (1#64 <<< v) } := by rw [State.msix, if_neg ho]
    have hfn : vget (s.msix n v).pcie.fns n = { vget s.pcie.fns n with pend := (vget s.pcie.fns n).pend ||| (1#64 <<< v) } := by
      rw [e]
      exact vget_vmod_self _ _ hn
    refine ⟨⟨msix_shape s n v, fun k => ?_, fun o h => ?_, fun k h => ?_⟩, ?_⟩
    · simp only [State.msixOpen, State.fnOn, hfn]
      rw [e]
      rfl
    · rw [e]
      exact h
    · rw [hfn, BitVec.getLsbD_or, h, Bool.true_or]
    · rw [State.Fired, if_neg ho, hfn]
      simp [hv]

/-- Vectors raised one after another. -/
theorem raise_fires (s : State) (hn : n < 9) (w : Word) (l : List Nat) (hl : ∀ i ∈ l, i < 32) :
    let t := s.each l fun s i => if w.getLsbD i then s.msix n (32 + i) else s
    s.Messages t n ∧ ∀ i ∈ l, w.getLsbD i = true → s.Fired t n (32 + i) := by
  induction l generalizing s with
  | nil => exact ⟨messages_refl s n, fun i hi => absurd hi (List.not_mem_nil)⟩
  | cons j l ih =>
    have hj : j < 32 := hl j List.mem_cons_self
    have hfire := msix_fires s (v := 32 + j) hn (by omega)
    have hfirst : s.Messages (if w.getLsbD j then s.msix n (32 + j) else s) n := by
      split
      · exact hfire.1
      · exact messages_refl s n
    obtain ⟨hrest, hfired⟩ := ih (if w.getLsbD j then s.msix n (32 + j) else s) fun i hi => hl i (List.mem_cons_of_mem j hi)
    refine ⟨messages_trans hfirst hrest, fun i hi hw => ?_⟩
    rcases List.mem_cons.1 hi with rfl | hi
    · refine fired_later ?_ hrest
      rw [if_pos hw]
      exact hfire.2
    · exact fired_earlier hfirst (hfired i hi hw)

theorem pciRaise_fires {n : Fin 8} {w : Word} (hs : s.Sealed) (hst : s.stands = false) :
    ∃ t, exec (.pciRaise n w) s = .next t ∧ t.regs = s.regs ∧ t.mbx = s.mbx ∧ s.MemKept t ∧
      ∀ i, i < 32 → w.getLsbD i = true → s.Fired t n (32 + i) := by
  obtain ⟨hmsg, hfired⟩ := raise_fires s.clean (n := n) (by omega) w (List.range 32) fun i hi => List.mem_range.1 hi
  obtain ⟨f, o, e⟩ := hmsg.shape
  have hraise : s.clean.raise n w = { s with pcie := { s.pcie with fns := f }, out := o } := e
  have hafter : s.after (fun s => s.raise n w) = { s with pcie := { s.pcie with fns := f }, out := o } := by
    rw [after_eq (by rw [hraise]; exact hs), hraise]
  refine ⟨_, runClk_of_runs hst _, ?_⟩
  rw [hafter]
  refine ⟨rfl, rfl, ⟨rfl, rfl, rfl, rfl, rfl⟩, fun i hi hw => ?_⟩
  have hi := hfired i (List.mem_range.2 hi) hw
  rw [e] at hi
  exact hi

end Raise

/-! ### The obligation -/

section Settled

variable {s : State} {n : Fin 8} {w : Word} {host : Bool}

/-- A host request behind window accesses of its function waits (R229). -/
theorem hostPegRequest_behind (hs : s.Sealed) (hst : s.stands = false) (hon : s.fnOn n = true) (hb : s.hostBehind n = true) :
    ∃ t, exec (.hostPegRequest n w) s = .next t ∧
      t = { s with out := [], pcie := { s.pcie with asks := s.pcie.asks ++ [{ fn := n, op := .bar2Write 0x2400 w }] } } := by
  have hb' : s.clean.hostBehind n = true := hb
  have hf : s.clean.hostWrite n 0x2400 w = s.clean.pushAsk { fn := n, op := .bar2Write 0x2400 w } := by rw [State.hostWrite, if_pos hb']
  refine ⟨_, exec_hostPegRequest hst hon, ?_⟩
  rw [after_eq (by rw [hf]; exact hs), hf]
  rfl

/-- A host request waits for a device-side one of its cycle for its peg (R228; log entry 49). -/
theorem hostPegRequest_held (hs : s.Sealed) (hst : s.stands = false) (hon : s.fnOn n = true) (hb : s.hostBehind n = false)
    (hd : s.deviceAsks n (w.toNat % 4096) = true) : ∃ t, exec (.hostPegRequest n w) s = .next t ∧
      t = { s with out := [], pcie := { s.pcie with pegHeld := s.pcie.pegHeld ++ [(n.val, w)] } } := by
  have hd' : s.clean.deviceAsks n (w.toNat % 4096) = true := hd
  have hf : s.clean.hostWrite n 0x2400 w = { s.clean with pcie := { s.pcie with pegHeld := s.pcie.pegHeld ++ [(n.val, w)] } } := by
    rw [hostWrite_peg (s := s.clean) hb, State.pegHost, if_pos hd']
    rfl
  refine ⟨_, exec_hostPegRequest hst hon, ?_⟩
  rw [after_eq (by rw [hf]; exact hs), hf]
  rfl

theorem deviceAsks_of_pending {d : Word} (hst : s.stands = false) (hp : s.pending = [.devicePegRequest n d])
    (h : d.toNat % 4096 = w.toNat % 4096) : s.deviceAsks n (w.toNat % 4096) = true := by
  simp [State.deviceAsks, hst, hp, asksPeg, h]

/-- A device-side request behind accesses of the bay's cores is held (R226, R229). -/
theorem devicePegRequest_held (hs : s.Sealed) (hst : s.stands = false) (ha : s.earlier (s.bayCores n) ≠ []) :
    ∃ t, exec (.devicePegRequest n w) s = .next t ∧
      t = { s with out := [], bxm := { s.bxm with held := s.bxm.held ++ [(s.earlier (s.bayCores n), s.pegReq n w)] } } := by
  have ha' : ¬((s.clean.earlier (s.clean.bayCores n)).isEmpty = true) := by rwa [List.isEmpty_iff]
  have hf : s.clean.deviceRequest n w =
      s.clean.modBxm fun b => { b with held := b.held ++ [(s.clean.earlier (s.clean.bayCores n), s.clean.pegReq n w)] } := by
    rw [deviceRequest_pegReq, State.requestAfter, if_neg ha']
  refine ⟨_, exec_devicePegRequest hst, ?_⟩
  rw [after_eq (by rw [hf]; exact hs), hf]
  rfl

end Settled

/-- Settles O25: a request that nothing goes before is `State.pegRequest` on the state as the command finds it, whichever side makes it
(`State.Serves`); what that leaves follows the transition table of R226. -/
theorem pegsAndRaise : Obligations.PegsAndRaise := by
  intro s n p tg host w hs hst
  refine ⟨fun hon hb => hostPegRequest_behind hs hst hon hb,
    fun d hon hb hp h => hostPegRequest_held hs hst hon hb (deviceAsks_of_pending hst hp h), ?_⟩
  intro ahead q free req word cur mine others push popped Ignores
  have serves : ∀ x, free x → s.Serves (req x) n host x := by
    intro x hx
    cases host
    case false => exact serves_devicePegRequest hst hx.1 hx.2.1 hx.2.2
    case true => exact serves_hostPegRequest hst hx.1 hx.2.1 hx.2.2.1
  have admits : ∀ x, free x → ¬(host = true ∧ s.bayState n = bEMPTY ∧ s.ready rMBX = false) := by
    rintro x hx ⟨rfl, hempty, hmbx⟩
    exact absurd (hx.2.2.2 hempty) (by simp [hmbx])
  refine ⟨fun h => devicePegRequest_held hs hst h, ?early, ?take, ?same, ?fault, ?ignored, ?malformed,
    fun x l hon hb hq => pegHqRead_cons hs hst hon hb hq, fun x l hq => pegDqRead_cons hs hst hq,
    fun hon hb hq => pegHqRead_nil hs hst hon hb hq, pciRaise_fires hs hst⟩
  case early =>
    rintro rfl hon hb hd hempty hmbx
    exact ignores_of_serves hs (serves_hostPegRequest hst hon hb hd) fun b => pegRequest_discard (.inr ⟨rfl, hempty, hmbx⟩)
  case take =>
    intro hx hf hne hcur
    exact take_of_serves hs (serves _ hx) fun b => pegRequest_take (s := s.served b) (admits _ hx) (pegAct_take hf hne hcur)
  case same =>
    intro hx htg hcur
    exact same_of_serves hs (serves _ hx) fun b => pegRequest_same (s := s.served b) (admits _ hx) (htg ▸ pegAct_same hcur)
  case fault =>
    intro hx hcur h
    exact fault_of_serves hs (serves _ hx) fun b => pegRequest_fault (s := s.served b) (admits _ hx) (pegAct_fault hcur h)
  case ignored =>
    intro hx hcur
    exact ignores_of_serves hs (serves _ hx) fun b => pegRequest_ignore (s := s.served b) (admits _ hx) (pegAct_ignore hcur)
  case malformed =>
    intro hx h
    exact ignores_of_serves hs (serves _ hx) fun b => pegRequest_discard (.inl h)

end PegsAndRaise
end Sys2Proof.Machine
end
